-- ==== Sys2Proof/Word.lean ====
section
/-! DEFINITION. The word types of the EVN9264 (R3): registers are 32 bits wide, memory is addressed by octet. -/

namespace Sys2Proof

/-- A 32-bit register or word (R4). -/
abbrev Word := BitVec 32

/-- One octet. -/
abbrev Byte := BitVec 8

/-- A 64-bit quantity: DTIME in nanoseconds, an EUI-64. -/
abbrev U64 := BitVec 64

/-- The 48-bit tick number TICKNO. -/
abbrev TickNo := BitVec 48

/-- The 40-bit absolute slot number ASN. -/
abbrev Asn := BitVec 40

end Sys2Proof
end

