-- ==== Sys2Proof/Machine/Types/Base.lean ====
section
/-! DEFINITION. The types every block shares: statuses (Table 20-8), device states (Table 01-4), command descriptors,
completions (R424), event records (R406), the outputs of the block, and the memory die's cells. -/

namespace Sys2Proof.Machine

/-- The 24 shared status codes of Table 20-8, in ascending code order (R7, R429). -/
inductive Status where
  | ok | late | state | length | noRoom | stale | conflict | aborted | keyRevoked | keyAttr | authFail | replay
  | dup | parapet | alarm | switchover | noAck | qReset | slowUnit | busyLock | checkFail | timeout | unsupported
  | integrity
  deriving DecidableEq, Repr, Inhabited

/-- SYS_STATE, in the order of Table 01-4. -/
inductive SysState where
  | reset | boot | structured | active | standby | maintenance | alarm | fault
  deriving DecidableEq, Repr, Inhabited

/-- Record severities of Table 19-1. -/
inductive Sev where
  | trace | info | notice | warning | error | critical | alarm | audit
  deriving DecidableEq, Repr, Inhabited

/-- A 32-byte command or transmit descriptor, as eight little-endian words (R69, R419). -/
structure Desc where
  w0 : Word := 0
  w1 : Word := 0
  w2 : Word := 0
  w3 : Word := 0
  w4 : Word := 0
  w5 : Word := 0
  w6 : Word := 0
  w7 : Word := 0
  deriving DecidableEq, Repr, Inhabited

/-- KIND of a completion (Table 20-2). -/
inductive CplKind where
  | command | transmit | outcome
  deriving DecidableEq, Repr, Inhabited

/-- A completion: bytes 0 to 3 but for PHASE, and bytes 4 to 15 as three words (R424). -/
structure Completion where
  tag : BitVec 16
  status : Status
  kind : CplKind := .command
  ring : BitVec 3 := 0
  b4 : Word := 0
  b8 : Word := 0
  b12 : Word := 0
  /-- Count of the descriptor answered, in its submit ring (R400). -/
  count : Nat := 0
  deriving DecidableEq, Repr, Inhabited

/-- A record of the event recorder (Table 19-1). `off` is its place in the general ring and `occ` the bytes it
occupies there, the skipped bytes after it included (R404). -/
structure Rec where
  seq : Word
  dtime : U64
  sev : Sev
  source : BitVec 7
  status : BitVec 6
  event : Byte
  payload : List Word
  off : Nat := 0
  occ : Nat := 0
  deriving DecidableEq, Repr, Inhabited

/-- What the block sends out (the model's own field: the outside world is not part of State). -/
inductive Output where
  /-- A DMA write to host memory. -/
  | hostWrite (addr : Nat) (data : List Byte)
  /-- An MSI-X message on a vector. -/
  | msix (vector : Nat)
  /-- An Ethernet frame leaving a port, without FCS. -/
  | ethFrame (port : Nat) (bytes : List Byte)
  /-- A heartbeat body leaving on the HB link (R390). -/
  | hbLink (body : List Byte)
  /-- A frame leaving a transmit chain: chain, channel, DTIME of the first preamble symbol, PSDU. -/
  | rfFrame (chain : Nat) (channel : Nat) (start : U64) (psdu : List Byte)
  /-- A rising edge on PPS_OUT with its width in milliseconds. -/
  | ppsOut (dtime : U64) (widthMs : Nat)
  deriving DecidableEq, Repr, Inhabited

/-- The result of a DMA read from host memory: the data, or an error (R421). -/
inductive Dma (α : Type) where
  | ok (data : α)
  | error
  deriving DecidableEq, Repr, Inhabited

/-- What a SUPPLY_GLITCH reports (R443): a glitch, or a rail above its high threshold for longer and its end. -/
inductive SupplyEvent where
  | glitch | high | highEnd
  deriving DecidableEq, Repr, Inhabited

/-- Where a register write or read comes from: host software over BAR0, or control-core firmware. -/
inductive Issuer where
  | host | firmware
  deriving DecidableEq, Repr, Inhabited

end Sys2Proof.Machine
end

