-- ==== Sys2Proof/Machine/Types/Time.lean ====
section
/-! DEFINITION. The state of the time base (The Tick and Device Time). -/

namespace Sys2Proof.Machine

/-- TIME_ROLE of the truss (R37). -/
inductive TimeRole where
  | free | root | child
  deriving DecidableEq, Repr, Inhabited

/-- The selected time source, in the encoding order of TIME_SRC.SELECTED. -/
inductive TimeSource where
  | none | pps | ptp | beacons
  deriving DecidableEq, Repr, Inhabited

/-- The time base: DTIME, TICKNO, the time sources, the lock and the holdover (R25 to R49). -/
structure TimeSt where
  /-- DTIME, nanoseconds (R25). -/
  dtime : U64 := 0
  /-- Nanoseconds of elapsed time, which a step of DTIME does not move (R174). -/
  elapsed : Nat := 0
  /-- TICKNO (R26). -/
  tickno : TickNo := 0
  /-- The next tick edge falls at the present DTIME: entry to STRUCTURED, or a step onto a whole tick (R25, R42). -/
  edgeDue : Bool := false
  /-- Presence of each source (Table 02-3). -/
  ppsOk : Bool := false
  ptpOk : Bool := false
  beaconOk : Bool := false
  /-- A source has been acquired since entry to STRUCTURED or MAINTENANCE (R42). -/
  acquired : Bool := false
  /-- The selected source (R38). -/
  selected : TimeSource := .none
  /-- Phase error of the selected source at the last measurement, in ns (TIME_PHASE_ERR). -/
  phaseErr : Int := 0
  /-- PTP has been acquired beside PPS_IN since that entry, and has given the whole seconds. -/
  ptpAcquired : Bool := false
  /-- Elapsed time in ns at the last accepted edge of PPS_IN, and at the last accepted Sync, with the interval between the
  last two (Table 02-3). -/
  lastPps : Nat := 0
  lastSync : Nat := 0
  syncEvery : Nat := 0
  /-- DTIME of the last accepted measurement, when there is one and no step has followed it (R43). -/
  lastMeasure : Option U64 := none
  /-- Rate correction in force, in 10^-12 (TIME_FREQ_ADJ), of which the slew part is limited by TIME_SLEW_MAX. -/
  freqAdj : Int := 0
  /-- Consecutive ticks with the phase error within ±1 µs, up to 16 (R41). -/
  lockRun : Nat := 0
  /-- TIME_SRC.LOCKED. -/
  locked : Bool := false
  /-- DTIME at entry to the holdover in progress (R44, R45). -/
  holdover : Option U64 := none
  /-- TIME_HOLD.CAPPED. -/
  capped : Bool := false
  /-- EXTRA_GUARD that stays until the tick edge after HOLDOVER clears, in 10⁻¹¹ µs (R45). -/
  extraGuard : Nat := 0
  /-- A CHILD is searching for its parent's beacon (R40), and the elapsed time in ns at which the running 60 s span began. -/
  searching : Option Nat := none
  /-- PPS_IN edges rejected (R38). -/
  ppsRejected : Nat := 0
  /-- Parent beacons missed in a row (Table 02-3, R197). -/
  beaconMisses : Nat := 0
  deriving DecidableEq, Repr, Inhabited

end Sys2Proof.Machine
end

