-- ==== Sys2Proof/Machine/Types/Truss.lean ====
section
/-! DEFINITION. The truss: its sections and the parameters they carry (Tables 03-1 to 03-4). -/

namespace Sys2Proof.Machine

/-- A BANDS record with the band's ISOLATION parameters (Table 03-4). -/
structure BandCfg where
  present : Bool := false
  windowCentre : Nat := 0
  raster : Nat := 0
  firstChannel : Nat := 0
  channelCount : Nat := 0
  phy : Nat := 0
  modIndex : Nat := 0
  symbolRate : Nat := 0
  preambleLen : Nat := 0
  maxPsdu : Nat := 0
  maxPower : Int := 0
  chainSplit : Nat := 0
  iso : Nat := 0
  lwtExcl : Nat := 0
  deriving DecidableEq, Repr, Inhabited

/-- A slot template (Table 03-4). -/
structure SlotTemplate where
  band : Nat := 0
  txOffset : Nat := 0
  txAckGap : Nat := 0
  ackPsduMax : Nat := 0
  txSlip : Nat := 0
  ccaOffset : Nat := 0
  ccaLen : Nat := 0
  deriving DecidableEq, Repr, Inhabited

/-- A record of the cluster base table (Table 03-4). -/
structure Cluster where
  panId : Nat := 0
  base : Nat := 0
  nodes : Nat := 0
  band : Nat := 0
  sfFamily : Nat := 0
  deriving DecidableEq, Repr, Inhabited

/-- A range of the QUEUES section (Table 03-4). -/
structure QueueRange where
  first : Nat := 0
  last : Nat := 0
  type : Nat := 0
  depth : Nat := 0
  deriving DecidableEq, Repr, Inhabited

/-- A memory-die partition: base and size in bytes (Table 01-10). -/
structure Partition where
  base : Nat := 0
  size : Nat := 0
  deriving DecidableEq, Repr, Inhabited

/-- The parameters of a truss (Table 03-4). -/
structure TrussParams where
  tickPeriod : Nat := 0
  kA : Nat := 0
  kB : Nat := 0
  timeRole : Nat := 0
  ptpPort : Nat := 0
  slewMax : Nat := 0
  holdoverPpm : Nat := 0
  holdoverGuardMax : Nat := 0
  parentBr : Nat := 0
  bandA : BandCfg := {}
  bandB : BandCfg := {}
  piersA : Nat := 0
  piersB : Nat := 0
  twin : Nat := 0
  templates : List SlotTemplate := []
  clusters : List Cluster := []
  hopA : List Nat := []
  hopB : List Nat := []
  fcLeap : Nat := 0
  learnHold : Nat := 0
  captureMargin : Nat := 0
  seenAge : Nat := 0
  floodTtl : Nat := 0
  reasmTimeout : Nat := 0
  lpmPrefixes : Nat := 0
  emSeed0 : Word := 0
  emSeed1 : Word := 0
  learnEn : Nat := 0
  queueRanges : List QueueRange := []
  policers : Nat := 0
  kcDevice : Nat := 0
  kcDomain : Nat := 0
  kcNode : Nat := 0
  kcHost : Nat := 0
  contexts : Partition := {}
  deckOverflow : Partition := {}
  staging : Partition := {}
  logExt : Partition := {}
  fwRuntime : Partition := {}
  hostWindow : Partition := {}
  checkOwners : List Nat := []
  exportQueue : Nat := 0
  gpioFn : List Nat := []
  i2c0Speed : Nat := 0
  i2c1Speed : Nat := 0
  femFn : List Nat := []
  calFull : Bool := false
  calBudget : Nat := 0
  starveTicks : Nat := 0
  deriving DecidableEq, Repr, Inhabited

/-- A section of a truss as stored: its TYPE, its SERIAL and all its bytes, header and signature included (Table 03-2). -/
structure Section where
  type : Nat
  serial : Word
  raw : List Byte
  deriving DecidableEq, Repr, Inhabited

/-- A whole truss: its header bytes, its sections and what they say. -/
structure Truss where
  header : List Byte := []
  sections : List Section := []
  trussId : Word := 0
  domainId : BitVec 16 := 0
  brId : BitVec 6 := 0
  length : Nat := 0
  digest : List Byte := []
  params : TrussParams := {}
  deriving DecidableEq, Repr, Inhabited

/-- Why a truss is refused (Table 03-5), in the order of the REASON codes 0x01 to 0x0E. -/
inductive Reason where
  | header | size | key | signature | section_ | type | range | window | cluster | capacity | memmap | template
  | digest | parapet
  deriving DecidableEq, Repr, Inhabited

/-- A refusal: the reason, the TYPE of the failing section (0 for the header) and the offset of the failing field. -/
structure Refused where
  reason : Reason
  section_ : Nat
  offset : Nat
  deriving DecidableEq, Repr, Inhabited

/-- Where the truss in force came from, in the order of TRUSS_STATUS.SOURCE. -/
inductive TrussSource where
  | none | bankA | bankB | window
  deriving DecidableEq, Repr, Inhabited

/-- The truss loader's state: what is in force and the reload in progress (R60). -/
structure TrussSt where
  loaded : Bool := false
  source : TrussSource := .none
  truss : Truss := {}
  /-- LAST_STATUS of TRUSS_STATUS. -/
  lastStatus : Status := .ok
  /-- A TRUSS_RELOAD in progress: its descriptor, its source and the bytes copied into the key domain. -/
  reload : Option (Desc × TrussSource × List Byte) := none
  /-- A reload has ended: the state held before MAINTENANCE is resumed at the next tick edge. -/
  resume : Bool := false
  deriving DecidableEq, Repr, Inhabited

end Sys2Proof.Machine
end

