-- ==== Sys2Proof/Machine/Types/Blocks.lean ====
section
/-! DEFINITION. The state of the key block, the cipher block, the cell scheduler and the queues. A list of pairs with a
Nat first component is a sparse map in canonical form: keys strictly rising, no entry equal to the map's default. -/

namespace Sys2Proof.Machine

/-- The mark of a staged change (R78, Table 11-2). -/
inductive Mark where
  | plain | pendingAdd | pendingDelete
  deriving DecidableEq, Repr, Inhabited

/-- A key-cache slot (R291, R304). A level-2 key has no parent (ROOT). -/
structure KeySlot where
  valid : Bool := false
  key : List Byte := []
  attr : Byte := 0
  gen : Byte := 0
  parent : Option Nat := none
  parentGen : Byte := 0
  owner : Option Nat := none
  /-- The span whose pending item made this slot's content (R78). -/
  pendingOf : Option Nat := none
  /-- Order of the last use, for the eviction of R302. -/
  lastUse : Nat := 0
  invalSeen : Bool := false
  invalGen : Byte := 0
  deriving DecidableEq, Repr, Inhabited

/-- The life-cycle states of Table 13-7. -/
inductive LifeCycle where
  | blank | provisioned | deployed | returned | scrapped
  deriving DecidableEq, Repr, Inhabited

/-- An entry of the life-cycle log in fuses: its target and whether its burn read back complete (R309). -/
structure LcEntry where
  target : LifeCycle
  complete : Bool
  deriving DecidableEq, Repr, Inhabited

/-- The key block: fuses, key cache, alarm latch and always-on retention store (Keys and Life Cycle). -/
structure KeySt where
  /-- The keystone fuses, 32 octets (R287). -/
  keystone : List Byte := []
  /-- The part UID fuses. -/
  uid : U64 := 0
  /-- The OEM key hash fuses, burned with the change to PROVISIONED (Table 13-8). -/
  oemHash : List Byte := []
  /-- The life-cycle log, at most 16 entries (R309). -/
  lcLog : List LcEntry := []
  /-- A life-cycle burn in progress: the command and its target (R308). -/
  lcBurn : Option (Desc × LifeCycle × List Byte) := none
  /-- Status of the last KEY_LC_SET. -/
  lcStatus : Status := .ok
  slots : List (Nat × KeySlot) := []
  /-- The attestation scalar held in the P-256 unit (R289), 32 octets, when derived. -/
  attestKey : Option (List Byte) := none
  /-- Keystone latched unusable (R311, R312). -/
  latch : Bool := false
  /-- The sticky alarm flag of the always-on domain. -/
  sticky : Bool := false
  /-- Latched causes, TAMPER0 in bit 0. -/
  causes : BitVec 5 := 0
  /-- Present alarm levels, same order. -/
  live : BitVec 5 := 0
  /-- The always-on retention store (R313). -/
  retention : List (Nat × KeySlot) := []
  /-- Source of the order of use of slots. -/
  useCount : Nat := 0
  deriving DecidableEq, Repr, Inhabited

/-- The job classes of Table 14-1, firmware jobs split by their two sources. -/
inductive JobClass where
  | mac | host | fwSec | fwCore
  deriving DecidableEq, Repr, Inhabited

/-- Whose job it is: what continues when the job ends. -/
inductive JobOwner where
  /-- CIP_SUBMIT, with its command. -/
  | host (cmd : Desc)
  /-- The check of a received frame, named by its frame number (R203 to R208). -/
  | rxCheck (frame : Nat)
  /-- The protection of a transmission's frame, named by its claim number. -/
  | txProtect (claim : Nat)
  /-- An ATTEST signature. -/
  | attest
  /-- Other firmware work. -/
  | firmware
  deriving DecidableEq, Repr, Inhabited

/-- The modes of Table 14-3, and the operations that are not modes of the descriptor. -/
inductive CipMode where
  | ccmProtect | ccmCheck | gcmSeal | gcmOpen | ctrEnc | ctrDec | cmacGen | cmacVerify | sha256 | p256Verify
  | p256Sign
  deriving DecidableEq, Repr, Inhabited

/-- A cipher job (R317 to R324). -/
structure CipJob where
  id : Nat
  cls : JobClass
  owner : JobOwner
  mode : CipMode
  slot : Nat := 0
  /-- The ENC_ONLY slot of an acknowledgement protected in the same job (R212). -/
  ackSlot : Option Nat := none
  aad : List Byte := []
  input : List Byte := []
  nonce : List Byte := []
  tagLen : Nat := 0
  tag : List Byte := []
  outOfs : Nat := 0
  tagOfs : Nat := 0
  /-- The due instant in DTIME ns, when there is one. -/
  due : Option Nat := none
  /-- When it was queued, in elapsed ns. -/
  arrived : Nat := 0
  /-- B of Table 14-3, summed over the job's operations. -/
  blocks : Nat := 0
  /-- Queued again under R327. -/
  again : Bool := false
  /-- The job has completed already: what its run gives is discarded (R319). -/
  void : Bool := false
  deriving DecidableEq, Repr, Inhabited

/-- A run of a job on a unit: the job, its dispatch in elapsed ns and the keys read then (R316, R326). -/
structure CipRun where
  job : CipJob
  start : Nat
  key : List Byte := []
  ackKey : List Byte := []
  deriving DecidableEq, Repr, Inhabited

/-- STATE of CIP_CORE(i). -/
inductive UnitState where
  | inService | slow | selfTest
  deriving DecidableEq, Repr, Inhabited

/-- A unit: cores 0 to 7, SHA-256 (8) and P-256 (9). -/
structure CipUnit where
  state : UnitState := .inService
  run : Option CipRun := none
  /-- A self-test pending or running, with its command (R329). -/
  test : Option Desc := none
  deriving DecidableEq, Repr, Inhabited

/-- The cipher block: units, queue in order of arrival, and the job numbering. -/
structure CipSt where
  units : List CipUnit := List.replicate 10 {}
  queue : List CipJob := []
  nextId : Nat := 0
  deriving DecidableEq, Repr, Inhabited

/-- A cell record (Table 09-2). -/
structure Cell where
  slotOffset : Nat := 0
  chOffset : Nat := 0
  options : Byte := 0
  template : Nat := 0
  peer : Word := 0
  queue : BitVec 16 := 0
  rxGuard : Nat := 0
  /-- The reserved halfword at 0x06. -/
  rsv : BitVec 16 := 0
  deriving DecidableEq, Repr, Inhabited

/-- A gate list with its start ASN (Table 09-1, R180). -/
structure GateList where
  sfLen : Nat := 0
  family : Nat := 0
  cells : List Cell := []
  start : Nat := 0
  deriving DecidableEq, Repr, Inhabited

/-- The cell scheduler: the lists of each slotframe, keyed 256 × band + handle, newest first: a list governs from its
start until the next one's (R180, R86). -/
structure SchSt where
  frames : List (Nat × List GateList) := []
  /-- Cells made inactive at the last CLUSTERS or SLOT_TEMPLATES commit (R186). -/
  inactive : Nat := 0
  /-- The tick at whose edge the slot of each band was last resolved, or found late (R32, R33). -/
  doneA : Option Nat := none
  doneB : Option Nat := none
  deriving DecidableEq, Repr, Inhabited

/-- Reception metadata kept beside a buffer: words 1 to 5 of Table 05-5, with BAND and PIER of word 0 in place, and the
status of the frame. -/
structure RxMeta where
  status : Status := .ok
  w0 : Word := 0
  w1 : Word := 0
  w2 : Word := 0
  w3 : Word := 0
  w4 : Word := 0
  w5 : Word := 0
  deriving DecidableEq, Repr, Inhabited

/-- What a queued downlink frame belongs to: the transmit descriptor (by its number in the MAC), if any, and which of
its frames this is. -/
structure QOwner where
  desc : Nat
  index : Nat
  deriving DecidableEq, Repr, Inhabited

/-- A queue item with its buffer's contents (Table 12-4). -/
structure QItem where
  gap : Bool := false
  sop : Bool := true
  eop : Bool := true
  overrun : Bool := false
  replay : Bool := false
  seq : BitVec 16 := 0
  /-- LEN, or COUNT of a gap marker. -/
  len : Nat := 0
  addr : Word := 0
  aux : Word := 0
  bytes : List Byte := []
  rx : RxMeta := {}
  owner : Option QOwner := none
  enqTick : TickNo := 0
  /-- Taken by its consumer and not yet freed. -/
  taken : Bool := false
  /-- The cell scheduler has selected it for a first attempt (R281). -/
  tried : Bool := false
  deriving DecidableEq, Repr, Inhabited

/-- Queue types of QUE_INFO.TYPE. -/
inductive QType where
  | disabled | data | control | rewind
  deriving DecidableEq, Repr, Inhabited

/-- A queue: settings, positions, items and marks (R266 to R281). `read` and `mark` count items from RELEASE. -/
structure Queue where
  type : QType := .disabled
  depthLog2 : Nat := 0
  consumer : Nat := 0
  ring : Nat := 0
  qflags : Byte := 0
  quota : Nat := 0
  ovfQuota : Nat := 0
  items : List QItem := []
  next : BitVec 16 := 0
  /-- Rewind queues: items read since RELEASE, and MARK as a count from RELEASE. -/
  read : Nat := 0
  mark : Nat := 0
  /-- Rewind queues: items below this count have been read before (REPLAY). -/
  readMax : Nat := 0
  dropping : Bool := false
  /-- The last item taken lacked EOP: there is a current packet (R277). -/
  inPacket : Bool := false
  /-- The item of the last QUE_POP_W0 read, as four words. -/
  popWords : List Word := []
  /-- A pop consumer holds the head item (R274). -/
  popHeld : Bool := false
  /-- The duplicate pointers disagree (R276): the next access resets the queue. -/
  pointersBad : Bool := false
  /-- A reset in progress until the next tick edge: items dropped since, with the SEQ of the first. -/
  resetDrops : Option (BitVec 16 × Nat) := none
  lastFirst : BitVec 16 := 0
  lastLast : BitVec 16 := 0
  hwmDepth : Nat := 0
  hwmSoj : Nat := 0
  gaps : Nat := 0
  /-- A QUEUE_SET has put QUOTA or OVF_QUOTA below the use then, which has not yet fallen below it (R268). -/
  overChip : Bool := false
  overOvf : Bool := false
  deriving DecidableEq, Repr, Inhabited

/-- The queues in use and the HIF's round-robin position per ring and type (R274). -/
structure QueSt where
  queues : List (Nat × Queue) := []
  /-- Frames whose item a queue reset has discarded, and whether the cell scheduler had taken it: their descriptors
  are still to complete QRESET (R276). -/
  orphans : List (QOwner × Bool) := []
  lastServed : List (Nat × Nat) := []
  deriving DecidableEq, Repr, Inhabited

/-- A policer: its parameters in force and its buckets in 10^-6 byte at `at_`, in elapsed ns (R282). -/
structure Policer where
  cir : Word := 0xFFFFFFFF
  cbs : Word := 0
  pir : Word := 0xFFFFFFFF
  pbs : Word := 0
  tc : Nat := 0
  tp : Nat := 0
  at_ : Nat := 0
  hwmDepth : Nat := 0
  hwmSoj : Nat := 0
  deriving DecidableEq, Repr, Inhabited

/-- The tollgate: policers that are not at their default, and the airtime shaper's level per band in 10^-6 µs (R285). -/
structure TolSt where
  policers : List (Nat × Policer) := []
  levelA : Int := 0
  levelB : Int := 0
  at_ : U64 := 0
  deriving DecidableEq, Repr, Inhabited

end Sys2Proof.Machine
end

