-- ==== Sys2Proof/Machine/Types/Tables.lean ====
section
/-! DEFINITION. The node context (Table 01-8), the tables of the table engine and the spans. -/

namespace Sys2Proof.Machine

/-- A node context line (Table 01-8). The fields stand in the order of the table; LINE_CRC is held as stored. -/
structure Ctx where
  eui64 : U64 := 0
  valid : Bool := false
  sleepy : Bool := false
  altValid : Bool := false
  blocked : Bool := false
  bandPref : BitVec 2 := 0
  cluster : BitVec 8 := 0
  nidx : BitVec 18 := 0
  shortAddr : BitVec 16 := 0
  panId : BitVec 16 := 0
  rxFc : Word := 0
  txFc : Word := 0
  micTag : U64 := 0
  ackSeq : BitVec 8 := 0
  ackFlags : BitVec 4 := 0
  ackTc : BitVec 12 := 0
  cfo : BitVec 24 := 0
  link : Word := 0
  altLink : Word := 0
  driftClass : BitVec 8 := 0
  resyncTick : TickNo := 0
  baseGuard : BitVec 16 := 0
  keyGen : BitVec 8 := 0
  decSlot : BitVec 12 := 0
  encSlot : BitVec 12 := 0
  queue : BitVec 10 := 0
  policer : BitVec 12 := 0
  sfHandle : BitVec 8 := 0
  cellRef : BitVec 16 := 0
  hopCount : BitVec 4 := 0
  /-- Eight hops of three bytes each, as stored. -/
  route : List (BitVec 24) := List.replicate 8 0
  rxFrames : BitVec 16 := 0
  txFrames : BitVec 16 := 0
  dupCount : BitVec 16 := 0
  replayCount : BitVec 16 := 0
  noackCount : BitVec 16 := 0
  lateCount : BitVec 16 := 0
  lastHeard : U64 := 0
  lineCrc : Word := 0
  deriving DecidableEq, Repr, Inhabited

/-- A stored context line: its contents, and whether the device has found it failing (R21). -/
structure CtxLine where
  ctx : Ctx := {}
  found : Bool := false
  deriving DecidableEq, Repr, Inhabited

/-- An exact-match entry (Table 11-2). -/
structure EmEntry where
  eui : U64 := 0
  ver : BitVec 16 := 0
  span : BitVec 4 := 0
  mark : Mark := .plain
  learned : Bool := false
  static : Bool := false
  lband : Bool := false
  lpier : BitVec 6 := 0
  nidx : BitVec 18 := 0
  deriving DecidableEq, Repr, Inhabited

/-- An LPM entry (Table 11-4). -/
structure LpmEntry where
  pfx : BitVec 128 := 0
  len : Nat := 0
  mark : Mark := .plain
  span : BitVec 4 := 0
  ver : BitVec 16 := 0
  result : Word := 0
  deriving DecidableEq, Repr, Inhabited

/-- A seen-cache entry (Table 11-6). -/
structure SeenEntry where
  seed : U64 := 0
  seq : BitVec 16 := 0
  mark : Mark := .plain
  span : BitVec 4 := 0
  expiry : Word := 0
  deriving DecidableEq, Repr, Inhabited

/-- An insertion waiting for a lock or a migration (R262, R244). -/
structure WaitInsert where
  /-- 0 exact-match, 2 seen-cache. -/
  table : Nat
  /-- The region waited for, or none for a wait on the migration. -/
  region : Option Nat
  eui : U64 := 0
  nidx : BitVec 18 := 0
  band : Bool := false
  pier : BitVec 6 := 0
  seq : BitVec 16 := 0
  age : Nat := 0
  deriving DecidableEq, Repr, Inhabited

/-- A synthesiser calibration entry (Table 07-1). -/
structure CalEntry where
  channel : Nat := 0
  host : Bool := false
  valid : Bool := false
  vcoBand : Nat := 0
  capCode : Nat := 0
  loopGain : Nat := 0
  tpmGain : Nat := 0
  temp : Int := 0
  tick : Word := 0
  deriving DecidableEq, Repr, Inhabited

/-- What the staging of an item has put beside the state in force. -/
inductive Staged where
  | none
  | gateList (l : GateList)
  | cell (c : Cell)
  | section_ (s : Section) (p : TrussParams)
  | key (slot : Nat)
  | rehash (em : List (Nat × EmEntry)) (seed0 seed1 : Word)
  | policer (p : Policer)
  | queue (quota ovf ring : Nat) (qflags : Byte)
  | calEntry (e : CalEntry)
  deriving DecidableEq, Repr, Inhabited

/-- A span item (Table 04-3), the versions it recorded (R80) and its conflict, once marked: the cause of Table 04-6
and the other span. -/
structure SpanItem where
  kind : Nat
  flags : Byte
  target : Word
  payload : List Byte
  staged : Staged
  /-- Octets of the copies it holds against the 16 MiB of R73. -/
  copyBytes : Nat := 0
  parent : Option Nat := none
  /-- VER of the target and of PARENT recorded at staging (R80). -/
  ver : Nat := 0
  parentVer : Nat := 0
  conflict : Option (Nat × Nat) := none
  deriving DecidableEq, Repr, Inhabited

/-- Span states (Table 04-1). -/
inductive SpanState where
  | open_ | staging | armed | committed | aborted
  deriving DecidableEq, Repr, Inhabited

/-- A span (R67 to R89). -/
structure Span where
  state : SpanState := .aborted
  clean : Bool := true
  vis : Bool := false
  resultOffset : Nat := 0
  openTag : BitVec 16 := 0
  /-- The SPAN_ARM command whose completion is owed. -/
  armCmd : Option Desc := none
  target : TickNo := 0
  alignForward : Bool := false
  items : List SpanItem := []
  /-- Decided to commit in the current window, visibility bit not yet set (R82). -/
  decided : Bool := false
  /-- Gate-list starts decided at commit, by item index (R86). -/
  starts : List (Nat × Nat) := []
  lastStatus : Status := .aborted
  lastFirstBad : BitVec 16 := 0xFFFF
  deriving DecidableEq, Repr, Inhabited

/-- A learn hold: its key, the TICKNO it opened in, and its frames by number (R256). -/
structure Hold where
  eui : U64
  openTick : TickNo
  frames : List Nat
  deriving DecidableEq, Repr, Inhabited

/-- The rehash migration under way: the image's entries not yet moved and the seeds it started from (R244). -/
structure Migration where
  image : List (Nat × EmEntry)
  oldSeed0 : Word
  oldSeed1 : Word
  /-- TRUSS_RELOAD and SYS commands that wait for its end (R245). -/
  deferred : List Desc := []
  deriving DecidableEq, Repr, Inhabited

/-- The table engine. Exact-match entries are keyed by bucket × 4 + slot, overflow entries by 327,680 + index. LPM and
seen-cache entries are keyed by bucket × 4 + slot. -/
structure TblSt where
  em : List (Nat × EmEntry) := []
  lpm : List (Nat × LpmEntry) := []
  /-- The length filter (R248): the masks that are not 0, by the first 12 bits of an address. -/
  filter : List (Nat × BitVec 129) := []
  seen : List (Nat × SeenEntry) := []
  seed0 : Word := 0
  seed1 : Word := 0
  migration : Option Migration := none
  waits : List WaitInsert := []
  holds : List Hold := []
  /-- TICKNO at which each locked region (64 × table + region) was locked (R264). -/
  lockedAt : List (Nat × TickNo) := []
  /-- Second of DTIME of the last R257 record, and records written in it. -/
  ethSecond : Nat := 0
  ethCount : Nat := 0
  /-- A slot of the exact-match table has become free since the last tick edge (R240). -/
  drainDue : Bool := false
  deriving DecidableEq, Repr, Inhabited

/-- An outcome decided and not yet written (R87): where its results go, the tag or SPAN_ARM command of its completion,
the span status, each item's status and DETAIL, and the tick it was decided in. -/
structure SpanOutcome where
  span : Nat
  resultOffset : Nat
  tag : BitVec 16
  armCmd : Option Desc
  status : Status
  results : List (Status × Nat)
  tick : TickNo
  deriving DecidableEq, Repr, Inhabited

/-- A change that R82 holds between the decision of a span on its target and edge + 20 µs. -/
inductive HeldChange where
  /-- A learning insert or update, or an insertion into the seen-cache. -/
  | insert (w : WaitInsert)
  /-- The ageing out of a seen-cache key. -/
  | ageOut (seed : U64) (seq : BitVec 16)
  /-- A TBL_WRITE command. -/
  | write (d : Desc)
  deriving DecidableEq, Repr, Inhabited

/-- The span controller: the 16 spans, the outcomes to write and the version of each object that has changed (R80). -/
structure SpanSt where
  spans : List Span := List.replicate 16 {}
  outcomes : List SpanOutcome := []
  versions : List (Nat × Nat) := []
  /-- Changes held between a decision and edge + 20 µs (R82), in the order they came. -/
  held : List HeldChange := []
  deriving DecidableEq, Repr, Inhabited

end Sys2Proof.Machine
end

