-- ==== Sys2Proof/Machine/Types/Host.lean ====
section
/-! DEFINITION. The state of system control, the event recorder and the host interface. -/

namespace Sys2Proof.Machine

/-- System control: the device state, the state held before MAINTENANCE and the interlock pins (Table 01-5). -/
structure SysSt where
  state : SysState := .reset
  /-- The state held before MAINTENANCE. -/
  held : SysState := .structured
  /-- MAINTENANCE was entered while the chip served: frames then in the MAC are still delivered. -/
  served : Bool := false
  /-- Level of ILK_IN: active. -/
  ilkIn : Bool := false
  /-- ILK_OUT held (R383, R385). -/
  ilkOut : Bool := false
  /-- SYS_SERVE commands accepted and waiting for their tick edge, each with whether its role is ACTIVE (R428). -/
  serve : List (Desc × Bool) := []
  /-- TICKNO of the tick in which an alarm last arose, and of the tick in which FAULT was entered (R16). -/
  alarmTick : Option TickNo := none
  faultTick : Option TickNo := none
  deriving DecidableEq, Repr, Inhabited

/-- The event recorder (R404 to R415). EVR_DROP(s), EVR_CTRL and CLEARS are registers. -/
structure EvrSt where
  running : Bool := false
  general : List Rec := []
  reserved : List Rec := []
  /-- SEQ of the next record. -/
  next : Word := 0
  /-- SEQ of the newest record (EVR_NEWEST). -/
  newest : Word := 0
  /-- Ring offset of the next record of the general area. -/
  wr : Nat := 0
  /-- Octets of the log extension that have joined the ring. -/
  ext : Nat := 0
  rsvFull : Bool := false
  auditGap : Bool := false
  deriving DecidableEq, Repr, Inhabited

/-- The host interface. Ring settings and counts, interrupt settings and counters are registers. -/
structure HifSt where
  /-- Commands started and not completed, oldest first (R425). -/
  started : List Desc := []
  /-- Completions waiting to be written, oldest first (R422). -/
  held : List Completion := []
  /-- Per vector: events since its last message and the elapsed time of the first of them (R430). -/
  vectors : List (Nat × (Nat × Nat)) := []
  /-- Transmit rings whose next descriptor had the wrong PHASE, with the reads made so far (R421). -/
  rereads : List (Nat × Nat) := []
  /-- Level of PE_PERST_N: low. -/
  perst : Bool := false
  deriving DecidableEq, Repr, Inhabited

/-- An Ethernet frame waiting to leave a port: its bytes, the ETH_SEND command it answers, and how many items of the
port's egress queues leave before it (R434). -/
structure EthOut where
  bytes : List Byte
  cmd : Option Desc := none
  ahead : Nat := 0
  deriving DecidableEq, Repr, Inhabited

/-- One Ethernet port. -/
structure EthPort where
  link : Bool := false
  speed : Nat := 0
  out : List EthOut := []
  /-- Transmission stopped by a PAUSE (R431). -/
  paused : Bool := false
  deriving DecidableEq, Repr, Inhabited

end Sys2Proof.Machine
end

