-- ==== Sys2Proof/Machine/Types/Boot.lean ====
section
/-! DEFINITION. The state of boot, attestation and the field update (Boot, Measurement and Attestation; Field Update Along
the Viaduct). -/

namespace Sys2Proof.Machine

/-- BOOT_STATUS.STAGE. -/
inductive BootStage where
  | rom | loader | training | bankCheck | done | recovery
  deriving DecidableEq, Repr, Inhabited

/-- An attestation request in the queue of R358: its nonce, and its command, or the port and MAC address of its
requester (R359). -/
structure AttReq where
  nonce : List Byte
  cmd : Option Desc := none
  port : Nat := 0
  mac : List Byte := []
  deriving DecidableEq, Repr, Inhabited

/-- Boot and attestation. BOOT_BANK_FAIL, BOOT_TIME and BOOT_ATTEST_CNT are registers. -/
structure BootSt where
  stage : BootStage := .rom
  /-- Loader copy running, 0 or 1. -/
  loader : Nat := 0
  /-- Running bank, 0 A or 1 B. -/
  bank : Nat := 0
  /-- VERSION of the running loader and of the running firmware. -/
  loaderVer : Word := 0
  fwVer : Word := 0
  /-- MR0 to MR7, 32 octets each (R352). -/
  mr : List (List Byte) := List.replicate 8 (List.replicate 32 0)
  /-- Records held until the recorder starts: severity, source, status, EVENT, payload (R353, R350, R379). -/
  held : List (Sev × Nat × Option Status × Nat × List Word) := []
  /-- Attestation requests waiting, oldest first; the head's signature is running when `report` holds its snapshot. -/
  attest : List AttReq := []
  report : Option (List Byte) := none
  deriving DecidableEq, Repr, Inhabited

/-- UPD_STATUS.SESSION. -/
inductive Session where
  | idle | receiving | building | forwarding | verifying | built | failed
  deriving DecidableEq, Repr, Inhabited

/-- An entry of a viaduct chain (Table 17-4). -/
structure HopEntry where
  mac : List Byte
  brId : Nat
  flags : Nat
  deriving DecidableEq, Repr, Inhabited

/-- What a hop is doing with its downstream neighbour: nothing, waiting for the answer to an OFFER, or feeding it. -/
inductive Down where
  | none | offered | feeding
  deriving DecidableEq, Repr, Inhabited

/-- The settings of a session, as they stood when it started (R382). -/
structure UpdCfg where
  port : Nat := 0
  rq : Nat := 0
  wrapSlot : Nat := 0
  hopTimeout : Nat := 0
  retx : Nat := 0
  deriving DecidableEq, Repr, Inhabited

/-- The field update: the session, the downstream feed, the activation and the trial. -/
structure UpdSt where
  session : Session := .idle
  lastStatus : Status := .ok
  /-- The UPD_START command whose outcome is owed. -/
  cmd : Option Desc := none
  /-- The session was started by UPD_START. -/
  head : Bool := false
  headMac : List Byte := []
  imageId : Word := 0
  cfg : UpdCfg := {}
  mb : Nat := 0
  total : Nat := 0
  /-- The manifest has been assembled and verified (R367). -/
  manifestOk : Bool := false
  /-- NEXT: the length of the verified prefix. -/
  next : Nat := 0
  /-- Elapsed time at the last verified block, for R370. -/
  lastBlock : Nat := 0
  /-- MAC address of the upstream hop. -/
  upMac : List Byte := []
  /-- The chain entries downstream, the neighbour first, and how many entries the chain had in the OFFER taken, the
  hop's own first, or in UPD_START. -/
  chain : List HopEntry := []
  chainAt : Nat := 0
  /-- The first 0x140 octets of the verified manifest. -/
  man : List Byte := []
  down : Down := .none
  nextDown : Nat := 0
  /-- The next block to place in the rewind queue. -/
  sendNext : Nat := 0
  /-- Blocks sent to the neighbour at least once: the highest index and one more. -/
  sentTo : Nat := 0
  /-- Elapsed time at the OFFER, or at the last advance of NEXT_down; and at the last rewind or advance. -/
  downSince : Nat := 0
  retxAt : Nat := 0
  /-- The build has ended OK. -/
  buildDone : Bool := false
  /-- The staged copy of a BUILT image: octets of its firmware. -/
  builtFw : Nat := 0
  builtTruss : Nat := 0
  /-- An activation in progress: its command (R376). -/
  activation : Option Desc := none
  /-- The activation's truss has been loaded; service resumes at the next tick edge. -/
  resumeDue : Bool := false
  /-- A trial in progress: ns of it remaining at `trialAt` (R378). -/
  trial : Option Nat := none
  trialAt : Nat := 0
  /-- A bank to write through the resident loader and the staging base, kept across the warm reset (R380). -/
  resident : Option (Nat × Nat) := none
  defaulted : Bool := false
  deriving DecidableEq, Repr, Inhabited

end Sys2Proof.Machine
end

