-- ==== Sys2Proof/Machine/Types/Radio.lean ====
section
/-! DEFINITION. The state of the piers, the MAC and the transmit chains. A received frame is carried as its octets and as
the fields IEEE 802.15.4 and RFC 4944/6282 give them (DESIGN CHOICE, log 6: those standards are not restated here). -/

namespace Sys2Proof.Machine

/-- Pier states (Table 05-4). -/
inductive PierState where
  | off | idle | search | sync | header | payload | drain | blanked
  deriving DecidableEq, Repr, Inhabited

/-- The digital AGC of a pier (R99): it runs in SEARCH and stays frozen from a detection to the end of the reception. -/
inductive Agc where
  | stopped | running | frozen
  deriving DecidableEq, Repr, Inhabited

/-- What the AGC does in each state (R99, Table 05-4): the end of a blanking unfreezes it. -/
def PierState.agc (x : PierState) : Agc :=
  match x with
  | .off | .idle => .stopped
  | .search => .running
  | .sync | .header | .payload | .drain | .blanked => .frozen

/-- The receive window of a channel group (R194), in ns of DTIME. -/
structure Window where
  channel : Nat := 0
  openAt : Nat := 0
  closeAt : Nat := 0
  /-- Template and slot start of the slot it was resolved for: the slot keeps the template it began with (R31, R65). -/
  tmpl : SlotTemplate := {}
  slotStart : Nat := 0
  /-- It serves a parent beacon receive cell (R197), or the acquisition search of R40. -/
  parent : Bool := false
  search : Bool := false
  /-- A standby's window for a beacon of the active chip, or for its transmit cells (R396, R397). -/
  beacon : Bool := false
  txCell : Bool := false
  /-- The beacon it was opened for has been heard in it. -/
  heard : Bool := false
  /-- The receive cells and acknowledgement waits it serves, by their openings and closings: a wait with its claim. -/
  parts : List (Option Nat × Nat × Nat) := []
  deriving DecidableEq, Repr, Inhabited

/-- Claims whose acknowledgement waits a window serves. -/
def Window.waits (w : Window) : List Nat := w.parts.filterMap Prod.fst

/-- A window runs from the earliest opening of its parts to their latest closing (R194). -/
def Window.span (w : Window) : Window :=
  match w.parts with
  | [] => w
  | a :: r => { w with openAt := r.foldl (fun m x => min m x.2.1) a.2.1, closeAt := r.foldl (fun m x => max m x.2.2) a.2.2 }

/-- The wait of a claim moves by the slip of its transmission (R189). -/
def Window.slip (w : Window) (id sl : Nat) : Window :=
  Window.span { w with parts := w.parts.map fun (x : Option Nat × Nat × Nat) => if x.1 = some id then (x.1, x.2.1 + sl, x.2.2 + sl) else x }

/-- One pier (R97 to R115). Powers are in 0.25 dB, CFO in Hz, instants in ns of DTIME. -/
structure Pier where
  state : PierState := .off
  /-- The AGC on its channel stream (R99). -/
  agc : Agc := .stopped
  band : Nat := 0
  channel : Nat := 0
  connected : Bool := false
  partner : Option Nat := none
  window : Option Window := none
  windowOpen : Bool := false
  power : Int := 0
  cfo : Int := 0
  /-- Instant at which the preamble began, as the correlator places it (R101). -/
  timing : Nat := 0
  /-- Instant of the detection or adoption, and the SFD deadline (R103). -/
  sfdBy : Nat := 0
  /-- SFD timestamp, 0 before it. -/
  sfd : Nat := 0
  /-- End of the PSDU, once the PHR has been decoded. -/
  ends : Option Nat := none
  len : Nat := 0
  fcs4 : Bool := false
  /-- The PHR's data-whitening bit (R98). -/
  whitened : Bool := false
  clipped : Bool := false
  ms : Bool := false
  /-- It has searched since the last tick edge: it has measured its channel's noise floor (R114). -/
  searched : Bool := false
  /-- The time of an octet in ns, of the band's PHY or of the mode switched to (R105). -/
  octetNs : Nat := 0
  ackClaim : Option Nat := none
  /-- The acknowledgement waits in which the reception's preamble was heard (R189, R221). -/
  waits : List Nat := []
  lastPower : Int := 0
  lastCfo : Int := 0
  floor : Int := 0
  deriving DecidableEq, Repr, Inhabited

/-- An IEEE 802.15.4 address: absent, short or extended. -/
inductive MacAddr where
  | absent
  | short (a : BitVec 16)
  | ext (a : U64)
  deriving DecidableEq, Repr, Inhabited

/-- Frame types of Table 10-1. -/
inductive FrameType where
  | data | command | beacon | ack | other
  deriving DecidableEq, Repr, Inhabited

/-- A received MAC frame as its octets parse. -/
structure AirFrame where
  type : FrameType := .other
  version : Nat := 0
  ar : Bool := false
  seq : Option (BitVec 8) := none
  dstPan : Option (BitVec 16) := none
  srcPan : Option (BitVec 16) := none
  dst : MacAddr := .absent
  src : MacAddr := .absent
  level : Nat := 0
  keyMode : Nat := 0
  keyIndex : Byte := 0
  fc : Word := 0
  /-- The MAC header, the authenticated data of R204. -/
  header : List Byte := []
  /-- The ciphered payload and the MIC. -/
  payload : List Byte := []
  mic : List Byte := []
  /-- An enhanced beacon: its ASN, and TsTxOffset in µs of its TSCH Timeslot IE. -/
  asn : Nat := 0
  txOffset : Nat := 0
  deriving DecidableEq, Repr, Inhabited

/-- Where a received frame stands. -/
inductive RxStage where
  /-- Handed over by its pier, before stage 3, or waiting under R12. -/
  | arrived
  /-- Its cipher job is queued or running. -/
  | checking
  /-- Passed (or found DUP); it waits for the decision of R110. -/
  | passed
  /-- Its acknowledgement is claimed, or on the air. -/
  | acking
  /-- Delivered or dropped but for its place in a learn hold. -/
  | done
  deriving DecidableEq, Repr, Inhabited

/-- A received frame in the MAC. -/
structure RxFrame where
  id : Nat
  band : Nat := 0
  channel : Nat := 0
  pier : Nat := 0
  sfd : Nat := 0
  ends : Nat := 0
  power : Int := 0
  cfo : Int := 0
  clipped : Bool := false
  twin : Bool := false
  ms : Bool := false
  fcs4 : Bool := false
  tmpl : SlotTemplate := {}
  slotStart : Nat := 0
  parent : Bool := false
  /-- It was heard in the acquisition search of R40, or in a standby's transmit-cell or beacon window (R396). -/
  search : Bool := false
  overheard : Bool := false
  waits : List Nat := []
  /-- The MPDU without its FCS. -/
  mpdu : List Byte := []
  air : AirFrame := {}
  stage : RxStage := .arrived
  node : Option Nat := none
  /-- Slots of the check and of the acknowledgement, and the generation they are of (R203). -/
  decSlot : Nat := 0
  encSlot : Nat := 0
  gen : Byte := 0
  owes : Bool := false
  ackClaim : Option Nat := none
  /-- The attempt at its acknowledgement has ended (R129, R138, R139): none is sent, for no want of a chain. -/
  mute : Bool := false
  /-- Stage 3 has passed: the frame stands in its node's order (R12). -/
  known : Bool := false
  dup : Bool := false
  /-- The fate of its acknowledgement is known, and it is in a learn hold: it is delivered when the first holds and
  the second does not. -/
  settled : Bool := false
  inHold : Bool := false
  /-- DTIME at which the check completed, once it has. -/
  checkedAt : Option Nat := none
  late : Bool := false
  acked : Bool := false
  noack : Bool := false
  capture : Bool := false
  alt : Bool := false
  secured : Bool := false
  /-- The deciphered payload. -/
  plain : List Byte := []
  /-- The protected acknowledgement, its sequence number, flags and time correction (R206, R209). -/
  ackPsdu : List Byte := []
  ackSeq : BitVec 8 := 0
  ackFlags : BitVec 4 := 0
  ackTc : BitVec 12 := 0
  deriving DecidableEq, Repr, Inhabited

/-- A datagram in reassembly (R229): its key, the tick of its first fragment, and its pieces with the frames that
brought them. -/
structure Reasm where
  src : MacAddr
  dst : MacAddr
  /-- The PAN the frames carry and the node they come from: short addresses repeat from cluster to cluster. -/
  pan : Option (BitVec 16) := none
  node : Option Nat := none
  /-- The IPHC contexts in force when it started (R233). -/
  ctxs : List (List Byte × Nat) := []
  size : Nat
  tag : Nat
  firstTick : Nat
  parts : List (Nat × List Byte)
  frames : List RxFrame
  deriving DecidableEq, Repr, Inhabited

/-- FORM of a transmit descriptor (Table 10-4). -/
inductive TxForm where
  | datagram | payload | flood
  deriving DecidableEq, Repr, Inhabited

/-- A transmit descriptor in the MAC, or a relayed flood (R216 to R224, R230, R231). -/
structure TxDesc where
  num : Nat
  /-- Its ring and TAG; none for a relay. -/
  ring : Option Nat := none
  tag : BitVec 16 := 0
  form : TxForm := .datagram
  level : Nat := 0
  retries : Nat := 0
  power : Option Int := none
  noAr : Bool := false
  node : Nat := 0
  peer : Nat := 0
  queue : Nat := 0
  /-- MAC payloads of its frames, and the index of the frame at work. -/
  frags : List (List Byte) := []
  at_ : Nat := 0
  /-- Retry-consuming attempts of the frame at work, attempts sent over all frames, and frames done. -/
  tries : Nat := 0
  attempts : Nat := 0
  done : Nat := 0
  fetchTick : Nat := 0
  lifetime : Nat := 0
  lastTick : Nat := 0
  link : Nat := 0
  last : Option Status := none
  /-- The frame at work has been charged to its policer, and since which tick it has been held. -/
  charged : Bool := false
  heldSince : Option Nat := none
  held : Bool := false
  /-- Floods: rewind queue, repetitions still to start, and frames of the repetition still to be sent. -/
  rq : Nat := 0
  reps : Nat := 0
  left : Nat := 0
  /-- Count of the descriptor in its submit ring (R399). -/
  count : Nat := 0
  /-- Octets of the MPDU but for the MAC payload: header and MIC, for the airtime of its frames. -/
  overhead : Nat := 0
  /-- FRAGS so far: frames done OK. -/
  noNode : Bool := false
  blocked : Bool := false
  deriving DecidableEq, Repr, Inhabited

/-- What a claim transmits. -/
inductive ClaimKind where
  | cell (desc : Nat)
  | beacon (cluster : Nat) (handle : Nat)
  | ack (frame : Option Nat)
  deriving DecidableEq, Repr, Inhabited

/-- How far a claim has come (Table 06-3). -/
inductive ClaimStage where
  | claimed | tuned | decided | on | ramped
  deriving DecidableEq, Repr, Inhabited

/-- A claim on a chain (R122 to R131). Instants are ns of DTIME; ramp, lead, lag and tail are µs. -/
structure Claim where
  id : Nat
  chain : Nat
  band : Nat
  channel : Nat
  kind : ClaimKind
  rank : Nat
  t0 : Nat
  slip : Nat := 0
  /-- PSDU octets it was claimed for. -/
  len : Nat := 0
  ramp : Nat := 0
  femLead : Nat := 0
  femLag : Nat := 0
  tail : Nat := 0
  stage : ClaimStage := .claimed
  /-- The protected PSDU, once its job is complete, or why it cannot be sent. -/
  psdu : Option (List Byte) := none
  fail : Option Status := none
  seq : BitVec 8 := 0
  level : Nat := 0
  arq : Bool := false
  /-- Lock confirmed at this DTIME. -/
  lock : Option Nat := none
  slipped : Nat := 0
  /-- Power at the ball, as it stands at the tune instant, and the coexistence settings that govern it (R121, R140): EN,
  PRI_RANK and REQ_LEAD in µs. -/
  power : Int := 0
  coex : Bool := false
  priRank : Nat := 0
  reqLead : Nat := 0
  req : Bool := false
  /-- CAL_BLOCK read 1 at its tune instant, or has since taken its chain: it waits for lock (R133). -/
  blocked : Bool := false
  /-- What the decision instant sampled, while a decision that R179 puts first is still to be made: the level of GNT and
  the energy on the channel. -/
  ask : Option (Bool × List (Nat × Int)) := none
  /-- Airtime charged at the decision (R172), with the end of its checked run. -/
  charged : Nat := 0
  runEnd : Nat := 0
  /-- Airtime to be refunded at the end of its ramp-down (R172). -/
  refund : Nat := 0
  /-- End of the ramp-down, or the decision instant of a refused attempt. -/
  downAt : Nat := 0
  /-- Where its slot began, its tick and its slot template. -/
  slotStart : Nat := 0
  slotTick : TickNo := 0
  tmpl : SlotTemplate := {}
  /-- Half-width of its acknowledgement wait, in µs, when one was opened for it. -/
  wait : Bool := false
  /-- The attempt has ended: only its FEM lines and blanking are still to return. -/
  ended : Bool := false
  /-- Which frame of its descriptor it sends. -/
  item : Nat := 0
  /-- f_tx of its tune (R125). -/
  fTx : Nat := 0
  /-- Its ramp-down ends, or has ended, as a transmission sent whole (TX_DONE). -/
  sent : Bool := false
  /-- Power (0.25 dB) and deviation (0.1 %) of its preamble if it is cut off, while the observation receiver's are still to
  be acted on (R160); TX_END brings those of a whole transmission. -/
  seen : Option (Int × Int) := none
  /-- Instants of the start and the end of its emission, once known. -/
  upAt : Nat := 0
  /-- Blanking and FEM lines are held for it. -/
  blanking : Bool := false
  fem : Bool := false
  deriving DecidableEq, Repr, Inhabited

/-- An acknowledgement wait of a transmission that has been sent (R189, R220). -/
structure AckWait where
  claim : Nat
  desc : Nat
  peer : Nat
  seq : BitVec 8
  level : Nat
  band : Nat
  channel : Nat
  openAt : Nat
  closeAt : Nat
  /-- Its interval has ended while a frame heard in it is still judged. -/
  closed : Bool := false
  deriving DecidableEq, Repr, Inhabited

/-- A window for a parent beacon (R197), or for a beacon of the active chip (R397), that has closed unheard. -/
structure BeaconWatch where
  band : Nat
  channel : Nat
  slotStart : Nat
  parent : Bool
  deriving DecidableEq, Repr, Inhabited

/-- The synthesiser of a chain: its frequency word, in steps of 40 MHz / 2^25 (R126). -/
structure Synth where
  word : Nat := 0
  deriving DecidableEq, Repr, Inhabited

/-- The radio and the MAC. Counters, RXF_GAIN and the TXC read-backs are registers. -/
structure RfSt where
  piers : List Pier := List.replicate 64 {}
  frames : List RxFrame := []
  nextFrame : Nat := 0
  reasm : List Reasm := []
  descs : List TxDesc := []
  nextDesc : Nat := 0
  claims : List Claim := []
  nextClaim : Nat := 0
  waits : List AckWait := []
  /-- Tick edges in a row with PEAK below UP_THR, per band (R91). -/
  upRunA : Nat := 0
  upRunB : Nat := 0
  /-- A write of RXF_GAIN.REQ under HR_HOLD still to be applied, per band (R95). -/
  reqA : Bool := false
  reqB : Bool := false
  /-- The synthesisers of TX0 to TX3. -/
  synths : List Synth := List.replicate 4 {}
  /-- Acknowledgements granted, by band, channel and start of the slot (R110). -/
  acks : List (Nat × Nat × Nat) := []
  /-- Sequence number of the next frame built (the manual does not number them). -/
  dsn : BitVec 8 := 0
  /-- Second of DTIME of the last REPLAY record, and records written in it (R207). -/
  replaySecond : Nat := 0
  replayCount : Nat := 0
  /-- Beacon windows that have closed unheard while a reception on their channel is still judged. -/
  watches : List BeaconWatch := []
  /-- A takeover has happened: outgoing counters jump by FC_LEAP on first use (R398). Counters that have jumped since:
  contexts by NIDX, beacons 2^18 + band, broadcasts 2^18 + 2. -/
  leap : Bool := false
  leapt : List Nat := []
  deriving DecidableEq, Repr, Inhabited

end Sys2Proof.Machine
end

