-- ==== Sys2Proof/Machine/Types/Events.lean ====
section
/-! DEFINITION. What the events of the opcode table bring from the outside world: what the hardware samples, measures and
receives. -/

namespace Sys2Proof.Machine

/-- What a front-end's estimators give at a tick edge: gain and phase imbalance (0.001 dB, 0.01°), DC means (1/16 ADC
LSB) and image rejection (dB). -/
structure IqEstimate where
  gain : Int := 0
  phase : Int := 0
  dcI : Int := 0
  dcQ : Int := 0
  image : Nat := 0
  deriving DecidableEq, Repr, Inhabited

/-- What the tick edge samples from the outside world: PEAK and MEAN of the tick that ended in 0.25 dBFS and the estimates
of each front-end, the temperature of each chain in 0.25 °C, the noise floors the piers measured in 0.25 dB, and the queues
whose pointer copies an upset has made disagree. -/
structure TickSample where
  peakA : Int := 0
  meanA : Int := 0
  peakB : Int := 0
  meanB : Int := 0
  iqA : IqEstimate := {}
  iqB : IqEstimate := {}
  temps : List Int := []
  floors : List (Nat × Int) := []
  upsets : List Nat := []
  deriving DecidableEq, Repr, Inhabited

/-- What a correlator reports: the normalised correlation in 1/256, the power in 0.25 dB, the coarse CFO in Hz and the
instant of the preamble's first symbol (R100, R101). -/
structure Preamble where
  corr : Nat
  power : Int
  cfo : Int
  start : Nat
  deriving DecidableEq, Repr, Inhabited

/-- A PHR as its standard lays it out (R98, R104, R105): its reserved bits, data whitening, FCS type 2 octets, length, and
for a mode switch whether its BCH and parity check, and the mode it names. -/
structure Phr where
  reserved : Bool := false
  whitened : Bool := false
  fcs2 : Bool := false
  len : Nat := 0
  ms : Bool := false
  msOk : Bool := false
  fec : Bool := false
  phy : Nat := 0
  modIndex : Nat := 0
  symbolRate : Nat := 0
  deriving DecidableEq, Repr, Inhabited

/-- What the observation receiver finds of a transmission (R160): the error of its carrier in Hz during the ramp-up, and, for
one cut off after its preamble, the power (0.25 dB) and the deviation (0.1 %) of the preamble; a TX_END brings its own. -/
structure Observed where
  carrier : Int := 0
  power : Int := 0
  dev : Int := 0
  deriving DecidableEq, Repr, Inhabited

/-- What a WORK_ITEM_LATE names. -/
inductive LateItem where
  /-- A cipher job, by its number. -/
  | job (id : Nat)
  /-- The resolution of the cells of a band's slot (Table 02-2 index 1). -/
  | resolution (band : Nat)
  deriving DecidableEq, Repr

end Sys2Proof.Machine
end

