-- ==== Sys2Proof/Syntax.lean ====
section
/-! DEFINITION. The commands of the EVN9264: one constructor per row of the opcode table, in its order, with its operands.
`d` is a command descriptor, `t` the DTIME at which an event happens in nanoseconds. -/

namespace Sys2Proof

open Sys2Proof.Machine (Desc Dma Issuer SupplyEvent TickSample LateItem Preamble Phr AirFrame HopEntry Observed)

/-- A command: a row of the opcode table with its operands. -/
inductive Instr where
  /-- COLD_RESET (R442): a supply ramp, or RESET_N low for 10 µs. The link is down at once, so nothing is completed.
  -/
  | coldReset (ramp : Bool)
  /-- RESET_RELEASE (R347, R25): BOOT is entered and the ROM runs. `fuseOk` says whether the fuse sense succeeds. -/
  | resetRelease (fuseOk : Bool)
  /-- WARM_RESET: a write of SYS_CTRL. -/
  | warmReset (v : Word)
  /-- WATCHDOG_EXPIRY. -/
  | watchdogExpiry (t : U64)
  /-- BROWN_OUT (R443): a cold reset with the retention store marked empty; in RESET the monitor does not watch. -/
  | brownOut
  /-- SUPPLY_GLITCH (R443): the monitor watches from BOOT on. -/
  | supplyGlitch (t : U64) (e : SupplyEvent)
  /-- TAMPER (R310): tamper input `n` has been high for 10 µs, or is low again. -/
  | tamper (t : U64) (n : Nat) (active : Bool)
  /-- CLOCK_LOSS (R310): REFCLK_IN has been absent for 2 µs, or runs again. In RESET only its level is noted:
  REFCLK_IN need not run before RESET_N rises (R441). -/
  | clockLoss (t : U64) (active : Bool)
  /-- OVER_TEMPERATURE (R310): the junction rises above 135 °C, or falls below 125 °C. -/
  | overTemperature (t : U64) (active : Bool)
  /-- UNCORRECTABLE_ERROR (Table 01-5): in BOOT it is none of the ROM and loader failures the table lists. -/
  | uncorrectableError (t : U64) (blk cause : Nat)
  /-- AON_RESET (R443): VBAT_AON is lost with the main rails off. -/
  | aonReset
  /-- PE_PERST (R418): PE_PERST_N goes low or high. -/
  | pePerst (low : Bool)
  /-- LOADER_BOOT (R349): `trained` says whether the memory die trains, `tests` the self-tests of the ten units. -/
  | loaderBoot (t : U64) (trained : Bool) (tests : List Bool)
  /-- CALIBRATION_SWEEP (R146): in STRUCTURED and MAINTENANCE a sweep job runs from edge + 100 µs to 10 µs before the
  next edge, over EMPTY entries in ascending index. -/
  | calibrationSweep (t : U64)
  /-- TICK_EDGE (R26): the next tick edge, with what it samples. -/
  | tickEdge (x : TickSample)
  /-- WORK_ITEM_LATE (R33, R35, R36): a work item is not complete at its due instant. -/
  | workItemLate (t : U64) (x : LateItem)
  /-- CLIPPING_STEP (R93, R94): 12 dB down at once; receptions of the band are flagged. -/
  | clippingStep (t : U64) (b : Nat)
  /-- COMMIT_WINDOW_CLOSE (R82, R83): at edge + 20 µs the decided spans take effect together, and the learning inserts
  held meanwhile are applied to the new state. -/
  | commitWindowClose (t : U64)
  /-- SPAN_OUTCOME: write the results and the completion of span `n`'s outcome (R87, Tables 04-6 and 04-7). -/
  | spanOutcome (n : Nat)
  /-- SPAN_CLEANUP: cleanup of span `n` (R88). -/
  | spanCleanup (n : Nat)
  /-- CELL_RESOLUTION (R192 to R196). -/
  | cellResolution (t : U64) (b : Nat)
  /-- CAL_JOB_PLACEMENT (R151): at edge + 100 µs, in ACTIVE and STANDBY (Table 07-4). -/
  | calJobPlacement (t : U64)
  /-- CAL_JOB_COMPLETE (R152, R148): the job of a chain reaches its end. -/
  | calJobComplete (t : U64) (c : Nat)
  /-- MANDATORY_RECALIBRATION (R145): one EXPIRED entry, largest Δ first. -/
  | mandatoryRecalibration (t : U64) (c : Nat)
  /-- COMPACT_CALIBRATION (R148). -/
  | compactCalibration (t : U64) (c : Nat)
  /-- CAL_SYNTH (R149). -/
  | calSynth (d : Desc)
  /-- CROWD_WINDOW_END (R156, R157). -/
  | crowdWindowEnd (t : U64)
  /-- PPS_EDGE (R38): a rising edge of PPS_IN at DTIME `t`; `adj` is the rate the servo then asks for. -/
  | ppsEdge (t : U64) (adj : Int)
  /-- PPS_LOSS (R38). -/
  | ppsLoss (t : U64)
  /-- PTP_MESSAGE (R435): a PTP frame of a domain on port `p`. A Sync message that the servo accepts gives the
  master's time minus DTIME and the rate the servo then asks for. -/
  | ptpMessage (t : U64) (p domain : Nat) (sync : Option (Int × Int))
  /-- PTP_LOSS (R44, Table 02-3). -/
  | ptpLoss (t : U64)
  /-- ACQUISITION_SEARCH_TIMEOUT (R40): 60 s without a parent beacon in STRUCTURED. -/
  | acquisitionSearchTimeout (t : U64)
  /-- LOCK_ACHIEVED (R41): 16 consecutive ticks within 1 µs. -/
  | lockAchieved
  /-- EXTRA_GUARD_CAPPED (R45): CAPPED sets with one WARNING record. -/
  | extraGuardCapped (t : U64)
  /-- TIME_SET (R42, Table 20-4). -/
  | timeSet (d : Desc)
  /-- PPS_OUT_PULSE (R48). -/
  | ppsOutPulse (t : U64)
  /-- DTIME_SNAPSHOT (R49): a read of TIME_DTIME_LO latches the other three registers. -/
  | dtimeSnapshot (t : U64)
  /-- TRUSS_RELOAD (R60, R427): the truss is copied and MAINTENANCE entered. -/
  | trussReload (d : Desc)
  /-- TRUSS_RELOAD_COMPLETE (R60 to R62): the reload ends; service resumes at the next tick edge. -/
  | trussReloadComplete (t : U64)
  /-- TRUSS_READ (R66). -/
  | trussRead (d : Desc)
  /-- SPAN_OPEN (R70). -/
  | spanOpen (d : Desc)
  /-- SPAN_STAGE (R71, R72). -/
  | spanStage (d : Desc)
  /-- SPAN_ARM (R74, R84, R85). -/
  | spanArm (d : Desc)
  /-- SPAN_ABORT (R75). -/
  | spanAbort (d : Desc)
  /-- RX_WINDOW_OPEN (R194, Table 05-4): the window that resolution gave a primary pier opens. -/
  | rxWindowOpen (t : U64) (p : Nat)
  /-- RX_WINDOW_CLOSE (R107, R197, R397): no new detections; a beacon window left unheard is counted once nothing can
  still bring its beacon. -/
  | rxWindowClose (t : U64) (p : Nat)
  /-- PREAMBLE_DETECT (R100, R101, R108, R109). -/
  | preambleDetect (t : U64) (p : Nat) (x : Preamble)
  /-- SFD_FOUND (R101, R102, R46): `ts` is the SFD timestamp. -/
  | sfdFound (t : U64) (p ts : Nat)
  /-- SFD_TIMEOUT (R103). -/
  | sfdTimeout (t : U64) (p : Nat)
  /-- PHR_RECEIVED (R104, R105, R122): at the last symbol of the PHR. -/
  | phrReceived (t : U64) (p : Nat) (h : Phr)
  /-- FRAME_END (R106): the last PSDU octet. `air` holds the frame's fields as parsed, `octets` the octets of the PSDU as
  they came, FCS included and still whitened where the PHR says so, `cfo` the final estimate of R115. -/
  | frameEnd (t : U64) (p : Nat) (air : AirFrame) (octets : List Byte) (cfo : Int)
  /-- MAC_FRAME_RX (R200 to R203): a frame handed over by its pier passes stage 3. -/
  | macFrameRx (id : Nat) (adj : Int)
  /-- CIPHER_DISPATCH (R316, R318): an idle unit in service takes the next job, which reads its keys now. -/
  | cipherDispatch (t : U64) (u : Nat)
  /-- CIPHER_JOB_COMPLETE (R323): the run on a unit ends with its result. `attestEnd` takes the end of an ATTEST
  signature. -/
  | cipherJobComplete (t : U64) (u : Nat)
  /-- LEARN_HOLD_CLOSE (R256): the hold of a sender closes at the LEARN_HOLD-th edge after the tick it opened in. -/
  | learnHoldClose (eui : U64)
  /-- REASSEMBLY_TIMEOUT (R229): REASM_TIMEOUT ticks since the first fragment of the datagram at a place in the list.
  -/
  | reassemblyTimeout (n : Nat)
  /-- ACK_CHECK_DEADLINE (R110, R111, R124, Table 02-2 index 3): the check deadline of the acknowledgement that received
  frame `fid` asks for. -/
  | ackCheckDeadline (t : U64) (fid : Nat)
  /-- TX_DESCRIPTOR_FETCH (R217, R421): a descriptor whose PHASE differs from that of its count is read again. -/
  | txDescriptorFetch (r : Nat) (d : Dma Desc) (buf : Dma (List Byte))
  /-- FLOOD_REPETITION (R230): the next repetition of a flood begins, once the previous one has been sent and the
  flood is the oldest of its rewind queue. -/
  | floodRepetition (n : Nat)
  /-- SLOW_MARK (R327): a run's age reaches 4 × NOM. -/
  | slowMark (t : U64) (u : Nat)
  /-- SLOW_STOP (R328): a run's age reaches 64 × NOM; it is stopped and its output zeroed. -/
  | slowStop (t : U64) (u : Nat)
  /-- TUNE_INSTANT (R125, R126, R128, R131, R132): the settings in force are taken, a preemptible calibration job
  stops, and the synthesiser retunes; a channel without a stored entry is calibrated first. -/
  | tuneInstant (t : U64) (id : Nat)
  /-- COEX_REQUEST (R137): REQ, and with it PRI by rank, from T0 − RAMP − REQ_LEAD. -/
  | coexRequest (t : U64) (id : Nat)
  /-- SYNTH_LOCK (R130, R131, R133): lock is confirmed, but not while a calibration of rank 1 is due or running on the
  chain. -/
  | synthLock (t : U64) (id : Nat)
  /-- DECISION_INSTANT (R129, R135, R136): `gnt` is the level of COEXx_GNT, `energy` the energy on the channel in
  0.25 dB, referred to the ball, at instants of DTIME in nanoseconds (R177). -/
  | decisionInstant (t : U64) (id : Nat) (gnt : Bool) (energy : List (Nat × Int))
  /-- RAMP_UP_START (R130): the ramp starts on a locked synthesiser, at T0 − RAMP or later by at most TX_SLIP; without
  a lock by then the attempt completes LATE. `x` is what the observation receiver finds from here on (R160). -/
  | rampUpStart (t : U64) (id : Nat) (x : Observed)
  /-- TX_END (R127, R160, R220): the last PSDU symbol ends and the PA ramps down. `obs` (0.25 dB) and `dev` (0.1 %) are
  the power and the deviation that the observation receiver measured over the preamble. -/
  | txEnd (t : U64) (id : Nat) (obs dev : Int)
  /-- FEM_RETURN (R134, R135, R137): FEM_LAG after the ramp-down the lines return to receive and REQ is released. -/
  | femReturn (t : U64) (id : Nat)
  /-- BLANKING_END (R136): BLANK_TAIL after the ramp-down, the piers that nothing else blanks search again. -/
  | blankingEnd (t : U64) (id : Nat)
  /-- COEX_GRANT_WITHDRAWN (R138): transmissions of the band past their decision instant ramp down and complete LATE.
  -/
  | coexGrantWithdrawn (t : U64) (b : Nat)
  /-- PARAPET_BACKSTOP (R178): emission past the checked run of continuous transmission ends PARAPET. -/
  | parapetBackstop (t : U64) (id : Nat)
  /-- ACK_WAIT_CLOSE (R220): the wait of a sent frame ends; a frame still being judged in it may yet answer. -/
  | ackWaitClose (t : U64) (id : Nat)
  /-- LIFETIME_EXPIRY (R222): a frame still incomplete LIFETIME ticks after its fetch. -/
  | lifetimeExpiry (n : Nat)
  /-- DUTY_BUCKET_ADVANCE (R174): a new bucket opens at a whole second of DTIME at least 1 s of elapsed time after the
  last one opened. -/
  | dutyBucketAdvance (t : U64)
  /-- PAR_PROGRAM (R166): the burn of an accepted image begins. -/
  | parProgram (d : Desc)
  /-- PAR_BURN_COMPLETE (R167): the burn ends, its read-back as the fuses gave it. -/
  | parBurnComplete (read : List Byte)
  /-- PAR_READ (R170). Its state is that of a served command ring. -/
  | parRead (d : Desc)
  /-- SCH_GL_READ (R187). -/
  | schGlRead (d : Desc)
  /-- CIP_SUBMIT (R324): the job is queued, or the command completes with the first failure. -/
  | cipSubmit (d : Desc)
  /-- CIP_SELFTEST (R329). -/
  | cipSelftest (d : Desc)
  /-- KEY_RESTORE (R296). -/
  | keyRestore (d : Desc)
  /-- KEY_DERIVE, the command (R296). -/
  | keyDerive (d : Desc)
  /-- KEY_IMPORT: a plain key returned as a blob under DEVICE slot 0 (R297). -/
  | keyImport (d : Desc)
  /-- KEY_LC_SET (R306 to R308). -/
  | keyLcSet (d : Desc)
  /-- KEY_ALARM_ACK (R312, R408): accepted in ALARM, in the life-cycle states of Table 13-7. While no recorder runs
  its record is held for it. -/
  | keyAlarmAck (d : Desc)
  /-- TBL_READ (R259, R263). -/
  | tblRead (d : Desc)
  /-- TBL_WRITE (R260): its whole range is checked before it writes anything. -/
  | tblWrite (d : Desc)
  /-- TBL_LOCK_WRITE (R261): a write of TBL_LOCK(t, h). -/
  | tblLockWrite (table half : Nat) (v : Word)
  /-- LOCK_WAIT_APPLY (R262): the waiting insertions of a region of table `t` that is no longer locked. -/
  | lockWaitApply (table region : Nat)
  /-- LOCK_EXPIRY (R264): at a tick edge, a region locked for longer than TBL_LOCK_MAX ticks. -/
  | lockExpiry (table region : Nat)
  /-- OVERFLOW_DRAIN (R240). -/
  | overflowDrain
  /-- MIGRATION_END (R244). -/
  | migrationEnd (t : U64)
  /-- SEEN_AGE_OUT (R253): at the edge of their EXPIRY entries age out, a change under R80 but for the targets of a
  span about to commit (R82). -/
  | seenAgeOut
  /-- QUE_POP (R274, R275): a firmware read of QUE_POP_W0. -/
  | quePop (q : Nat)
  /-- QUE_POP_FREE (R274): a firmware write to QUE_POP_W0. -/
  | quePopFree (q : Nat)
  /-- QUE_DROP_REST (R277). -/
  | queDropRest (issuer : Issuer) (d : Desc)
  /-- QUE_MARK (R278). -/
  | queMark (issuer : Issuer) (d : Desc)
  /-- QUE_REWIND (R278). -/
  | queRewind (issuer : Issuer) (d : Desc)
  /-- QUE_RELEASE (R278). -/
  | queRelease (issuer : Issuer) (d : Desc)
  /-- RX_DELIVERY (R274, R422): ring `r` takes its next item. -/
  | rxDelivery (r : Nat)
  /-- CHK_SCAN (R336, R337, R340): the job is queued on its channel, or the first failed check decides. -/
  | chkScan (d : Desc)
  /-- CHK_SCAN_COMPLETE (R338): the running job of a channel ends. -/
  | chkScanComplete (ch : Nat)
  /-- CHK_CFG_WRITE (R332, R344): a host write of CHK_CFG(n). -/
  | chkCfgWrite (n : Nat) (v : Word)
  /-- CONTEXT_SCRUB (R343): RATE lines from the position on, wrapping after the last node. -/
  | contextScrub
  /-- ATTEST (R356). -/
  | attest (d : Desc)
  /-- ATTEST_REQUEST_RX (R359): a request from `mac` on a port; it is dropped and counted when it cannot be queued. -/
  | attestRequestRx (p : Nat) (mac nonce : List Byte)
  /-- ATTEST_REPORT (R358): a signed report is written at its place, or returned in an attestation response. -/
  | attestReport
  /-- BOOT_ATTEST_PUB (R360). -/
  | bootAttestPub (d : Desc)
  /-- BOOT_MR_EXTEND (R355). -/
  | bootMrExtend (d : Desc)
  /-- OFFER (R366): `chain` begins with the receiver. -/
  | offer (t : U64) (mac : List Byte) (id : Word) (total mb : Nat) (headMac : List Byte) (chain : List HopEntry)
  /-- ACCEPT (R368). -/
  | accept (t : U64) (mac : List Byte) (id : Word) (next : Nat)
  /-- REFUSE (R369). -/
  | refuse (t : U64) (mac : List Byte) (id : Word) (reason : Nat)
  /-- BLOCK (R367): a block arrives from the upstream hop. -/
  | block (t : U64) (b : List Byte)
  /-- ACK (R368). -/
  | ack (t : U64) (mac : List Byte) (id : Word) (next : Nat)
  /-- REPORT (R371): the head notes the status of chain entry `n`. -/
  | report (t : U64) (id : Word) (n st : Nat)
  /-- VIADUCT_BLOCK_SEND (R368): the next block goes through the rewind queue to the neighbour. -/
  | viaductBlockSend (t : U64)
  /-- VIADUCT_RETRANSMIT (R368). -/
  | viaductRetransmit (t : U64)
  /-- HOP_SKIP (R369): no answer to an OFFER, or no progress, for HOP_TIMEOUT. -/
  | hopSkip (t : U64)
  /-- SESSION_IDLE_TIMEOUT (R370). -/
  | sessionIdleTimeout (t : U64)
  /-- IMAGE_BUILD (R372): `flashOk` says whether every erase and program of the flash succeeded. -/
  | imageBuild (t : U64) (flashOk : Bool)
  /-- IMAGE_VERIFY (R373): the image is read back into the staging partition, over the stream, and checked. -/
  | imageVerify (t : U64)
  /-- UPD_START (R371). -/
  | updStart (d : Desc)
  /-- UPD_ABORT (R381). -/
  | updAbort (d : Desc)
  /-- UPD_ACTIVATE (R376, R408): Table 17-7 to the end of its step 3. -/
  | updActivate (d : Desc)
  /-- ACTIVATION_RESUME (step 4 of Table 17-7): the state held is resumed at a tick edge, the command completes and
  the trial starts. -/
  | activationResume (t : U64)
  /-- UPD_CONFIRM (R378). -/
  | updConfirm (d : Desc)
  /-- TRIAL_EXPIRY (R378): the trial ends without its check: the record falls back and the device restarts. -/
  | trialExpiry (t : U64)
  /-- UPD_RESIDENT (R380): in service the running bank, through a warm reset; in RECOVERY either bank, at once, with
  `tests` the self-tests of the entry to STRUCTURED that follows. -/
  | updResident (d : Desc) (tests : List Bool)
  /-- HEARTBEAT_SEND (R390): at edge + 30 µs, when core 3 has written the body of the tick. -/
  | heartbeatSend (t : U64) (written : Bool)
  /-- HEARTBEAT_RX (R391): a heartbeat body arrives on the HB link (path 0) or on ETH0 (path 1). -/
  | heartbeatRx (t : U64) (p : Nat) (b : List Byte)
  /-- HEARTBEAT_MISS (R391, R393): at edge + 250 µs the tick is judged on both paths. -/
  | heartbeatMiss (t : U64)
  /-- STANDBY_ARMED (R392): 16 ticks in a row with a valid heartbeat. -/
  | standbyArmed
  /-- ILK_IN_RELEASE (R393, R388): ILK_IN becomes inactive; a chip in STANDBY, and a held-off chip, decides. A new
  active that asserted by force observes the old active's release. -/
  | ilkInRelease (t : U64)
  /-- ILK_IN_ACTIVE (R385, R387): ILK_IN becomes active. The PA goes off at once; a chip that has held ILK_OUT for 1
  µs, or that has the lower priority, is pre-empted. In a pair a chip without ILK_OUT has lost its descriptors to
  its peer. -/
  | ilkInActive (t : U64)
  /-- STUCK_CHECK (R387): one tick after a forced assertion ILK_IN is still active. -/
  | stuckCheck (t : U64)
  /-- TAKEOVER_RING_RECOVERY (R401, R423): at the first edge after a decision the new active reads the ring state
  block and claims it. `tags` gives the TAG of descriptors in host memory, by ring and count. -/
  | takeoverRingRecovery (rsb : List Byte) (tags : List (Nat × Nat × BitVec 16))
  /-- RED_SWITCH (R402). -/
  | redSwitch (d : Desc)
  /-- SWITCHOVER_RELEASE (R402): after the last ramp-down and FEM_LAG the chip releases ILK_OUT and enters STANDBY. -/
  | switchoverRelease (t : U64)
  /-- SYS_SERVE (R428, R384). -/
  | sysServe (d : Desc)
  /-- SERVE_ENTRY (R428): the tick edge at which the new state is entered. -/
  | serveEntry
  /-- EVR_READ (R409). -/
  | evrRead (d : Desc)
  /-- EVR_WRITE (R411). -/
  | evrWrite (d : Desc)
  /-- EVR_CLEAR (R412, R413). When the log holds no record, the manual does not state the first and last SEQ removed.
  -/
  | evrClear (d : Desc)
  /-- HOST_RING_PROD_WRITE (R420, R421). -/
  | hostRingProdWrite (k : Nat) (v : Word)
  /-- HOST_RING_CONS_WRITE (R420, R422). -/
  | hostRingConsWrite (k : Nat) (v : Word)
  /-- COMMAND_FETCH (R421, R425): the next descriptor of the command ring, as DMA brings it. -/
  | commandFetch (d : Dma Desc)
  /-- PHASE_REREAD (R421): up to four reads in all, and then INTEGRITY. A chip that no longer fetches drops the
  reread. -/
  | phaseReread (r : Nat) (d : Dma Desc) (buf : Dma (List Byte))
  /-- COMPLETION_WRITE (R422, R418): the oldest completion held is written, or lost when its ring is disabled or the
  link is down; while the ring is full it is held. Nothing is written in FAULT (Table 01-4). -/
  | completionWrite
  /-- INTERRUPT_MODERATION_EXPIRY (R430): TIME µs after the first pending event of a vector. -/
  | interruptModerationExpiry (t : U64) (v : Nat)
  /-- HIF_NOP (R427). -/
  | hifNop (d : Desc)
  /-- CTX_READ (R20, R427). -/
  | ctxRead (d : Desc)
  /-- CTX_UPDATE (R20, R21): on a line that fails, only the repair mask is taken. -/
  | ctxUpdate (d : Desc)
  /-- CTX_REPAIR: repair a failing line (R21): all of its octets from the image, a new CRC and a NOTICE record. It is a
  CTX_UPDATE whose mask is 0xFFFF_FFFF, and does on a usable line what that does (R20). -/
  | ctxRepair (d : Desc)
  /-- BAR2_ACCESS (R23): a write of the octets `bs`, or a read when `write` is false, at an offset of the window. An
  access at or past its end counts and raises HOST_ERR; of one that runs over the end, the octets past it are
  discarded. -/
  | bar2Access (write : Bool) (o : Nat) (bs : List Byte)
  /-- ETH_FRAME_RX (R431, R432): a frame arrives on port `p` at ingress time `t`; `bs` runs from its destination to
  the end of its payload, and `fcsOk` is its FCS check. -/
  | ethFrameRx (t : U64) (p : Nat) (bs : List Byte) (fcsOk : Bool)
  /-- ETH_SEND (R434). -/
  | ethSend (d : Desc)
  /-- ETH_LINK_CHANGE (R431): the link of port `p` comes up at a speed, or goes down. -/
  | ethLinkChange (p : Nat) (up : Bool) (speed : Nat)
  /-- ETH_CTRL_WRITE (R436): a write to ETH_CTRL(p), or to ETH_PTP(p) when `ptp`. A change of MODE or EN restarts the
  link. -/
  | ethCtrlWrite (p : Nat) (ptp : Bool) (v : Word)
  /-- CAL_ENTRY_DATA_READ (R162): the four words of the selected entry are latched together. -/
  | calEntryDataRead
  /-- SCH_ASN_READ (R199): a read of SCH_ASN_LO(b) latches SCH_ASN_HI(b). -/
  | schAsnRead (b : Nat)
  /-- SCH_SF_START_READ (R199): a read of SCH_SF_START_LO latches SCH_SF_START_HI. -/
  | schSfStartRead
  /-- REGISTER_WRITE (R4, R5, R24): a BAR0 write of `width` octets. -/
  | registerWrite (a width : Nat) (v : Word)
  /-- SELF_TEST_COMPLETE (R329): the known-answer tests of a unit end, as the hardware finds them. -/
  | selfTestComplete (t : U64) (u : Nat) (pass : Bool)
  /-- LIFE_CYCLE_BURN_COMPLETE (R308, R309): the burn ends, its read-back as the fuses gave it. -/
  | lifeCycleBurnComplete (readBack : Bool)
  /-- ETHERNET_EGRESS (R274, R434): the port sends its next frame, one handed to it or the head of an egress queue. -/
  | ethernetEgress (p : Nat)
  /-- PAUSE_QUANTA_EXPIRY (R431). -/
  | pauseQuantaExpiry (p : Nat)
  /-- PCIE_LINK_CHANGE (R416, R418): training ends at a speed (1 to 3) and width, or the link goes down. -/
  | pcieLinkChange (up : Bool) (speed width : Nat)
  deriving DecidableEq, Repr

end Sys2Proof
end

