-- ==== Sys2Proof/Machine/Types/Check.lean ====
section
/-! DEFINITION. The state of the check channels (Check Channels). -/

namespace Sys2Proof.Machine

/-- A check channel (R332 to R340). MODE: 0 ADDRESS, 1 ALIVE. -/
structure ChkChan where
  poly : Nat := 2
  mode : Nat := 0
  value : Word := 0xFFFFFFFF
  lastAlive : Byte := 0
  seen : Bool := false
  lastStatus : Status := .ok
  /-- Jobs in order of acceptance; the first is running. -/
  jobs : List Desc := []
  /-- A CHK_CFG write that waits for the running job to end (R344): polynomial and mode. -/
  cfgDue : Option (Nat × Nat) := none
  deriving DecidableEq, Repr, Inhabited

/-- The eight channels, the second heartbeat path of CHK4 (R335) and the scrub's position (R343). -/
structure ChkSt where
  chans : List ChkChan := [{}, {}, {}, {}, { mode := 1 }, {}, {}, { poly := 1 }]
  hb1Last : Byte := 0
  hb1Seen : Bool := false
  scrubPos : Nat := 0
  deriving DecidableEq, Repr, Inhabited

end Sys2Proof.Machine
end

