-- ==== Sys2Proof/Machine/Types/Par.lean ====
section
/-! DEFINITION. The parapet: its OTP slots and its ranges (Tables 08-1 and 08-2), and its airtime bookkeeping. -/

namespace Sys2Proof.Machine

/-- A range record (Table 08-2). -/
structure ParRange where
  low : Nat := 0
  high : Nat := 0
  maxPower : Int := 0
  flags : Byte := 0
  lbtThr : Int := 0
  dutyPpm : Nat := 0
  dutyWindow : Nat := 0
  lbtTime : Nat := 0
  maxCont : Nat := 0
  minHop : Nat := 0
  dwell : Nat := 0
  dwellPeriod : Nat := 0
  deriving DecidableEq, Repr, Inhabited

/-- PAR_STATUS.STATE (R165). -/
inductive ParState where
  | unwritten | sealed | invalid
  deriving DecidableEq, Repr, Inhabited

/-- The parapet block. Each slot holds its 2,048 burned octets; unburned octets read 0. -/
structure ParSt where
  slot0 : List Byte := List.replicate 2048 0
  slot1 : List Byte := List.replicate 2048 0
  /-- A burn of the slot was stopped part-way (R167). -/
  torn0 : Bool := false
  torn1 : Bool := false
  state : ParState := .unwritten
  /-- The slot in force, when one is sealed (R165). -/
  slot : Nat := 0
  /-- SHA-256 of the region as the loader read it (R168). -/
  digest : List Byte := []
  /-- A burn in progress: its command, image and slot (R167). -/
  burn : Option (Desc × List Byte × Nat) := none
  /-- A burn that sealed a slot takes force at the next tick edge. -/
  sealDue : Option Nat := none
  /-- Airtime buckets in ns, newest first, of each range (16 × band + range) with DUTY = 1 (R174). -/
  duty : List (Nat × List Nat) := []
  /-- Airtime buckets in ns, newest first, of each channel (1,024 × (16 × band + range) + channel) that has been charged
  (R177); a channel not listed holds the fill of R175, aged by `dwellAge` buckets. -/
  dwell : List (Nat × List Nat) := []
  dwellAge : Nat := 60
  /-- Elapsed ns at which the current bucket opened. -/
  bucketAt : Nat := 0
  /-- Per band: start and end, in ns of elapsed time, of the run of continuous transmission last emitted (R176). -/
  contA : Option (Nat × Nat) := none
  contB : Option (Nat × Nat) := none
  deriving DecidableEq, Repr, Inhabited

/-- A calibration job in progress or placed on a chain (Table 07-3). Instants are ns of DTIME. -/
structure CalJob where
  chain : Nat
  /-- 1 ENTRY, 2 COMPACT. -/
  kind : Nat
  rank : Nat
  entries : List Nat := []
  start : Nat := 0
  /-- Edge n + 1 for a background job; 0 for none. -/
  due : Nat := 0
  deriving DecidableEq, Repr, Inhabited

/-- A CAL_SYNTH waiting for compact calibrations (R149): each chain whose calibration it caused and that has not yet ended,
with whether that calibration has taken the chain. -/
structure CalCmd where
  cmd : Desc
  chains : List (Nat × Bool)
  deriving DecidableEq, Repr, Inhabited

/-- Calibration (Calibration Alongside Traffic). Entries are keyed chain × 1,024 + index. -/
structure CalSt where
  entries : List (Nat × CalEntry) := []
  jobs : List CalJob := []
  /-- Entries whose Δ is treated as 8.00 °C (R149, R160). -/
  marked : List Nat := []
  /-- Entries pending, with the tick they became STALE or EMPTY, and those of them starved (R151). -/
  pending : List (Nat × Nat) := []
  starved : List Nat := []
  /-- Chains on which a compact calibration is due, and those that have had one (R148). -/
  compactDue : List Nat := []
  compactDone : List Nat := []
  /-- The compact results of each chain, and their REF_TEMP in 0.25 °C. -/
  compact : List (Nat × CalEntry) := []
  /-- The tick in which background jobs and sweeps were last placed: once in each (R146, R151). -/
  placed : Option Nat := none
  /-- CAL_SYNTH commands waiting for a compact calibration (R149). -/
  cmds : List CalCmd := []
  /-- Crowd reference: samples of the window by node, in histogram bins from −4,096 to 4,095, the ticks of service its
  window has lasted, c and c_src in 10^-12, and a CAL_CR_BASE written and not yet taken (R155 to R157). -/
  samples : List (Nat × Int) := []
  windowTick : Nat := 0
  c : Int := 0
  cSrc : Int := 0
  base : Int := 0
  baseDue : Option Int := none
  /-- A crowd term that takes force at the next tick edge. -/
  termDue : Option Int := none
  /-- DC offsets of I and Q by 32 × band + gain index, in 1/16 ADC LSB (R158). -/
  dc : List (Nat × (Int × Int)) := []
  /-- Frames that have contributed to each front-end's image estimate, up to 500 (R159). -/
  framesA : Nat := 0
  framesB : Nat := 0
  deriving DecidableEq, Repr, Inhabited

end Sys2Proof.Machine
end

