-- ==== Sys2Proof/Machine/Types/Red.lean ====
section
/-! DEFINITION. The state of the redundancy block (Active and Standby Pairs). RED_MISS, RED_LAST, RED_PEER_* and
RED_CNT are registers. -/

namespace Sys2Proof.Machine

/-- The redundancy block. Instants are elapsed nanoseconds. -/
structure RedSt where
  /-- ALIVE of the next heartbeat (R390). -/
  alive : Byte := 0
  /-- A valid heartbeat of the present tick has arrived on the HB link, and on ETH0 (R391). -/
  hb0 : Bool := false
  hb1 : Bool := false
  /-- Ticks in a row missed on both paths, and ticks in a row with a valid heartbeat in STANDBY (R391, R392). -/
  bothRun : Nat := 0
  armRun : Nat := 0
  armed : Bool := false
  /-- ILK_HELD of the last valid heartbeat. -/
  peerHeld : Bool := false
  /-- TICKNO at the last valid heartbeat, and at the last one with STATE = STANDBY (R391, R402). -/
  peerTick : Option TickNo := none
  standbyTick : Option TickNo := none
  /-- When ILK_OUT was last asserted, and whether by force (R386, R387). -/
  outSince : Nat := 0
  forced : Bool := false
  /-- When ILK_IN last became inactive. -/
  inClear : Nat := 0
  /-- When the old active's release was observed, in a takeover whose silent interval still runs (R395). -/
  released : Option Nat := none
  /-- A decision has been made and the first tick edge after it is still to come (R394). -/
  recover : Bool := false
  /-- Entry to ACTIVE from STRUCTURED waits for ILK_OUT to initialise the ring state block (R386, R400). -/
  initDue : Bool := false
  /-- A planned switch-over in progress: its commands, RED_SWITCH or SYS_SERVE with role STANDBY (R402). -/
  leaving : List Desc := []
  /-- SEQ of the ring state block (R399). -/
  seq : Word := 0
  /-- DONE of each submit ring, and the bits set in the DONE_MAPs, as 256 × ring + bit (R399). -/
  doneCount : List (Nat × Nat) := []
  doneMap : List Nat := []
  /-- Runs of beacon windows without a beacon, per band (R397). -/
  missA : Nat := 0
  missB : Nat := 0
  deriving DecidableEq, Repr, Inhabited

end Sys2Proof.Machine
end

