-- ==== Sys2Proof/Machine/State.lean ====
section
/-! DEFINITION. The state of the EVN9264, its reset, and the reasons for which a step can stop. -/

namespace Sys2Proof.Machine

/-- The machine's state: every register, memory, queue and engine the manual names, as plain data. -/
structure State where
  /-- The commands that are waiting, first in, first out. -/
  pending : List Instr := []
  sys : SysSt := {}
  time : TimeSt := {}
  truss : TrussSt := {}
  evr : EvrSt := {}
  hif : HifSt := {}
  spanc : SpanSt := {}
  sch : SchSt := {}
  tbl : TblSt := {}
  que : QueSt := {}
  tol : TolSt := {}
  key : KeySt := {}
  cip : CipSt := {}
  par : ParSt := {}
  cal : CalSt := {}
  rf : RfSt := {}
  red : RedSt := {}
  chk : ChkSt := {}
  boot : BootSt := {}
  upd : UpdSt := {}
  /-- The boot flash (octets listed differ from 0xFF, the erased octet). -/
  flash : List Host.Cell := []
  ethA : EthPort := {}
  ethB : EthPort := {}
  /-- Register bits held as such: offsets in BAR0 with the values that differ from their reset (R5). -/
  regs : List (Nat × Word) := []
  /-- Register writes that take effect at the next tick edge, oldest first. -/
  regWrites : List (Nat × Word) := []
  /-- Node context lines, by NIDX (R19). -/
  ctxs : List (Nat × CtxLine) := []
  /-- The memory die (octets listed differ from 0). -/
  mem : List Host.Cell := []
  /-- What the block has sent out, newest last (the model's own field). -/
  outbox : List Output := []
  /-- Source of free values (the model's own field). -/
  free : Nat := 0
  deriving DecidableEq, Repr, Inhabited

/-- Reasons for which a step faults. No command of the table faults. -/
inductive Fault where
  /-- Raised by nothing: the manual gives every command an effect in every state (safe). -/
  | none
  deriving DecidableEq, Repr

/-- Reasons for which a command is refused. -/
inductive Refusal where
  /-- A command without a meaning; raised by nothing, since every command has one (safe). -/
  | notModelled (mnemonic : String)
  deriving DecidableEq, Repr

/-- The device in RESET: every field at the value the manual gives for reset, or the value the assumption log names. -/
def State.reset : State := {}

end Sys2Proof.Machine
end

