-- ==== Sys2Proof/Machine/Sparse.lean ====
section
/-! DEFINITION. Sparse maps in canonical form, and the octet and bit-field helpers every block uses. -/

namespace Sys2Proof.Machine

/-- The value at `k`, or `d` where the map lists none. -/
def aget {α : Type} (d : α) (m : List (Nat × α)) (k : Nat) : α :=
  match m with
  | [] => d
  | (a, v) :: r => if a = k then v else aget d r k

/-- Set the value at `k`, keeping keys rising and listing no entry equal to `d`. -/
def aset {α : Type} [DecidableEq α] (d : α) (m : List (Nat × α)) (k : Nat) (v : α) : List (Nat × α) :=
  match m with
  | [] => if v = d then [] else [(k, v)]
  | (a, x) :: r =>
    if k < a then (if v = d then (a, x) :: r else (k, v) :: (a, x) :: r)
    else if k = a then (if v = d then r else (k, v) :: r)
    else (a, x) :: aset d r k v

/-- The entry at `k`, when listed. -/
def afind {α : Type} (m : List (Nat × α)) (k : Nat) : Option α :=
  match m with
  | [] => none
  | (a, v) :: r => if a = k then some v else afind r k

/-- Set the entry at `k`, keeping keys rising. -/
def aput {α : Type} (m : List (Nat × α)) (k : Nat) (v : α) : List (Nat × α) :=
  match m with
  | [] => [(k, v)]
  | (a, x) :: r => if k < a then (k, v) :: (a, x) :: r else if k = a then (k, v) :: r else (a, x) :: aput r k v

/-- Remove the entry at `k`. -/
def aerase {α : Type} (m : List (Nat × α)) (k : Nat) : List (Nat × α) := m.filter fun e => e.1 != k

/-- Keys rise strictly. -/
def risingKeys {α : Type} (m : List (Nat × α)) : Bool :=
  match m with
  | [] => true
  | [_] => true
  | (a, _) :: (b, y) :: r => decide (a < b) && risingKeys ((b, y) :: r)

/-- The canonical form: keys rise strictly and no entry equals the default. -/
def canonical {α : Type} [DecidableEq α] (d : α) (m : List (Nat × α)) : Bool :=
  risingKeys m && m.all fun e => decide (e.2 ≠ d)

/-- Bits [hi:lo] of `w`, as a number. -/
def bits {n : Nat} (w : BitVec n) (hi lo : Nat) : Nat := (w.toNat >>> lo) % 2 ^ (hi + 1 - lo)

/-- Bit `i` of `w`. -/
def bit {n : Nat} (w : BitVec n) (i : Nat) : Bool := w.getLsbD i

/-- A field value placed at bit `lo` of a word. -/
def fld (v lo : Nat) : Word := BitVec.ofNat 32 (v <<< lo)

/-- 1 for true. -/
def b2n (b : Bool) : Nat := if b then 1 else 0

/-- Replace bits [hi:lo] of `w`. -/
def setBits (w : Word) (hi lo v : Nat) : Word :=
  let m := (2 ^ (hi + 1 - lo) - 1) <<< lo
  (w &&& ~~~ (BitVec.ofNat 32 m)) ||| (BitVec.ofNat 32 ((v % 2 ^ (hi + 1 - lo)) <<< lo))

/-- `n` octets of `v`, least significant first (R3). -/
def leBytes (v n : Nat) : List Byte :=
  match n with
  | 0 => []
  | k + 1 => BitVec.ofNat 8 v :: leBytes (v / 256) k

/-- The number whose octets, least significant first, are given. -/
def leNat (bs : List Byte) : Nat :=
  match bs with
  | [] => 0
  | b :: r => b.toNat + 256 * leNat r

/-- The number whose octets, most significant first, are given. -/
def beNat (bs : List Byte) : Nat := bs.foldl (fun a b => a * 256 + b.toNat) 0

/-- `n` octets of `v`, most significant first. -/
def beBytes (v n : Nat) : List Byte := (leBytes v n).reverse

/-- `n` octets from offset `o` of a list, octets past its end reading 0. -/
def slice (bs : List Byte) (o n : Nat) : List Byte :=
  let r := (bs.drop o).take n
  r ++ List.replicate (n - r.length) 0

/-- A little-endian field of a byte list. -/
def leAt (bs : List Byte) (o n : Nat) : Nat := leNat (slice bs o n)

/-- A signed reading of an `n`-bit number. -/
def signed (v n : Nat) : Int := if v < 2 ^ (n - 1) then (v : Int) else (v : Int) - (2 ^ n : Nat)

/-- The `n`-bit two's complement of an integer. -/
def unsigned (v : Int) (n : Nat) : Nat := (v % ((2 ^ n : Nat) : Int)).toNat

/-- An integer limited to the range of `n`-bit two's complement. -/
def clampS (v : Int) (n : Nat) : Int :=
  if v > (2 ^ (n - 1) : Nat) - 1 then (2 ^ (n - 1) : Nat) - 1
  else if v < -((2 ^ (n - 1) : Nat) : Int) then -((2 ^ (n - 1) : Nat) : Int) else v

/-- Smallest integer not below a / b. -/
def ceilDiv (a b : Nat) : Nat := if b = 0 then 0 else (a + b - 1) / b

/-- A saturating increment of a counter field. -/
def satAdd {n : Nat} (v : BitVec n) (k : Nat) : BitVec n :=
  if v.toNat + k ≥ 2 ^ n then BitVec.ofNat n (2 ^ n - 1) else BitVec.ofNat n (v.toNat + k)

/-- Replace the `i`-th entry of a list. -/
def lset {α : Type} (l : List α) (i : Nat) (x : α) : List α :=
  match l, i with
  | [], _ => []
  | _ :: r, 0 => x :: r
  | y :: r, k + 1 => y :: lset r k x

/-- 32-bit words of a byte list, little-endian, the last one padded with zeros. -/
def wordsOf (bs : List Byte) (fuel : Nat) : List Word :=
  match fuel with
  | 0 => []
  | k + 1 => if bs = [] then [] else BitVec.ofNat 32 (leNat (bs.take 4)) :: wordsOf (bs.drop 4) k

/-- All words of a byte list. -/
def toWords (bs : List Byte) : List Word := wordsOf bs (bs.length + 1)

/-- All octets of a word list. -/
def ofWords (ws : List Word) : List Byte := ws.flatMap fun w => leBytes w.toNat 4

/-- The values of a list of options, when all are present. -/
def allSome {α : Type} (l : List (Option α)) : Option (List α) :=
  match l with
  | [] => some []
  | none :: _ => none
  | some a :: r => match allSome r with
    | some t => some (a :: t)
    | none => none

/-- No value occurs twice. -/
def distinct {α : Type} [DecidableEq α] (l : List α) : Bool :=
  match l with
  | [] => true
  | a :: r => !(r.contains a) && distinct r

end Sys2Proof.Machine
end

