-- ==== Sys2Proof/Machine/Crc.lean ====
section
/-! DEFINITION. The polynomial codes of Table 15-2 (R333). -/

namespace Sys2Proof.Machine

/-- One bit of a reflected CRC: shift right, folding the reflected polynomial when a 1 leaves. -/
def crcBitR (poly : Word) (c : Word) : Word := if c.getLsbD 0 then (c >>> 1) ^^^ poly else c >>> 1

/-- `n` bits of a reflected CRC. -/
def crcBitsR (poly : Word) (n : Nat) (c : Word) : Word :=
  match n with
  | 0 => c
  | k + 1 => crcBitsR poly k (crcBitR poly c)

/-- One octet of a reflected CRC. -/
def crcByteR (poly : Word) (c : Word) (b : Byte) : Word := crcBitsR poly 8 (c ^^^ b.setWidth 32)

/-- One bit of the 8-bit CRC that is not reflected (code 3, polynomial 0x07). -/
def crcBit8 (c : Word) : Word := if c.getLsbD 7 then ((c <<< 1) &&& 0xFF) ^^^ 0x07 else (c <<< 1) &&& 0xFF

/-- One octet of code 3. -/
def crcByte8 (c : Word) (b : Byte) : Word :=
  let x := c ^^^ b.setWidth 32
  crcBit8 (crcBit8 (crcBit8 (crcBit8 (crcBit8 (crcBit8 (crcBit8 (crcBit8 x)))))))

/-- One octet under a polynomial code. -/
def crcByte (code : Nat) (c : Word) (b : Byte) : Word :=
  match code with
  | 0 => crcByteR 0x8408 c b
  | 1 => crcByteR 0xEDB88320 c b
  | 2 => crcByteR 0x82F63B78 c b
  | _ => crcByte8 c b

/-- INIT of a code. -/
def crcInit (code : Nat) : Word := if code = 1 ∨ code = 2 then 0xFFFFFFFF else 0

/-- XOROUT of a code. -/
def crcXor (code : Nat) : Word := if code = 1 ∨ code = 2 then 0xFFFFFFFF else 0

/-- Width in octets of a code. -/
def crcBytes (code : Nat) : Nat :=
  match code with
  | 0 => 2 | 1 => 4 | 2 => 4 | _ => 1

/-- The running value after some octets. -/
def crcFold (code : Nat) (c : Word) (bs : List Byte) : Word := bs.foldl (crcByte code) c

/-- The CRC of a message. -/
def crc (code : Nat) (bs : List Byte) : Word := crcFold code (crcInit code) bs ^^^ crcXor code

end Sys2Proof.Machine
end

