-- ==== Sys2Proof/Config.lean ====
section
/-! DEFINITION. What the manual leaves to other standards or leaves open: constants without a body, so that a claim
about the model holds whatever they are. Each is named in the assumption log. -/

namespace Sys2Proof.Config

/-- SHA-256 of a message, 32 octets (FIPS 180-4, named by R325). -/
opaque sha256 : List Byte → List Byte

/-- ECDSA P-256 verification: public key X then Y, message, signature r then s (R58, R307, R412). -/
opaque p256Verify : List Byte → List Byte → List Byte → Bool

/-- ECDSA P-256 verification over a 32-octet digest (mode P256_VERIFY of Table 14-3). -/
opaque p256VerifyDigest : List Byte → List Byte → List Byte → Bool

/-- ECDSA P-256 signature with a private scalar over a message, 64 octets (R357). -/
opaque p256Sign : List Byte → List Byte → List Byte

/-- The public key of a private scalar, X then Y, 64 octets (R360). -/
opaque p256Public : List Byte → List Byte

/-- AES-CMAC with a key over a message, 16 octets (NIST SP 800-38B). -/
opaque aesCmac : List Byte → List Byte → List Byte

/-- AES-KW wrap (RFC 3394) of a plaintext under a key. -/
opaque aesKwWrap : List Byte → List Byte → List Byte

/-- AES-KW unwrap: the plaintext, or none when its integrity check fails. -/
opaque aesKwUnwrap : List Byte → List Byte → Option (List Byte)

/-- AES-CCM* protect: key, nonce, additional data, message, MIC length; the ciphertext and the MIC. -/
opaque ccmProtect : List Byte → List Byte → List Byte → List Byte → Nat → List Byte × List Byte

/-- AES-CCM* check: key, nonce, additional data, ciphertext, MIC; the message, or none when the MIC fails. -/
opaque ccmCheck : List Byte → List Byte → List Byte → List Byte → List Byte → Option (List Byte)

/-- AES-GCM seal: key, IV, additional data, message, tag length; ciphertext and tag (NIST SP 800-38D). -/
opaque gcmSeal : List Byte → List Byte → List Byte → List Byte → Nat → List Byte × List Byte

/-- AES-GCM open: key, IV, additional data, ciphertext, tag; the message, or none when the tag fails. -/
opaque gcmOpen : List Byte → List Byte → List Byte → List Byte → List Byte → Option (List Byte)

/-- AES-CTR encryption or decryption: key, initial counter block, data (NIST SP 800-38A). -/
opaque aesCtr : List Byte → List Byte → List Byte → List Byte

/-- Zarvon's provisioning key hash, held in the boot ROM (R348); its value is not in the manual. -/
opaque provisioningHash : List Byte

/-- The OEM public key, X then Y, whose SHA-256 is the given hash (R165); the manual does not say where it is kept. -/
opaque oemKey : List Byte → List Byte

/-- The order of the P-256 group, as in its standard (R289). -/
opaque p256Order : Nat

/-- A free run of deck units (R266): the manual does not say which of several free runs a buffer takes. -/
opaque freeRun : Nat → Nat

/-- A free octet: the contents the manual does not state. -/
opaque freeByte : Nat → Byte

/-- A free word: a value the manual does not state. -/
opaque freeWord : Nat → Word

/-- The data whitening of SUN FSK (R98): PSDU octets as received, and as sent. -/
opaque whiten : List Byte → List Byte

/-- A beacon of the time parent at a security level passes its check (R197): header, payload and MIC. The manual names no key
for it. -/
opaque parentBeaconOk : Nat → List Byte → List Byte → List Byte → Bool

/-- The octets of a viaduct message (Table 17-4) from its MSG and its fields in the order of the table: the manual does
not lay them out. -/
opaque viaductBody : Nat → List (List Byte) → List Byte

/-- The body of the default settings of a firmware, by its VERSION (R377). -/
opaque defaultSettings : Word → List Byte

/-- The sensitivity, in 0.25 dB, of PHY settings that Table 21-13 does not list: PHY, symbol rate, modulation index. -/
opaque sensitivity : Nat → Nat → Nat → Int

end Sys2Proof.Config
end

