-- ==== Sys2Proof/Machine/RegTable.lean ====
section
/-! DEFINITION. The register map of BAR0: every register table of the chapters, its offset, its fields, their access
types and their reset values (R4, R5, R24). -/

namespace Sys2Proof.Machine

/-- The access types of Table 00-7. `w1c` is a count cleared by all ones, `w1f` a field of separate flags. -/
inductive Access where
  | ro | rw | rws | wo | w1c | w1f
  deriving DecidableEq, Repr

/-- One field of a register: its name, its bits [hi:lo], its access type and its reset value. -/
structure RegField where
  name : String
  hi : Nat
  lo : Nat
  acc : Access
  reset : Nat
  deriving DecidableEq, Repr

/-- One register, or a family of registers at `base + s1 * i + s2 * j` with `i < n1` and `j < n2`. -/
structure RegSpec where
  name : String
  base : Nat
  s1 : Nat
  n1 : Nat
  s2 : Nat
  n2 : Nat
  fields : List RegField
  deriving DecidableEq, Repr

namespace Reg

/-- Offset of SYS_ID in BAR0. -/
def SYS_ID : Nat := 0x0000000
/-- Offset of SYS_REV in BAR0. -/
def SYS_REV : Nat := 0x0000004
/-- Offset of SYS_STATUS in BAR0. -/
def SYS_STATUS : Nat := 0x0000010
/-- Offset of SYS_RESET_CAUSE in BAR0. -/
def SYS_RESET_CAUSE : Nat := 0x0000014
/-- Offset of SYS_CTRL in BAR0. -/
def SYS_CTRL : Nat := 0x0000020
/-- Offset of SYS_FAULT in BAR0. -/
def SYS_FAULT : Nat := 0x0000030
/-- Offset of SYS_ECC in BAR0. -/
def SYS_ECC : Nat := 0x0000034
/-- Offset of TIME_TICK_PERIOD in BAR0. -/
def TIME_TICK_PERIOD : Nat := 0x0100000
/-- Offset of TIME_SLOT_MULT in BAR0. -/
def TIME_SLOT_MULT : Nat := 0x0100004
/-- Offset of TIME_DTIME_LO in BAR0. -/
def TIME_DTIME_LO : Nat := 0x0100010
/-- Offset of TIME_DTIME_HI in BAR0. -/
def TIME_DTIME_HI : Nat := 0x0100014
/-- Offset of TIME_TICKNO_LO in BAR0. -/
def TIME_TICKNO_LO : Nat := 0x0100018
/-- Offset of TIME_TICKNO_HI in BAR0. -/
def TIME_TICKNO_HI : Nat := 0x010001C
/-- Offset of TIME_SRC in BAR0. -/
def TIME_SRC : Nat := 0x0100040
/-- Offset of TIME_PHASE_ERR in BAR0. -/
def TIME_PHASE_ERR : Nat := 0x0100044
/-- Offset of TIME_FREQ_ADJ in BAR0. -/
def TIME_FREQ_ADJ : Nat := 0x0100048
/-- Offset of TIME_HOLD in BAR0. -/
def TIME_HOLD : Nat := 0x0100050
/-- Offset of TIME_PPS_CTRL in BAR0. -/
def TIME_PPS_CTRL : Nat := 0x0100060
/-- Offset of TIME_LATE in BAR0. -/
def TIME_LATE (n : Nat) : Nat := 0x0100080 + 0x4 * n
/-- Offset of TRUSS_STATUS in BAR0. -/
def TRUSS_STATUS : Nat := 0x0200000
/-- Offset of TRUSS_ID in BAR0. -/
def TRUSS_ID : Nat := 0x0200004
/-- Offset of TRUSS_LEN in BAR0. -/
def TRUSS_LEN : Nat := 0x0200008
/-- Offset of TRUSS_DOMAIN in BAR0. -/
def TRUSS_DOMAIN : Nat := 0x020000C
/-- Offset of TRUSS_DIGEST in BAR0. -/
def TRUSS_DIGEST (n : Nat) : Nat := 0x0200010 + 0x4 * n
/-- Offset of TRUSS_REJECT in BAR0. -/
def TRUSS_REJECT : Nat := 0x0200040
/-- Offset of TRUSS_REJECT_OFS in BAR0. -/
def TRUSS_REJECT_OFS : Nat := 0x0200044
/-- Offset of TRUSS_SEC_SEL in BAR0. -/
def TRUSS_SEC_SEL : Nat := 0x0200050
/-- Offset of TRUSS_SEC_SERIAL in BAR0. -/
def TRUSS_SEC_SERIAL : Nat := 0x0200054
/-- Offset of TRUSS_SEC_INFO in BAR0. -/
def TRUSS_SEC_INFO : Nat := 0x0200058
/-- Offset of TRUSS_SEC_COMMITS in BAR0. -/
def TRUSS_SEC_COMMITS : Nat := 0x020005C
/-- Offset of SPAN_VIS in BAR0. -/
def SPAN_VIS : Nat := 0x0300000
/-- Offset of SPAN_FREE in BAR0. -/
def SPAN_FREE : Nat := 0x0300004
/-- Offset of SPAN_ITEMS_USED in BAR0. -/
def SPAN_ITEMS_USED : Nat := 0x0300008
/-- Offset of SPAN_COUNT in BAR0. -/
def SPAN_COUNT (m : Nat) : Nat := 0x0300020 + 0x4 * m
/-- Offset of SPAN_INFO in BAR0. -/
def SPAN_INFO (n : Nat) : Nat := 0x0300100 + 0x10 * n
/-- Offset of SPAN_TARGET_LO in BAR0. -/
def SPAN_TARGET_LO (n : Nat) : Nat := 0x0300104 + 0x10 * n
/-- Offset of SPAN_TARGET_HI in BAR0. -/
def SPAN_TARGET_HI (n : Nat) : Nat := 0x0300108 + 0x10 * n
/-- Offset of SPAN_LAST in BAR0. -/
def SPAN_LAST (n : Nat) : Nat := 0x030010C + 0x10 * n
/-- Offset of RXF_CTRL in BAR0. -/
def RXF_CTRL (b : Nat) : Nat := 0x0400000 + 0x100 * b
/-- Offset of RXF_GAIN in BAR0. -/
def RXF_GAIN (b : Nat) : Nat := 0x0400004 + 0x100 * b
/-- Offset of RXF_LEVEL in BAR0. -/
def RXF_LEVEL (b : Nat) : Nat := 0x0400008 + 0x100 * b
/-- Offset of RXF_HR_THR in BAR0. -/
def RXF_HR_THR (b : Nat) : Nat := 0x040000C + 0x100 * b
/-- Offset of RXF_DET in BAR0. -/
def RXF_DET (b : Nat) : Nat := 0x0400010 + 0x100 * b
/-- Offset of RXF_WINDOW in BAR0. -/
def RXF_WINDOW (b : Nat) : Nat := 0x0400014 + 0x100 * b
/-- Offset of RXF_RASTER in BAR0. -/
def RXF_RASTER (b : Nat) : Nat := 0x0400018 + 0x100 * b
/-- Offset of RXF_FIRST in BAR0. -/
def RXF_FIRST (b : Nat) : Nat := 0x040001C + 0x100 * b
/-- Offset of RXF_CHAN in BAR0. -/
def RXF_CHAN (b : Nat) : Nat := 0x0400020 + 0x100 * b
/-- Offset of RXF_CNT in BAR0. -/
def RXF_CNT (b : Nat) (m : Nat) : Nat := 0x0400040 + 0x100 * b + 0x4 * m
/-- Offset of PIER_SPLIT in BAR0. -/
def PIER_SPLIT : Nat := 0x0500000
/-- Offset of PIER_CAPTURE in BAR0. -/
def PIER_CAPTURE : Nat := 0x0500004
/-- Offset of PIER_BUSY_LO in BAR0. -/
def PIER_BUSY_LO : Nat := 0x0500010
/-- Offset of PIER_BUSY_HI in BAR0. -/
def PIER_BUSY_HI : Nat := 0x0500014
/-- Offset of PIER_TWIN_FREE in BAR0. -/
def PIER_TWIN_FREE : Nat := 0x0500018
/-- Offset of PIER_STATE in BAR0. -/
def PIER_STATE (p : Nat) : Nat := 0x0500100 + 0x10 * p
/-- Offset of PIER_MEAS in BAR0. -/
def PIER_MEAS (p : Nat) : Nat := 0x0500104 + 0x10 * p
/-- Offset of PIER_CFO in BAR0. -/
def PIER_CFO (p : Nat) : Nat := 0x0500108 + 0x10 * p
/-- Offset of PIER_FRAMES in BAR0. -/
def PIER_FRAMES (p : Nat) : Nat := 0x050010C + 0x10 * p
/-- Offset of PIER_CNT in BAR0. -/
def PIER_CNT (b : Nat) (m : Nat) : Nat := 0x0500800 + 0x80 * b + 0x4 * m
/-- Offset of TXC_CTRL in BAR0. -/
def TXC_CTRL (c : Nat) : Nat := 0x0600000 + 0x100 * c
/-- Offset of TXC_STATUS in BAR0. -/
def TXC_STATUS (c : Nat) : Nat := 0x0600004 + 0x100 * c
/-- Offset of TXC_FREQ in BAR0. -/
def TXC_FREQ (c : Nat) : Nat := 0x0600008 + 0x100 * c
/-- Offset of TXC_PRE in BAR0. -/
def TXC_PRE (c : Nat) : Nat := 0x060000C + 0x100 * c
/-- Offset of TXC_LASTPWR in BAR0. -/
def TXC_LASTPWR (c : Nat) : Nat := 0x0600010 + 0x100 * c
/-- Offset of TXC_SLIP in BAR0. -/
def TXC_SLIP (c : Nat) : Nat := 0x0600014 + 0x100 * c
/-- Offset of TXC_SLIP_MAX in BAR0. -/
def TXC_SLIP_MAX (c : Nat) : Nat := 0x0600018 + 0x100 * c
/-- Offset of TXC_CNT in BAR0. -/
def TXC_CNT (c : Nat) (m : Nat) : Nat := 0x0600040 + 0x100 * c + 0x4 * m
/-- Offset of TXC_PWR in BAR0. -/
def TXC_PWR (b : Nat) : Nat := 0x0600800 + 0x100 * b
/-- Offset of TXC_PRECORR in BAR0. -/
def TXC_PRECORR (b : Nat) : Nat := 0x0600804 + 0x100 * b
/-- Offset of TXC_FEM in BAR0. -/
def TXC_FEM (b : Nat) : Nat := 0x0600808 + 0x100 * b
/-- Offset of TXC_COEX in BAR0. -/
def TXC_COEX (b : Nat) : Nat := 0x060080C + 0x100 * b
/-- Offset of TXC_LWT in BAR0. -/
def TXC_LWT (b : Nat) : Nat := 0x0600810 + 0x100 * b
/-- Offset of TXC_ACK_NOCHAIN in BAR0. -/
def TXC_ACK_NOCHAIN (b : Nat) : Nat := 0x0600820 + 0x100 * b
/-- Offset of CAL_CTRL in BAR0. -/
def CAL_CTRL : Nat := 0x0700000
/-- Offset of CAL_STATUS in BAR0. -/
def CAL_STATUS : Nat := 0x0700004
/-- Offset of CAL_ENTRY_SEL in BAR0. -/
def CAL_ENTRY_SEL : Nat := 0x0700010
/-- Offset of CAL_ENTRY_DATA in BAR0. -/
def CAL_ENTRY_DATA (i : Nat) : Nat := 0x0700014 + 0x4 * i
/-- Offset of CAL_TEMP in BAR0. -/
def CAL_TEMP (c : Nat) : Nat := 0x0700100 + 0x40 * c
/-- Offset of CAL_STALE in BAR0. -/
def CAL_STALE (c : Nat) : Nat := 0x0700104 + 0x40 * c
/-- Offset of CAL_JOB in BAR0. -/
def CAL_JOB (c : Nat) : Nat := 0x0700108 + 0x40 * c
/-- Offset of CAL_WAIT in BAR0. -/
def CAL_WAIT (c : Nat) : Nat := 0x070010C + 0x40 * c
/-- Offset of CAL_TXO in BAR0. -/
def CAL_TXO (c : Nat) : Nat := 0x0700110 + 0x40 * c
/-- Offset of CAL_CNT in BAR0. -/
def CAL_CNT (c : Nat) (m : Nat) : Nat := 0x0700120 + 0x40 * c + 0x4 * m
/-- Offset of CAL_IQ in BAR0. -/
def CAL_IQ (b : Nat) : Nat := 0x0700800 + 0x100 * b
/-- Offset of CAL_DC in BAR0. -/
def CAL_DC (b : Nat) : Nat := 0x0700804 + 0x100 * b
/-- Offset of CAL_IMAGE in BAR0. -/
def CAL_IMAGE (b : Nat) : Nat := 0x0700808 + 0x100 * b
/-- Offset of CAL_CR_CTRL in BAR0. -/
def CAL_CR_CTRL : Nat := 0x0700C00
/-- Offset of CAL_CR_LIMIT in BAR0. -/
def CAL_CR_LIMIT : Nat := 0x0700C04
/-- Offset of CAL_CR_BASE in BAR0. -/
def CAL_CR_BASE : Nat := 0x0700C08
/-- Offset of CAL_CR_MEDIAN in BAR0. -/
def CAL_CR_MEDIAN : Nat := 0x0700C0C
/-- Offset of CAL_CR_EST in BAR0. -/
def CAL_CR_EST : Nat := 0x0700C10
/-- Offset of CAL_CR_COUNT in BAR0. -/
def CAL_CR_COUNT : Nat := 0x0700C14
/-- Offset of PAR_STATUS in BAR0. -/
def PAR_STATUS : Nat := 0x0800000
/-- Offset of PAR_ID in BAR0. -/
def PAR_ID : Nat := 0x0800004
/-- Offset of PAR_DIGEST in BAR0. -/
def PAR_DIGEST (n : Nat) : Nat := 0x0800010 + 0x4 * n
/-- Offset of PAR_BAND in BAR0. -/
def PAR_BAND (b : Nat) : Nat := 0x0800040 + 0x4 * b
/-- Offset of PAR_CONT in BAR0. -/
def PAR_CONT (b : Nat) : Nat := 0x0800048 + 0x4 * b
/-- Offset of PAR_SEL in BAR0. -/
def PAR_SEL : Nat := 0x0800050
/-- Offset of PAR_DUTY_USED in BAR0. -/
def PAR_DUTY_USED : Nat := 0x0800054
/-- Offset of PAR_DUTY_BUDGET in BAR0. -/
def PAR_DUTY_BUDGET : Nat := 0x0800058
/-- Offset of PAR_CNT in BAR0. -/
def PAR_CNT (b : Nat) (m : Nat) : Nat := 0x0800100 + 0x40 * b + 0x4 * m
/-- Offset of SCH_EUI_LO in BAR0. -/
def SCH_EUI_LO : Nat := 0x0900000
/-- Offset of SCH_EUI_HI in BAR0. -/
def SCH_EUI_HI : Nat := 0x0900004
/-- Offset of SCH_PARENT_LO in BAR0. -/
def SCH_PARENT_LO : Nat := 0x0900008
/-- Offset of SCH_PARENT_HI in BAR0. -/
def SCH_PARENT_HI : Nat := 0x090000C
/-- Offset of SCH_CELLS in BAR0. -/
def SCH_CELLS : Nat := 0x0900010
/-- Offset of SCH_SF_SEL in BAR0. -/
def SCH_SF_SEL : Nat := 0x0900020
/-- Offset of SCH_SF_INFO in BAR0. -/
def SCH_SF_INFO : Nat := 0x0900024
/-- Offset of SCH_SF_CELLS in BAR0. -/
def SCH_SF_CELLS : Nat := 0x0900028
/-- Offset of SCH_SF_START_LO in BAR0. -/
def SCH_SF_START_LO : Nat := 0x090002C
/-- Offset of SCH_SF_START_HI in BAR0. -/
def SCH_SF_START_HI : Nat := 0x0900030
/-- Offset of SCH_GUARD in BAR0. -/
def SCH_GUARD (b : Nat) : Nat := 0x0900100 + 0x100 * b
/-- Offset of SCH_ACK_WAIT in BAR0. -/
def SCH_ACK_WAIT (b : Nat) : Nat := 0x0900104 + 0x100 * b
/-- Offset of SCH_EB in BAR0. -/
def SCH_EB (b : Nat) : Nat := 0x0900108 + 0x100 * b
/-- Offset of SCH_EB_FC in BAR0. -/
def SCH_EB_FC (b : Nat) : Nat := 0x090010C + 0x100 * b
/-- Offset of SCH_ASN_LO in BAR0. -/
def SCH_ASN_LO (b : Nat) : Nat := 0x0900110 + 0x100 * b
/-- Offset of SCH_ASN_HI in BAR0. -/
def SCH_ASN_HI (b : Nat) : Nat := 0x0900114 + 0x100 * b
/-- Offset of SCH_LAST in BAR0. -/
def SCH_LAST (b : Nat) : Nat := 0x0900118 + 0x100 * b
/-- Offset of SCH_CNT in BAR0. -/
def SCH_CNT (b : Nat) (m : Nat) : Nat := 0x0900140 + 0x100 * b + 0x4 * m
/-- Offset of MAC_CTRL in BAR0. -/
def MAC_CTRL : Nat := 0x0A00000
/-- Offset of MAC_BR_SHORT in BAR0. -/
def MAC_BR_SHORT : Nat := 0x0A00004
/-- Offset of MAC_CTRLQ in BAR0. -/
def MAC_CTRLQ : Nat := 0x0A00008
/-- Offset of MAC_RETRY in BAR0. -/
def MAC_RETRY : Nat := 0x0A0000C
/-- Offset of MAC_EVT_LIMIT in BAR0. -/
def MAC_EVT_LIMIT : Nat := 0x0A00010
/-- Offset of MAC_FLOOD in BAR0. -/
def MAC_FLOOD : Nat := 0x0A00014
/-- Offset of MAC_FRAG_TAG in BAR0. -/
def MAC_FRAG_TAG : Nat := 0x0A00018
/-- Offset of MAC_REASM in BAR0. -/
def MAC_REASM : Nat := 0x0A0001C
/-- Offset of MAC_REASM_MAX in BAR0. -/
def MAC_REASM_MAX : Nat := 0x0A00020
/-- Offset of MAC_BC_KEY in BAR0. -/
def MAC_BC_KEY : Nat := 0x0A00024
/-- Offset of MAC_BC_FC in BAR0. -/
def MAC_BC_FC : Nat := 0x0A00028
/-- Offset of MAC_IPHC_PFX_A in BAR0. -/
def MAC_IPHC_PFX_A (i : Nat) : Nat := 0x0A00100 + 0x10 * i
/-- Offset of MAC_IPHC_PFX_B in BAR0. -/
def MAC_IPHC_PFX_B (i : Nat) : Nat := 0x0A00104 + 0x10 * i
/-- Offset of MAC_IPHC_CFG in BAR0. -/
def MAC_IPHC_CFG (i : Nat) : Nat := 0x0A00108 + 0x10 * i
/-- Offset of MAC_CNT in BAR0. -/
def MAC_CNT (m : Nat) : Nat := 0x0A00400 + 0x4 * m
/-- Offset of TBL_EM_SEED0 in BAR0. -/
def TBL_EM_SEED0 : Nat := 0x0B00000
/-- Offset of TBL_EM_SEED1 in BAR0. -/
def TBL_EM_SEED1 : Nat := 0x0B00004
/-- Offset of TBL_EM_STATUS in BAR0. -/
def TBL_EM_STATUS : Nat := 0x0B00008
/-- Offset of TBL_EM_OVF in BAR0. -/
def TBL_EM_OVF : Nat := 0x0B0000C
/-- Offset of TBL_LPM_STATUS in BAR0. -/
def TBL_LPM_STATUS : Nat := 0x0B00010
/-- Offset of TBL_SEEN_STATUS in BAR0. -/
def TBL_SEEN_STATUS : Nat := 0x0B00014
/-- Offset of TBL_LEARN in BAR0. -/
def TBL_LEARN : Nat := 0x0B00018
/-- Offset of TBL_LOCK_MAX in BAR0. -/
def TBL_LOCK_MAX : Nat := 0x0B00020
/-- Offset of TBL_EVT_LIMIT in BAR0. -/
def TBL_EVT_LIMIT : Nat := 0x0B00024
/-- Offset of TBL_LOCK in BAR0. -/
def TBL_LOCK (t : Nat) (h : Nat) : Nat := 0x0B00040 + 0x8 * t + 0x4 * h
/-- Offset of TBL_LOCK_WAIT in BAR0. -/
def TBL_LOCK_WAIT (t : Nat) : Nat := 0x0B00060 + 0x4 * t
/-- Offset of TBL_CNT in BAR0. -/
def TBL_CNT (m : Nat) : Nat := 0x0B00400 + 0x4 * m
/-- Offset of TBL_NH_LO in BAR0. -/
def TBL_NH_LO (n : Nat) : Nat := 0x0B01000 + 0x8 * n
/-- Offset of TBL_NH_HI in BAR0. -/
def TBL_NH_HI (n : Nat) : Nat := 0x0B01004 + 0x8 * n
/-- Offset of TBL_MESH_PFX_A in BAR0. -/
def TBL_MESH_PFX_A (c : Nat) : Nat := 0x0B02000 + 0x8 * c
/-- Offset of TBL_MESH_PFX_B in BAR0. -/
def TBL_MESH_PFX_B (c : Nat) : Nat := 0x0B02004 + 0x8 * c
/-- Offset of QUE_POOL in BAR0. -/
def QUE_POOL : Nat := 0x0C00000
/-- Offset of QUE_OVF in BAR0. -/
def QUE_OVF : Nat := 0x0C00004
/-- Offset of QUE_OVF_SUM in BAR0. -/
def QUE_OVF_SUM : Nat := 0x0C00008
/-- Offset of QUE_SEL in BAR0. -/
def QUE_SEL : Nat := 0x0C00010
/-- Offset of QUE_INFO in BAR0. -/
def QUE_INFO : Nat := 0x0C00014
/-- Offset of QUE_FILL in BAR0. -/
def QUE_FILL : Nat := 0x0C00018
/-- Offset of QUE_USE in BAR0. -/
def QUE_USE : Nat := 0x0C0001C
/-- Offset of QUE_USE_OVF in BAR0. -/
def QUE_USE_OVF : Nat := 0x0C00020
/-- Offset of QUE_QUOTA in BAR0. -/
def QUE_QUOTA : Nat := 0x0C00024
/-- Offset of QUE_QUOTA_OVF in BAR0. -/
def QUE_QUOTA_OVF : Nat := 0x0C00028
/-- Offset of QUE_SEQ in BAR0. -/
def QUE_SEQ : Nat := 0x0C0002C
/-- Offset of QUE_REW in BAR0. -/
def QUE_REW : Nat := 0x0C00030
/-- Offset of QUE_HWM_DEPTH in BAR0. -/
def QUE_HWM_DEPTH : Nat := 0x0C00034
/-- Offset of QUE_HWM_SOJ in BAR0. -/
def QUE_HWM_SOJ : Nat := 0x0C00038
/-- Offset of QUE_GAPS in BAR0. -/
def QUE_GAPS : Nat := 0x0C0003C
/-- Offset of QUE_LAST_RESET in BAR0. -/
def QUE_LAST_RESET : Nat := 0x0C00040
/-- Offset of QUE_CNT in BAR0. -/
def QUE_CNT (m : Nat) : Nat := 0x0C00100 + 0x4 * m
/-- Offset of QUE_POP_W in BAR0. -/
def QUE_POP_W (q : Nat) (i : Nat) : Nat := 0x0C08000 + 0x10 * q + 0x4 * i
/-- Offset of TOL_CTRL in BAR0. -/
def TOL_CTRL : Nat := 0x0D00000
/-- Offset of TOL_COUNT in BAR0. -/
def TOL_COUNT : Nat := 0x0D00004
/-- Offset of TOL_SEL in BAR0. -/
def TOL_SEL : Nat := 0x0D00010
/-- Offset of TOL_CIR in BAR0. -/
def TOL_CIR : Nat := 0x0D00014
/-- Offset of TOL_CBS in BAR0. -/
def TOL_CBS : Nat := 0x0D00018
/-- Offset of TOL_PIR in BAR0. -/
def TOL_PIR : Nat := 0x0D0001C
/-- Offset of TOL_PBS in BAR0. -/
def TOL_PBS : Nat := 0x0D00020
/-- Offset of TOL_TC in BAR0. -/
def TOL_TC : Nat := 0x0D00024
/-- Offset of TOL_TP in BAR0. -/
def TOL_TP : Nat := 0x0D00028
/-- Offset of TOL_HWM_DEPTH in BAR0. -/
def TOL_HWM_DEPTH : Nat := 0x0D0002C
/-- Offset of TOL_HWM_SOJ in BAR0. -/
def TOL_HWM_SOJ : Nat := 0x0D00030
/-- Offset of TOL_CNT in BAR0. -/
def TOL_CNT (m : Nat) : Nat := 0x0D00100 + 0x4 * m
/-- Offset of TOL_SHAPE_RATE in BAR0. -/
def TOL_SHAPE_RATE (b : Nat) : Nat := 0x0D00800 + 0x100 * b
/-- Offset of TOL_SHAPE_LIMIT in BAR0. -/
def TOL_SHAPE_LIMIT (b : Nat) : Nat := 0x0D00804 + 0x100 * b
/-- Offset of TOL_SHAPE_BURST in BAR0. -/
def TOL_SHAPE_BURST (b : Nat) : Nat := 0x0D00808 + 0x100 * b
/-- Offset of TOL_SHAPE_LEVEL in BAR0. -/
def TOL_SHAPE_LEVEL (b : Nat) : Nat := 0x0D0080C + 0x100 * b
/-- Offset of TOL_SHAPE_CNT in BAR0. -/
def TOL_SHAPE_CNT (b : Nat) : Nat := 0x0D00810 + 0x100 * b
/-- Offset of KEY_LC in BAR0. -/
def KEY_LC : Nat := 0x0E00000
/-- Offset of KEY_UID_LO in BAR0. -/
def KEY_UID_LO : Nat := 0x0E00004
/-- Offset of KEY_UID_HI in BAR0. -/
def KEY_UID_HI : Nat := 0x0E00008
/-- Offset of KEY_PART0 in BAR0. -/
def KEY_PART0 : Nat := 0x0E00010
/-- Offset of KEY_PART1 in BAR0. -/
def KEY_PART1 : Nat := 0x0E00014
/-- Offset of KEY_SLOT_SEL in BAR0. -/
def KEY_SLOT_SEL : Nat := 0x0E00020
/-- Offset of KEY_SLOT_INFO in BAR0. -/
def KEY_SLOT_INFO : Nat := 0x0E00024
/-- Offset of KEY_SLOT_PARENT in BAR0. -/
def KEY_SLOT_PARENT : Nat := 0x0E00028
/-- Offset of KEY_SLOT_OWNER in BAR0. -/
def KEY_SLOT_OWNER : Nat := 0x0E0002C
/-- Offset of KEY_MASTER in BAR0. -/
def KEY_MASTER : Nat := 0x0E00030
/-- Offset of KEY_NODE_USE in BAR0. -/
def KEY_NODE_USE : Nat := 0x0E00034
/-- Offset of KEY_ALARM in BAR0. -/
def KEY_ALARM : Nat := 0x0E00040
/-- Offset of KEY_RETAIN in BAR0. -/
def KEY_RETAIN (i : Nat) : Nat := 0x0E00080 + 0x4 * i
/-- Offset of KEY_CNT in BAR0. -/
def KEY_CNT (m : Nat) : Nat := 0x0E00100 + 0x4 * m
/-- Offset of CIP_CTRL in BAR0. -/
def CIP_CTRL : Nat := 0x0F00000
/-- Offset of CIP_STATUS in BAR0. -/
def CIP_STATUS : Nat := 0x0F00004
/-- Offset of CIP_QUEUE in BAR0. -/
def CIP_QUEUE : Nat := 0x0F00008
/-- Offset of CIP_CORE in BAR0. -/
def CIP_CORE (i : Nat) : Nat := 0x0F00100 + 0x10 * i
/-- Offset of CIP_CORE_JOBS in BAR0. -/
def CIP_CORE_JOBS (i : Nat) : Nat := 0x0F00104 + 0x10 * i
/-- Offset of CIP_CORE_TEST in BAR0. -/
def CIP_CORE_TEST (i : Nat) : Nat := 0x0F00108 + 0x10 * i
/-- Offset of CIP_CNT in BAR0. -/
def CIP_CNT (m : Nat) : Nat := 0x0F00400 + 0x4 * m
/-- Offset of CHK_CFG in BAR0. -/
def CHK_CFG (n : Nat) : Nat := 0x1000000 + 0x20 * n
/-- Offset of CHK_VALUE in BAR0. -/
def CHK_VALUE (n : Nat) : Nat := 0x1000004 + 0x20 * n
/-- Offset of CHK_STATE in BAR0. -/
def CHK_STATE (n : Nat) : Nat := 0x1000008 + 0x20 * n
/-- Offset of CHK_CNT in BAR0. -/
def CHK_CNT (n : Nat) (m : Nat) : Nat := 0x1000010 + 0x20 * n + 0x4 * m
/-- Offset of CHK_HB1 in BAR0. -/
def CHK_HB1 : Nat := 0x1000100
/-- Offset of CHK_SCRUB in BAR0. -/
def CHK_SCRUB : Nat := 0x1000200
/-- Offset of CHK_SCRUB_POS in BAR0. -/
def CHK_SCRUB_POS : Nat := 0x1000204
/-- Offset of CHK_SCRUB_PASSES in BAR0. -/
def CHK_SCRUB_PASSES : Nat := 0x1000208
/-- Offset of CHK_SCRUB_BAD in BAR0. -/
def CHK_SCRUB_BAD : Nat := 0x100020C
/-- Offset of CHK_SCRUB_LAST in BAR0. -/
def CHK_SCRUB_LAST : Nat := 0x1000210
/-- Offset of BOOT_STATUS in BAR0. -/
def BOOT_STATUS : Nat := 0x1100000
/-- Offset of BOOT_TIME in BAR0. -/
def BOOT_TIME : Nat := 0x1100004
/-- Offset of BOOT_BANK_FAIL in BAR0. -/
def BOOT_BANK_FAIL (b : Nat) : Nat := 0x1100010 + 0x4 * b
/-- Offset of BOOT_LOADER_VER in BAR0. -/
def BOOT_LOADER_VER : Nat := 0x1100020
/-- Offset of BOOT_FW_VER in BAR0. -/
def BOOT_FW_VER : Nat := 0x1100024
/-- Offset of BOOT_MR in BAR0. -/
def BOOT_MR (n : Nat) (i : Nat) : Nat := 0x1100100 + 0x20 * n + 0x4 * i
/-- Offset of BOOT_ATTEST_CNT in BAR0. -/
def BOOT_ATTEST_CNT : Nat := 0x1100200
/-- Offset of UPD_CTRL in BAR0. -/
def UPD_CTRL : Nat := 0x1200000
/-- Offset of UPD_CHAIN_CFG in BAR0. -/
def UPD_CHAIN_CFG : Nat := 0x1200004
/-- Offset of UPD_STATUS in BAR0. -/
def UPD_STATUS : Nat := 0x1200008
/-- Offset of UPD_IMAGE in BAR0. -/
def UPD_IMAGE : Nat := 0x120000C
/-- Offset of UPD_PROGRESS in BAR0. -/
def UPD_PROGRESS : Nat := 0x1200010
/-- Offset of UPD_BANK in BAR0. -/
def UPD_BANK : Nat := 0x1200014
/-- Offset of UPD_TRIAL in BAR0. -/
def UPD_TRIAL : Nat := 0x1200018
/-- Offset of UPD_HOP in BAR0. -/
def UPD_HOP (n : Nat) : Nat := 0x1200100 + 0x4 * n
/-- Offset of UPD_CNT in BAR0. -/
def UPD_CNT (m : Nat) : Nat := 0x1200200 + 0x4 * m
/-- Offset of RED_CTRL in BAR0. -/
def RED_CTRL : Nat := 0x1300000
/-- Offset of RED_STATUS in BAR0. -/
def RED_STATUS : Nat := 0x1300004
/-- Offset of RED_MISS in BAR0. -/
def RED_MISS : Nat := 0x1300008
/-- Offset of RED_PEER_MAC_LO in BAR0. -/
def RED_PEER_MAC_LO : Nat := 0x1300010
/-- Offset of RED_PEER_MAC_HI in BAR0. -/
def RED_PEER_MAC_HI : Nat := 0x1300014
/-- Offset of RED_RSB_LO in BAR0. -/
def RED_RSB_LO : Nat := 0x1300018
/-- Offset of RED_RSB_HI in BAR0. -/
def RED_RSB_HI : Nat := 0x130001C
/-- Offset of RED_PEER_UID_LO in BAR0. -/
def RED_PEER_UID_LO : Nat := 0x1300020
/-- Offset of RED_PEER_UID_HI in BAR0. -/
def RED_PEER_UID_HI : Nat := 0x1300024
/-- Offset of RED_PEER_PHASE in BAR0. -/
def RED_PEER_PHASE : Nat := 0x1300028
/-- Offset of RED_LAST in BAR0. -/
def RED_LAST : Nat := 0x1300030
/-- Offset of RED_LAST_TICK_LO in BAR0. -/
def RED_LAST_TICK_LO : Nat := 0x1300034
/-- Offset of RED_LAST_TICK_HI in BAR0. -/
def RED_LAST_TICK_HI : Nat := 0x1300038
/-- Offset of RED_CNT in BAR0. -/
def RED_CNT (m : Nat) : Nat := 0x1300100 + 0x4 * m
/-- Offset of EVR_CTRL in BAR0. -/
def EVR_CTRL : Nat := 0x1400000
/-- Offset of EVR_STATUS in BAR0. -/
def EVR_STATUS : Nat := 0x1400004
/-- Offset of EVR_OLDEST in BAR0. -/
def EVR_OLDEST : Nat := 0x1400008
/-- Offset of EVR_NEWEST in BAR0. -/
def EVR_NEWEST : Nat := 0x140000C
/-- Offset of EVR_USED in BAR0. -/
def EVR_USED : Nat := 0x1400010
/-- Offset of EVR_GEN_USED in BAR0. -/
def EVR_GEN_USED : Nat := 0x1400014
/-- Offset of EVR_DROP in BAR0. -/
def EVR_DROP (s : Nat) : Nat := 0x1400020 + 0x4 * s
/-- Offset of HIF_STATUS in BAR0. -/
def HIF_STATUS : Nat := 0x1500000
/-- Offset of HIF_BAR2_ERR in BAR0. -/
def HIF_BAR2_ERR : Nat := 0x1500004
/-- Offset of HIF_WINDOW in BAR0. -/
def HIF_WINDOW : Nat := 0x1500008
/-- Offset of HIF_RING_BASE_LO in BAR0. -/
def HIF_RING_BASE_LO (k : Nat) : Nat := 0x1500100 + 0x20 * k
/-- Offset of HIF_RING_BASE_HI in BAR0. -/
def HIF_RING_BASE_HI (k : Nat) : Nat := 0x1500104 + 0x20 * k
/-- Offset of HIF_RING_CFG in BAR0. -/
def HIF_RING_CFG (k : Nat) : Nat := 0x1500108 + 0x20 * k
/-- Offset of HIF_RING_PROD in BAR0. -/
def HIF_RING_PROD (k : Nat) : Nat := 0x150010C + 0x20 * k
/-- Offset of HIF_RING_CONS in BAR0. -/
def HIF_RING_CONS (k : Nat) : Nat := 0x1500110 + 0x20 * k
/-- Offset of HIF_INT_STATUS in BAR0. -/
def HIF_INT_STATUS : Nat := 0x1500400
/-- Offset of HIF_INT_EN in BAR0. -/
def HIF_INT_EN : Nat := 0x1500404
/-- Offset of HIF_INT_VEC in BAR0. -/
def HIF_INT_VEC (c : Nat) : Nat := 0x1500500 + 0x4 * c
/-- Offset of HIF_INT_MOD in BAR0. -/
def HIF_INT_MOD (v : Nat) : Nat := 0x1500600 + 0x4 * v
/-- Offset of HIF_CNT in BAR0. -/
def HIF_CNT (m : Nat) : Nat := 0x1500800 + 0x4 * m
/-- Offset of ETH_CTRL in BAR0. -/
def ETH_CTRL (p : Nat) : Nat := 0x1600000 + 0x100 * p
/-- Offset of ETH_STATUS in BAR0. -/
def ETH_STATUS (p : Nat) : Nat := 0x1600004 + 0x100 * p
/-- Offset of ETH_MAC_LO in BAR0. -/
def ETH_MAC_LO (p : Nat) : Nat := 0x1600008 + 0x100 * p
/-- Offset of ETH_MAC_HI in BAR0. -/
def ETH_MAC_HI (p : Nat) : Nat := 0x160000C + 0x100 * p
/-- Offset of ETH_PTP in BAR0. -/
def ETH_PTP (p : Nat) : Nat := 0x1600010 + 0x100 * p
/-- Offset of ETH_CNT in BAR0. -/
def ETH_CNT (p : Nat) (m : Nat) : Nat := 0x1600040 + 0x100 * p + 0x4 * m
/-- Offset of PIN_FN in BAR0. -/
def PIN_FN (n : Nat) : Nat := 0x1700000 + 0x4 * n
/-- Offset of PIN_GPIO_OE in BAR0. -/
def PIN_GPIO_OE : Nat := 0x1700080
/-- Offset of PIN_GPIO_OUT in BAR0. -/
def PIN_GPIO_OUT : Nat := 0x1700084
/-- Offset of PIN_GPIO_IN in BAR0. -/
def PIN_GPIO_IN : Nat := 0x1700088
/-- Offset of PIN_GPIO_PD in BAR0. -/
def PIN_GPIO_PD : Nat := 0x1700090
/-- Offset of PIN_GPIO_PU in BAR0. -/
def PIN_GPIO_PU : Nat := 0x1700094
/-- Offset of PIN_FEM_FN in BAR0. -/
def PIN_FEM_FN (b : Nat) : Nat := 0x17000A0 + 0x4 * b
/-- Offset of PIN_FEM_LEVEL in BAR0. -/
def PIN_FEM_LEVEL : Nat := 0x17000A8
/-- Offset of PIN_STATUS in BAR0. -/
def PIN_STATUS : Nat := 0x17000B0
end Reg

/-- Registers of the SYS block. -/
def sysRegs0 : List RegSpec := [
  ⟨"SYS_ID", 0x0000000, 0x0, 1, 0x0, 1, [⟨"PART", 31, 16, .ro, 0x9264⟩, ⟨"VENDOR", 15, 0, .ro, 0x5A0E⟩]⟩,
  ⟨"SYS_REV", 0x0000004, 0x0, 1, 0x0, 1, [⟨"MAJOR", 7, 4, .ro, 0x2⟩, ⟨"MINOR", 3, 0, .ro, 0x0⟩]⟩,
  ⟨"SYS_STATUS", 0x0000010, 0x0, 1, 0x0, 1, [⟨"ILK_IN", 9, 9, .ro, 0x0⟩, ⟨"ILK_OUT", 8, 8, .ro, 0x0⟩, ⟨"ALARM_STICKY", 5, 5, .ro, 0x0⟩, ⟨"HOLDOVER", 4, 4, .ro, 0x0⟩, ⟨"SYS_STATE", 3, 0, .ro, 0x0⟩]⟩,
  ⟨"SYS_RESET_CAUSE", 0x0000014, 0x0, 1, 0x0, 1, [⟨"WATCHDOG", 3, 3, .rws, 0x0⟩, ⟨"WARM", 2, 2, .rws, 0x0⟩, ⟨"PIN", 1, 1, .ro, 0x0⟩, ⟨"POWER", 0, 0, .ro, 0x1⟩]⟩,
  ⟨"SYS_CTRL", 0x0000020, 0x0, 1, 0x0, 1, [⟨"KEY", 31, 16, .wo, 0x0⟩, ⟨"WARM_RESET", 0, 0, .wo, 0x0⟩]⟩,
  ⟨"SYS_FAULT", 0x0000030, 0x0, 1, 0x0, 1, [⟨"ALARM_SEEN", 31, 31, .rws, 0x0⟩, ⟨"BLOCK", 23, 16, .rws, 0x0⟩, ⟨"CAUSE", 15, 0, .rws, 0x0⟩]⟩,
  ⟨"SYS_ECC", 0x0000034, 0x0, 1, 0x0, 1, [⟨"CORRECTED", 15, 0, .w1c, 0x0⟩]⟩]

/-- All registers of the SYS block. -/
def sysRegs : List RegSpec := sysRegs0

/-- Registers of the TIME block. -/
def timeRegs0 : List RegSpec := [
  ⟨"TIME_TICK_PERIOD", 0x0100000, 0x0, 1, 0x0, 1, [⟨"PERIOD", 14, 0, .ro, 0x0⟩]⟩,
  ⟨"TIME_SLOT_MULT", 0x0100004, 0x0, 1, 0x0, 1, [⟨"K_B", 12, 8, .ro, 0x0⟩, ⟨"K_A", 4, 0, .ro, 0x0⟩]⟩,
  ⟨"TIME_DTIME_LO", 0x0100010, 0x0, 1, 0x0, 1, [⟨"DTIME_LO", 31, 0, .ro, 0x0⟩]⟩,
  ⟨"TIME_DTIME_HI", 0x0100014, 0x0, 1, 0x0, 1, [⟨"DTIME_HI", 31, 0, .ro, 0x0⟩]⟩,
  ⟨"TIME_TICKNO_LO", 0x0100018, 0x0, 1, 0x0, 1, [⟨"TICKNO_LO", 31, 0, .ro, 0x0⟩]⟩,
  ⟨"TIME_TICKNO_HI", 0x010001C, 0x0, 1, 0x0, 1, [⟨"TICKNO_HI", 15, 0, .ro, 0x0⟩]⟩,
  ⟨"TIME_SRC", 0x0100040, 0x0, 1, 0x0, 1, [⟨"LOCKED", 12, 12, .ro, 0x0⟩, ⟨"SELECTED", 9, 8, .ro, 0x0⟩, ⟨"BEACON_OK", 6, 6, .ro, 0x0⟩, ⟨"PTP_OK", 5, 5, .ro, 0x0⟩, ⟨"PPS_OK", 4, 4, .ro, 0x0⟩, ⟨"ROLE", 1, 0, .ro, 0x0⟩]⟩,
  ⟨"TIME_PHASE_ERR", 0x0100044, 0x0, 1, 0x0, 1, [⟨"ERR", 31, 0, .ro, 0x0⟩]⟩,
  ⟨"TIME_FREQ_ADJ", 0x0100048, 0x0, 1, 0x0, 1, [⟨"ADJ", 31, 0, .ro, 0x0⟩]⟩,
  ⟨"TIME_HOLD", 0x0100050, 0x0, 1, 0x0, 1, [⟨"CAPPED", 31, 31, .ro, 0x0⟩, ⟨"EXTRA_GUARD", 15, 0, .ro, 0x0⟩]⟩,
  ⟨"TIME_PPS_CTRL", 0x0100060, 0x0, 1, 0x0, 1, [⟨"WIDTH", 8, 1, .rw, 0x64⟩, ⟨"PPS_OUT_EN", 0, 0, .rw, 0x0⟩]⟩,
  ⟨"TIME_LATE", 0x0100080, 0x4, 6, 0x0, 1, [⟨"COUNT", 15, 0, .w1c, 0x0⟩]⟩]

/-- All registers of the TIME block. -/
def timeRegs : List RegSpec := timeRegs0

/-- Registers of the TRUSS block. -/
def trussRegs0 : List RegSpec := [
  ⟨"TRUSS_STATUS", 0x0200000, 0x0, 1, 0x0, 1, [⟨"LAST_STATUS", 31, 24, .ro, 0x0⟩, ⟨"SOURCE", 9, 8, .ro, 0x0⟩, ⟨"PROFILE", 1, 1, .ro, 0x0⟩, ⟨"LOADED", 0, 0, .ro, 0x0⟩]⟩,
  ⟨"TRUSS_ID", 0x0200004, 0x0, 1, 0x0, 1, [⟨"ID", 31, 0, .ro, 0x0⟩]⟩,
  ⟨"TRUSS_LEN", 0x0200008, 0x0, 1, 0x0, 1, [⟨"LENGTH", 18, 0, .ro, 0x0⟩]⟩,
  ⟨"TRUSS_DOMAIN", 0x020000C, 0x0, 1, 0x0, 1, [⟨"BR_ID", 21, 16, .ro, 0x0⟩, ⟨"DOMAIN_ID", 15, 0, .ro, 0x0⟩]⟩,
  ⟨"TRUSS_DIGEST", 0x0200010, 0x4, 8, 0x0, 1, [⟨"DIGEST", 31, 0, .ro, 0x0⟩]⟩,
  ⟨"TRUSS_REJECT", 0x0200040, 0x0, 1, 0x0, 1, [⟨"STATUS", 31, 24, .ro, 0x0⟩, ⟨"REASON", 23, 16, .ro, 0x0⟩, ⟨"SECTION", 15, 0, .ro, 0x0⟩]⟩,
  ⟨"TRUSS_REJECT_OFS", 0x0200044, 0x0, 1, 0x0, 1, [⟨"OFFSET", 17, 0, .ro, 0x0⟩]⟩,
  ⟨"TRUSS_SEC_SEL", 0x0200050, 0x0, 1, 0x0, 1, [⟨"TYPE", 15, 0, .rw, 0x1⟩]⟩,
  ⟨"TRUSS_SEC_SERIAL", 0x0200054, 0x0, 1, 0x0, 1, [⟨"SERIAL", 31, 0, .ro, 0x0⟩]⟩,
  ⟨"TRUSS_SEC_INFO", 0x0200058, 0x0, 1, 0x0, 1, [⟨"MUTABLE", 31, 31, .ro, 0x0⟩, ⟨"LENGTH", 17, 0, .ro, 0x0⟩]⟩,
  ⟨"TRUSS_SEC_COMMITS", 0x020005C, 0x0, 1, 0x0, 1, [⟨"COUNT", 15, 0, .w1c, 0x0⟩]⟩]

/-- All registers of the TRUSS block. -/
def trussRegs : List RegSpec := trussRegs0

/-- Registers of the SPAN block. -/
def spanRegs0 : List RegSpec := [
  ⟨"SPAN_VIS", 0x0300000, 0x0, 1, 0x0, 1, [⟨"VIS", 15, 0, .ro, 0x0⟩]⟩,
  ⟨"SPAN_FREE", 0x0300004, 0x0, 1, 0x0, 1, [⟨"CLEANING", 31, 16, .ro, 0x0⟩, ⟨"FREE", 15, 0, .ro, 0xFFFF⟩]⟩,
  ⟨"SPAN_ITEMS_USED", 0x0300008, 0x0, 1, 0x0, 1, [⟨"USED", 16, 0, .ro, 0x0⟩]⟩,
  ⟨"SPAN_COUNT", 0x0300020, 0x4, 5, 0x0, 1, [⟨"COUNT", 15, 0, .w1c, 0x0⟩]⟩,
  ⟨"SPAN_INFO", 0x0300100, 0x10, 16, 0x0, 1, [⟨"CONFLICT_SEEN", 31, 31, .ro, 0x0⟩, ⟨"ALIGN_FORWARD", 30, 30, .ro, 0x0⟩, ⟨"EPOCH_BOUND", 29, 29, .ro, 0x0⟩, ⟨"CLEAN", 28, 28, .ro, 0x1⟩, ⟨"STATE", 26, 24, .ro, 0x4⟩, ⟨"ITEMS", 13, 0, .ro, 0x0⟩]⟩,
  ⟨"SPAN_TARGET_LO", 0x0300104, 0x10, 16, 0x0, 1, [⟨"TARGET_LO", 31, 0, .ro, 0x0⟩]⟩,
  ⟨"SPAN_TARGET_HI", 0x0300108, 0x10, 16, 0x0, 1, [⟨"TARGET_HI", 15, 0, .ro, 0x0⟩]⟩,
  ⟨"SPAN_LAST", 0x030010C, 0x10, 16, 0x0, 1, [⟨"STATUS", 31, 24, .ro, 0x7⟩, ⟨"FIRST_BAD", 15, 0, .ro, 0xFFFF⟩]⟩]

/-- All registers of the SPAN block. -/
def spanRegs : List RegSpec := spanRegs0

/-- Registers of the RXF block. -/
def rxfRegs0 : List RegSpec := [
  ⟨"RXF_CTRL", 0x0400000, 0x100, 2, 0x0, 1, [⟨"HR_HOLD", 1, 1, .rw, 0x0⟩, ⟨"PRESENT", 0, 0, .ro, 0x0⟩]⟩,
  ⟨"RXF_GAIN", 0x0400004, 0x100, 2, 0x0, 1, [⟨"PENDING", 31, 31, .ro, 0x0⟩, ⟨"DIR", 30, 30, .ro, 0x0⟩, ⟨"REQ", 21, 16, .rw, 0xA⟩, ⟨"GAIN", 5, 0, .ro, 0xA⟩]⟩,
  ⟨"RXF_LEVEL", 0x0400008, 0x100, 2, 0x0, 1, [⟨"PEAK", 31, 16, .ro, 0x0⟩, ⟨"MEAN", 15, 0, .ro, 0x0⟩]⟩,
  ⟨"RXF_HR_THR", 0x040000C, 0x100, 2, 0x0, 1, [⟨"UP_TICKS", 23, 16, .rw, 0x10⟩, ⟨"UP_THR", 15, 8, .rw, 0xE2⟩, ⟨"DOWN_THR", 7, 0, .rw, 0xFA⟩]⟩,
  ⟨"RXF_DET", 0x0400010, 0x0, 1, 0x0, 1, [⟨"ED_FLOOR", 23, 16, .rw, 0x8C⟩, ⟨"DET_THR", 7, 0, .rw, 0x9A⟩]⟩,
  ⟨"RXF_DET", 0x0400110, 0x0, 1, 0x0, 1, [⟨"ED_FLOOR", 23, 16, .rw, 0x96⟩, ⟨"DET_THR", 7, 0, .rw, 0x9A⟩]⟩,
  ⟨"RXF_WINDOW", 0x0400014, 0x100, 2, 0x0, 1, [⟨"CENTRE", 31, 0, .ro, 0x0⟩]⟩,
  ⟨"RXF_RASTER", 0x0400018, 0x100, 2, 0x0, 1, [⟨"RASTER", 22, 0, .ro, 0x0⟩]⟩,
  ⟨"RXF_FIRST", 0x040001C, 0x100, 2, 0x0, 1, [⟨"FIRST", 31, 0, .ro, 0x0⟩]⟩,
  ⟨"RXF_CHAN", 0x0400020, 0x100, 2, 0x0, 1, [⟨"COUNT", 10, 0, .ro, 0x0⟩]⟩,
  ⟨"RXF_CNT", 0x0400040, 0x100, 2, 0x4, 5, [⟨"COUNT", 31, 0, .w1c, 0x0⟩]⟩]

/-- All registers of the RXF block. -/
def rxfRegs : List RegSpec := rxfRegs0

/-- Registers of the PIER block. -/
def pierRegs0 : List RegSpec := [
  ⟨"PIER_SPLIT", 0x0500000, 0x0, 1, 0x0, 1, [⟨"TWIN", 23, 16, .ro, 0x0⟩, ⟨"PIERS_B", 15, 8, .ro, 0x0⟩, ⟨"PIERS_A", 7, 0, .ro, 0x0⟩]⟩,
  ⟨"PIER_CAPTURE", 0x0500004, 0x0, 1, 0x0, 1, [⟨"MARGIN", 7, 0, .ro, 0x0⟩]⟩,
  ⟨"PIER_BUSY_LO", 0x0500010, 0x0, 1, 0x0, 1, [⟨"BUSY", 31, 0, .ro, 0x0⟩]⟩,
  ⟨"PIER_BUSY_HI", 0x0500014, 0x0, 1, 0x0, 1, [⟨"BUSY", 31, 0, .ro, 0x0⟩]⟩,
  ⟨"PIER_TWIN_FREE", 0x0500018, 0x0, 1, 0x0, 1, [⟨"FREE", 6, 0, .ro, 0x0⟩]⟩,
  ⟨"PIER_STATE", 0x0500100, 0x10, 64, 0x0, 1, [⟨"ROLE", 31, 30, .ro, 0x0⟩, ⟨"BAND", 29, 29, .ro, 0x0⟩, ⟨"CHANNEL", 25, 16, .ro, 0x0⟩, ⟨"STATE", 10, 8, .ro, 0x0⟩, ⟨"PARTNER", 5, 0, .ro, 0x0⟩]⟩,
  ⟨"PIER_MEAS", 0x0500104, 0x10, 64, 0x0, 1, [⟨"RSSI", 27, 16, .ro, 0x0⟩, ⟨"FLOOR", 11, 0, .ro, 0x0⟩]⟩,
  ⟨"PIER_CFO", 0x0500108, 0x10, 64, 0x0, 1, [⟨"CFO", 23, 0, .ro, 0x0⟩]⟩,
  ⟨"PIER_FRAMES", 0x050010C, 0x10, 64, 0x0, 1, [⟨"COUNT", 31, 0, .w1c, 0x0⟩]⟩,
  ⟨"PIER_CNT", 0x0500800, 0x80, 2, 0x4, 15, [⟨"COUNT", 31, 0, .w1c, 0x0⟩]⟩]

/-- All registers of the PIER block. -/
def pierRegs : List RegSpec := pierRegs0

/-- Registers of the TXC block. -/
def txcRegs0 : List RegSpec := [
  ⟨"TXC_CTRL", 0x0600000, 0x0, 1, 0x0, 1, [⟨"RAMP", 13, 8, .rw, 0x10⟩, ⟨"EN", 0, 0, .rw, 0x1⟩]⟩,
  ⟨"TXC_CTRL", 0x0600100, 0x0, 1, 0x0, 1, [⟨"RAMP", 13, 8, .rw, 0x10⟩, ⟨"EN", 0, 0, .rw, 0x1⟩]⟩,
  ⟨"TXC_CTRL", 0x0600200, 0x0, 1, 0x0, 1, [⟨"RAMP", 13, 8, .rw, 0x4⟩, ⟨"EN", 0, 0, .rw, 0x1⟩]⟩,
  ⟨"TXC_CTRL", 0x0600300, 0x0, 1, 0x0, 1, [⟨"RAMP", 13, 8, .rw, 0x4⟩, ⟨"EN", 0, 0, .rw, 0x1⟩]⟩,
  ⟨"TXC_STATUS", 0x0600004, 0x100, 4, 0x0, 1, [⟨"LOCKED", 31, 31, .ro, 0x0⟩, ⟨"CAL_BLOCK", 30, 30, .ro, 0x0⟩, ⟨"STATE", 26, 24, .ro, 0x7⟩, ⟨"CHANNEL", 9, 0, .ro, 0x0⟩]⟩,
  ⟨"TXC_FREQ", 0x0600008, 0x100, 4, 0x0, 1, [⟨"FREQ", 31, 0, .ro, 0x0⟩]⟩,
  ⟨"TXC_PRE", 0x060000C, 0x100, 4, 0x0, 1, [⟨"PRE", 23, 0, .ro, 0x0⟩]⟩,
  ⟨"TXC_LASTPWR", 0x0600010, 0x100, 4, 0x0, 1, [⟨"POWER", 11, 0, .ro, 0x0⟩]⟩,
  ⟨"TXC_SLIP", 0x0600014, 0x100, 4, 0x0, 1, [⟨"LAST", 16, 0, .ro, 0x0⟩]⟩,
  ⟨"TXC_SLIP_MAX", 0x0600018, 0x100, 4, 0x0, 1, [⟨"MAX", 16, 0, .w1c, 0x0⟩]⟩,
  ⟨"TXC_CNT", 0x0600040, 0x100, 4, 0x4, 8, [⟨"COUNT", 31, 0, .w1c, 0x0⟩]⟩,
  ⟨"TXC_PWR", 0x0600800, 0x100, 2, 0x0, 1, [⟨"MAXP", 27, 16, .ro, 0x0⟩, ⟨"DEFAULT", 11, 0, .rw, 0x0⟩]⟩]

/-- Registers of the TXC block. -/
def txcRegs1 : List RegSpec := [
  ⟨"TXC_PRECORR", 0x0600804, 0x0, 1, 0x0, 1, [⟨"EN", 31, 31, .rw, 0x1⟩, ⟨"LIMIT", 19, 0, .rw, 0xEA60⟩]⟩,
  ⟨"TXC_PRECORR", 0x0600904, 0x0, 1, 0x0, 1, [⟨"EN", 31, 31, .rw, 0x1⟩, ⟨"LIMIT", 19, 0, .rw, 0x30D40⟩]⟩,
  ⟨"TXC_FEM", 0x0600808, 0x100, 2, 0x0, 1, [⟨"GPO", 29, 24, .rw, 0x0⟩, ⟨"FEM_LEAD", 23, 16, .rw, 0xA⟩, ⟨"FEM_LAG", 15, 8, .rw, 0x2⟩, ⟨"BLANK_TAIL", 7, 0, .rw, 0xA⟩]⟩,
  ⟨"TXC_COEX", 0x060080C, 0x100, 2, 0x0, 1, [⟨"EN", 31, 31, .rw, 0x0⟩, ⟨"GNT", 30, 30, .ro, 0x0⟩, ⟨"PRI_RANK", 27, 24, .rw, 0x5⟩, ⟨"REQ_LEAD", 15, 0, .rw, 0x64⟩]⟩,
  ⟨"TXC_LWT", 0x0600810, 0x100, 2, 0x0, 1, [⟨"ACTIVE", 16, 16, .ro, 0x0⟩, ⟨"EXCL", 15, 8, .ro, 0x0⟩, ⟨"ISO", 7, 0, .ro, 0x0⟩]⟩,
  ⟨"TXC_ACK_NOCHAIN", 0x0600820, 0x100, 2, 0x0, 1, [⟨"COUNT", 31, 0, .w1c, 0x0⟩]⟩]

/-- All registers of the TXC block. -/
def txcRegs : List RegSpec := txcRegs0 ++ txcRegs1

/-- Registers of the CAL block. -/
def calRegs0 : List RegSpec := [
  ⟨"CAL_CTRL", 0x0700000, 0x0, 1, 0x0, 1, [⟨"CR_EN", 3, 3, .rw, 0x1⟩, ⟨"IQDC_EN", 2, 2, .rw, 0x1⟩, ⟨"TXO_EN", 1, 1, .rw, 0x1⟩, ⟨"BG_EN", 0, 0, .rw, 0x1⟩]⟩,
  ⟨"CAL_STATUS", 0x0700004, 0x0, 1, 0x0, 1, [⟨"PROFILE", 31, 31, .ro, 0x0⟩, ⟨"SWEEP_DONE", 3, 0, .ro, 0x0⟩]⟩,
  ⟨"CAL_ENTRY_SEL", 0x0700010, 0x0, 1, 0x0, 1, [⟨"CHAIN", 17, 16, .rw, 0x0⟩, ⟨"ENTRY", 8, 0, .rw, 0x0⟩]⟩,
  ⟨"CAL_ENTRY_DATA", 0x0700014, 0x4, 4, 0x0, 1, [⟨"DATA", 31, 0, .ro, 0x0⟩]⟩,
  ⟨"CAL_TEMP", 0x0700100, 0x40, 4, 0x0, 1, [⟨"REF_TEMP", 27, 16, .ro, 0x0⟩, ⟨"TEMP", 11, 0, .ro, 0x0⟩]⟩,
  ⟨"CAL_STALE", 0x0700104, 0x40, 4, 0x0, 1, [⟨"INVALID", 25, 16, .ro, 0x0⟩, ⟨"STALE", 9, 0, .ro, 0x0⟩]⟩,
  ⟨"CAL_JOB", 0x0700108, 0x40, 4, 0x0, 1, [⟨"STATUS", 31, 24, .ro, 0x0⟩, ⟨"RANK", 23, 20, .ro, 0x0⟩, ⟨"KIND", 17, 16, .ro, 0x0⟩, ⟨"ENTRY", 8, 0, .ro, 0x0⟩]⟩,
  ⟨"CAL_WAIT", 0x070010C, 0x40, 4, 0x0, 1, [⟨"OLDEST", 15, 0, .ro, 0x0⟩]⟩,
  ⟨"CAL_TXO", 0x0700110, 0x40, 4, 0x0, 1, [⟨"FAULT", 31, 31, .ro, 0x0⟩, ⟨"OBS", 27, 16, .ro, 0x0⟩, ⟨"TRIM", 7, 0, .ro, 0x0⟩]⟩,
  ⟨"CAL_CNT", 0x0700120, 0x40, 4, 0x4, 8, [⟨"COUNT", 31, 0, .w1c, 0x0⟩]⟩,
  ⟨"CAL_IQ", 0x0700800, 0x100, 2, 0x0, 1, [⟨"PHASE", 31, 16, .ro, 0x0⟩, ⟨"GAIN", 15, 0, .ro, 0x0⟩]⟩,
  ⟨"CAL_DC", 0x0700804, 0x100, 2, 0x0, 1, [⟨"DC_Q", 31, 16, .ro, 0x0⟩, ⟨"DC_I", 15, 0, .ro, 0x0⟩]⟩]

/-- Registers of the CAL block. -/
def calRegs1 : List RegSpec := [
  ⟨"CAL_IMAGE", 0x0700808, 0x100, 2, 0x0, 1, [⟨"CONVERGED", 16, 16, .ro, 0x0⟩, ⟨"REJECTION", 7, 0, .ro, 0x0⟩]⟩,
  ⟨"CAL_CR_CTRL", 0x0700C00, 0x0, 1, 0x0, 1, [⟨"MIN_NODES", 31, 16, .rw, 0x40⟩, ⟨"WINDOW", 15, 0, .rw, 0xC8⟩]⟩,
  ⟨"CAL_CR_LIMIT", 0x0700C04, 0x0, 1, 0x0, 1, [⟨"STEP", 31, 16, .rw, 0x32⟩, ⟨"LIMIT", 15, 0, .rw, 0x7D0⟩]⟩,
  ⟨"CAL_CR_BASE", 0x0700C08, 0x0, 1, 0x0, 1, [⟨"BASE", 31, 0, .rw, 0x0⟩]⟩,
  ⟨"CAL_CR_MEDIAN", 0x0700C0C, 0x0, 1, 0x0, 1, [⟨"MEDIAN", 31, 0, .ro, 0x0⟩]⟩,
  ⟨"CAL_CR_EST", 0x0700C10, 0x0, 1, 0x0, 1, [⟨"TERM", 31, 0, .ro, 0x0⟩]⟩,
  ⟨"CAL_CR_COUNT", 0x0700C14, 0x0, 1, 0x0, 1, [⟨"VALID", 31, 31, .ro, 0x0⟩, ⟨"SAMPLES", 17, 0, .ro, 0x0⟩]⟩]

/-- All registers of the CAL block. -/
def calRegs : List RegSpec := calRegs0 ++ calRegs1

/-- Registers of the PAR block. -/
def parRegs0 : List RegSpec := [
  ⟨"PAR_STATUS", 0x0800000, 0x0, 1, 0x0, 1, [⟨"LAST_STATUS", 31, 24, .ro, 0x0⟩, ⟨"SLOT", 9, 8, .ro, 0x3⟩, ⟨"TORN1", 5, 5, .ro, 0x0⟩, ⟨"TORN0", 4, 4, .ro, 0x0⟩, ⟨"STATE", 1, 0, .ro, 0x0⟩]⟩,
  ⟨"PAR_ID", 0x0800004, 0x0, 1, 0x0, 1, [⟨"ID", 31, 0, .ro, 0x0⟩]⟩,
  ⟨"PAR_DIGEST", 0x0800010, 0x4, 8, 0x0, 1, [⟨"DIGEST", 31, 0, .ro, 0x0⟩]⟩,
  ⟨"PAR_BAND", 0x0800040, 0x4, 2, 0x0, 1, [⟨"EXT_GAIN", 31, 16, .ro, 0x0⟩, ⟨"RANGES", 4, 0, .ro, 0x0⟩]⟩,
  ⟨"PAR_CONT", 0x0800048, 0x4, 2, 0x0, 1, [⟨"RUN", 31, 0, .ro, 0x0⟩]⟩,
  ⟨"PAR_SEL", 0x0800050, 0x0, 1, 0x0, 1, [⟨"BAND", 4, 4, .rw, 0x0⟩, ⟨"RANGE", 3, 0, .rw, 0x0⟩]⟩,
  ⟨"PAR_DUTY_USED", 0x0800054, 0x0, 1, 0x0, 1, [⟨"USED", 31, 0, .ro, 0x0⟩]⟩,
  ⟨"PAR_DUTY_BUDGET", 0x0800058, 0x0, 1, 0x0, 1, [⟨"BUDGET", 31, 0, .ro, 0x0⟩]⟩,
  ⟨"PAR_CNT", 0x0800100, 0x40, 2, 0x4, 9, [⟨"COUNT", 31, 0, .w1c, 0x0⟩]⟩]

/-- All registers of the PAR block. -/
def parRegs : List RegSpec := parRegs0

/-- Registers of the SCH block. -/
def schRegs0 : List RegSpec := [
  ⟨"SCH_EUI_LO", 0x0900000, 0x0, 1, 0x0, 1, [⟨"EUI_LO", 31, 0, .rw, 0x0⟩]⟩,
  ⟨"SCH_EUI_HI", 0x0900004, 0x0, 1, 0x0, 1, [⟨"EUI_HI", 31, 0, .rw, 0x0⟩]⟩,
  ⟨"SCH_PARENT_LO", 0x0900008, 0x0, 1, 0x0, 1, [⟨"PARENT_LO", 31, 0, .rw, 0x0⟩]⟩,
  ⟨"SCH_PARENT_HI", 0x090000C, 0x0, 1, 0x0, 1, [⟨"PARENT_HI", 31, 0, .rw, 0x0⟩]⟩,
  ⟨"SCH_CELLS", 0x0900010, 0x0, 1, 0x0, 1, [⟨"USED", 20, 0, .ro, 0x0⟩]⟩,
  ⟨"SCH_SF_SEL", 0x0900020, 0x0, 1, 0x0, 1, [⟨"BAND", 8, 8, .rw, 0x0⟩, ⟨"HANDLE", 7, 0, .rw, 0x0⟩]⟩,
  ⟨"SCH_SF_INFO", 0x0900024, 0x0, 1, 0x0, 1, [⟨"VALID", 31, 31, .ro, 0x0⟩, ⟨"STAGED", 30, 30, .ro, 0x0⟩, ⟨"FAMILY", 23, 16, .ro, 0x0⟩, ⟨"SF_LEN", 14, 0, .ro, 0x0⟩]⟩,
  ⟨"SCH_SF_CELLS", 0x0900028, 0x0, 1, 0x0, 1, [⟨"COUNT", 14, 0, .ro, 0x0⟩]⟩,
  ⟨"SCH_SF_START_LO", 0x090002C, 0x0, 1, 0x0, 1, [⟨"START_LO", 31, 0, .ro, 0x0⟩]⟩,
  ⟨"SCH_SF_START_HI", 0x0900030, 0x0, 1, 0x0, 1, [⟨"START_HI", 7, 0, .ro, 0x0⟩]⟩,
  ⟨"SCH_GUARD", 0x0900100, 0x100, 2, 0x0, 1, [⟨"MAX", 31, 16, .rw, 0x7D0⟩, ⟨"SHARED", 15, 0, .rw, 0x3E8⟩]⟩,
  ⟨"SCH_ACK_WAIT", 0x0900104, 0x100, 2, 0x0, 1, [⟨"ACK_GUARD", 15, 0, .rw, 0x1F4⟩]⟩]

/-- Registers of the SCH block. -/
def schRegs1 : List RegSpec := [
  ⟨"SCH_EB", 0x0900108, 0x100, 2, 0x0, 1, [⟨"EN", 31, 31, .rw, 0x0⟩, ⟨"SEC_LEVEL", 26, 24, .rw, 0x0⟩, ⟨"KEY_SLOT", 23, 12, .rw, 0x0⟩, ⟨"JOIN_METRIC", 7, 0, .rw, 0x0⟩]⟩,
  ⟨"SCH_EB_FC", 0x090010C, 0x100, 2, 0x0, 1, [⟨"FC", 31, 0, .ro, 0x0⟩]⟩,
  ⟨"SCH_ASN_LO", 0x0900110, 0x100, 2, 0x0, 1, [⟨"ASN_LO", 31, 0, .ro, 0x0⟩]⟩,
  ⟨"SCH_ASN_HI", 0x0900114, 0x100, 2, 0x0, 1, [⟨"ASN_HI", 7, 0, .ro, 0x0⟩]⟩,
  ⟨"SCH_LAST", 0x0900118, 0x100, 2, 0x0, 1, [⟨"RX_CELLS", 23, 16, .ro, 0x0⟩, ⟨"PIERS", 14, 8, .ro, 0x0⟩, ⟨"TX", 1, 0, .ro, 0x0⟩]⟩,
  ⟨"SCH_CNT", 0x0900140, 0x100, 2, 0x4, 10, [⟨"COUNT", 31, 0, .w1c, 0x0⟩]⟩]

/-- All registers of the SCH block. -/
def schRegs : List RegSpec := schRegs0 ++ schRegs1

/-- Registers of the MAC block. -/
def macRegs0 : List RegSpec := [
  ⟨"MAC_CTRL", 0x0A00000, 0x0, 1, 0x0, 1, [⟨"MIN_SEC", 18, 16, .rw, 0x5⟩, ⟨"RELAY_EN", 5, 5, .rw, 0x1⟩, ⟨"TX_UNSEC_EN", 4, 4, .rw, 0x0⟩, ⟨"ACK_UNSEC", 3, 3, .rw, 0x0⟩, ⟨"JOIN_EN", 2, 2, .rw, 0x1⟩, ⟨"KEYID0_EN", 1, 1, .rw, 0x1⟩, ⟨"TC_EN", 0, 0, .rw, 0x1⟩]⟩,
  ⟨"MAC_BR_SHORT", 0x0A00004, 0x0, 1, 0x0, 1, [⟨"SHORT", 15, 0, .rw, 0xF000⟩]⟩,
  ⟨"MAC_CTRLQ", 0x0A00008, 0x0, 1, 0x0, 1, [⟨"JOIN_Q", 29, 20, .rw, 0x2⟩, ⟨"CMD_Q", 19, 10, .rw, 0x1⟩, ⟨"RPL_Q", 9, 0, .rw, 0x0⟩]⟩,
  ⟨"MAC_RETRY", 0x0A0000C, 0x0, 1, 0x0, 1, [⟨"LIFETIME", 31, 16, .rw, 0xC8⟩, ⟨"RETRIES", 3, 0, .rw, 0x3⟩]⟩,
  ⟨"MAC_EVT_LIMIT", 0x0A00010, 0x0, 1, 0x0, 1, [⟨"REPLAY", 7, 0, .rw, 0xA⟩]⟩,
  ⟨"MAC_FLOOD", 0x0A00014, 0x0, 1, 0x0, 1, [⟨"SEQ", 31, 24, .ro, 0x0⟩, ⟨"REPEATS", 23, 20, .rw, 0x3⟩, ⟨"RELAY_Q", 19, 10, .rw, 0x10⟩, ⟨"RELAY_RQ", 9, 0, .rw, 0x3FE⟩]⟩,
  ⟨"MAC_FRAG_TAG", 0x0A00018, 0x0, 1, 0x0, 1, [⟨"TAG", 15, 0, .ro, 0x0⟩]⟩,
  ⟨"MAC_REASM", 0x0A0001C, 0x0, 1, 0x0, 1, [⟨"HWM", 26, 16, .w1c, 0x0⟩, ⟨"IN_USE", 10, 0, .ro, 0x0⟩]⟩,
  ⟨"MAC_REASM_MAX", 0x0A00020, 0x0, 1, 0x0, 1, [⟨"MAX", 10, 0, .rw, 0x500⟩]⟩,
  ⟨"MAC_BC_KEY", 0x0A00024, 0x0, 1, 0x0, 1, [⟨"SEC_LEVEL", 30, 28, .rw, 0x5⟩, ⟨"DEC_SLOT", 27, 16, .rw, 0x0⟩, ⟨"ENC_SLOT", 11, 0, .rw, 0x0⟩]⟩,
  ⟨"MAC_BC_FC", 0x0A00028, 0x0, 1, 0x0, 1, [⟨"FC", 31, 0, .ro, 0x0⟩]⟩,
  ⟨"MAC_IPHC_PFX_A", 0x0A00100, 0x10, 16, 0x0, 1, [⟨"PFX_A", 31, 0, .rw, 0x0⟩]⟩]

/-- Registers of the MAC block. -/
def macRegs1 : List RegSpec := [
  ⟨"MAC_IPHC_PFX_B", 0x0A00104, 0x10, 16, 0x0, 1, [⟨"PFX_B", 31, 0, .rw, 0x0⟩]⟩,
  ⟨"MAC_IPHC_CFG", 0x0A00108, 0x10, 16, 0x0, 1, [⟨"VALID", 31, 31, .rw, 0x0⟩, ⟨"COMPRESS", 30, 30, .rw, 0x0⟩, ⟨"LEN", 6, 0, .rw, 0x0⟩]⟩,
  ⟨"MAC_CNT", 0x0A00400, 0x4, 27, 0x0, 1, [⟨"COUNT", 31, 0, .w1c, 0x0⟩]⟩]

/-- All registers of the MAC block. -/
def macRegs : List RegSpec := macRegs0 ++ macRegs1

/-- Registers of the TBL block. -/
def tblRegs0 : List RegSpec := [
  ⟨"TBL_EM_SEED0", 0x0B00000, 0x0, 1, 0x0, 1, [⟨"SEED0", 31, 0, .ro, 0x0⟩]⟩,
  ⟨"TBL_EM_SEED1", 0x0B00004, 0x0, 1, 0x0, 1, [⟨"SEED1", 31, 0, .ro, 0x0⟩]⟩,
  ⟨"TBL_EM_STATUS", 0x0B00008, 0x0, 1, 0x0, 1, [⟨"REHASH_REQ", 31, 31, .w1f, 0x0⟩, ⟨"MIGRATING", 30, 30, .ro, 0x0⟩, ⟨"ENTRIES", 18, 0, .ro, 0x0⟩]⟩,
  ⟨"TBL_EM_OVF", 0x0B0000C, 0x0, 1, 0x0, 1, [⟨"USED", 12, 0, .ro, 0x0⟩]⟩,
  ⟨"TBL_LPM_STATUS", 0x0B00010, 0x0, 1, 0x0, 1, [⟨"PREFIXES", 14, 0, .ro, 0x0⟩]⟩,
  ⟨"TBL_SEEN_STATUS", 0x0B00014, 0x0, 1, 0x0, 1, [⟨"LIVE", 16, 0, .ro, 0x0⟩]⟩,
  ⟨"TBL_LEARN", 0x0B00018, 0x0, 1, 0x0, 1, [⟨"EN", 18, 16, .ro, 0x0⟩, ⟨"HOLD", 15, 12, .ro, 0x0⟩, ⟨"HOLDS", 8, 0, .ro, 0x0⟩]⟩,
  ⟨"TBL_LOCK_MAX", 0x0B00020, 0x0, 1, 0x0, 1, [⟨"TICKS", 15, 0, .rw, 0x190⟩]⟩,
  ⟨"TBL_EVT_LIMIT", 0x0B00024, 0x0, 1, 0x0, 1, [⟨"ETH", 7, 0, .rw, 0xA⟩]⟩,
  ⟨"TBL_LOCK", 0x0B00040, 0x8, 3, 0x4, 2, [⟨"LOCK", 31, 0, .rw, 0x0⟩]⟩,
  ⟨"TBL_LOCK_WAIT", 0x0B00060, 0x4, 3, 0x0, 1, [⟨"WAITING", 12, 0, .ro, 0x0⟩]⟩,
  ⟨"TBL_CNT", 0x0B00400, 0x4, 16, 0x0, 1, [⟨"COUNT", 31, 0, .w1c, 0x0⟩]⟩]

/-- Registers of the TBL block. -/
def tblRegs1 : List RegSpec := [
  ⟨"TBL_NH_LO", 0x0B01000, 0x8, 256, 0x0, 1, [⟨"MAC_LO", 31, 0, .rw, 0x0⟩]⟩,
  ⟨"TBL_NH_HI", 0x0B01004, 0x8, 256, 0x0, 1, [⟨"VALID", 31, 31, .rw, 0x0⟩, ⟨"MAC_HI", 15, 0, .rw, 0x0⟩]⟩,
  ⟨"TBL_MESH_PFX_A", 0x0B02000, 0x8, 256, 0x0, 1, [⟨"PFX_A", 31, 0, .rw, 0x0⟩]⟩,
  ⟨"TBL_MESH_PFX_B", 0x0B02004, 0x8, 256, 0x0, 1, [⟨"PFX_B", 31, 0, .rw, 0x0⟩]⟩]

/-- All registers of the TBL block. -/
def tblRegs : List RegSpec := tblRegs0 ++ tblRegs1

/-- Registers of the QUE block. -/
def queRegs0 : List RegSpec := [
  ⟨"QUE_POOL", 0x0C00000, 0x0, 1, 0x0, 1, [⟨"QUOTA_SUM", 31, 16, .ro, 0x0⟩, ⟨"USED", 15, 0, .ro, 0x0⟩]⟩,
  ⟨"QUE_OVF", 0x0C00004, 0x0, 1, 0x0, 1, [⟨"USED", 21, 0, .ro, 0x0⟩]⟩,
  ⟨"QUE_OVF_SUM", 0x0C00008, 0x0, 1, 0x0, 1, [⟨"SUM", 21, 0, .ro, 0x0⟩]⟩,
  ⟨"QUE_SEL", 0x0C00010, 0x0, 1, 0x0, 1, [⟨"QUEUE", 9, 0, .rw, 0x0⟩]⟩,
  ⟨"QUE_INFO", 0x0C00014, 0x0, 1, 0x0, 1, [⟨"TYPE", 31, 30, .ro, 0x0⟩, ⟨"CONSUMER", 29, 28, .ro, 0x0⟩, ⟨"RING", 23, 16, .ro, 0x0⟩, ⟨"QFLAGS", 15, 8, .ro, 0x0⟩, ⟨"DEPTH_LOG2", 4, 0, .ro, 0x0⟩]⟩,
  ⟨"QUE_FILL", 0x0C00018, 0x0, 1, 0x0, 1, [⟨"DROPPING", 31, 31, .ro, 0x0⟩, ⟨"ITEMS", 16, 0, .ro, 0x0⟩]⟩,
  ⟨"QUE_USE", 0x0C0001C, 0x0, 1, 0x0, 1, [⟨"UNITS", 15, 0, .ro, 0x0⟩]⟩,
  ⟨"QUE_USE_OVF", 0x0C00020, 0x0, 1, 0x0, 1, [⟨"UNITS", 21, 0, .ro, 0x0⟩]⟩,
  ⟨"QUE_QUOTA", 0x0C00024, 0x0, 1, 0x0, 1, [⟨"UNITS", 15, 0, .ro, 0x0⟩]⟩,
  ⟨"QUE_QUOTA_OVF", 0x0C00028, 0x0, 1, 0x0, 1, [⟨"UNITS", 21, 0, .ro, 0x0⟩]⟩,
  ⟨"QUE_SEQ", 0x0C0002C, 0x0, 1, 0x0, 1, [⟨"HEAD", 31, 16, .ro, 0x0⟩, ⟨"NEXT", 15, 0, .ro, 0x0⟩]⟩,
  ⟨"QUE_REW", 0x0C00030, 0x0, 1, 0x0, 1, [⟨"RELEASE", 31, 16, .ro, 0x0⟩, ⟨"MARK", 15, 0, .ro, 0x0⟩]⟩]

/-- Registers of the QUE block. -/
def queRegs1 : List RegSpec := [
  ⟨"QUE_HWM_DEPTH", 0x0C00034, 0x0, 1, 0x0, 1, [⟨"MAX", 16, 0, .w1c, 0x0⟩]⟩,
  ⟨"QUE_HWM_SOJ", 0x0C00038, 0x0, 1, 0x0, 1, [⟨"TICKS", 15, 0, .w1c, 0x0⟩]⟩,
  ⟨"QUE_GAPS", 0x0C0003C, 0x0, 1, 0x0, 1, [⟨"COUNT", 31, 0, .w1c, 0x0⟩]⟩,
  ⟨"QUE_LAST_RESET", 0x0C00040, 0x0, 1, 0x0, 1, [⟨"FIRST", 31, 16, .ro, 0x0⟩, ⟨"LAST", 15, 0, .ro, 0x0⟩]⟩,
  ⟨"QUE_CNT", 0x0C00100, 0x4, 10, 0x0, 1, [⟨"COUNT", 31, 0, .w1c, 0x0⟩]⟩,
  ⟨"QUE_POP_W", 0x0C08000, 0x10, 1024, 0x4, 4, [⟨"WORD", 31, 0, .ro, 0x0⟩]⟩]

/-- All registers of the QUE block. -/
def queRegs : List RegSpec := queRegs0 ++ queRegs1

/-- Registers of the TOL block. -/
def tolRegs0 : List RegSpec := [
  ⟨"TOL_CTRL", 0x0D00000, 0x0, 1, 0x0, 1, [⟨"YELLOW_PCT", 6, 0, .rw, 0x32⟩]⟩,
  ⟨"TOL_COUNT", 0x0D00004, 0x0, 1, 0x0, 1, [⟨"COUNT", 12, 0, .ro, 0x0⟩]⟩,
  ⟨"TOL_SEL", 0x0D00010, 0x0, 1, 0x0, 1, [⟨"POLICER", 11, 0, .rw, 0x0⟩]⟩,
  ⟨"TOL_CIR", 0x0D00014, 0x0, 1, 0x0, 1, [⟨"VALUE", 31, 0, .ro, 0xFFFFFFFF⟩]⟩,
  ⟨"TOL_CBS", 0x0D00018, 0x0, 1, 0x0, 1, [⟨"VALUE", 31, 0, .ro, 0x0⟩]⟩,
  ⟨"TOL_PIR", 0x0D0001C, 0x0, 1, 0x0, 1, [⟨"VALUE", 31, 0, .ro, 0xFFFFFFFF⟩]⟩,
  ⟨"TOL_PBS", 0x0D00020, 0x0, 1, 0x0, 1, [⟨"VALUE", 31, 0, .ro, 0x0⟩]⟩,
  ⟨"TOL_TC", 0x0D00024, 0x0, 1, 0x0, 1, [⟨"BYTES", 24, 0, .ro, 0x0⟩]⟩,
  ⟨"TOL_TP", 0x0D00028, 0x0, 1, 0x0, 1, [⟨"BYTES", 24, 0, .ro, 0x0⟩]⟩,
  ⟨"TOL_HWM_DEPTH", 0x0D0002C, 0x0, 1, 0x0, 1, [⟨"MAX", 24, 0, .w1c, 0x0⟩]⟩,
  ⟨"TOL_HWM_SOJ", 0x0D00030, 0x0, 1, 0x0, 1, [⟨"TICKS", 15, 0, .w1c, 0x0⟩]⟩,
  ⟨"TOL_CNT", 0x0D00100, 0x4, 5, 0x0, 1, [⟨"COUNT", 31, 0, .w1c, 0x0⟩]⟩]

/-- Registers of the TOL block. -/
def tolRegs1 : List RegSpec := [
  ⟨"TOL_SHAPE_RATE", 0x0D00800, 0x100, 2, 0x0, 1, [⟨"RATE", 19, 0, .rw, 0x0⟩]⟩,
  ⟨"TOL_SHAPE_LIMIT", 0x0D00804, 0x100, 2, 0x0, 1, [⟨"LIMIT", 19, 0, .ro, 0x0⟩]⟩,
  ⟨"TOL_SHAPE_BURST", 0x0D00808, 0x100, 2, 0x0, 1, [⟨"BURST", 23, 0, .rw, 0x186A0⟩]⟩,
  ⟨"TOL_SHAPE_LEVEL", 0x0D0080C, 0x100, 2, 0x0, 1, [⟨"S", 31, 0, .ro, 0x0⟩]⟩,
  ⟨"TOL_SHAPE_CNT", 0x0D00810, 0x100, 2, 0x0, 1, [⟨"COUNT", 31, 0, .w1c, 0x0⟩]⟩]

/-- All registers of the TOL block. -/
def tolRegs : List RegSpec := tolRegs0 ++ tolRegs1

/-- Registers of the KEY block. -/
def keyRegs0 : List RegSpec := [
  ⟨"KEY_LC", 0x0E00000, 0x0, 1, 0x0, 1, [⟨"LAST_STATUS", 31, 24, .ro, 0x0⟩, ⟨"RETURNS", 9, 8, .ro, 0x0⟩, ⟨"KEYSTONE_OFF", 4, 4, .ro, 0x0⟩, ⟨"STATE", 2, 0, .ro, 0x0⟩]⟩,
  ⟨"KEY_UID_LO", 0x0E00004, 0x0, 1, 0x0, 1, [⟨"UID_LO", 31, 0, .ro, 0x0⟩]⟩,
  ⟨"KEY_UID_HI", 0x0E00008, 0x0, 1, 0x0, 1, [⟨"UID_HI", 31, 0, .ro, 0x0⟩]⟩,
  ⟨"KEY_PART0", 0x0E00010, 0x0, 1, 0x0, 1, [⟨"DOMAIN", 31, 16, .ro, 0x0⟩, ⟨"DEVICE", 15, 0, .ro, 0x10⟩]⟩,
  ⟨"KEY_PART1", 0x0E00014, 0x0, 1, 0x0, 1, [⟨"HOST", 31, 16, .ro, 0x0⟩, ⟨"NODE", 15, 0, .ro, 0x0⟩]⟩,
  ⟨"KEY_SLOT_SEL", 0x0E00020, 0x0, 1, 0x0, 1, [⟨"SLOT", 11, 0, .rw, 0x0⟩]⟩,
  ⟨"KEY_SLOT_INFO", 0x0E00024, 0x0, 1, 0x0, 1, [⟨"VALID", 31, 31, .ro, 0x0⟩, ⟨"USABLE", 30, 30, .ro, 0x0⟩, ⟨"PENDING", 29, 29, .ro, 0x0⟩, ⟨"ATTR", 23, 16, .ro, 0x0⟩, ⟨"GEN", 15, 8, .ro, 0x0⟩, ⟨"PARENT_GEN", 7, 0, .ro, 0x0⟩]⟩,
  ⟨"KEY_SLOT_PARENT", 0x0E00028, 0x0, 1, 0x0, 1, [⟨"ROOT", 31, 31, .ro, 0x0⟩, ⟨"INVAL_SEEN", 30, 30, .ro, 0x0⟩, ⟨"PARENT", 27, 16, .ro, 0x0⟩, ⟨"INVAL_GEN", 15, 8, .ro, 0x0⟩]⟩,
  ⟨"KEY_SLOT_OWNER", 0x0E0002C, 0x0, 1, 0x0, 1, [⟨"OWNED", 31, 31, .ro, 0x0⟩, ⟨"NIDX", 17, 0, .ro, 0x0⟩]⟩,
  ⟨"KEY_MASTER", 0x0E00030, 0x0, 1, 0x0, 1, [⟨"VALID", 31, 31, .ro, 0x0⟩, ⟨"GEN", 23, 16, .ro, 0x0⟩, ⟨"SLOT", 11, 0, .ro, 0x0⟩]⟩,
  ⟨"KEY_NODE_USE", 0x0E00034, 0x0, 1, 0x0, 1, [⟨"PAIRS", 11, 0, .ro, 0x0⟩]⟩,
  ⟨"KEY_ALARM", 0x0E00040, 0x0, 1, 0x0, 1, [⟨"LATCH", 17, 17, .ro, 0x0⟩, ⟨"STICKY", 16, 16, .ro, 0x0⟩, ⟨"CAUSE", 12, 8, .ro, 0x0⟩, ⟨"LIVE", 4, 0, .ro, 0x0⟩]⟩]

/-- Registers of the KEY block. -/
def keyRegs1 : List RegSpec := [
  ⟨"KEY_RETAIN", 0x0E00080, 0x4, 16, 0x0, 1, [⟨"EN", 31, 31, .rws, 0x0⟩, ⟨"SLOT", 11, 0, .rws, 0x0⟩]⟩,
  ⟨"KEY_CNT", 0x0E00100, 0x4, 6, 0x0, 1, [⟨"COUNT", 31, 0, .w1c, 0x0⟩]⟩]

/-- All registers of the KEY block. -/
def keyRegs : List RegSpec := keyRegs0 ++ keyRegs1

/-- Registers of the CIP block. -/
def cipRegs0 : List RegSpec := [
  ⟨"CIP_CTRL", 0x0F00000, 0x0, 1, 0x0, 1, [⟨"AGE", 31, 16, .rw, 0x1F4⟩]⟩,
  ⟨"CIP_STATUS", 0x0F00004, 0x0, 1, 0x0, 1, [⟨"SLOW", 23, 16, .ro, 0x0⟩, ⟨"BUSY", 15, 8, .ro, 0x0⟩, ⟨"P256_SLOW", 5, 5, .ro, 0x0⟩, ⟨"SHA_SLOW", 4, 4, .ro, 0x0⟩, ⟨"IN_SERVICE", 3, 0, .ro, 0x0⟩]⟩,
  ⟨"CIP_QUEUE", 0x0F00008, 0x0, 1, 0x0, 1, [⟨"FW", 31, 24, .ro, 0x0⟩, ⟨"HOST", 23, 16, .ro, 0x0⟩, ⟨"MAC", 8, 0, .ro, 0x0⟩]⟩,
  ⟨"CIP_CORE", 0x0F00100, 0x10, 8, 0x0, 1, [⟨"STATE", 31, 30, .ro, 0x0⟩, ⟨"CLASS", 29, 28, .ro, 0x0⟩, ⟨"AGE", 23, 0, .ro, 0x0⟩]⟩,
  ⟨"CIP_CORE_JOBS", 0x0F00104, 0x10, 8, 0x0, 1, [⟨"COUNT", 31, 0, .w1c, 0x0⟩]⟩,
  ⟨"CIP_CORE_TEST", 0x0F00108, 0x10, 10, 0x0, 1, [⟨"LAST", 31, 24, .ro, 0x0⟩, ⟨"SLOW_EVENTS", 15, 0, .w1c, 0x0⟩]⟩,
  ⟨"CIP_CNT", 0x0F00400, 0x4, 10, 0x0, 1, [⟨"COUNT", 31, 0, .w1c, 0x0⟩]⟩]

/-- All registers of the CIP block. -/
def cipRegs : List RegSpec := cipRegs0

/-- Registers of the CHK block. -/
def chkRegs0 : List RegSpec := [
  ⟨"CHK_CFG", 0x1000000, 0x0, 1, 0x0, 1, [⟨"OWNER", 9, 8, .ro, 0x0⟩, ⟨"MODE", 4, 4, .rw, 0x0⟩, ⟨"POLY", 1, 0, .rw, 0x2⟩]⟩,
  ⟨"CHK_CFG", 0x1000020, 0x0, 1, 0x0, 1, [⟨"OWNER", 9, 8, .ro, 0x0⟩, ⟨"MODE", 4, 4, .rw, 0x0⟩, ⟨"POLY", 1, 0, .rw, 0x2⟩]⟩,
  ⟨"CHK_CFG", 0x1000040, 0x0, 1, 0x0, 1, [⟨"OWNER", 9, 8, .ro, 0x0⟩, ⟨"MODE", 4, 4, .rw, 0x0⟩, ⟨"POLY", 1, 0, .rw, 0x2⟩]⟩,
  ⟨"CHK_CFG", 0x1000060, 0x0, 1, 0x0, 1, [⟨"OWNER", 9, 8, .ro, 0x0⟩, ⟨"MODE", 4, 4, .rw, 0x0⟩, ⟨"POLY", 1, 0, .rw, 0x2⟩]⟩,
  ⟨"CHK_CFG", 0x1000080, 0x0, 1, 0x0, 1, [⟨"OWNER", 9, 8, .ro, 0x3⟩, ⟨"MODE", 4, 4, .ro, 0x1⟩, ⟨"POLY", 1, 0, .ro, 0x2⟩]⟩,
  ⟨"CHK_CFG", 0x10000A0, 0x0, 1, 0x0, 1, [⟨"OWNER", 9, 8, .ro, 0x3⟩, ⟨"MODE", 4, 4, .ro, 0x0⟩, ⟨"POLY", 1, 0, .ro, 0x2⟩]⟩,
  ⟨"CHK_CFG", 0x10000C0, 0x0, 1, 0x0, 1, [⟨"OWNER", 9, 8, .ro, 0x3⟩, ⟨"MODE", 4, 4, .ro, 0x0⟩, ⟨"POLY", 1, 0, .ro, 0x2⟩]⟩,
  ⟨"CHK_CFG", 0x10000E0, 0x0, 1, 0x0, 1, [⟨"OWNER", 9, 8, .ro, 0x3⟩, ⟨"MODE", 4, 4, .ro, 0x0⟩, ⟨"POLY", 1, 0, .ro, 0x1⟩]⟩,
  ⟨"CHK_VALUE", 0x1000004, 0x20, 8, 0x0, 1, [⟨"VALUE", 31, 0, .ro, 0xFFFFFFFF⟩]⟩,
  ⟨"CHK_STATE", 0x1000008, 0x20, 8, 0x0, 1, [⟨"LAST_STATUS", 31, 24, .ro, 0x0⟩, ⟨"QUEUED", 20, 16, .ro, 0x0⟩, ⟨"BUSY", 15, 15, .ro, 0x0⟩, ⟨"SEEN", 8, 8, .ro, 0x0⟩, ⟨"LAST_ALIVE", 7, 0, .ro, 0x0⟩]⟩,
  ⟨"CHK_CNT", 0x1000010, 0x20, 8, 0x4, 3, [⟨"COUNT", 31, 0, .w1c, 0x0⟩]⟩,
  ⟨"CHK_HB1", 0x1000100, 0x0, 1, 0x0, 1, [⟨"SEEN", 8, 8, .ro, 0x0⟩, ⟨"LAST_ALIVE", 7, 0, .ro, 0x0⟩]⟩]

/-- Registers of the CHK block. -/
def chkRegs1 : List RegSpec := [
  ⟨"CHK_SCRUB", 0x1000200, 0x0, 1, 0x0, 1, [⟨"EN", 31, 31, .rw, 0x1⟩, ⟨"RATE", 14, 0, .rw, 0x800⟩]⟩,
  ⟨"CHK_SCRUB_POS", 0x1000204, 0x0, 1, 0x0, 1, [⟨"NIDX", 17, 0, .ro, 0x0⟩]⟩,
  ⟨"CHK_SCRUB_PASSES", 0x1000208, 0x0, 1, 0x0, 1, [⟨"COUNT", 31, 0, .w1c, 0x0⟩]⟩,
  ⟨"CHK_SCRUB_BAD", 0x100020C, 0x0, 1, 0x0, 1, [⟨"COUNT", 31, 0, .w1c, 0x0⟩]⟩,
  ⟨"CHK_SCRUB_LAST", 0x1000210, 0x0, 1, 0x0, 1, [⟨"VALID", 31, 31, .ro, 0x0⟩, ⟨"NIDX", 17, 0, .ro, 0x0⟩]⟩]

/-- All registers of the CHK block. -/
def chkRegs : List RegSpec := chkRegs0 ++ chkRegs1

/-- Registers of the BOOT block. -/
def bootRegs0 : List RegSpec := [
  ⟨"BOOT_STATUS", 0x1100000, 0x0, 1, 0x0, 1, [⟨"LOADER", 9, 9, .ro, 0x0⟩, ⟨"BANK", 8, 8, .ro, 0x0⟩, ⟨"STAGE", 2, 0, .ro, 0x0⟩]⟩,
  ⟨"BOOT_TIME", 0x1100004, 0x0, 1, 0x0, 1, [⟨"TIME", 31, 0, .ro, 0x0⟩]⟩,
  ⟨"BOOT_BANK_FAIL", 0x1100010, 0x4, 2, 0x0, 1, [⟨"PART", 31, 24, .ro, 0x0⟩, ⟨"REASON", 23, 16, .ro, 0x0⟩, ⟨"SECTION", 15, 0, .ro, 0x0⟩]⟩,
  ⟨"BOOT_LOADER_VER", 0x1100020, 0x0, 1, 0x0, 1, [⟨"VERSION", 31, 0, .ro, 0x0⟩]⟩,
  ⟨"BOOT_FW_VER", 0x1100024, 0x0, 1, 0x0, 1, [⟨"VERSION", 31, 0, .ro, 0x0⟩]⟩,
  ⟨"BOOT_MR", 0x1100100, 0x20, 8, 0x4, 8, [⟨"VALUE", 31, 0, .ro, 0x0⟩]⟩,
  ⟨"BOOT_ATTEST_CNT", 0x1100200, 0x0, 1, 0x0, 1, [⟨"DROPPED", 31, 16, .w1c, 0x0⟩, ⟨"SIGNED", 15, 0, .w1c, 0x0⟩]⟩]

/-- All registers of the BOOT block. -/
def bootRegs : List RegSpec := bootRegs0

/-- Registers of the UPD block. -/
def updRegs0 : List RegSpec := [
  ⟨"UPD_CTRL", 0x1200000, 0x0, 1, 0x0, 1, [⟨"HOP_EN", 31, 31, .rw, 0x1⟩, ⟨"PORT", 30, 30, .rw, 0x0⟩, ⟨"RQ", 21, 12, .rw, 0x3FD⟩, ⟨"WRAP_SLOT", 11, 0, .rw, 0x0⟩]⟩,
  ⟨"UPD_CHAIN_CFG", 0x1200004, 0x0, 1, 0x0, 1, [⟨"HOP_TIMEOUT", 31, 16, .rw, 0x7D0⟩, ⟨"RETX", 15, 0, .rw, 0xC8⟩]⟩,
  ⟨"UPD_STATUS", 0x1200008, 0x0, 1, 0x0, 1, [⟨"LAST_STATUS", 31, 24, .ro, 0x0⟩, ⟨"HEAD", 8, 8, .ro, 0x0⟩, ⟨"SESSION", 2, 0, .ro, 0x0⟩]⟩,
  ⟨"UPD_IMAGE", 0x120000C, 0x0, 1, 0x0, 1, [⟨"IMAGE_ID", 31, 0, .ro, 0x0⟩]⟩,
  ⟨"UPD_PROGRESS", 0x1200010, 0x0, 1, 0x0, 1, [⟨"NEXT_DOWN", 31, 16, .ro, 0x0⟩, ⟨"NEXT", 15, 0, .ro, 0x0⟩]⟩,
  ⟨"UPD_BANK", 0x1200014, 0x0, 1, 0x0, 1, [⟨"DEFAULTED", 5, 5, .ro, 0x0⟩, ⟨"FELL_BACK", 4, 4, .rws, 0x0⟩, ⟨"TRIAL", 3, 3, .ro, 0x0⟩, ⟨"SETTINGS", 2, 2, .ro, 0x0⟩, ⟨"PREFERRED", 1, 1, .ro, 0x0⟩, ⟨"RUNNING", 0, 0, .ro, 0x0⟩]⟩,
  ⟨"UPD_TRIAL", 0x1200018, 0x0, 1, 0x0, 1, [⟨"LEFT", 14, 0, .ro, 0x0⟩]⟩,
  ⟨"UPD_HOP", 0x1200100, 0x4, 64, 0x0, 1, [⟨"STATUS", 31, 24, .ro, 0x0⟩, ⟨"REPORTED", 23, 23, .ro, 0x0⟩, ⟨"BR_ID", 5, 0, .ro, 0x0⟩]⟩,
  ⟨"UPD_CNT", 0x1200200, 0x4, 8, 0x0, 1, [⟨"COUNT", 31, 0, .w1c, 0x0⟩]⟩]

/-- All registers of the UPD block. -/
def updRegs : List RegSpec := updRegs0

/-- Registers of the RED block. -/
def redRegs0 : List RegSpec := [
  ⟨"RED_CTRL", 0x1300000, 0x0, 1, 0x0, 1, [⟨"PAIR", 31, 31, .rw, 0x0⟩, ⟨"PRIO", 30, 30, .rw, 0x0⟩, ⟨"HB_LINK_EN", 29, 29, .rw, 0x1⟩, ⟨"HB_ETH_EN", 28, 28, .rw, 0x1⟩]⟩,
  ⟨"RED_STATUS", 0x1300004, 0x0, 1, 0x0, 1, [⟨"ARMED", 31, 31, .ro, 0x0⟩, ⟨"HELD_OFF", 30, 30, .ro, 0x0⟩, ⟨"STUCK", 29, 29, .ro, 0x0⟩, ⟨"TRUSS_DIFF", 28, 28, .ro, 0x0⟩, ⟨"PRIO_CLASH", 27, 27, .ro, 0x0⟩, ⟨"PEER_VALID", 20, 20, .ro, 0x0⟩, ⟨"PEER_STATE", 19, 16, .ro, 0x0⟩]⟩,
  ⟨"RED_MISS", 0x1300008, 0x0, 1, 0x0, 1, [⟨"BOTH", 23, 16, .ro, 0x0⟩, ⟨"ETH", 15, 8, .ro, 0x0⟩, ⟨"LINK", 7, 0, .ro, 0x0⟩]⟩,
  ⟨"RED_PEER_MAC_LO", 0x1300010, 0x0, 1, 0x0, 1, [⟨"MAC_LO", 31, 0, .rw, 0x0⟩]⟩,
  ⟨"RED_PEER_MAC_HI", 0x1300014, 0x0, 1, 0x0, 1, [⟨"MAC_HI", 15, 0, .rw, 0x0⟩]⟩,
  ⟨"RED_RSB_LO", 0x1300018, 0x0, 1, 0x0, 1, [⟨"ADDR_LO", 31, 6, .rw, 0x0⟩]⟩,
  ⟨"RED_RSB_HI", 0x130001C, 0x0, 1, 0x0, 1, [⟨"ADDR_HI", 31, 0, .rw, 0x0⟩]⟩,
  ⟨"RED_PEER_UID_LO", 0x1300020, 0x0, 1, 0x0, 1, [⟨"UID_LO", 31, 0, .ro, 0x0⟩]⟩,
  ⟨"RED_PEER_UID_HI", 0x1300024, 0x0, 1, 0x0, 1, [⟨"UID_HI", 31, 0, .ro, 0x0⟩]⟩,
  ⟨"RED_PEER_PHASE", 0x1300028, 0x0, 1, 0x0, 1, [⟨"PHASE", 31, 0, .ro, 0x0⟩]⟩,
  ⟨"RED_LAST", 0x1300030, 0x0, 1, 0x0, 1, [⟨"CAUSE", 31, 24, .rws, 0x0⟩, ⟨"SILENT", 23, 0, .rws, 0x0⟩]⟩,
  ⟨"RED_LAST_TICK_LO", 0x1300034, 0x0, 1, 0x0, 1, [⟨"TICK_LO", 31, 0, .rws, 0x0⟩]⟩]

/-- Registers of the RED block. -/
def redRegs1 : List RegSpec := [
  ⟨"RED_LAST_TICK_HI", 0x1300038, 0x0, 1, 0x0, 1, [⟨"TICK_HI", 15, 0, .rws, 0x0⟩]⟩,
  ⟨"RED_CNT", 0x1300100, 0x4, 10, 0x0, 1, [⟨"COUNT", 31, 0, .w1c, 0x0⟩]⟩]

/-- All registers of the RED block. -/
def redRegs : List RegSpec := redRegs0 ++ redRegs1

/-- Registers of the EVR block. -/
def evrRegs0 : List RegSpec := [
  ⟨"EVR_CTRL", 0x1400000, 0x0, 1, 0x0, 1, [⟨"EXPORT_EN", 3, 3, .rw, 0x0⟩, ⟨"EXPORT_MIN", 2, 0, .rw, 0x2⟩]⟩,
  ⟨"EVR_STATUS", 0x1400004, 0x0, 1, 0x0, 1, [⟨"RSV_FULL", 31, 31, .ro, 0x0⟩, ⟨"EXT", 30, 30, .ro, 0x0⟩, ⟨"AUDIT_GAP", 29, 29, .ro, 0x0⟩, ⟨"CLEARS", 15, 0, .rws, 0x0⟩]⟩,
  ⟨"EVR_OLDEST", 0x1400008, 0x0, 1, 0x0, 1, [⟨"SEQ", 31, 0, .ro, 0x0⟩]⟩,
  ⟨"EVR_NEWEST", 0x140000C, 0x0, 1, 0x0, 1, [⟨"SEQ", 31, 0, .ro, 0x0⟩]⟩,
  ⟨"EVR_USED", 0x1400010, 0x0, 1, 0x0, 1, [⟨"RSV_WORDS", 31, 16, .ro, 0x0⟩]⟩,
  ⟨"EVR_GEN_USED", 0x1400014, 0x0, 1, 0x0, 1, [⟨"BYTES", 31, 0, .ro, 0x0⟩]⟩,
  ⟨"EVR_DROP", 0x1400020, 0x4, 8, 0x0, 1, [⟨"COUNT", 31, 0, .w1c, 0x0⟩]⟩]

/-- All registers of the EVR block. -/
def evrRegs : List RegSpec := evrRegs0

/-- Registers of the HIF block. -/
def hifRegs0 : List RegSpec := [
  ⟨"HIF_STATUS", 0x1500000, 0x0, 1, 0x0, 1, [⟨"LINK_UP", 16, 16, .ro, 0x0⟩, ⟨"SPEED", 11, 8, .ro, 0x0⟩, ⟨"WIDTH", 5, 0, .ro, 0x0⟩]⟩,
  ⟨"HIF_BAR2_ERR", 0x1500004, 0x0, 1, 0x0, 1, [⟨"COUNT", 31, 0, .w1c, 0x0⟩]⟩,
  ⟨"HIF_WINDOW", 0x1500008, 0x0, 1, 0x0, 1, [⟨"MIB", 8, 0, .ro, 0x0⟩]⟩,
  ⟨"HIF_RING_BASE_LO", 0x1500100, 0x20, 18, 0x0, 1, [⟨"ADDR_LO", 31, 12, .rw, 0x0⟩]⟩,
  ⟨"HIF_RING_BASE_HI", 0x1500104, 0x20, 18, 0x0, 1, [⟨"ADDR_HI", 31, 0, .rw, 0x0⟩]⟩,
  ⟨"HIF_RING_CFG", 0x1500108, 0x20, 18, 0x0, 1, [⟨"EN", 31, 31, .rw, 0x0⟩, ⟨"ERR", 30, 30, .ro, 0x0⟩, ⟨"SIZE_LOG2", 4, 0, .rw, 0x4⟩]⟩,
  ⟨"HIF_RING_PROD", 0x150010C, 0x20, 18, 0x0, 1, [⟨"COUNT", 31, 0, .rw, 0x0⟩]⟩,
  ⟨"HIF_RING_CONS", 0x1500110, 0x20, 18, 0x0, 1, [⟨"COUNT", 31, 0, .rw, 0x0⟩]⟩,
  ⟨"HIF_INT_STATUS", 0x1500400, 0x0, 1, 0x0, 1, [⟨"CAUSE", 22, 0, .w1f, 0x0⟩]⟩,
  ⟨"HIF_INT_EN", 0x1500404, 0x0, 1, 0x0, 1, [⟨"EN", 22, 0, .rw, 0x0⟩]⟩,
  ⟨"HIF_INT_VEC", 0x1500500, 0x0, 1, 0x0, 1, [⟨"VECTOR", 5, 0, .rw, 0x0⟩]⟩,
  ⟨"HIF_INT_VEC", 0x1500504, 0x0, 1, 0x0, 1, [⟨"VECTOR", 5, 0, .rw, 0x1⟩]⟩]

/-- Registers of the HIF block. -/
def hifRegs1 : List RegSpec := [
  ⟨"HIF_INT_VEC", 0x1500508, 0x0, 1, 0x0, 1, [⟨"VECTOR", 5, 0, .rw, 0x2⟩]⟩,
  ⟨"HIF_INT_VEC", 0x150050C, 0x0, 1, 0x0, 1, [⟨"VECTOR", 5, 0, .rw, 0x3⟩]⟩,
  ⟨"HIF_INT_VEC", 0x1500510, 0x0, 1, 0x0, 1, [⟨"VECTOR", 5, 0, .rw, 0x4⟩]⟩,
  ⟨"HIF_INT_VEC", 0x1500514, 0x0, 1, 0x0, 1, [⟨"VECTOR", 5, 0, .rw, 0x5⟩]⟩,
  ⟨"HIF_INT_VEC", 0x1500518, 0x0, 1, 0x0, 1, [⟨"VECTOR", 5, 0, .rw, 0x6⟩]⟩,
  ⟨"HIF_INT_VEC", 0x150051C, 0x0, 1, 0x0, 1, [⟨"VECTOR", 5, 0, .rw, 0x7⟩]⟩,
  ⟨"HIF_INT_VEC", 0x1500520, 0x0, 1, 0x0, 1, [⟨"VECTOR", 5, 0, .rw, 0x8⟩]⟩,
  ⟨"HIF_INT_VEC", 0x1500524, 0x0, 1, 0x0, 1, [⟨"VECTOR", 5, 0, .rw, 0x9⟩]⟩,
  ⟨"HIF_INT_VEC", 0x1500528, 0x0, 1, 0x0, 1, [⟨"VECTOR", 5, 0, .rw, 0xA⟩]⟩,
  ⟨"HIF_INT_VEC", 0x150052C, 0x0, 1, 0x0, 1, [⟨"VECTOR", 5, 0, .rw, 0xB⟩]⟩,
  ⟨"HIF_INT_VEC", 0x1500530, 0x0, 1, 0x0, 1, [⟨"VECTOR", 5, 0, .rw, 0xC⟩]⟩,
  ⟨"HIF_INT_VEC", 0x1500534, 0x0, 1, 0x0, 1, [⟨"VECTOR", 5, 0, .rw, 0xD⟩]⟩]

/-- Registers of the HIF block. -/
def hifRegs2 : List RegSpec := [
  ⟨"HIF_INT_VEC", 0x1500538, 0x0, 1, 0x0, 1, [⟨"VECTOR", 5, 0, .rw, 0xE⟩]⟩,
  ⟨"HIF_INT_VEC", 0x150053C, 0x0, 1, 0x0, 1, [⟨"VECTOR", 5, 0, .rw, 0xF⟩]⟩,
  ⟨"HIF_INT_VEC", 0x1500540, 0x0, 1, 0x0, 1, [⟨"VECTOR", 5, 0, .rw, 0x10⟩]⟩,
  ⟨"HIF_INT_VEC", 0x1500544, 0x0, 1, 0x0, 1, [⟨"VECTOR", 5, 0, .rw, 0x11⟩]⟩,
  ⟨"HIF_INT_VEC", 0x1500548, 0x0, 1, 0x0, 1, [⟨"VECTOR", 5, 0, .rw, 0x12⟩]⟩,
  ⟨"HIF_INT_VEC", 0x150054C, 0x0, 1, 0x0, 1, [⟨"VECTOR", 5, 0, .rw, 0x13⟩]⟩,
  ⟨"HIF_INT_VEC", 0x1500550, 0x0, 1, 0x0, 1, [⟨"VECTOR", 5, 0, .rw, 0x14⟩]⟩,
  ⟨"HIF_INT_VEC", 0x1500554, 0x0, 1, 0x0, 1, [⟨"VECTOR", 5, 0, .rw, 0x15⟩]⟩,
  ⟨"HIF_INT_VEC", 0x1500558, 0x0, 1, 0x0, 1, [⟨"VECTOR", 5, 0, .rw, 0x16⟩]⟩,
  ⟨"HIF_INT_MOD", 0x1500600, 0x4, 64, 0x0, 1, [⟨"TIME", 31, 16, .rw, 0x0⟩, ⟨"COUNT", 7, 0, .rw, 0x1⟩]⟩,
  ⟨"HIF_CNT", 0x1500800, 0x4, 9, 0x0, 1, [⟨"COUNT", 31, 0, .w1c, 0x0⟩]⟩]

/-- The MSI-X table and its pending-bit array (R416): four words per vector; the layout is that of PCI Express (PRESUMED, log 39). -/
def msixRegs : List RegSpec := [
  ⟨"MSIX_ADDR_LO", 0x15F0000, 0x10, 64, 0, 1, [⟨"ADDR_LO", 31, 2, .rw, 0⟩]⟩,
  ⟨"MSIX_ADDR_HI", 0x15F0004, 0x10, 64, 0, 1, [⟨"ADDR_HI", 31, 0, .rw, 0⟩]⟩,
  ⟨"MSIX_DATA", 0x15F0008, 0x10, 64, 0, 1, [⟨"DATA", 31, 0, .rw, 0⟩]⟩,
  ⟨"MSIX_CTRL", 0x15F000C, 0x10, 64, 0, 1, [⟨"MASK", 0, 0, .rw, 1⟩]⟩,
  ⟨"MSIX_PBA", 0x15F8000, 4, 2, 0, 1, [⟨"PENDING", 31, 0, .ro, 0⟩]⟩]

/-- All registers of the HIF block. -/
def hifRegs : List RegSpec := hifRegs0 ++ hifRegs1 ++ hifRegs2 ++ msixRegs

/-- Registers of the ETH block. -/
def ethRegs0 : List RegSpec := [
  ⟨"ETH_CTRL", 0x1600000, 0x0, 1, 0x0, 1, [⟨"EN", 31, 31, .rw, 0x0⟩, ⟨"MODE", 30, 29, .rw, 0x0⟩, ⟨"PAUSE_RX", 28, 28, .rw, 0x1⟩, ⟨"VID", 27, 16, .rw, 0x0⟩, ⟨"HOST_Q", 9, 0, .rw, 0x3⟩]⟩,
  ⟨"ETH_CTRL", 0x1600100, 0x0, 1, 0x0, 1, [⟨"EN", 31, 31, .rw, 0x0⟩, ⟨"MODE", 30, 29, .rw, 0x0⟩, ⟨"PAUSE_RX", 28, 28, .rw, 0x1⟩, ⟨"VID", 27, 16, .rw, 0x0⟩, ⟨"HOST_Q", 9, 0, .rw, 0x4⟩]⟩,
  ⟨"ETH_STATUS", 0x1600004, 0x100, 2, 0x0, 1, [⟨"LINK", 31, 31, .ro, 0x0⟩, ⟨"SPEED", 30, 29, .ro, 0x0⟩]⟩,
  ⟨"ETH_MAC_LO", 0x1600008, 0x100, 2, 0x0, 1, [⟨"MAC_LO", 31, 0, .rw, 0x0⟩]⟩,
  ⟨"ETH_MAC_HI", 0x160000C, 0x100, 2, 0x0, 1, [⟨"MAC_HI", 15, 0, .rw, 0x0⟩]⟩,
  ⟨"ETH_PTP", 0x1600010, 0x100, 2, 0x0, 1, [⟨"EN", 31, 31, .rw, 0x0⟩, ⟨"MASTER_EN", 30, 30, .rw, 0x0⟩, ⟨"DOMAIN", 23, 16, .rw, 0x0⟩]⟩,
  ⟨"ETH_CNT", 0x1600040, 0x100, 2, 0x4, 8, [⟨"COUNT", 31, 0, .w1c, 0x0⟩]⟩]

/-- All registers of the ETH block. -/
def ethRegs : List RegSpec := ethRegs0

/-- Registers of the PIN block. -/
def pinRegs0 : List RegSpec := [
  ⟨"PIN_FN", 0x1700000, 0x4, 24, 0x0, 1, [⟨"FN", 7, 0, .ro, 0x0⟩]⟩,
  ⟨"PIN_GPIO_OE", 0x1700080, 0x0, 1, 0x0, 1, [⟨"OE", 23, 0, .rw, 0x0⟩]⟩,
  ⟨"PIN_GPIO_OUT", 0x1700084, 0x0, 1, 0x0, 1, [⟨"OUT", 23, 0, .rw, 0x0⟩]⟩,
  ⟨"PIN_GPIO_IN", 0x1700088, 0x0, 1, 0x0, 1, [⟨"IN", 23, 0, .ro, 0x0⟩]⟩,
  ⟨"PIN_GPIO_PD", 0x1700090, 0x0, 1, 0x0, 1, [⟨"PD", 23, 0, .rw, 0xFFFFFF⟩]⟩,
  ⟨"PIN_GPIO_PU", 0x1700094, 0x0, 1, 0x0, 1, [⟨"PU", 23, 0, .rw, 0x0⟩]⟩,
  ⟨"PIN_FEM_FN", 0x17000A0, 0x4, 2, 0x0, 1, [⟨"FN", 17, 0, .ro, 0x0⟩]⟩,
  ⟨"PIN_FEM_LEVEL", 0x17000A8, 0x0, 1, 0x0, 1, [⟨"FEMB", 11, 6, .ro, 0x0⟩, ⟨"FEMA", 5, 0, .ro, 0x0⟩]⟩,
  ⟨"PIN_STATUS", 0x17000B0, 0x0, 1, 0x0, 1, [⟨"I2C1_SPEED", 7, 6, .ro, 0x1⟩, ⟨"I2C0_SPEED", 5, 4, .ro, 0x1⟩, ⟨"PPS_IN", 2, 2, .ro, 0x0⟩, ⟨"PE_PERST_N", 1, 1, .ro, 0x0⟩, ⟨"JTAG_LOCKED", 0, 0, .ro, 0x0⟩]⟩]

/-- All registers of the PIN block. -/
def pinRegs : List RegSpec := pinRegs0

/-- The registers of block `b` of Table 01-11. -/
def blockRegs (b : Nat) : List RegSpec :=
  match b with
  | 0 => sysRegs
  | 1 => timeRegs
  | 2 => trussRegs
  | 3 => spanRegs
  | 4 => rxfRegs
  | 5 => pierRegs
  | 6 => txcRegs
  | 7 => calRegs
  | 8 => parRegs
  | 9 => schRegs
  | 10 => macRegs
  | 11 => tblRegs
  | 12 => queRegs
  | 13 => tolRegs
  | 14 => keyRegs
  | 15 => cipRegs
  | 16 => chkRegs
  | 17 => bootRegs
  | 18 => updRegs
  | 19 => redRegs
  | 20 => evrRegs
  | 21 => hifRegs
  | 22 => ethRegs
  | 23 => pinRegs
  | _ => []

end Sys2Proof.Machine
end

