-- ==== Sys2Proof/Machine/Ops.lean ====
section
/-! DEFINITION. The named operations on registers and memory (R4, R5, R22, R24), the encodings of Tables 20-8, 01-4 and
19-1, and interrupts (R430). -/

namespace Sys2Proof.Machine

/-- The code of a status (Table 20-8). -/
def Status.code (st : Status) : Nat :=
  match st with
  | .ok => 0 | .late => 1 | .state => 2 | .length => 3 | .noRoom => 4 | .stale => 5 | .conflict => 6 | .aborted => 7
  | .keyRevoked => 8 | .keyAttr => 9 | .authFail => 10 | .replay => 11 | .dup => 12 | .parapet => 13 | .alarm => 14
  | .switchover => 15 | .noAck => 16 | .qReset => 17 | .slowUnit => 18 | .busyLock => 19 | .checkFail => 20
  | .timeout => 21 | .unsupported => 22 | .integrity => 23

/-- The code of a device state (Table 01-4). -/
def SysState.code (st : SysState) : Nat :=
  match st with
  | .reset => 0 | .boot => 1 | .structured => 2 | .active => 3 | .standby => 4 | .maintenance => 5 | .alarm => 6
  | .fault => 7

/-- The code of a severity (Table 19-1). -/
def Sev.code (v : Sev) : Nat :=
  match v with
  | .trace => 0 | .info => 1 | .notice => 2 | .warning => 3 | .error => 4 | .critical => 5 | .alarm => 6 | .audit => 7

/-- Word `i` of a descriptor. -/
def Desc.word (d : Desc) (i : Nat) : Word :=
  match i with
  | 0 => d.w0 | 1 => d.w1 | 2 => d.w2 | 3 => d.w3 | 4 => d.w4 | 5 => d.w5 | 6 => d.w6 | 7 => d.w7 | _ => 0

/-- The 32 octets of a descriptor. -/
def Desc.bytes (d : Desc) : List Byte := ofWords [d.w0, d.w1, d.w2, d.w3, d.w4, d.w5, d.w6, d.w7]

/-- Octet `i` of a descriptor. -/
def Desc.byte (d : Desc) (i : Nat) : Nat := ((d.word (i / 4)).toNat >>> (8 * (i % 4))) % 256

/-- Little-endian 16-bit field at octet `i` of a descriptor, `i` even. -/
def Desc.half (d : Desc) (i : Nat) : Nat := d.byte i + 256 * d.byte (i + 1)

/-- Octets 0 and 1: the opcode (R69). -/
def Desc.opcode (d : Desc) : Nat := d.half 0

/-- Octets 2 and 3: the TAG. -/
def Desc.tag (d : Desc) : BitVec 16 := BitVec.ofNat 16 (d.half 2)

/-- Every octet outside the given ones, from octet 5 on, is 0 (R69, R427). -/
def Desc.unlistedZero (d : Desc) (used : List Nat) : Bool :=
  (List.range 27).all fun i => used.contains (i + 5) || d.byte (i + 5) == 0

/-! ### Registers -/

/-- The register of a family that lies at `addr`, when one does. -/
def RegSpec.covers (r : RegSpec) (addr : Nat) : Bool :=
  decide (r.base ≤ addr) &&
    (let o := addr - r.base
     let i := if r.s1 = 0 then 0 else o / r.s1
     let p := if r.s1 = 0 then o else o % r.s1
     let j := if r.s2 = 0 then 0 else p / r.s2
     decide (i < r.n1) && decide (j < r.n2) && decide (r.s1 * i + r.s2 * j = o))

/-- The register that lies at a BAR0 offset (R24). -/
def findReg (addr : Nat) : Option RegSpec := (blockRegs (addr / 0x100000)).find? fun r => r.covers addr

/-- The reset value of a register. -/
def RegSpec.resetWord (r : RegSpec) : Word := r.fields.foldl (fun w f => setBits w f.hi f.lo f.reset) 0

/-- The reset value of the register at `addr`; 0 where none lies. -/
def resetOf (addr : Nat) : Word :=
  match findReg addr with
  | some r => r.resetWord
  | none => 0

/-- The bits held for the register at `addr`. -/
def State.reg (s : State) (addr : Nat) : Word := aget (resetOf addr) s.regs addr

/-- Hold `v` for the register at `addr`. -/
def State.setReg (s : State) (addr : Nat) (v : Word) : State :=
  { s with regs := aset (resetOf addr) s.regs addr v }

/-- Set the field [hi:lo] of the register at `addr`. -/
def State.setFld (s : State) (addr hi lo v : Nat) : State := s.setReg addr (setBits (s.reg addr) hi lo v)

/-- Field [hi:lo] of the register at `addr`. -/
def State.regFld (s : State) (addr hi lo : Nat) : Nat := bits (s.reg addr) hi lo

/-- Add `k` to the count in field [hi:0], saturating. -/
def State.bumpBy (s : State) (addr hi k : Nat) : State :=
  let v := s.regFld addr hi 0
  s.setFld addr hi 0 (if v + k ≥ 2 ^ (hi + 1) then 2 ^ (hi + 1) - 1 else v + k)

/-- Count one event in a 32-bit counter register, saturating. -/
def State.bump (s : State) (addr : Nat) : State := s.bumpBy addr 31 1

/-- Count one event in a 16-bit counter field, saturating. -/
def State.bump16 (s : State) (addr : Nat) : State := s.bumpBy addr 15 1

/-- Keep of the registers of one block only those outside it: the block returns to its reset values. -/
def State.resetBlock (s : State) (b : Nat) : State := { s with regs := s.regs.filter fun e => e.1 / 0x100000 != b }

/-! ### The memory die -/

/-- Size of the memory die, 512 MiB. -/
def memSize : Nat := 0x20000000

/-- The memory's canonical form: addresses rise strictly, lie on the die, and no listed octet is 0. -/
def Memory.wf (m : List Host.Cell) : Bool := canonical (0 : Byte) m && m.all fun e => decide (e.1 < memSize)

/-- One octet of the memory die. -/
def State.readByte (s : State) (a : Nat) : Byte := aget 0 s.mem a

/-- Write one octet of the memory die; an address past its end is not written. -/
def memPut (m : List Host.Cell) (a : Nat) (v : Byte) : List Host.Cell := if a < memSize then aset 0 m a v else m

/-- Write octets from an address on. -/
def memWrite (m : List Host.Cell) (a : Nat) (bs : List Byte) : List Host.Cell :=
  match bs with
  | [] => m
  | b :: r => memWrite (memPut m a b) (a + 1) r

/-- Zero-fill an area. -/
def memZero (m : List Host.Cell) (a n : Nat) : List Host.Cell := m.filter fun e => !(a ≤ e.1 && e.1 < a + n)

/-- Write octets to the memory die. -/
def State.writeMem (s : State) (a : Nat) (bs : List Byte) : State := { s with mem := memWrite s.mem a bs }

/-- Read `n` octets of the memory die. -/
def State.readMem (s : State) (a n : Nat) : List Byte := (List.range n).map fun i => s.readByte (a + i)

/-- What BAR2 maps (R23, R417): the host-visible window of the truss, or in RECOVERY the first 64 MiB of the die. -/
def State.window (s : State) : Partition :=
  if s.sys.state = .boot then (if s.boot.stage = .recovery then { base := 0, size := 0x4000000 } else {})
  else s.truss.truss.params.hostWindow

/-- Size of the host-visible window in octets (R23). -/
def State.windowSize (s : State) : Nat := s.window.size

/-- An area lies in the host-visible window. -/
def State.inWindow (s : State) (o n : Nat) : Bool := decide (o + n ≤ s.windowSize)

/-- Read octets of the host-visible window. -/
def State.readWin (s : State) (o n : Nat) : List Byte := s.readMem (s.window.base + o) n

/-- Write octets of the host-visible window. -/
def State.writeWin (s : State) (o : Nat) (bs : List Byte) : State :=
  s.writeMem (s.window.base + o) bs

/-! ### Outputs and interrupts -/

/-- Send something out. -/
def State.emit (s : State) (o : Output) : State := { s with outbox := s.outbox ++ [o] }

/-- The PCIe link is up. -/
def State.linkUp (s : State) : Bool := bit (s.reg Reg.HIF_STATUS) 16

/-- Offset of the vector control word of an MSI-X table entry. -/
def msixCtrl (v : Nat) : Nat := 0x15F000C + 0x10 * v

/-- Offset of the word of the pending-bit array that holds a vector's bit. -/
def msixPba (v : Nat) : Nat := 0x15F8000 + 4 * (v / 32)

/-- Send the message of a vector, or hold it pending while the vector is masked (R430). -/
def State.sendMsi (s : State) (v : Nat) : State :=
  if !s.linkUp then s
  else if bit (s.reg (msixCtrl v)) 0 then s.setFld (msixPba v) (v % 32) (v % 32) 1
  else (s.emit (.msix v)).bump (Reg.HIF_CNT 8)

/-- An event on a vector, under its moderation (R430). -/
def State.vectorEvent (s : State) (v : Nat) : State :=
  let w := s.reg (Reg.HIF_INT_MOD v)
  let p := aget (0, 0) s.hif.vectors v
  let cnt := p.1 + 1
  let limit := if bits w 7 0 = 0 then 1 else bits w 7 0
  if bits w 31 16 = 0 ∨ limit ≤ cnt then
    { s with hif := { s.hif with vectors := aset (0, 0) s.hif.vectors v (0, 0) } }.sendMsi v
  else
    { s with hif := { s.hif with
        vectors := aset (0, 0) s.hif.vectors v (cnt, if p.1 = 0 then s.time.elapsed else p.2) } }

/-- Cause `c` of Table 20-5 occurs (R430). In FAULT nothing is sent. -/
def State.raise (s : State) (c : Nat) : State :=
  let s1 := s.setFld Reg.HIF_INT_STATUS c c 1
  if bit (s1.reg Reg.HIF_INT_EN) c && s1.sys.state != .fault
  then s1.vectorEvent (s1.regFld (Reg.HIF_INT_VEC c) 5 0) else s1

/-- TICKNO as a number. -/
def State.tick (s : State) : Nat := s.time.tickno.toNat

/-- DTIME as a number of nanoseconds. -/
def State.now (s : State) : Nat := s.time.dtime.toNat

/-- The truss parameters in force. -/
def State.tp (s : State) : TrussParams := s.truss.truss.params

/-- The band's record of the truss in force: 0 Band A, 1 Band B. -/
def TrussParams.band (p : TrussParams) (b : Nat) : BandCfg := if b = 0 then p.bandA else p.bandB

/-- The band's slot multiple (R28). -/
def TrussParams.k (p : TrussParams) (b : Nat) : Nat := if b = 0 then p.kA else p.kB

/-- Length of a tick in ns (R26). -/
def State.tickNs (s : State) : Nat := s.tp.tickPeriod * 1000

/-- ASN of band `b` at a tick (R28). -/
def State.asnAt (s : State) (b tick : Nat) : Nat := if s.tp.k b = 0 then 0 else tick / s.tp.k b % 2 ^ 40

/-- ASN of band `b` now. -/
def State.asn (s : State) (b : Nat) : Nat := s.asnAt b s.tick

/-- An event happens at DTIME `t`: DTIME has advanced to `t`; it never goes back this way (R27). In FAULT it stops. -/
def State.at_ (s : State) (t : U64) : State :=
  if s.time.dtime.toNat ≤ t.toNat ∧ s.sys.state ≠ .fault then
    { s with time := { s.time with dtime := t, elapsed := s.time.elapsed + (t.toNat - s.time.dtime.toNat) } }
  else s

/-- The modular comparison of R74: the distance ahead of a 48-bit tick target. -/
def tickAhead (target now : Nat) : Nat := (target + 2 ^ 48 - now % 2 ^ 48) % 2 ^ 48

/-- A tick target lies ahead (R74). -/
def liesAhead (target now : Nat) : Bool := decide (1 ≤ tickAhead target now ∧ tickAhead target now ≤ 2 ^ 47)

/-- Take the next free value's number. -/
def State.nextFree (s : State) : State := { s with free := s.free + 1 }

end Sys2Proof.Machine
end

