-- ==== Sys2Proof/Machine/QueueOps.lean ====
section
/-! DEFINITION. The deck, the queues and their rules of placement, arrival, reset and taking (R266 to R278), over which
the queue commands and every producer are written. A record a queue reset needs is written by the function given. -/

namespace Sys2Proof.Machine

/-- How a record is written: severity, source, status, event, payload. -/
abbrev Poster := State → Sev → Nat → Option Status → Nat → List Word → State

/-- The queue `q`. -/
def State.queue (s : State) (q : Nat) : Queue := aget {} s.que.queues q

/-- Set queue `q`. -/
def State.setQueue (s : State) (q : Nat) (x : Queue) : State :=
  { s with que := { s.que with queues := aset {} s.que.queues q x } }

/-- DEPTH of a queue. -/
def Queue.depth (x : Queue) : Nat := 2 ^ x.depthLog2

/-- WHOLE, bit 1 of QFLAGS (R269). -/
def Queue.whole (x : Queue) : Bool := bit x.qflags 1

/-- RAW, bit 0 of QFLAGS (R215). -/
def Queue.raw (x : Queue) : Bool := bit x.qflags 0

/-- The SEQ of the oldest item not yet freed; NEXT when the queue holds none. RELEASE of a rewind queue. -/
def Queue.firstSeq (x : Queue) : BitVec 16 :=
  match x.items with
  | [] => x.next
  | i :: _ => i.seq

/-- How many SEQ values an item stands for. -/
def QItem.span (i : QItem) : Nat := if i.gap then i.len else 1

/-- The SEQ at the head, or at READ of a rewind queue. -/
def Queue.headSeq (x : Queue) : BitVec 16 :=
  if x.type = .rewind then
    match x.items[x.read]? with
    | some i => i.seq
    | none => x.next
  else
    match x.items.find? (fun i => !i.taken) with
    | some i => i.seq
    | none => x.next

/-- Buffer units of an item: 128 octets each, none for a gap marker (R266). -/
def QItem.units (i : QItem) : Nat := if i.gap then 0 else ceilDiv i.len 128

/-- An item's buffer lies in the overflow pool (Table 12-1). -/
def QItem.inOverflow (i : QItem) : Bool := decide (0x80000000 ≤ i.addr.toNat)

/-- Units a queue uses on chip or in overflow. -/
def Queue.unitsUsed (x : Queue) (ovf : Bool) : Nat :=
  (x.items.filter fun i => !i.gap && i.inOverflow == ovf).foldl (fun n i => n + i.units) 0

/-- The runs in use of one pool, as first unit and length. -/
def State.poolRuns (s : State) (ovf : Bool) : List (Nat × Nat) :=
  s.que.queues.flatMap fun e => (e.2.items.filter fun i => !i.gap && i.inOverflow == ovf).map fun i =>
    ((i.addr.toNat % 0x80000000) / 128, i.units)

/-- Units `a` to `a + n - 1` of a pool of `total` units are free. -/
def runFree (runs : List (Nat × Nat)) (total a n : Nat) : Bool :=
  decide (a + n ≤ total) && runs.all fun r => decide (a + n ≤ r.1 ∨ r.1 + r.2 ≤ a)

/-- A free run of `n` adjacent units: the manual does not say which, so a free value names it where it is free, and
otherwise the lowest is taken. -/
def findRun (runs : List (Nat × Nat)) (total n free : Nat) : Option Nat :=
  if runFree runs total (Config.freeRun free) n then some (Config.freeRun free)
  else (((0 :: runs.map fun r => r.1 + r.2).filter fun a => runFree runs total a n).foldl
    (fun m a => match m with
      | none => some a
      | some b => some (min a b)) none)

/-- Units of the on-chip quota pool (R266). -/
def quotaPoolUnits : Nat := 40960

/-- A quota that a QUEUE_SET put below the use then: buffers are refused until the use has fallen below it (R268). -/
def Queue.squeezed (x : Queue) (ovf : Bool) : Bool :=
  if ovf then x.overOvf && decide (x.ovfQuota ≤ 128 * x.unitsUsed true)
  else x.overChip && decide (x.quota ≤ 128 * x.unitsUsed false)

/-- The queue with the marks of R268 as its use now stands. -/
def Queue.eased (x : Queue) : Queue := { x with overChip := x.squeezed false, overOvf := x.squeezed true }

/-- Place a buffer of `n` units for queue `q` (R267, R268): its deck address. -/
def State.placeBuffer (s : State) (x : Queue) (n : Nat) : Option Nat :=
  let chip := if (x.unitsUsed false + n) * 128 ≤ x.quota then findRun (s.poolRuns false) quotaPoolUnits n s.free else none
  if x.squeezed false || x.squeezed true then none
  else match chip with
  | some a => some (a * 128)
  | none =>
    if (x.unitsUsed true + n) * 128 ≤ x.ovfQuota then
      match findRun (s.poolRuns true) (s.tp.deckOverflow.size / 128) n s.free with
      | some a => some (0x80000000 + a * 128)
      | none => none
    else none

/-- Reset a queue whose pointer copies disagree, or under R280: discard its items, report the range, and hold arrivals
until the next tick edge (R276). -/
def State.resetQueue (post : Poster) (s : State) (q : Nat) : State :=
  let x := s.queue q
  let first := x.firstSeq
  let last := x.next - 1
  let orphans := x.items.filterMap fun i => i.owner.map fun o => (o, i.taken)
  let s1 := s.setQueue q { x with
    items := [], read := 0, mark := 0, readMax := 0, dropping := false, inPacket := false, popHeld := false,
    pointersBad := false, resetDrops := some (x.next, 0), lastFirst := first, lastLast := last }
  let s2 := { s1 with que := { s1.que with orphans := s1.que.orphans ++ orphans } }
  post ((s2.bump (Reg.QUE_CNT 3)).raise 14) .error 0x0C (some .qReset) 0
    [BitVec.ofNat 32 q, BitVec.ofNat 32 first.toNat, BitVec.ofNat 32 last.toNat]

/-- Compare a queue's pointer copies before an access (R276). -/
def State.checkPointers (post : Poster) (s : State) (q : Nat) : State :=
  if (s.queue q).pointersBad then s.resetQueue post q else s

/-- The queue's consumer reads no gap marker: HIF frees one when it reaches the head (R273), and so does a device or port
consumer, which has no use for it. A pop consumer reads it (R274). -/
def Queue.freesGaps (x : Queue) : Bool := (x.consumer != 0 || x.ring != 0xFF) && !(x.type = .rewind && x.consumer = 0)

/-- Free the gap markers at the head of a queue whose consumer reads none. -/
def State.freeGaps (s : State) (q : Nat) : State :=
  let x := s.queue q
  if !x.freesGaps then s
  else
    let n := (x.items.takeWhile fun i => i.gap && !i.taken).length
    if n = 0 then s else s.setQueue q { x with
      items := x.items.drop n, read := x.read - n, mark := x.mark - n, readMax := x.readMax - n }

/-- The tail of a queue is a gap marker that its consumer has not taken. -/
def Queue.tailGap (x : Queue) : Option QItem :=
  match x.items.getLast? with
  | some t => if t.gap && !t.taken && !(x.type = .rewind && decide (x.items.length ≤ x.readMax)) then some t else none
  | none => none

/-- A QUEUE_SET takes force (R268, R269): the items stay for the new consumer, and a quota put below the present use refuses
buffers until the use has fallen below it. An item that a pop consumer held goes with that consumer. -/
def State.queueSet (s : State) (q quota ovf ring : Nat) (f : Byte) : State :=
  let x := s.queue q
  let c := bits f 3 2
  let moved := x.popHeld && !(c = 0 && ring = 0xFF)
  (s.setQueue q { x with
    quota := quota, ovfQuota := ovf, ring := ring, qflags := f, consumer := c,
    items := if moved then x.items.filter fun i => !i.taken else x.items, popHeld := x.popHeld && !moved,
    overChip := decide (quota < 128 * x.unitsUsed false), overOvf := decide (ovf < 128 * x.unitsUsed true) }).freeGaps q

/-- Drop an arriving item under R272: it takes its SEQ, and a gap marker covers it. -/
def State.dropArrival (s : State) (q : Nat) (eop : Bool) : State :=
  let x := s.queue q
  let s1 := s.bump (Reg.QUE_CNT 1)
  let x1 := { x with next := x.next + 1, gaps := min (x.gaps + 1) 0xFFFFFFFF,
                     dropping := x.dropping || (x.whole && !eop) }
  match x.resetDrops with
  | some (f, n) => s1.setQueue q { x1 with resetDrops := some (f, n + 1) }
  | none =>
    match x.tailGap with
    | some t => s1.setQueue q { x1 with items := x.items.dropLast ++
        [if t.len < 0xFFFF then { t with len := t.len + 1 } else { t with overrun := true }] }
    | none => ((s1.bump (Reg.QUE_CNT 2)).setQueue q { x1 with
        hwmDepth := max x.hwmDepth (x.items.length + 1)
        items := x.items ++ [{ gap := true, sop := false, eop := false, seq := x.next, len := 1, enqTick := s.time.tickno }] }).freeGaps q

/-- DROPPING drops the rest of one packet: an item with SOP begins another, and ends it (R277). -/
def State.newPacket (s : State) (q : Nat) (it : QItem) : State :=
  if it.sop && (s.queue q).dropping then s.setQueue q { s.queue q with dropping := false } else s

/-- An item arrives at a queue (R269, R271, R272, R277); `some seq` when it is accepted. -/
def State.enqueueWith (post : Poster) (s0 : State) (q : Nat) (it : QItem) : State × Option (BitVec 16) :=
  let s := (s0.checkPointers post q).newPacket q it
  let x := (s.queue q).eased
  if x.type = .disabled then (s.bump (Reg.QUE_CNT 9), none)
  else if x.resetDrops.isSome then (s.dropArrival q true, none)
  else if x.dropping then
    ((s.bump (Reg.QUE_CNT 4)).setQueue q { x with next := x.next + 1, dropping := !it.eop }, none)
  else if x.items.length + 2 ≤ x.depth then
    match s.placeBuffer x (ceilDiv it.len 128) with
    | some a =>
      let n := x.items.length + 1
      ((s.nextFree.bump (Reg.QUE_CNT 0)).setQueue q { x with
          items := x.items ++ [{ it with seq := x.next, addr := BitVec.ofNat 32 a, enqTick := s.time.tickno }],
          next := x.next + 1, hwmDepth := max x.hwmDepth n }, some x.next)
    | none => (s.dropArrival q it.eop, none)
  else (s.dropArrival q it.eop, none)

/-- Ticks an item has waited (R281). -/
def State.sojourn (s : State) (i : QItem) : Nat := min ((s.tick + 2 ^ 48 - i.enqTick.toNat) % 2 ^ 48) 0xFFFF

/-- The items of an incomplete packet at the head of a WHOLE queue: those before a gap marker that comes before EOP. -/
def brokenHead (l : List QItem) : Nat :=
  match l with
  | [] => 0
  | i :: r => if i.gap || i.eop then 0 else
    match r with
    | [] => 0
    | j :: _ => if j.gap then 1 else
      match brokenHead r with
      | 0 => 0
      | n + 1 => n + 2

/-- Drop from a WHOLE queue the packet at its head that a gap marker has broken (R277). -/
def State.dropBroken (s : State) (q : Nat) : State :=
  let x := s.queue q
  if x.whole && x.type != .rewind then
    let n := brokenHead x.items
    if n = 0 then s else (s.bumpBy (Reg.QUE_CNT 4) 31 n).setQueue q { x with items := x.items.drop n }
  else s

/-- The next item a HIF, ETH or pop consumer would take: the head, or the item at READ of a rewind queue. -/
def Queue.headItem (x : Queue) : Option QItem :=
  if x.type = .rewind then x.items[x.read]? else x.items.find? fun i => !i.taken

/-- Take the head item: READ moves in a rewind queue, the item leaves any other queue unless `hold` keeps its slot and
buffer until it is freed (R274, R278). Returns the item taken. A marker that comes to the head is freed by `freeGaps`. -/
def State.takeHead (s : State) (q : Nat) (hold : Bool) : State × Option QItem :=
  let x := s.queue q
  match x.headItem with
  | none => (s, none)
  | some i =>
    let soj := s.sojourn i
    let x1 := { x with hwmSoj := max x.hwmSoj soj, inPacket := !i.gap && !i.eop }
    if x.type = .rewind then
      let again := decide (x.read < x.readMax)
      ((if again then s.bump (Reg.QUE_CNT 5) else s).setQueue q { x1 with read := x.read + 1, readMax := max x.readMax (x.read + 1) },
        some { i with replay := again })
    else if hold then
      (s.setQueue q { x1 with items := x.items.map fun j => if j.seq = i.seq && !j.taken then { j with taken := true } else j },
        some i)
    else (s.setQueue q { x1 with items := x.items.filter fun j => !(j.seq = i.seq && !j.taken) }, some i)

/-- Free a taken item by its SEQ (R274). -/
def State.freeItem (s : State) (q : Nat) (seq : BitVec 16) : State :=
  let x := s.queue q
  s.setQueue q { x with items := x.items.filter fun j => !(j.taken && j.seq = seq) }

/-- Present an item as its four words (Table 12-4). -/
def QItem.words (i : QItem) : List Word :=
  [fld 1 31 ||| fld (b2n i.gap) 30 ||| fld (b2n i.sop) 29 ||| fld (b2n i.eop) 28 ||| fld (b2n i.overrun) 27 |||
     fld (b2n i.replay) 26 ||| fld i.seq.toNat 0,
   fld i.len 0, if i.gap then 0 else i.addr, if i.gap then 0 else i.aux]

end Sys2Proof.Machine
end

