-- ==== Sys2Proof/Machine/Recorder.lean ====
section
/-! DEFINITION. Writing a record (R404 to R408), its export (R414), the clear (R413), and the completions (R424). -/

namespace Sys2Proof.Machine

/-- Octets of the on-chip part of the general area (R404). -/
def evrOnChip : Nat := 983040

/-- Octets of the reserved area (R404). -/
def evrReserved : Nat := 65536

/-- Octets of a record (R406). -/
def Rec.bytes (r : Rec) : Nat := 16 + 4 * r.payload.length

/-- Octets the general area holds. -/
def EvrSt.genUsed (e : EvrSt) : Nat := e.general.foldl (fun n r => n + r.occ) 0

/-- Octets the reserved area holds. -/
def EvrSt.rsvUsed (e : EvrSt) : Nat := e.reserved.foldl (fun n r => n + r.bytes) 0

/-- Octets skipped at the end of the ring for a record of `len` octets written at `wr` (R404). -/
def ringSkip (cap wr len : Nat) : Nat := if cap < wr + len then cap - wr else 0

/-- Make room for a record of `len` octets and severity `sev` (R408): the records that stay, and whether there is room. A
record of higher severity that has become the oldest stops the removal. -/
def makeRoom (cap wr len : Nat) (sev : Sev) (g : List Rec) : List Rec × Bool :=
  match g with
  | [] => ([], decide (len ≤ cap))
  | r :: rest =>
    if (r :: rest).foldl (fun n x => n + x.occ) 0 + ringSkip cap wr len + len ≤ cap then (r :: rest, true)
    else if r.sev.code ≤ sev.code then makeRoom cap wr len sev rest
    else (r :: rest, false)

/-- Give the octets skipped to the record that precedes them (R404). -/
def addSkip (g : List Rec) (skip : Nat) : List Rec :=
  match g.getLast? with
  | none => g
  | some r => g.dropLast ++ [{ r with occ := r.occ + skip }]

/-- Count a dropped record (R408). -/
def State.dropRec (s : State) (sev : Sev) : State := s.bump (Reg.EVR_DROP sev.code)

/-- Write a record without its export; true when it was written (R407, R408). -/
def State.writeRec (s : State) (sev : Sev) (src : Nat) (st : Option Status) (ev : Nat) (payload : List Word) :
    State × Bool :=
  if !s.evr.running then (s, false)
  else
    let r : Rec := { seq := s.evr.next, dtime := s.time.dtime, sev := sev, source := BitVec.ofNat 7 src,
                     status := match st with
                       | some x => BitVec.ofNat 6 x.code
                       | none => 0x3F,
                     event := BitVec.ofNat 8 ev, payload := payload }
    if 6 ≤ sev.code then
      if s.evr.rsvUsed + r.bytes ≤ evrReserved then
        ({ s with evr := { s.evr with reserved := s.evr.reserved ++ [{ r with occ := r.bytes }],
                                      newest := r.seq, next := r.seq + 1 } }, true)
      else
        let s1 := s.dropRec sev
        (if s.evr.rsvFull then s1 else ({ s1 with evr := { s1.evr with rsvFull := true } }).raise 18, false)
    else
      let cap := evrOnChip + s.evr.ext
      match makeRoom cap s.evr.wr r.bytes sev s.evr.general with
      | (g, false) => ({ s with evr := { s.evr with general := g } }.dropRec sev, false)
      | (g, true) =>
        let skip := ringSkip cap s.evr.wr r.bytes
        let off := if skip = 0 then s.evr.wr else 0
        ({ s with evr := { s.evr with general := addSkip g skip ++ [{ r with off := off, occ := r.bytes }],
                                      wr := off + r.bytes, newest := r.seq, next := r.seq + 1 } }, true)

/-- A poster that writes the record only. -/
def postPlain : Poster := fun s sev src st ev pl => (s.writeRec sev src st ev pl).1

/-- The words of a record as stored (Table 19-1). -/
def Rec.words (r : Rec) : List Word :=
  [r.seq, BitVec.ofNat 32 r.dtime.toNat, BitVec.ofNat 32 (r.dtime.toNat / 2 ^ 32),
   fld (3 + r.payload.length) 24 ||| fld r.sev.code 21 ||| fld r.source.toNat 14 ||| fld r.status.toNat 8 |||
     fld r.event.toNat 0] ++ r.payload

/-- Copy the newest record to the export queue while R414 asks for it. -/
def State.exportWith (post : Poster) (s : State) (sev : Sev) : State :=
  let ctrl := s.reg Reg.EVR_CTRL
  if bit ctrl 3 && decide (bits ctrl 2 0 ≤ sev.code) && s.truss.loaded then
    match (if 6 ≤ sev.code then s.evr.reserved.getLast? else s.evr.general.getLast?) with
    | none => s
    | some r => (s.enqueueWith post s.tp.exportQueue
        { len := r.bytes, aux := r.seq, bytes := ofWords r.words }).1
  else s

/-- Write a record and export it, a queue reset on the way writing its record by `inner`. -/
def postVia (inner : Poster) : Poster := fun s sev src st ev pl =>
  match s.writeRec sev src st ev pl with
  | (s1, true) => s1.exportWith inner sev
  | (s1, false) => s1

/-- Write a record and export it (R407, R414). The export can reset the export queue once, whose record is exported
into the queue so reset. -/
def post : Poster := postVia (postVia postPlain)

/-- Write a record, saying whether it was written. -/
def State.postAsk (s : State) (sev : Sev) (src : Nat) (st : Option Status) (ev : Nat) (pl : List Word) : State × Bool :=
  match s.writeRec sev src st ev pl with
  | (s1, true) => (s1.exportWith (postVia postPlain) sev, true)
  | (s1, false) => (s1, false)

/-- A word of a number, for a payload. -/
def pw (n : Nat) : Word := BitVec.ofNat 32 n

/-- The two words of a 64-bit number, low word first (R406). -/
def pw2 (n : Nat) : List Word := [BitVec.ofNat 32 n, BitVec.ofNat 32 (n / 2 ^ 32)]

/-- A NOTICE record of a block with no status and no payload: a register write discarded whole. -/
def State.notice (s : State) (block : Nat) : State := post s .notice block none 0 []

/-- An item arrives at a queue. -/
def State.enqueue (s : State) (q : Nat) (it : QItem) : State × Option (BitVec 16) := s.enqueueWith post q it

/-! ### Completions and the common checks of a command -/

/-- Remove the first occurrence of a value. -/
def dropFirst {α : Type} [DecidableEq α] (l : List α) (a : α) : List α :=
  match l with
  | [] => []
  | b :: r => if b = a then r else b :: dropFirst r a

/-- Hold a completion for its write (R422). -/
def State.hold (s : State) (c : Completion) : State := { s with hif := { s.hif with held := s.hif.held ++ [c] } }

/-- A command ends: its completion is held for the ring, and it is no longer among the commands started (R424, R425). -/
def State.complete (s : State) (d : Desc) (st : Status) (b4 b8 b12 : Word := 0) : State :=
  ({ s with hif := { s.hif with started := dropFirst s.hif.started d } }).hold
    { tag := d.tag, status := st, b4 := b4, b8 := b8, b12 := b12 }

/-- The NOTICE record of R8. No record is kept while no recorder runs (DESIGN CHOICE, log 21: the manual holds only the
record of a KEY_ALARM_ACK until one does). -/
def State.rejectNote (s : State) (d : Desc) : State :=
  post s .notice (d.opcode / 256) (some .state) (d.opcode % 256) [pw d.tag.toNat, pw s.sys.state.code]

/-- A command in a state that does not accept it: STATE, and the NOTICE record of R8. -/
def State.rejectState (s : State) (d : Desc) (b4 : Word := 0) : State := (s.complete d .state b4).rejectNote d

/-- SYS_STATE is one of those in which a command is accepted (Table 20-3). -/
def State.inStates (s : State) (l : List SysState) : Bool := l.contains s.sys.state

/-- Steps 2 and 3 of R425 for a command whose byte 4 must be 0xFF; then its own rule. -/
def State.command (s : State) (d : Desc) (states : List SysState) (k : State → State) : State :=
  if d.byte 4 ≠ 0xFF then s.complete d .unsupported
  else if !s.inStates states then s.rejectState d
  else k s

/-- S, A and Y of Table 20-3. -/
def stSAY : List SysState := [.structured, .active, .standby]

/-- S, A, Y and M. -/
def stSAYM : List SysState := [.structured, .active, .standby, .maintenance]

/-- S, A, Y, M and L. -/
def stSAYML : List SysState := [.structured, .active, .standby, .maintenance, .alarm]

/-- Change SYS_STATE and raise cause 9 (Table 20-5); in FAULT the one message of entry goes out first (R430). -/
def State.enter (s : State) (t : SysState) : State :=
  if s.sys.state = t then s
  else
    let s1 := s.raise 9
    { s1 with sys := { s1.sys with state := t } }

end Sys2Proof.Machine
end

