-- ==== Sys2Proof/Machine/TrussLoad.lean ====
section
/-! DEFINITION. Reading a truss: its format, the ranges of its parameters and the checks of a load (R50 to R59). -/

namespace Sys2Proof.Machine

/-- The code of a refusal reason (Table 03-5). -/
def Reason.code (r : Reason) : Nat :=
  match r with
  | .header => 1 | .size => 2 | .key => 3 | .signature => 4 | .section_ => 5 | .type => 6 | .range => 7 | .window => 8
  | .cluster => 9 | .capacity => 10 | .memmap => 11 | .template => 12 | .digest => 13 | .parapet => 14

/-- The completion status of a refusal reason (Table 03-5). -/
def Reason.status (r : Reason) : Status :=
  match r with
  | .header => .unsupported | .size => .length | .key => .authFail | .signature => .authFail | .section_ => .length
  | .type => .unsupported | .range => .unsupported | .window => .unsupported | .cluster => .conflict
  | .capacity => .noRoom | .memmap => .noRoom | .template => .unsupported | .digest => .parapet | .parapet => .parapet

/-- The value octets of a section. -/
def Section.value (x : Section) : List Byte := slice x.raw 16 (x.raw.length - 80)

/-- The value octets of the section of a TYPE. -/
def sectionValue (l : List Section) (type : Nat) : List Byte :=
  match l.find? fun x => x.type = type with
  | some x => x.value
  | none => []

/-- Octets the parameters of a section occupy, its record counts taken from the value itself (R52); none when the value
ends before its counts. -/
def packedLen (type : Nat) (v : List Byte) : Nat :=
  match type with
  | 0x01 => 12
  | 0x02 => 54
  | 0x03 => 3
  | 0x04 => 6
  | 0x05 => 1 + 12 * leAt v 0 1
  | 0x06 => 2 + 10 * leAt v 0 2
  | 0x07 => 2 + 2 * leAt v 0 2 + 2 + 2 * leAt v (2 + 2 * leAt v 0 2) 2
  | 0x08 => 11
  | 0x09 => 11
  | 0x0A => 1 + 9 * leAt v 0 1
  | 0x0B => 2
  | 0x0C => 8
  | 0x0D => 48
  | 0x0E => 4
  | 0x0F => 2
  | 0x10 => 38
  | 0x11 => 5
  | _ => 0

/-- A length rounded up to a multiple of 4. -/
def pad4 (n : Nat) : Nat := (n + 3) / 4 * 4

/-- The section types that spans replace (Table 03-3). -/
def mutableType (t : Nat) : Bool := decide (5 ≤ t ∧ t ≤ 8)

/-- The BANDS record at `o` with the ISOLATION record at `i` of its section. -/
def readBand (v iso : List Byte) (o i : Nat) : BandCfg :=
  { present := leAt v o 1 = 1, windowCentre := leAt v (o + 1) 4, raster := leAt v (o + 5) 4,
    firstChannel := leAt v (o + 9) 4, channelCount := leAt v (o + 13) 2, phy := leAt v (o + 15) 1,
    modIndex := leAt v (o + 16) 1, symbolRate := leAt v (o + 17) 4, preambleLen := leAt v (o + 21) 1,
    maxPsdu := leAt v (o + 22) 2, maxPower := signed (leAt v (o + 24) 2) 16, chainSplit := leAt v (o + 26) 1,
    iso := leAt iso i 2, lwtExcl := leAt iso (i + 2) 1 }

/-- The slot templates of a SLOT_TEMPLATES value. -/
def readTemplates (v : List Byte) : List SlotTemplate :=
  (List.range (leAt v 0 1)).map fun n =>
    let o := 1 + 12 * n
    { band := leAt v o 1, txOffset := leAt v (o + 1) 2, txAckGap := leAt v (o + 3) 2, ackPsduMax := leAt v (o + 5) 2,
      txSlip := leAt v (o + 7) 1, ccaOffset := leAt v (o + 8) 2, ccaLen := leAt v (o + 10) 2 }

/-- The records of a CLUSTERS value. -/
def readClusters (v : List Byte) : List Cluster :=
  (List.range (leAt v 0 2)).map fun n =>
    let o := 2 + 10 * n
    { panId := leAt v o 2, base := leAt v (o + 2) 4, nodes := leAt v (o + 6) 2, band := leAt v (o + 8) 1,
      sfFamily := leAt v (o + 9) 1 }

/-- The two sequences of a HOPPING value. -/
def readHop (v : List Byte) : List Nat × List Nat :=
  let a := leAt v 0 2
  let o := 2 + 2 * a
  ((List.range a).map fun n => leAt v (2 + 2 * n) 2, (List.range (leAt v o 2)).map fun n => leAt v (o + 2 + 2 * n) 2)

/-- The ranges of a QUEUES value. -/
def readQueueRanges (v : List Byte) : List QueueRange :=
  (List.range (leAt v 0 1)).map fun n =>
    let o := 1 + 9 * n
    { first := leAt v o 2, last := leAt v (o + 2) 2, type := leAt v (o + 4) 1, depth := leAt v (o + 5) 4 }

/-- A MEMMAP record. -/
def readPartition (v : List Byte) (n : Nat) : Partition := { base := leAt v (8 * n) 4, size := leAt v (8 * n + 4) 4 }

/-- What the sections of a truss say (Table 03-4). -/
def readParams (l : List Section) : TrussParams :=
  let t := sectionValue l 1
  let b := sectionValue l 2
  let p := sectionValue l 3
  let i := sectionValue l 4
  let h := readHop (sectionValue l 7)
  let m := sectionValue l 8
  let tb := sectionValue l 9
  let kc := sectionValue l 0x0C
  let mm := sectionValue l 0x0D
  let ck := sectionValue l 0x0E
  let px := sectionValue l 0x10
  let ca := sectionValue l 0x11
  { tickPeriod := leAt t 0 2, kA := leAt t 2 1, kB := leAt t 3 1, timeRole := leAt t 4 1, ptpPort := leAt t 5 1,
    slewMax := leAt t 6 1, holdoverPpm := leAt t 7 2, holdoverGuardMax := leAt t 9 2, parentBr := leAt t 11 1,
    bandA := readBand b i 0 0, bandB := readBand b i 27 3,
    piersA := leAt p 0 1, piersB := leAt p 1 1, twin := leAt p 2 1,
    templates := readTemplates (sectionValue l 5), clusters := readClusters (sectionValue l 6), hopA := h.1, hopB := h.2,
    fcLeap := leAt m 0 4, learnHold := leAt m 4 1, captureMargin := leAt m 5 1, seenAge := leAt m 6 2,
    floodTtl := leAt m 8 1, reasmTimeout := leAt m 9 2,
    lpmPrefixes := leAt tb 0 2, emSeed0 := BitVec.ofNat 32 (leAt tb 2 4), emSeed1 := BitVec.ofNat 32 (leAt tb 6 4),
    learnEn := leAt tb 10 1, queueRanges := readQueueRanges (sectionValue l 0x0A),
    policers := leAt (sectionValue l 0x0B) 0 2,
    kcDevice := leAt kc 0 2, kcDomain := leAt kc 2 2, kcNode := leAt kc 4 2, kcHost := leAt kc 6 2,
    contexts := readPartition mm 0, deckOverflow := readPartition mm 1, staging := readPartition mm 2,
    logExt := readPartition mm 3, fwRuntime := readPartition mm 4, hostWindow := readPartition mm 5,
    checkOwners := (List.range 4).map fun n => leAt ck n 1, exportQueue := leAt (sectionValue l 0x0F) 0 2,
    gpioFn := (List.range 24).map fun n => leAt px n 1, i2c0Speed := leAt px 24 1, i2c1Speed := leAt px 25 1,
    femFn := (List.range 12).map fun n => leAt px (26 + n) 1,
    calFull := leAt ca 0 1 = 1, calBudget := leAt ca 1 2, starveTicks := leAt ca 3 2 }

/-! ### Ranges (R53): each check is the offset of a field in its section's value, and whether the field passes. -/

/-- `lo ≤ v ≤ hi`. -/
def inRange (lo hi v : Nat) : Bool := decide (lo ≤ v ∧ v ≤ hi)

/-- The ranges of a BANDS record (band 1 is Band B). -/
def bandRanges (b : Nat) (v : List Byte) (c : BandCfg) : List (Nat × Bool) :=
  let o := 27 * b
  let qpsk := c.phy = 3
  if leAt v o 1 = 0 then (List.range 26).map fun n => (o + 1 + n, leAt v (o + 1 + n) 1 = 0)
  else
    [(o, leAt v o 1 = 1),
     (o + 1, if b = 0 then inRange 424000 946000 c.windowCentre else c.windowCentre = 2441750),
     (o + 5, inRange 12500 5000000 c.raster), (o + 13, inRange 1 1024 c.channelCount),
     (o + 15, inRange 0 (if b = 0 then 2 else 3) c.phy),
     (o + 16, if qpsk then c.modIndex = 0 else c.modIndex = 5 || c.modIndex = 10),
     (o + 17, if qpsk then c.symbolRate = 62500 else inRange 10000 400000 c.symbolRate),
     (o + 21, if qpsk then c.preambleLen = 4 else inRange 4 32 c.preambleLen),
     (o + 22, inRange 9 (if qpsk then 127 else 2047) c.maxPsdu), (o + 26, inRange 0 1 c.chainSplit)]

/-- The ranges of one section of a truss whose parameters are `p`. -/
def sectionRanges (p : TrussParams) (type : Nat) (v : List Byte) : List (Nat × Bool) :=
  match type with
  | 0x01 => [(0, inRange 1000 20000 p.tickPeriod), (2, inRange 0 16 p.kA), (3, inRange 0 16 p.kB),
      (4, inRange 0 2 p.timeRole), (5, inRange 0 1 p.ptpPort), (6, inRange 1 200 p.slewMax),
      (7, inRange 1 65535 p.holdoverPpm), (9, inRange 100 5000 p.holdoverGuardMax), (11, inRange 0 63 p.parentBr)]
  | 0x02 => bandRanges 0 v p.bandA ++ bandRanges 1 v p.bandB
  | 0x03 => []
  | 0x04 => [(0, inRange 0 160 p.bandA.iso), (2, inRange 0 64 p.bandA.lwtExcl), (3, inRange 0 160 p.bandB.iso),
      (5, inRange 0 64 p.bandB.lwtExcl)]
  | 0x05 => (0, inRange 1 16 p.templates.length) :: (List.range p.templates.length).flatMap fun n =>
      let t := p.templates.getD n {}
      let o := 1 + 12 * n
      [(o, inRange 0 1 t.band && (p.band t.band).present), (o + 3, inRange 500 5000 t.txAckGap),
       (o + 5, inRange 9 (p.band t.band).maxPsdu t.ackPsduMax), (o + 7, inRange 0 100 t.txSlip),
       (o + 8, t.ccaLen = 0 || decide (100 ≤ t.ccaOffset))]
  | 0x06 => (0, inRange 1 256 p.clusters.length) :: (List.range p.clusters.length).flatMap fun n =>
      let c := p.clusters.getD n {}
      [(2 + 10 * n + 6, inRange 1 4096 c.nodes), (2 + 10 * n + 8, inRange 0 2 c.band)]
  | 0x07 =>
      let ob := 2 + 2 * p.hopA.length
      (0, inRange 0 512 p.hopA.length) ::
        ((List.range p.hopA.length).map fun n => (2 + 2 * n, decide (p.hopA.getD n 0 < p.bandA.channelCount))) ++
      (ob, inRange 0 512 p.hopB.length) ::
        ((List.range p.hopB.length).map fun n => (ob + 2 + 2 * n, decide (p.hopB.getD n 0 < p.bandB.channelCount)))
  | 0x08 => [(0, inRange 1 16777216 p.fcLeap), (4, inRange 1 16 p.learnHold), (5, inRange 4 40 p.captureMargin),
      (6, inRange 1 65535 p.seenAge), (8, inRange 1 15 p.floodTtl), (9, inRange 1 65535 p.reasmTimeout)]
  | 0x09 => [(0, inRange 0 16384 p.lpmPrefixes), (6, decide (p.emSeed0 ≠ p.emSeed1)), (10, inRange 0 7 p.learnEn)]
  | 0x0A => (0, inRange 1 64 p.queueRanges.length) :: (List.range p.queueRanges.length).flatMap fun n =>
      let q := p.queueRanges.getD n {}
      let o := 1 + 9 * n
      [(o, decide (n = 0 ∨ (p.queueRanges.getD (n - 1) {}).last < q.first)),
       (o + 2, inRange q.first 1023 q.last),
       (o + 4, inRange 0 3 q.type && (q.type != 3 || decide (992 ≤ q.first))),
       (o + 5, if q.type = 0 then q.depth = 0
               else (List.range 13).any fun k => q.depth = 2 ^ (k + 4))]
  | 0x0B => [(0, inRange 0 4096 p.policers)]
  | 0x0C => [(0, p.kcDevice = 16), (4, p.kcNode % 2 = 0),
      (0, decide (4096 ≤ p.kcDevice + p.kcDomain + p.kcNode + p.kcHost))]
  | 0x0D => (List.range 12).map fun n => (4 * n, leAt v (4 * n) 4 % 0x100000 = 0)
  | 0x0E => (List.range 4).map fun n => (n, inRange 0 2 (p.checkOwners.getD n 0))
  | 0x0F => [(0, inRange 992 1023 p.exportQueue &&
      p.queueRanges.any fun q => q.type = 3 && inRange q.first q.last p.exportQueue)]
  | 0x10 => ((List.range 24).map fun n => (n, inRange 0 5 (p.gpioFn.getD n 0))) ++
      [(24, inRange 0 2 p.i2c0Speed), (25, inRange 0 2 p.i2c1Speed)] ++
      (List.range 12).map fun n => (26 + n, inRange 0 4 (p.femFn.getD n 0))
  | 0x11 => [(0, inRange 0 1 (leAt v 0 1)), (1, inRange 50 2000 p.calBudget), (3, inRange 1 65535 p.starveTicks)]
  | _ => []

/-! ### Consistency (R54, R55) -/

/-- Bits per second of a band's PHY (R55): O-QPSK sends an octet in 32 µs. -/
def BandCfg.bitRate (c : BandCfg) : Nat :=
  if c.phy = 3 then 250000 else if c.phy = 2 then 2 * c.symbolRate else c.symbolRate

/-- The octets of a frame with an `n`-octet PSDU, from the first of its preamble (R55). -/
def BandCfg.frameOctets (c : BandCfg) (n : Nat) : Nat := (if c.phy = 3 then 6 else c.preambleLen + 4) + n

/-- Airtime in ns of a frame with an `n`-octet PSDU (R55), rounded up to a nanosecond. -/
def BandCfg.airtimeNs (c : BandCfg) (n : Nat) : Nat := ceilDiv (c.frameOctets n * 8 * 1000000000) c.bitRate

/-- Centre of channel `n` in Hz (R96). -/
def BandCfg.centre (c : BandCfg) (n : Nat) : Nat := c.firstChannel + n * c.raster

/-- Every channel, widened by half of RASTER, lies in the band's window and in the band (R54). Doubled Hz. -/
def windowOk (b : Nat) (c : BandCfg) : Bool :=
  let half := if b = 0 then 14000000 else 42000000
  let lo := max (c.windowCentre * 1000 - half) (if b = 0 then 410000000 else 2400000000)
  let hi := min (c.windowCentre * 1000 + half) (if b = 0 then 960000000 else 2483500000)
  decide (2 * lo + c.raster ≤ 2 * c.centre 0 ∧ 2 * c.centre (c.channelCount - 1) + c.raster ≤ 2 * hi)

/-- K, PIERS and HOPPING LEN are non-zero exactly when the band is present (R54). -/
def presenceOk (c : BandCfg) (k piers hop : Nat) : Bool :=
  decide ((k ≠ 0) = (c.present = true) ∧ (piers ≠ 0) = (c.present = true) ∧ (hop ≠ 0) = (c.present = true))

/-- Channels carried by the busiest chain of a band (R54, CHAIN_SPLIT of Table 03-4). -/
def chainChannels (c : BandCfg) : Nat := if c.chainSplit = 1 then (c.channelCount + 1) / 2 else c.channelCount

/-- Cluster ranges are disjoint and PAN IDs distinct, and no range passes NIDX 262,143 (R54). -/
def clustersOk (l : List Cluster) : Bool :=
  (l.all fun c => decide (c.base + c.nodes ≤ 262144)) && distinct (l.map fun c => c.panId) &&
  ((List.range l.length).all fun i => (List.range l.length).all fun j =>
    let a := l.getD i {}
    let b := l.getD j {}
    i = j || decide (a.base + a.nodes ≤ b.base ∨ b.base + b.nodes ≤ a.base))

/-- Items of all enabled queues (R54). -/
def totalDepth (l : List QueueRange) : Nat := l.foldl (fun n q => n + (q.last + 1 - q.first) * q.depth) 0

/-- R22: limits, order and total of the partitions. -/
def memmapOk (p : TrussParams) : Bool :=
  let mib := 0x100000
  let top := p.clusters.foldl (fun n c => max n (c.base + c.nodes)) 0
  let parts := [p.contexts, p.deckOverflow, p.staging, p.logExt, p.fwRuntime, p.hostWindow]
  inRange (ceilDiv (128 * top) mib * mib) (32 * mib) p.contexts.size && inRange 0 (256 * mib) p.deckOverflow.size &&
  inRange (32 * mib) (128 * mib) p.staging.size && inRange 0 (16 * mib) p.logExt.size &&
  inRange (96 * mib) (192 * mib) p.fwRuntime.size && inRange 0 (256 * mib) p.hostWindow.size &&
  (parts.all fun q => decide (q.base + q.size ≤ 0x20000000)) &&
  decide (parts.foldl (fun n q => n + q.size) 0 ≤ 0x20000000) &&
  ((List.range 6).all fun i => (List.range 6).all fun j =>
    let a := parts.getD i {}
    let b := parts.getD j {}
    i = j || a.size = 0 || b.size = 0 || decide (a.base + a.size ≤ b.base ∨ b.base + b.size ≤ a.base))

/-- The timing check of a slot template (R55), exact: both sides in µs times the bit rate. -/
def templateOk (p : TrussParams) (t : SlotTemplate) : Bool :=
  let c := p.band t.band
  decide (100 ≤ t.txOffset) && (t.ccaLen = 0 || decide (100 ≤ t.ccaOffset ∧ t.ccaOffset + t.ccaLen ≤ t.txOffset)) &&
  decide ((t.txOffset + t.txAckGap + t.txSlip) * c.bitRate + (c.frameOctets c.maxPsdu + c.frameOctets t.ackPsduMax) * 8000000
    ≤ p.k t.band * p.tickPeriod * c.bitRate)

/-- The checks of R54 in its order: the reason and section of the first that fails, with the offset in its value. Where a
check spans sections the spec does not say which is the failing one: a channel count over the profile's limit is reported at
CALIBRATION, offset 0, which holds PROFILE (DESIGN CHOICE, log 30). -/
def consistency (p : TrussParams) : Option (Reason × Nat × Nat) :=
  if p.bandA.present && !windowOk 0 p.bandA then some (.window, 2, 9)
  else if p.bandB.present && !windowOk 1 p.bandB then some (.window, 2, 36)
  else if !presenceOk p.bandA p.kA p.piersA p.hopA.length then
    some (if decide ((p.kA ≠ 0) = (p.bandA.present = true)) then
            if decide ((p.piersA ≠ 0) = (p.bandA.present = true)) then (.range, 7, 0) else (.range, 3, 0)
          else (.range, 1, 2))
  else if !presenceOk p.bandB p.kB p.piersB p.hopB.length then
    some (if decide ((p.kB ≠ 0) = (p.bandB.present = true)) then
            if decide ((p.piersB ≠ 0) = (p.bandB.present = true)) then (.range, 7, 2 + 2 * p.hopA.length)
            else (.range, 3, 1)
          else (.range, 1, 3))
  else if !clustersOk p.clusters then some (.cluster, 6, 0)
  else if 1048576 < totalDepth p.queueRanges then some (.capacity, 0x0A, 0)
  else if (if p.calFull then 512 else 32) < max (chainChannels p.bandA) (chainChannels p.bandB) then
    some (.capacity, 0x11, 0)
  else if !memmapOk p then some (.memmap, 0x0D, 0)
  else match (List.range p.templates.length).find? fun n => !templateOk p (p.templates.getD n {}) with
    | some n => some (.template, 5, 1 + 12 * n)
    | none => none

/-! ### The parapet (R56) -/

/-- The range record `n` of the band block at `o` of a slot image. -/
def readRange (img : List Byte) (b n : Nat) : ParRange :=
  let o := 0x20 + 0x210 * b + 16 + 32 * n
  { low := leAt img o 4, high := leAt img (o + 4) 4, maxPower := signed (leAt img (o + 8) 2) 16,
    flags := BitVec.ofNat 8 (leAt img (o + 10) 1), lbtThr := signed (leAt img (o + 11) 1) 8,
    dutyPpm := leAt img (o + 12) 4, dutyWindow := leAt img (o + 16) 2, lbtTime := leAt img (o + 18) 2,
    maxCont := leAt img (o + 20) 4, minHop := leAt img (o + 24) 2, dwell := leAt img (o + 26) 2,
    dwellPeriod := leAt img (o + 28) 2 }

/-- The first RANGE_COUNT ranges of a band (Table 08-2). -/
def readRanges (img : List Byte) (b : Nat) : List ParRange :=
  (List.range (leAt img (0x20 + 0x210 * b) 1)).map fun n => readRange img b n

/-- FLAGS of a range. -/
def ParRange.valid (r : ParRange) : Bool := bit r.flags 0
def ParRange.lbt (r : ParRange) : Bool := bit r.flags 1
def ParRange.duty (r : ParRange) : Bool := bit r.flags 2
def ParRange.hop (r : ParRange) : Bool := bit r.flags 3
def ParRange.ackExempt (r : ParRange) : Bool := bit r.flags 4

/-- The VALID range that holds a channel, widened by half of RASTER on each side. -/
def holdingRange (rs : List ParRange) (c : BandCfg) (n : Nat) : Option ParRange :=
  rs.find? fun r => r.valid && decide (2 * r.low + c.raster ≤ 2 * c.centre n ∧ 2 * c.centre n + c.raster ≤ 2 * r.high)

/-- The checks of R56 for one band against a slot image: the section that holds the parameter of the first that fails. -/
def parapetBandRefused (p : TrussParams) (img : List Byte) (b : Nat) : Option Nat :=
  let c := p.band b
  let rs := readRanges img b
  let held := (List.range c.channelCount).map fun n => holdingRange rs c n
  let used := held.filterMap id
  let hop := if b = 0 then p.hopA else p.hopB
  if !c.present then none
  else if !((held.all fun r => r.isSome) && (used.all fun r => decide (c.maxPower ≤ r.maxPower))) then some 2
  else if hop.eraseDups.length < used.foldl (fun m r => if r.hop then max m r.minHop else m) 0 then some 7
  else if !(used.all fun r => !r.lbt ||
      p.templates.all fun t => t.band != b || decide (r.lbtTime ≤ t.ccaLen)) then some 5
  else none

/-- R56 against a slot image: the section refused. -/
def parapetRefused (p : TrussParams) (img : List Byte) : Option Nat :=
  parapetBandRefused p img 0 <|> parapetBandRefused p img 1

/-- R56 against a slot image. -/
def parapetOk (p : TrussParams) (img : List Byte) : Bool := (parapetRefused p img).isNone

/-- The slot in force of the parapet, as burned. -/
def State.parImage (s : State) : List Byte := if s.par.slot = 0 then s.par.slot0 else s.par.slot1

/-- Steps 5 and 6 of R58 and R56 for a set of sections: the refusal, with the offset in its section's value. -/
def sectionsRefused (l : List Section) (p : TrussParams) : Option (Reason × Nat × Nat) :=
  match (l.flatMap fun x => (sectionRanges p x.type x.value).map fun c => (x.type, c)).find? fun e => !e.2.2 with
  | some e => some (.range, e.1, e.2.1)
  | none =>
    if 64 < p.piersA + p.piersB + p.twin then some (.capacity, 3, 0)
    else if 4096 < p.kcDevice + p.kcDomain + p.kcNode + p.kcHost then some (.capacity, 0x0C, 0)
    else consistency p

/-- Parse the sections from offset `o` of a truss of `len` octets (step 4 of R58): the sections, or the refusal. The spec
lists layout, TYPE order and SIG in one step and does not say which wins: TYPE and the MUTABLE flag are judged before the
layout, and a truss that ends before its last sections is refused SECTION (DESIGN CHOICE, log 30). -/
def parseSections (key : List Byte) (id : List Byte) (bs : List Byte) (len : Nat) (types : List Nat) (o : Nat) :
    Except Refused (List Section) :=
  match types with
  | [] => if o = len then .ok [] else .error ⟨.size, 0, o⟩
  | t :: rest =>
    let vlen := leAt bs (o + 4) 4
    let raw := slice bs o (80 + vlen)
    let v := slice bs (o + 16) vlen
    let n := packedLen t v
    if len < o + 16 then .error ⟨.section_, t, o⟩
    else if leAt bs o 2 ≠ t then .error ⟨.type, leAt bs o 2, o⟩
    else if (leAt bs (o + 2) 2 % 2 = 1) ≠ (mutableType t = true) then .error ⟨.type, t, o + 2⟩
    else if leAt bs (o + 2) 2 / 2 ≠ 0 then .error ⟨.section_, t, o + 2⟩
    else if len < o + 80 + vlen ∨ vlen % 4 ≠ 0 then .error ⟨.section_, t, o + 4⟩
    else if leAt bs (o + 8) 4 = 0 then .error ⟨.section_, t, o + 8⟩
    else if leAt bs (o + 12) 4 ≠ 0 then .error ⟨.section_, t, o + 12⟩
    else if vlen ≠ pad4 n then .error ⟨.section_, t, o + 4⟩
    else if !((List.range (vlen - n)).all fun i => leAt v (n + i) 1 = 0) then .error ⟨.section_, t, o + 16 + n⟩
    else if !Config.p256Verify key (id ++ slice bs o (16 + vlen)) (slice bs (o + 16 + vlen) 64) then
      .error ⟨.signature, t, o + 16 + vlen⟩
    else match parseSections key id bs len rest (o + 80 + vlen) with
      | .ok r => .ok ({ type := t, serial := BitVec.ofNat 32 (leAt bs (o + 8) 4), raw := raw } :: r)
      | .error e => .error e

/-- The 17 section types in their order (R51). -/
def sectionTypes : List Nat := (List.range 17).map fun n => n + 1

/-- Offset in the truss of a section's value. -/
def valueOffset (l : List Section) (type : Nat) : Nat :=
  0xB8 + ((l.takeWhile fun x => x.type != type).foldl (fun n x => n + x.raw.length) 0) + 16

/-- The life-cycle state: the target of the last entry that read back complete, or BLANK (R309). -/
def KeySt.lc (k : KeySt) : LifeCycle :=
  match (k.lcLog.filter fun e => e.complete).getLast? with
  | some e => e.target
  | none => .blank

/-- The hash a key is checked against as the OEM key hash: a BLANK part takes the ROM's provisioning hash (R348). -/
def KeySt.oemKeyHash (k : KeySt) : List Byte := if k.lc = .blank then Config.provisioningHash else k.oemHash

/-- A load verifies a truss in the order of R58: the truss, or why it is refused. -/
def verifyTruss (s : State) (bs : List Byte) : Except Refused Truss :=
  let len := leAt bs 8 4
  let key := slice bs 0x38 64
  let id := slice bs 0x0C 4
  if leAt bs 0 4 ≠ 0x7A547253 then .error ⟨.header, 0, 0⟩
  else if leAt bs 4 2 ≠ 1 then .error ⟨.header, 0, 4⟩
  else if leAt bs 6 2 ≠ 17 then .error ⟨.header, 0, 6⟩
  else if 64 ≤ leAt bs 0x12 1 then .error ⟨.header, 0, 0x12⟩
  else if leAt bs 0x13 1 ≠ 0 then .error ⟨.header, 0, 0x13⟩
  else if 262144 < len then .error ⟨.size, 0, 8⟩
  else if Config.sha256 key ≠ s.key.oemKeyHash then .error ⟨.key, 0, 0x38⟩
  else if !Config.p256Verify key (slice bs 0 0x78) (slice bs 0x78 64) then .error ⟨.signature, 0, 0x78⟩
  else match parseSections key id bs len sectionTypes 0xB8 with
    | .error e => .error e
    | .ok l =>
      let p := readParams l
      match sectionsRefused l p with
      | some (r, t, o) => .error ⟨r, t, valueOffset l t + o⟩
      | none =>
        let want := slice bs 0x18 32
        if want ≠ List.replicate 32 0 ∧ want ≠ Config.sha256 (s.par.slot0 ++ s.par.slot1) then
          .error ⟨.digest, 0, 0x18⟩
        else
          let bad := if s.par.state = .sealed then parapetRefused p s.parImage else none
          match bad with
          | some n => .error ⟨.parapet, n, valueOffset l n⟩
          | none => .ok { header := slice bs 0 0xB8, sections := l, trussId := BitVec.ofNat 32 (leAt bs 0x0C 4),
                          domainId := BitVec.ofNat 16 (leAt bs 0x10 2), brId := BitVec.ofNat 6 (leAt bs 0x12 1),
                          length := len, digest := Config.sha256 (bs.take len), params := p }

end Sys2Proof.Machine
end

