-- ==== Sys2Proof/Machine/Keys.lean ====
section
/-! DEFINITION. The key cache, derivation, blobs, node keys and the life cycle (Keys and Life Cycle). -/

namespace Sys2Proof.Machine

/-- Slot `i` of the key cache. -/
def State.slot (s : State) (i : Nat) : KeySlot := aget {} s.key.slots i

/-- Set a slot. -/
def State.setSlot (s : State) (i : Nat) (k : KeySlot) : State :=
  { s with key := { s.key with slots := aset {} s.key.slots i k } }

/-- The visibility bit of a span (R78). -/
def State.spanVis (s : State) (n : Nat) : Bool := (s.spanc.spans.getD n {}).vis

/-- A slot is valid and in force (R78). -/
def State.slotLive (s : State) (i : Nat) : Bool :=
  (s.slot i).valid && match (s.slot i).pendingOf with
    | none => true
    | some n => s.spanVis n

/-- The PARENT chain of a slot is valid, each link of the generation recorded beneath it (R291). -/
def State.chainOk (s : State) (fuel i : Nat) : Bool :=
  match fuel with
  | 0 => false
  | n + 1 => s.slotLive i && match (s.slot i).parent with
    | none => true
    | some p => (s.slot p).gen == (s.slot i).parentGen && s.chainOk n p

/-- A slot is usable (R291). -/
def State.usable (s : State) (i : Nat) : Bool := s.chainOk (s.key.slots.length + 1) i

/-- Partitions of the key cache (R290). -/
inductive KeyPart where
  | device | domain | node | host
  deriving DecidableEq, Repr

/-- The partition of a slot under the truss in force. -/
def State.keyPart (s : State) (i : Nat) : KeyPart :=
  if i < s.tp.kcDevice then .device
  else if i < s.tp.kcDevice + s.tp.kcDomain then .domain
  else if i < s.tp.kcDevice + s.tp.kcDomain + s.tp.kcNode then .node
  else .host

/-- USAGE of an ATTR (Table 13-2): 0 ENC_ONLY, 1 DEC_ONLY, 2 WRAP_ONLY, 3 DERIVE_ONLY. -/
def usage (a : Byte) : Nat := bits a 1 0

/-- AES256 of an ATTR. -/
def attr256 (a : Byte) : Bool := bit a 2

/-- NODE_MASTER of an ATTR. -/
def attrMaster (a : Byte) : Bool := bit a 3

/-- An ATTR allowed in a partition (R292). -/
def attrOk (a : Byte) (part : KeyPart) : Bool :=
  bits a 7 4 = 0 && (!attrMaster a || (usage a = 3 && part = .domain))

/-- RETURNS: RETURNED entries of the log (R306). -/
def KeySt.returns (k : KeySt) : Nat := (k.lcLog.filter fun e => e.complete && e.target = .returned).length

/-- The value of a life-cycle state (Table 13-7). -/
def LifeCycle.code (l : LifeCycle) : Nat :=
  match l with
  | .blank => 0 | .provisioned => 1 | .deployed => 2 | .returned => 3 | .scrapped => 4

/-- The life-cycle state a byte names. -/
def lifeCycleOf (n : Nat) : Option LifeCycle :=
  match n with
  | 0 => some .blank | 1 => some .provisioned | 2 => some .deployed | 3 => some .returned | 4 => some .scrapped
  | _ => none

/-- Key items and the key commands but KEY_IMPORT are accepted (Table 13-7). -/
def KeySt.acceptsItems (k : KeySt) : Bool := k.lc = .provisioned || k.lc = .deployed

/-- The keystone may be used for the level-2 keys: not latched, and not SCRAPPED (R305, R312). -/
def KeySt.keystoneUsable (k : KeySt) : Bool := !k.latch && k.lc != .scrapped

/-! ### Derivation -/

/-- SP 800-108 counter-mode derivation with AES-CMAC (R298): `nbits` is 128 or 256. -/
def derive (key : List Byte) (label : Nat) (ctx : List Byte) (nbits : Nat) : List Byte :=
  let block (i : Nat) := Config.aesCmac key
    (beBytes i 4 ++ [0x45, 0x56, 0x4E, 0x4C] ++ beBytes label 2 ++ [0] ++ ctx ++ beBytes nbits 4)
  if nbits = 256 then block 1 ++ block 2 else block 1

/-- The attestation scalar of a derivation output (R289). -/
def attestScalar (v : List Byte) : List Byte := beBytes (beNat v % (Config.p256Order - 1) + 1) 32

/-- Derive the level-2 keys at entry to STRUCTURED with the keystone usable (R289). -/
def State.deriveLevel2 (s : State) : State :=
  if !s.key.keystoneUsable then s
  else
    let v := derive s.key.keystone 1 (beBytes s.key.uid.toNat 8 ++ List.replicate 8 0) 256
    let w := derive s.key.keystone 2 (List.replicate 16 0) 256
    { s with key := { s.key with attestKey := some (attestScalar v) } }.setSlot 0
      { valid := true, key := w, attr := 0x06, gen := 0, parent := none }

/-- Erase every slot and the attestation key; what each slot records of its last invalidation stays (R308, R311). -/
def State.eraseKeys (s : State) : State :=
  { s with key := { s.key with
      slots := s.key.slots.filterMap fun e =>
        if e.2.invalSeen then some (e.1, { invalSeen := true, invalGen := e.2.invalGen }) else none,
      attestKey := none } }

/-! ### Node masters and node pairs -/

/-- GEN `a` is newer than GEN `b` (R300). -/
def genNewer (a b : Byte) : Bool := let d := (a - b).toNat; decide (1 ≤ d ∧ d ≤ 127)

/-- The domain node master in force: the usable node master with the newest GEN (R300). -/
def State.nodeMaster (s : State) : Option Nat :=
  (s.key.slots.filter fun e => attrMaster e.2.attr && e.2.valid && s.usable e.1).foldl
    (fun m e => match m with
      | none => some e.1
      | some i => if genNewer e.2.gen (s.slot i).gen then some e.1 else some i) none

/-- The usable node master of a GEN. -/
def State.masterOf (s : State) (g : Byte) : Option Nat :=
  ((s.key.slots.find? fun e => attrMaster e.2.attr && e.2.valid && e.2.gen = g && s.usable e.1)).map fun e => e.1

/-- First slot of the NODE partition. -/
def State.nodeFirst (s : State) : Nat := s.tp.kcDevice + s.tp.kcDomain

/-- A job that names a slot is queued or running (R302). -/
def State.slotBusy (s : State) (i : Nat) : Bool :=
  (s.cip.queue.any fun j => j.slot = i || j.ackSlot = some i) ||
  s.cip.units.any fun u => match u.run with
    | some r => r.job.slot = i || r.job.ackSlot = some i
    | none => false

/-- Even slots of the NODE pairs. A pair lies wholly in the partition and starts at an even slot (R301). -/
def State.nodePairs (s : State) : List Nat :=
  (List.range (s.tp.kcNode / 2)).map fun n => (s.nodeFirst + 1) / 2 * 2 + 2 * n

/-- A NODE pair is free: its slots hold no usable key of a node (R302, R303). -/
def State.pairFree (s : State) (e : Nat) : Bool := !(s.slot e).valid || !(s.usable e)

/-- The pair a new node takes: the lowest free one, or the least recently used one without a job, with whether it is
evicted (R302). -/
def State.choosePair (s : State) : Option (Nat × Bool) :=
  match s.nodePairs.find? fun e => s.pairFree e with
  | some e => some (e, false)
  | none =>
    ((s.nodePairs.filter fun e => !s.slotBusy e && !s.slotBusy (e + 1)).foldl
      (fun m e =>
        let u := max (s.slot e).lastUse (s.slot (e + 1)).lastUse
        match m with
        | none => some (e, u)
        | some (f, v) => if u < v then some (e, u) else some (f, v)) none).map fun p => (p.1, true)

/-- Note a use of a slot. -/
def State.touchSlot (s : State) (i : Nat) : State :=
  { s with key := { s.key with useCount := s.key.useCount + 1 } }.setSlot i
    { s.slot i with lastUse := s.key.useCount + 1 }

/-- Derive a node's link key pair under a node master (R301, R302): the even slot, or none when every pair has a job. -/
def State.deriveNode (s : State) (master nidx : Nat) (eui : U64) : State × Option Nat :=
  match s.choosePair with
  | none => (s.bump (Reg.KEY_CNT 2), none)
  | some (e, evicted) =>
    let m := s.slot master
    let k := derive m.key 0x10 (beBytes eui.toNat 8 ++ [m.gen] ++ List.replicate 7 0) 128
    let mk (u : Byte) (i : Nat) : KeySlot :=
      { s.slot i with valid := true, key := k, attr := u, gen := m.gen, parent := some master, parentGen := m.gen,
                      owner := some nidx, pendingOf := none }
    let s1 := (s.setSlot e (mk 0 e)).setSlot (e + 1) (mk 1 (e + 1))
    let s2 := s1.bump (Reg.KEY_CNT 0)
    ((if evicted then s2.bump (Reg.KEY_CNT 1) else s2).touchSlot e, some e)

/-- A slot holds a usable key of a node with a usage. -/
def State.ownedUsable (s : State) (i nidx u : Nat) : Bool :=
  s.usable i && (s.slot i).owner = some nidx && usage (s.slot i).attr = u

/-! ### Loading and deriving a slot -/

/-- The clear header and wrapping of a blob (Table 13-4) under R295: the key, or the first failure. -/
def loadBlob (s : State) (blob : List Byte) (target parent : Nat) (attr gen : Byte) : Except Status (List Byte) :=
  let p := s.slot parent
  let hdr := slice blob 0 16
  let part := match s.keyPart target with
    | .domain => 1
    | .host => 3
    | _ => 0
  if !s.usable parent || leAt blob 7 1 ≠ p.gen.toNat then .error .keyRevoked
  else if usage p.attr ≠ 2 then .error .keyAttr
  else if leAt blob 0 4 ≠ 0x7A4B6C62 ∨ leAt blob 4 1 ≠ 1 ∨ leAt blob 9 7 ≠ 0 ∨ leAt blob 8 1 ≠ part ∨
      leAt blob 5 1 ≠ attr.toNat ∨ leAt blob 6 1 ≠ gen.toNat then .error .unsupported
  else match Config.aesKwUnwrap p.key (blob.drop 16) with
    | none => .error .authFail
    | some inner => if slice inner 0 16 = hdr then .ok (slice inner 16 (if attr256 attr then 32 else 16))
                    else .error .authFail

/-- Octets of the blob an ATTR gives (R294). -/
def blobSize (attr : Byte) : Nat := if attr256 attr then 72 else 56

/-- The checks every new slot content meets after its own: R300 and R304. -/
def newSlotCheck (s : State) (target : Nat) (attr gen : Byte) : Option Status :=
  if attrMaster attr && gen = 0 then some .unsupported
  else if (s.slot target).valid then some .conflict
  else if (s.slot target).invalSeen && (s.slot target).invalGen = gen then some .keyRevoked
  else none

/-- A KEY_LOAD: what the slot would hold, or its status (R292, R295, R300, R304). -/
def keyLoad (s : State) (target : Nat) (attr gen : Byte) (parent : Nat) (blob : List Byte) : Except Status KeySlot :=
  if !attrOk attr (s.keyPart target) then .error .unsupported
  else match loadBlob s blob target parent attr gen with
    | .error e => .error e
    | .ok k => match newSlotCheck s target attr gen with
      | some e => .error e
      | none => .ok { s.slot target with valid := true, key := k, attr := attr, gen := gen, parent := some parent,
                                         parentGen := (s.slot parent).gen, owner := none }

/-- A KEY_DERIVE: what the slot would hold, or its status (R291, R293, R299, R300, R304). -/
def keyDerive (s : State) (target : Nat) (attr gen : Byte) (parent label : Nat) (ctx : List Byte) :
    Except Status KeySlot :=
  let p := s.slot parent
  let kindOk := (label = 0x20 && s.keyPart target = .domain && s.keyPart parent = .domain) ||
    (label = 0x30 && s.keyPart target = .host && (s.keyPart parent = .domain || s.keyPart parent = .host))
  if !attrOk attr (s.keyPart target) then .error .unsupported
  else if !s.usable parent then .error .keyRevoked
  else if usage p.attr ≠ 3 then .error .keyAttr
  else if !kindOk then .error .unsupported
  else match newSlotCheck s target attr gen with
    | some e => .error e
    | none => .ok { s.slot target with valid := true, key := derive p.key label ctx (if attr256 attr then 256 else 128),
                                       attr := attr, gen := gen, parent := some parent, parentGen := p.gen, owner := none }

/-- Count a slot failure in KEY_CNT (ATTR_FAIL, UNWRAP_FAIL). -/
def State.countKeyFail (s : State) (st : Status) : State :=
  match st with
  | .keyAttr => s.bump (Reg.KEY_CNT 4)
  | .authFail => s.bump (Reg.KEY_CNT 5)
  | _ => s

/-- The checks of KEY_RESTORE and KEY_DERIVE before the item's own (R296, R427): the item, or a status. -/
def keyCommandItem (s : State) (d : Desc) (kind : Nat) : Except Status (List Byte) :=
  let target := d.half 8
  let ofs := (d.word 3).toNat
  let item := s.readWin ofs 32
  if !d.unlistedZero [8, 9, 12, 13, 14, 15] || 4096 ≤ target then .error .unsupported
  else if s.keyPart target ≠ .domain ∧ s.keyPart target ≠ .host then .error .unsupported
  else if !s.inWindow ofs 32 || ofs % 32 ≠ 0 then .error .length
  else if leAt item 0 1 ≠ kind ∨ leAt item 1 1 ≠ 0 ∨ leAt item 2 2 ≠ 0 ∨ leAt item 4 4 ≠ target then .error .unsupported
  else .ok item

/-- A slot is held by a staged item. -/
def State.slotStaged (s : State) (i : Nat) : Bool :=
  (s.slot i).pendingOf.isSome || s.spanc.spans.any fun x =>
    (x.state = .staging || x.state = .armed) && x.items.any fun it =>
      (it.kind = 0x20 || it.kind = 0x21 || it.kind = 0x22) && it.target.toNat % 4096 = i

/-- KEY_RESTORE and KEY_DERIVE in common: STRUCTURED only, in a life-cycle state that accepts them (R296, Table 13-7). -/
def State.keyCommand (s : State) (d : Desc) (kind : Nat) (make : List Byte → Except Status KeySlot) : State :=
  s.command d [.structured] fun s =>
    if !s.key.acceptsItems then s.rejectState d
    else match keyCommandItem s d kind with
      | .error e => s.complete d e
      | .ok item =>
        if (s.slot (d.half 8)).valid || s.slotStaged (d.half 8) then s.complete d .conflict
        else match make item with
          | .error e => (s.countKeyFail e).complete d e
          | .ok k => (s.setSlot (d.half 8) { k with pendingOf := none }).complete d .ok

/-- KEY_RESTORE (R296). -/
def State.keyRestore (s : State) (d : Desc) : State :=
  s.keyCommand d 0x20 fun item =>
    let attr := BitVec.ofNat 8 (leAt item 0x0C 1)
    let ofs := leAt item 8 4
    if leAt item 0x10 16 ≠ 0 ∨ 4096 ≤ leAt item 0x0E 2 then .error .unsupported
    else if !s.inWindow ofs (blobSize attr) then .error .length
    else keyLoad s (d.half 8) attr (BitVec.ofNat 8 (leAt item 0x0D 1)) (leAt item 0x0E 2) (s.readWin ofs (blobSize attr))

/-- KEY_DERIVE, the command (R296). -/
def State.keyDeriveCmd (s : State) (d : Desc) : State :=
  s.keyCommand d 0x21 fun item =>
    if leAt item 0x0E 2 ≠ 0 ∨ 4096 ≤ leAt item 8 2 then .error .unsupported
    else keyDerive s (d.half 8) (BitVec.ofNat 8 (leAt item 0x0C 1)) (BitVec.ofNat 8 (leAt item 0x0D 1)) (leAt item 8 2)
      (leAt item 0x0A 2) (slice item 0x10 16)

/-- KEY_IMPORT: a plain key returned as a blob under DEVICE slot 0 (R297). -/
def State.keyImport (s : State) (d : Desc) : State :=
  s.command d [.structured] fun s =>
    let inO := (d.word 2).toNat
    let outO := (d.word 3).toNat
    let a := s.readWin inO 48
    let attr := BitVec.ofNat 8 (leAt a 0 1)
    let part := leAt a 2 1
    let klen := leAt a 3 1
    let hdr := leBytes 0x7A4B6C62 4 ++ [1, attr, BitVec.ofNat 8 (leAt a 1 1), 0, BitVec.ofNat 8 part] ++ List.replicate 7 0
    if s.key.lc ≠ .provisioned then s.rejectState d
    else if !d.unlistedZero [8, 9, 10, 11, 12, 13, 14, 15] then s.complete d .unsupported
    else if !s.inWindow inO 48 || inO % 4 ≠ 0 || outO % 4 ≠ 0 then s.complete d .length
    else if leAt a 4 12 ≠ 0 ∨ klen ≠ (if attr256 attr then 32 else 16) ∨ (part ≠ 1 ∧ part ≠ 3) ∨
        !attrOk attr (if part = 1 then .domain else .host) ∨ (klen = 16 ∧ leAt a 0x20 16 ≠ 0) then
      s.complete d .unsupported
    else if !s.inWindow outO (blobSize attr) then s.complete d .length
    else if !s.usable 0 then s.complete d .keyRevoked
    else
      let blob := hdr ++ Config.aesKwWrap (s.slot 0).key (hdr ++ slice a 16 klen)
      (s.writeWin outO (slice blob 0 (blobSize attr))).complete d .ok

/-! ### Invalidation -/

/-- The PARENT chain of slot `i` reaches `root` (R303). -/
def State.descends (s : State) (fuel i root : Nat) : Bool :=
  match fuel with
  | 0 => false
  | n + 1 => i = root || match (s.slot i).parent with
    | some p => s.descends n p root
    | none => false

/-- The slots a KEY_INVAL of `root` reaches. -/
def State.familyOf (s : State) (root : Nat) : List Nat :=
  (s.key.slots.filter fun e => e.2.valid && s.descends (s.key.slots.length + 1) e.1 root).map fun e => e.1

/-- Invalidate the given slots, each recording the GEN it held (R303, R304). -/
def State.invalidate (s : State) (l : List Nat) : State :=
  l.foldl (fun s i => s.setSlot i { s.slot i with
    valid := false, key := [], owner := none, invalSeen := true, invalGen := (s.slot i).gen }) s

/-! ### Life cycle -/

/-- A token for a life-cycle change (R307). -/
def tokenOk (k : KeySt) (t : List Byte) (target : LifeCycle) : Bool :=
  leAt t 0 4 = 0x7A4C6354 && leAt t 4 1 = target.code && leAt t 5 1 = k.returns && leAt t 6 2 = 0 &&
  leAt t 8 8 = k.uid.toNat && Config.sha256 (slice t 0x10 64) = k.oemKeyHash &&
  Config.p256Verify (slice t 0x10 64) (slice t 0 0x50) (slice t 0x50 64)

/-- Octets of the argument a transition takes (Table 13-8); none for a transition not listed. -/
def lcArgument (k : KeySt) (target : LifeCycle) : Option Nat :=
  match k.lc, target with
  | .blank, .provisioned => some 32
  | .provisioned, .deployed => some 0
  | .deployed, .returned => some 144
  | .returned, .deployed => some 144
  | .blank, .scrapped => some 0
  | .provisioned, .scrapped => some 144
  | .deployed, .scrapped => some 144
  | .returned, .scrapped => some 144
  | _, _ => none

/-- Set LAST_STATUS of KEY_LC and complete a KEY_LC_SET. -/
def State.lcEnd (s : State) (d : Desc) (st : Status) : State :=
  { s with key := { s.key with lcStatus := st } }.complete d st

/-- The checks of KEY_LC_SET (R306, R307, R309); `start` begins an accepted change with its argument. -/
def State.keyLcSet (s : State) (d : Desc) (start : State → LifeCycle → List Byte → State) : State :=
  if d.byte 4 ≠ 0xFF then s.complete d .unsupported
  else if s.key.lc = .scrapped then s.rejectState d
  else match lifeCycleOf (d.byte 8) with
  | none => if s.sys.state = .structured then s.lcEnd d .unsupported else s.rejectState d
  | some target =>
    let ofs := (d.word 3).toNat
    let n := (lcArgument s.key target).getD 0
    let arg := s.readWin ofs n
    if s.sys.state ≠ .structured ∧ ¬ (s.sys.state = .alarm ∧ target = .scrapped) then s.rejectState d
    else if !d.unlistedZero [8, 12, 13, 14, 15] then s.lcEnd d .unsupported
    else if (lcArgument s.key target).isNone || (s.key.lc = .returned && target = .deployed && 3 ≤ s.key.returns) then
      s.lcEnd d .unsupported
    else if target = .deployed && s.par.state ≠ .sealed then s.rejectState d
    else if n ≠ 0 && (!s.inWindow ofs n || ofs % 4 ≠ 0) then s.lcEnd d .length
    else if n = 144 && !tokenOk s.key arg target then s.lcEnd d .authFail
    else if 16 ≤ s.key.lcLog.length then s.lcEnd d .noRoom
    else start s target arg

end Sys2Proof.Machine
end

