-- ==== Sys2Proof/Machine/SpanCore.lean ====
section
/-! DEFINITION. Objects, versions and conflict detection of spans (R77 to R80). -/

namespace Sys2Proof.Machine

/-- Classes of objects a span item can target (R77). -/
inductive ObjClass where
  | em | lpm | seen | key | policer | queue | cal | cell | gateList | section_ | emAll
  deriving DecidableEq, Repr

/-- The number of a class, for the version map. -/
def ObjClass.code (c : ObjClass) : Nat :=
  match c with
  | .em => 1 | .lpm => 2 | .seen => 3 | .key => 4 | .policer => 5 | .queue => 6 | .cal => 7 | .cell => 8
  | .gateList => 9 | .section_ => 10 | .emAll => 11

/-- An object: its class and its key within the class. -/
structure Obj where
  cls : ObjClass
  key : Nat
  deriving DecidableEq, Repr

/-- The version map's number of an object. -/
def Obj.code (o : Obj) : Nat := o.cls.code * 2 ^ 200 + o.key

/-- A prefix and its length as one key. -/
def lpmKey (pfx len : Nat) : Nat := pfx * 256 + len

/-- A seed and sequence as one key: an item's SEQ is a u32, of which a valid one has 16 bits (R254). -/
def seenKey (seed seq : Nat) : Nat := seed * 2 ^ 32 + seq

/-- A slotframe's number: band and handle. -/
def frameKey (band handle : Nat) : Nat := 256 * band + handle

/-- The object an item changes (Table 04-4). -/
def SpanItem.obj (it : SpanItem) : Obj :=
  let t := it.target.toNat
  match it.kind with
  | 0x01 | 0x02 => ⟨.cell, frameKey (t / 2 ^ 24 % 2) (t / 65536 % 256) * 65536 + t % 65536⟩
  | 0x03 => ⟨.gateList, frameKey (t / 256 % 2) (t % 256)⟩
  | 0x10 | 0x11 => ⟨.em, leAt it.payload 0 8⟩
  | 0x12 => ⟨.emAll, 0⟩
  | 0x13 | 0x14 => ⟨.lpm, lpmKey (beNat (slice it.payload 0 16)) (leAt it.payload 16 1)⟩
  | 0x15 | 0x16 => ⟨.seen, seenKey (leAt it.payload 0 8) (leAt it.payload 8 4)⟩
  | 0x20 | 0x21 | 0x22 => ⟨.key, t % 4096⟩
  | 0x30 => ⟨.policer, t % 4096⟩
  | 0x31 => ⟨.queue, t % 1024⟩
  | 0x40 => ⟨.cal, t / 65536 % 4 * 512 + t % 512⟩
  | _ => ⟨.section_, t⟩

/-- Two objects are the same or overlap (R77): a gate list and the cells of its slotframe; a rehash and every
exact-match entry. -/
def Obj.overlaps (a b : Obj) : Bool :=
  a = b || (a.cls = .gateList && b.cls = .cell && b.key / 65536 = a.key) ||
  (b.cls = .gateList && a.cls = .cell && a.key / 65536 = b.key) ||
  (a.cls = .emAll && b.cls = .em) || (b.cls = .emAll && a.cls = .em)

/-- The span's items are staged: OPEN, STAGING or ARMED (R77). -/
def Span.keeps (x : Span) : Bool := x.state = .open_ || x.state = .staging || x.state = .armed

/-- The version of an object (R80). -/
def State.version (s : State) (o : Obj) : Nat := aget 0 s.spanc.versions o.code

/-- Mark every staged item the test selects, in the spans of the numbers selected that hold items, with a cause and the
other span of Table 04-6. An item already marked keeps its first mark. -/
def State.markItems (s : State) (sel : Nat → Bool) (cause other : Nat) (p : SpanItem → Bool) : State :=
  { s with spanc := { s.spanc with
      spans := (List.range s.spanc.spans.length).map fun n =>
        let x := s.spanc.spans.getD n {}
        if (x.keeps && sel n) then
          { x with items := x.items.map fun it =>
              if (p it && it.conflict.isNone) then { it with conflict := some (cause, other) } else it }
        else x } }

/-- A change to an object takes effect (R80): its version advances, and staged items on it are marked, but for those of
span `self`. -/
def State.changed (s : State) (o : Obj) (self : Option Nat) (cause other : Nat) : State :=
  { s with spanc := { s.spanc with
      versions := aset 0 s.spanc.versions o.code ((s.version o + 1) % 65536) } }.markItems (fun n => some n != self) cause
    other fun it => it.obj.overlaps o

/-- The span's conflict flag: some item is marked. -/
def Span.conflicted (x : Span) : Bool := x.items.any fun it => it.conflict.isSome

/-- Set span `n`. -/
def State.setSpan (s : State) (n : Nat) (x : Span) : State :=
  { s with spanc := { s.spanc with spans := lset s.spanc.spans n x } }

/-- Span `n`. -/
def State.span (s : State) (n : Nat) : Span := s.spanc.spans.getD n {}

/-- An entry with a mark is in force (R78). -/
def State.inForce (s : State) (m : Mark) (span : BitVec 4) : Bool :=
  match m with
  | .plain => true
  | .pendingAdd => s.spanVis span.toNat
  | .pendingDelete => !s.spanVis span.toNat

/-- A span decided in this window and not yet visible targets an object: changes to it are held (R82). -/
def State.decidedOn (s : State) (o : Obj) : Bool :=
  s.spanc.spans.any fun x => x.decided && x.items.any fun it => it.obj.overlaps o

/-- Hold a change until the visibility bits are set (R82). -/
def State.holdChange (s : State) (w : HeldChange) : State :=
  { s with spanc := { s.spanc with held := s.spanc.held ++ [w] } }

end Sys2Proof.Machine
end

