-- ==== Sys2Proof/Machine/Tables.lean ====
section
/-! DEFINITION. The table engine: exact-match, LPM and seen-cache, their insertions, locks and DMA (R234 to R265). -/

namespace Sys2Proof.Machine

/-- Exact-match buckets (Table 11-1). -/
def emBuckets : Nat := 81920

/-- Position of overflow entry 0. -/
def ovfBase : Nat := 327680

/-- Candidate bucket of a key under a seed (R236). -/
def emBucket (seed : Word) (k : U64) : Nat := (crc 2 (leBytes seed.toNat 4 ++ leBytes k.toNat 8)).toNat * 20 / 2 ^ 20

/-- The lock region of a table's position: table 0 exact-match, 1 LPM, 2 seen-cache (Table 11-1). -/
def regionOf (table pos : Nat) : Nat :=
  match table with
  | 0 => if pos < ovfBase then pos / 4 / 1280 else (pos - ovfBase) / 64
  | 1 => pos / 4 / 128
  | _ => pos / 4 / 256

/-- A region is locked (R261). -/
def State.locked (s : State) (table region : Nat) : Bool := bit (s.reg (Reg.TBL_LOCK table (region / 32))) (region % 32)

/-- The four positions of a bucket. -/
def bucketSlots (b : Nat) : List Nat := [4 * b, 4 * b + 1, 4 * b + 2, 4 * b + 3]

/-- The positions an exact-match lookup probes: both candidate buckets, under both seed pairs during a migration, and the
overflow store (R237, R244). -/
def State.emProbe (s : State) (k : U64) : List Nat :=
  let pairs := [s.tbl.seed0, s.tbl.seed1] ++ match s.tbl.migration with
    | some m => [m.oldSeed0, m.oldSeed1]
    | none => []
  (pairs.flatMap fun sd => bucketSlots (emBucket sd k)) ++
    ((s.tbl.em.filter fun e => decide (ovfBase ≤ e.1)).map fun e => e.1)

/-- The position of the exact-match entry in force for a key (R237). -/
def State.emFind (s : State) (k : U64) : Option Nat :=
  (s.emProbe k).find? fun p => match afind s.tbl.em p with
    | some e => e.eui = k && s.inForce e.mark e.span
    | none => false

/-- An exact-match lookup (R234). -/
def State.emLookup (s : State) (k : U64) : Option EmEntry :=
  match s.emFind k with
  | some p => afind s.tbl.em p
  | none => none

/-- Place or clear an exact-match position. -/
def State.emPut (s : State) (p : Nat) (e : EmEntry) : State := { s with tbl := { s.tbl with em := aput s.tbl.em p e } }

/-- Clear a position; an overflow entry may now move back (R240). -/
def State.emClear (s : State) (p : Nat) : State :=
  { s with tbl := { s.tbl with em := aerase s.tbl.em p, drainDue := true } }

/-- A position is free. -/
def State.emFree (s : State) (p : Nat) : Bool := (afind s.tbl.em p).isNone

/-- The lowest free slot of a bucket. -/
def State.freeSlot (s : State) (b : Nat) : Option Nat := (bucketSlots b).find? fun p => s.emFree p

/-- The alternate bucket of a resident entry: its candidate other than the one it is in (R238). -/
def State.alternate (s : State) (e : EmEntry) (b : Nat) : Option Nat :=
  let b0 := emBucket s.tbl.seed0 e.eui
  let b1 := emBucket s.tbl.seed1 e.eui
  if b0 = b1 then none else if b = b0 then some b1 else some b0

/-- How an insertion ends. -/
inductive Inserted where
  | done | waits (region : Nat) | noRoom
  deriving DecidableEq, Repr

/-- Step 3 of R238 over the residents in order: count those passed over for a lock, and relocate the first that can. -/
def State.relocate (s : State) (l : List Nat) : State × Option Nat :=
  match l with
  | [] => (s, none)
  | p :: rest =>
    match afind s.tbl.em p with
    | none => s.relocate rest
    | some e => match s.alternate e (p / 4) with
      | none => s.relocate rest
      | some a => match s.freeSlot a with
        | none => s.relocate rest
        | some q =>
          if s.locked 0 (regionOf 0 q) then (s.bump (Reg.TBL_CNT 7)).relocate rest
          else (((s.emPut q e).bump (Reg.TBL_CNT 6)), some p)

/-- The lowest free overflow position outside locked regions, or else the lowest free one. -/
def State.ovfSlot (s : State) : Option (Nat × Bool) :=
  let free := (List.range 4096).filter fun i => s.emFree (ovfBase + i)
  match free.find? fun i => !s.locked 0 (i / 64) with
  | some i => some (ovfBase + i, true)
  | none => match free with
    | i :: _ => some (ovfBase + i, false)
    | [] => none

/-- The overflow store is full: REHASH_REQ, with one WARNING record for each setting (R241, Table 20-5). -/
def State.rehashRequest (s : State) : State :=
  if bit (s.reg Reg.TBL_EM_STATUS) 31 then s
  else (post (s.setFld Reg.TBL_EM_STATUS 31 31 1) .warning 0x0B (some .noRoom) 0 []).raise 13

/-- An insertion of an exact-match entry (R238). -/
def State.emInsert (s : State) (e : EmEntry) : State × Inserted :=
  let b0 := emBucket s.tbl.seed0 e.eui
  let b1 := emBucket s.tbl.seed1 e.eui
  if s.locked 0 (b0 / 1280) then (s, .waits (b0 / 1280))
  else if s.locked 0 (b1 / 1280) then (s, .waits (b1 / 1280))
  else match (s.freeSlot b0) <|> (s.freeSlot b1) with
    | some p => (s.emPut p e, .done)
    | none => match s.relocate (bucketSlots b0 ++ if b0 = b1 then [] else bucketSlots b1) with
      | (s1, some p) => (s1.emPut p e, .done)
      | (s1, none) => match s1.ovfSlot with
        | some (p, true) => ((s1.emPut p e).bump (Reg.TBL_CNT 8), .done)
        | some (p, false) => (s1, .waits ((p - ovfBase) / 64))
        | none => (s1.rehashRequest, .noRoom)

/-- Wait for a lock or for the migration: at most 64 insertions a region and 1,024 for the migration. An insertion whose
key waits already, wherever, merges with the one that waits (R244, R262). -/
def State.waitInsert (s : State) (w : WaitInsert) : State × Inserted :=
  let same := fun v : WaitInsert => v.table = w.table && v.region = w.region
  if s.tbl.waits.any fun v => v.table = w.table && v.eui = w.eui && v.seq = w.seq then (s, .waits (w.region.getD 0))
  else if (match w.region with
      | none => 1024
      | some _ => 64) ≤ (s.tbl.waits.filter same).length then (s.bump (Reg.TBL_CNT 5), .noRoom)
  else ({ s with tbl := { s.tbl with waits := s.tbl.waits ++ [w] } }, .waits (w.region.getD 0))

/-- Learn a key: insert it with its node, band and pier (R254, R256, R258), waiting where R244 or R262 says. -/
def State.learnInsert (s : State) (eui : U64) (nidx : BitVec 18) (band : Bool) (pier : BitVec 6) : State :=
  let w : WaitInsert := { table := 0, region := none, eui := eui, nidx := nidx, band := band, pier := pier }
  if s.tbl.migration.isSome then (s.waitInsert w).1
  else
    let e : EmEntry := { eui := eui, learned := true, lband := band, lpier := pier, nidx := nidx }
    match s.emInsert e with
    | (s1, .done) => (s1.bump (Reg.TBL_CNT 0)).changed ⟨.em, eui.toNat⟩ none 1 0
    | (s1, .waits r) => (s1.waitInsert { w with region := some r }).1
    | (s1, .noRoom) => s1.bump (Reg.TBL_CNT 4)

/-- Learning acts on an entry in force (R255): refresh, update or hold back; none when there is no entry. -/
def State.learnKnown (s : State) (eui : U64) (nidx : BitVec 18) (band : Bool) (pier : BitVec 6) : Option State :=
  match s.emFind eui with
  | none => none
  | some p => match afind s.tbl.em p with
    | none => none
    | some e =>
      if e.nidx = nidx then some s
      else if e.static then
        some (post (s.bump (Reg.TBL_CNT 2)) .warning 0x0B none 0 (pw2 eui.toNat ++ [pw nidx.toNat]))
      else
        let e1 := { e with nidx := nidx, lband := band, lpier := pier, learned := true, ver := e.ver + 1 }
        some (post (((s.emPut p e1).bump (Reg.TBL_CNT 1)).changed ⟨.em, eui.toNat⟩ none 1 0) .notice 0x0B none 0
          (pw2 eui.toNat ++ [pw nidx.toNat]))

/-- A frame's key is learned (R237, R255, R256, R262): with an entry in force as R255 says, and otherwise by an insertion.
What would alter the target of a span about to commit is held (R82). -/
def State.learnKey (s : State) (eui : U64) (nidx : BitVec 18) (band : Bool) (pier : BitVec 6) : State :=
  let alters := match s.emLookup eui with
    | some e => e.nidx != nidx && !e.static
    | none => true
  if alters && s.decidedOn ⟨.em, eui.toNat⟩ then
    s.holdChange (.insert { table := 0, region := none, eui := eui, nidx := nidx, band := band, pier := pier })
  else match s.learnKnown eui nidx band pier with
    | some s1 => s1
    | none => s.learnInsert eui nidx band pier

/-! ### LPM -/

/-- Candidate buckets of an LPM key (R246). -/
def lpmBucket (seed : Word) (pfx : BitVec 128) (len : Nat) : Nat :=
  (crc 2 (leBytes seed.toNat 4 ++ leBytes len 1 ++ beBytes pfx.toNat 16)).toNat / 2 ^ 19

/-- The four-and-four positions of an LPM key. -/
def lpmSlots (pfx : BitVec 128) (len : Nat) : List Nat :=
  bucketSlots (lpmBucket 0 pfx len) ++ bucketSlots (lpmBucket 0xFFFFFFFF pfx len)

/-- The values of an address's first 12 bits that a prefix covers (R248). -/
def LpmEntry.indices (e : LpmEntry) : List Nat :=
  (List.range (2 ^ (12 - e.len))).map fun i => e.pfx.toNat / 2 ^ 116 + i

/-- The length filter of the entries placed, in force or pending (R248). -/
def lpmFilter (l : List (Nat × LpmEntry)) : List (Nat × BitVec 129) :=
  l.foldl (fun m e => e.2.indices.foldl (fun m i => aset 0 m i (aget 0 m i ||| BitVec.ofNat 129 (2 ^ e.2.len))) m) []

/-- The LPM table with other entries: the length filter follows them (R248). -/
def TblSt.withLpm (t : TblSt) (l : List (Nat × LpmEntry)) : TblSt := { t with lpm := l, filter := lpmFilter l }

/-- The position of the LPM entry in force for a key. -/
def State.lpmFind (s : State) (pfx : BitVec 128) (len : Nat) : Option Nat :=
  (lpmSlots pfx len).find? fun p => match afind s.tbl.lpm p with
    | some e => e.pfx = pfx && e.len = len && s.inForce e.mark e.span
    | none => false

/-- The first `len` bits of an address. -/
def prefixOf (d : BitVec 128) (len : Nat) : BitVec 128 := BitVec.ofNat 128 (d.toNat / 2 ^ (128 - len) * 2 ^ (128 - len))

/-- The longest entry in force that covers an address, of the candidate lengths of its mask (R249). -/
def State.lpmLookup (s : State) (d : BitVec 128) : Option LpmEntry :=
  let mask := aget 0 s.tbl.filter (d.toNat / 2 ^ 116)
  ((List.range 129).reverse.filter fun l => bit mask l).findSome? fun l =>
    (s.lpmFind (prefixOf d l) l).bind fun p => afind s.tbl.lpm p

/-- What a RESULT says (Table 11-5). -/
inductive LpmResult where
  | drop | queue (q : Nat) | eth (port nh : Nat) | mesh (cluster : Nat)
  deriving DecidableEq, Repr

/-- Read a RESULT word. -/
def lpmResult (r : Word) : LpmResult :=
  match bits r 31 30 with
  | 0 => .drop
  | 1 => .queue (bits r 9 0)
  | 2 => .eth (bits r 8 8) (bits r 7 0)
  | _ => .mesh (bits r 7 0)

/-- A RESULT is valid under the truss in force (Table 11-5). -/
def State.resultOk (s : State) (r : Word) : Bool :=
  match bits r 31 30 with
  | 0 => bits r 29 0 = 0
  | 1 => bits r 29 10 = 0 && ((s.queue (bits r 9 0)).type = .data || (s.queue (bits r 9 0)).type = .control)
  | 2 => bits r 29 9 = 0
  | _ => bits r 29 8 = 0 && decide (bits r 7 0 < s.tp.clusters.length)

/-! ### Seen-cache -/

/-- The eight positions of a seen-cache key (R252). -/
def seenSlots (seed : U64) (seq : BitVec 16) : List Nat :=
  let h (x : Nat) := (crc 2 (leBytes x 4 ++ leBytes seed.toNat 8 ++ leBytes seq.toNat 2)).toNat / 2 ^ 18
  bucketSlots (h 0x5EE00000) ++ bucketSlots (h 0x5EE00001)

/-- A seen-cache entry is live (R253). -/
def State.seenLive (s : State) (e : SeenEntry) : Bool :=
  let d := (e.expiry.toNat + 2 ^ 32 - s.tick % 2 ^ 32) % 2 ^ 32
  decide (1 ≤ d ∧ d ≤ 65535)

/-- The position of the live entry in force for a key. -/
def State.seenFind (s : State) (seed : U64) (seq : BitVec 16) : Option Nat :=
  (seenSlots seed seq).find? fun p => match afind s.tbl.seen p with
    | some e => e.seed = seed && e.seq = seq && s.seenLive e && s.inForce e.mark e.span
    | none => false

/-- A free slot for a key: invalid or aged out (R252). -/
def State.seenFree (s : State) (seed : U64) (seq : BitVec 16) : Option Nat :=
  (seenSlots seed seq).find? fun p => match afind s.tbl.seen p with
    | some e => !s.seenLive e
    | none => true

/-- EXPIRY of an insertion with an age (R253). -/
def State.expiryOf (s : State) (age : Nat) : Word := BitVec.ofNat 32 (s.tick + age)

/-- Insert a key into the seen-cache by hardware (R231, R252, R262): a locked region makes it wait. -/
def State.seenInsert (s : State) (seed : U64) (seq : BitVec 16) (age : Nat) : State × Inserted :=
  let wait (r : Nat) := s.waitInsert { table := 2, region := some r, eui := seed, seq := seq, age := age }
  match (seenSlots seed seq).find? fun p => s.locked 2 (regionOf 2 p) with
  | some p => wait (regionOf 2 p)
  | none => match s.seenFree seed seq with
    | some p => ({ s with tbl := { s.tbl with
        seen := aput s.tbl.seen p { seed := seed, seq := seq, expiry := s.expiryOf age } } }, .done)
    | none => (s, .noRoom)

/-- A key enters the seen-cache by hardware (R231, R252): held while a span about to commit acts on it (R82), and counted in
SEEN_FULL when there is no room or its wait is full. DESIGN CHOICE, log 77: R80 does not list this insertion among the changes. It is
one here, with cause 1, made when the key enters the table, at once or after a lock wait. -/
def State.seenPut (s : State) (seed : U64) (seq : BitVec 16) (age : Nat) : State :=
  let o : Obj := ⟨.seen, seenKey seed.toNat seq.toNat⟩
  if s.decidedOn o then s.holdChange (.insert { table := 2, region := none, eui := seed, seq := seq, age := age })
  else match s.seenInsert seed seq age with
    | (s1, .done) => s1.changed o none 1 0
    | (s1, .waits _) => s1
    | (s1, .noRoom) => s1.bump (Reg.MAC_CNT 26)

/-! ### Staging of table items: the state with the item's marks placed, or the item's status. -/

/-- A node index lies in some cluster of the truss. -/
def TrussParams.nodeKnown (p : TrussParams) (n : Nat) : Bool := p.clusters.any fun c => decide (c.base ≤ n ∧ n < c.base + c.nodes)

/-- Mark the exact-match entry in force pending-delete under a span. -/
def State.emMarkDelete (s : State) (p n : Nat) : State :=
  match afind s.tbl.em p with
  | some e => s.emPut p { e with mark := .pendingDelete, span := BitVec.ofNat 4 n }
  | none => s

/-- EM_ADD by span `n` (R242): UNSUPPORTED for a NIDX in no cluster, BUSY_LOCK for a locked region or a migration. One that
finds no place keeps the counts and the request of its search (R238, R241). -/
def stageEmAdd (s : State) (n : Nat) (eui : U64) (w : U64) : Except (State × Status) State :=
  let nidx := BitVec.ofNat 18 w.toNat
  let old := s.emFind eui
  if !s.tp.nodeKnown nidx.toNat then .error (s, .unsupported)
  else if s.tbl.migration.isSome || old.any fun p => s.locked 0 (regionOf 0 p) then .error (s, .busyLock)
  else
    let ver : BitVec 16 := match s.emLookup eui with
      | some e => e.ver + 1
      | none => 0
    let e : EmEntry := { eui := eui, ver := ver, span := BitVec.ofNat 4 n, mark := .pendingAdd,
                         static := bit w 39, nidx := nidx }
    match s.emInsert e with
    | (s1, .done) => .ok (match old.bind fun _ => s1.emFind eui with
        | some p => s1.emMarkDelete p n
        | none => s1)
    | (s1, .waits _) => .error (s1, .busyLock)
    | (s1, .noRoom) => .error (s1, .noRoom)

/-- EM_DEL by span `n` (R242). -/
def stageEmDel (s : State) (n : Nat) (eui : U64) : Except Status State :=
  match s.emFind eui with
  | none => .error .unsupported
  | some p =>
    if s.tbl.migration.isSome ∨ s.locked 0 (regionOf 0 p) then .error .busyLock else .ok (s.emMarkDelete p n)

/-- LPM_ADD by span `n` (R247): BUSY_LOCK when the slot it takes, or the entry in force, lies in a locked region (R261). -/
def stageLpmAdd (s : State) (n : Nat) (pfx : BitVec 128) (len : Nat) (result : Word) : Except Status State :=
  let old := s.lpmFind pfx len
  let slot := (lpmSlots pfx len).find? fun p => (afind s.tbl.lpm p).isNone
  let count := (s.tbl.lpm.filter fun e => s.inForce e.2.mark e.2.span || e.2.mark = .pendingAdd).length
  let barred := fun p => s.locked 1 (regionOf 1 p)
  if 128 < len ∨ pfx.toNat % 2 ^ (128 - len) ≠ 0 ∨ !s.resultOk result then .error .unsupported
  else if old.any barred || slot.any barred then .error .busyLock
  else match slot with
    | none => .error .noRoom
    | some p =>
      if s.tp.lpmPrefixes < count + 1 then .error .noRoom
      else
        let was := old.bind fun q => (afind s.tbl.lpm q).map fun o => (q, o)
        let ver : BitVec 16 := match was with
          | some (_, e) => e.ver + 1
          | none => 0
        let e : LpmEntry := { pfx := pfx, len := len, mark := .pendingAdd, span := BitVec.ofNat 4 n, ver := ver, result := result }
        let l1 := match was with
          | some (q, o) => aput s.tbl.lpm q { o with mark := .pendingDelete, span := BitVec.ofNat 4 n }
          | none => s.tbl.lpm
        .ok { s with tbl := s.tbl.withLpm (aput l1 p e) }

/-- LPM_DEL by span `n` (R247). -/
def stageLpmDel (s : State) (n : Nat) (pfx : BitVec 128) (len : Nat) : Except Status State :=
  if 128 < len ∨ pfx.toNat % 2 ^ (128 - len) ≠ 0 then .error .unsupported
  else match (s.lpmFind pfx len).bind fun p => (afind s.tbl.lpm p).map fun e => (p, e) with
  | none => .error .unsupported
  | some (p, e) =>
    if s.locked 1 (regionOf 1 p) then .error .busyLock
    else .ok { s with tbl := s.tbl.withLpm (aput s.tbl.lpm p { e with mark := .pendingDelete, span := BitVec.ofNat 4 n }) }

/-- SEEN_ADD by span `n` (R254): BUSY_LOCK when the slot it takes, or the entry in force, lies in a locked region (R261). -/
def stageSeenAdd (s : State) (n : Nat) (seed : U64) (seq age : Nat) : Except Status State :=
  let q := BitVec.ofNat 16 seq
  let old := s.seenFind seed q
  let slot := s.seenFree seed q
  let barred := fun p => s.locked 2 (regionOf 2 p)
  if age = 0 ∨ 65536 ≤ seq then .error .unsupported
  else if old.any barred || slot.any barred then .error .busyLock
  else match slot with
    | none => .error .noRoom
    | some p =>
      let l1 := match old.bind fun o => (afind s.tbl.seen o).map fun e => (o, e) with
        | some (o, e) => aput s.tbl.seen o { e with mark := .pendingDelete, span := BitVec.ofNat 4 n }
        | none => s.tbl.seen
      let e : SeenEntry :=
        { seed := seed, seq := q, mark := .pendingAdd, span := BitVec.ofNat 4 n, expiry := s.expiryOf age }
      .ok { s with tbl := { s.tbl with seen := aput l1 p e } }

/-- SEEN_DEL by span `n` (R254). -/
def stageSeenDel (s : State) (n : Nat) (seed : U64) (seq : Nat) : Except Status State :=
  if 65536 ≤ seq then .error .unsupported
  else match (s.seenFind seed (BitVec.ofNat 16 seq)).bind fun p => (afind s.tbl.seen p).map fun e => (p, e) with
  | none => .error .unsupported
  | some (p, e) =>
    if s.locked 2 (regionOf 2 p) then .error .busyLock
    else .ok { s with tbl := { s.tbl with
        seen := aput s.tbl.seen p { e with mark := .pendingDelete, span := BitVec.ofNat 4 n } } }

/-! ### Entries as octets (Tables 11-2, 11-4, 11-6) -/

/-- MARK as its code. -/
def Mark.code (m : Mark) : Nat :=
  match m with
  | .plain => 0 | .pendingAdd => 1 | .pendingDelete => 2

/-- An exact-match entry as stored. -/
def EmEntry.bytes (e : EmEntry) : List Byte :=
  leBytes e.eui.toNat 8 ++ leBytes (e.ver.toNat * 2 ^ 48 + e.span.toNat * 2 ^ 44 + e.mark.code * 2 ^ 42 + 2 ^ 41 +
    b2n e.learned * 2 ^ 40 + b2n e.static * 2 ^ 39 + b2n e.lband * 2 ^ 38 + e.lpier.toNat * 2 ^ 32 + e.nidx.toNat) 8

/-- Read an exact-match entry: none when VALID = 0, and its reserved, SPAN and MARK bits beside it. -/
def readEm (bs : List Byte) : Option EmEntry × Nat :=
  let w := BitVec.ofNat 64 (leAt bs 8 8)
  (if bit w 41 then some { eui := BitVec.ofNat 64 (leAt bs 0 8), learned := bit w 40, static := bit w 39,
                           lband := bit w 38, lpier := BitVec.ofNat 6 (bits w 37 32), nidx := BitVec.ofNat 18 w.toNat } else none,
   bits w 47 42 + bits w 31 18)

/-- An LPM entry as stored. -/
def LpmEntry.bytes (e : LpmEntry) : List Byte :=
  beBytes e.pfx.toNat 16 ++ [BitVec.ofNat 8 e.len, BitVec.ofNat 8 (1 + 2 * e.mark.code), BitVec.ofNat 8 e.span.toNat, 0] ++
    leBytes e.ver.toNat 2 ++ [0, 0] ++ leBytes e.result.toNat 4 ++ [0, 0, 0, 0]

/-- Read an LPM entry: none when VALID = 0, with its marks and reserved bits. -/
def readLpm (bs : List Byte) : Option LpmEntry × Nat :=
  (if leAt bs 0x11 1 % 2 = 1 then some { pfx := BitVec.ofNat 128 (beNat (slice bs 0 16)), len := leAt bs 0x10 1,
                                         result := BitVec.ofNat 32 (leAt bs 0x18 4) } else none,
   leAt bs 0x11 1 / 2 + leAt bs 0x12 2 + leAt bs 0x16 2 + leAt bs 0x1C 4)

/-- A seen-cache entry as stored. -/
def SeenEntry.bytes (e : SeenEntry) : List Byte :=
  leBytes e.seed.toNat 8 ++ leBytes e.seq.toNat 2 ++
    leBytes (0x8000 + e.mark.code * 2 ^ 13 + e.span.toNat * 2 ^ 9) 2 ++ leBytes e.expiry.toNat 4

/-- Read a seen-cache entry: none when VALID = 0, with its marks and reserved bits. -/
def readSeen (bs : List Byte) : Option SeenEntry × Nat :=
  let c := leAt bs 0x0A 2
  (if c / 2 ^ 15 = 1 then some { seed := BitVec.ofNat 64 (leAt bs 0 8), seq := BitVec.ofNat 16 (leAt bs 8 2),
                                 expiry := BitVec.ofNat 32 (leAt bs 0x0C 4) } else none, c % 2 ^ 15)

/-- Octets of an optional entry. -/
def optBytes {α : Type} (f : α → List Byte) (n : Nat) (o : Option α) : List Byte :=
  match o with
  | some a => f a
  | none => List.replicate n 0

/-- One unit of a table as TBL_READ copies it (R259). -/
def State.tblUnit (s : State) (table u : Nat) : List Byte :=
  match table with
  | 0 => (bucketSlots u).flatMap fun p => optBytes EmEntry.bytes 16 (afind s.tbl.em p)
  | 1 => optBytes EmEntry.bytes 16 (afind s.tbl.em (ovfBase + u))
  | 2 => (bucketSlots u).flatMap fun p => optBytes LpmEntry.bytes 32 (afind s.tbl.lpm p)
  | _ => (bucketSlots u).flatMap fun p => optBytes SeenEntry.bytes 16 (afind s.tbl.seen p)

/-- Octets of a unit of a table (Table 11-7). -/
def unitBytes (table : Nat) : Nat :=
  match table with
  | 1 => 16
  | 2 => 128
  | _ => 64

/-- Units of a table. -/
def unitCount (table : Nat) : Nat :=
  match table with
  | 0 => 81920
  | 1 => 4096
  | 2 => 8192
  | _ => 16384

/-- The checks TBL_READ and TBL_WRITE share (R259). -/
def tblArgs (s : State) (d : Desc) : Option Status :=
  let t := d.byte 8
  if 3 < t ∨ !d.unlistedZero [8, 12, 13, 14, 15, 16, 17, 18, 19, 20, 21, 22, 23] then some .unsupported
  else if (d.word 4).toNat = 0 ∨ unitCount t < (d.word 3).toNat + (d.word 4).toNat ∨ (d.word 5).toNat % 64 ≠ 0 ∨
      !s.inWindow (d.word 5).toNat ((d.word 4).toNat * unitBytes t) then some .length
  else none

/-- TBL_READ (R259, R263). -/
def State.tblRead (s : State) (d : Desc) : State :=
  s.command d stSAYML fun s =>
    match tblArgs s d with
    | some e => s.complete d e
    | none =>
      let data := (List.range (d.word 4).toNat).flatMap fun i => s.tblUnit (d.byte 8) ((d.word 3).toNat + i)
      (s.writeWin (d.word 5).toNat data).complete d .ok (b4 := d.word 4)

/-- The lock table of a TABLE. -/
def lockTable (table : Nat) : Nat := if table ≤ 1 then 0 else if table = 2 then 1 else 2

/-- First position of a unit. -/
def unitPos (table u : Nat) : Nat := if table = 1 then ovfBase + u else 4 * u

/-- Positions of a unit. -/
def unitSlots (table u : Nat) : List Nat := if table = 1 then [ovfBase + u] else bucketSlots u

/-- The entry at position `p`, of the `i`-th slot of the data. -/
def slotData (data : List Byte) (n i : Nat) : List Byte := slice data (n * i) n

/-- Some position written holds an entry with a mark. -/
def marked {α β : Type} (mark : α → Mark) (m : List (Nat × α)) (l : List (Nat × β)) : Bool :=
  l.any fun w => match afind m w.1 with
    | some e => mark e != .plain
    | none => false

/-- The objects a write changes (R260): those of entries added or altered, and those that were in the positions written and
have no entry after it. `same` says whether an entry written is the one its key has. -/
def writeChanges {α β : Type} [DecidableEq β] (key : α → β) (same : α → Bool) (m : List (Nat × α)) (keys : List β)
    (l : List (Nat × (Option α × Nat))) : List β :=
  ((l.filterMap fun w => w.2.1).filter fun e => !same e).map key ++
    ((l.filterMap fun w => afind m w.1).map key).filter fun k => !keys.contains k

/-- An exact-match entry without its version. -/
def EmEntry.bare (e : EmEntry) : EmEntry := { e with ver := 0, mark := .plain, span := 0 }

/-- An entry as a DMA write leaves it (Table 11-2, R260): LEARNED is 0, unless every field is that of the entry the key has,
and VER advances by one from that entry's, or from 0. -/
def State.writtenEm (s : State) (e : EmEntry) : EmEntry :=
  match s.emLookup e.eui with
  | none => { e with learned := false, ver := 1 }
  | some o =>
    if e.bare = o.bare then o
    else
      let e1 := { e with learned := false }
      { e1 with ver := if e1.bare = o.bare then o.ver else o.ver + 1 }

/-- TBL_WRITE to the exact-match table or overflow store: positions with their new entries (R260). -/
def State.writeEm (s : State) (l : List (Nat × (Option EmEntry × Nat))) : Except Status State :=
  let outside := s.tbl.em.filter fun e => !(l.any fun w => w.1 = e.1) && s.inForce e.2.mark e.2.span
  let keys := (l.filterMap fun w => w.2.1.map fun e => e.eui) ++ outside.map fun e => e.2.eui
  let placed (p : Nat) (e : EmEntry) : Bool :=
    decide (ovfBase ≤ p) || p / 4 = emBucket s.tbl.seed0 e.eui || p / 4 = emBucket s.tbl.seed1 e.eui
  if s.tbl.migration.isSome then .error .busyLock
  else if marked (·.mark) s.tbl.em l then .error .conflict
  else if l.any fun w => w.2.2 ≠ 0 || match w.2.1 with
      | some e => !placed w.1 e || !s.tp.nodeKnown e.nidx.toNat
      | none => false then .error .unsupported
  else if !distinct keys then .error .unsupported
  else
    let same (e : EmEntry) : Bool := (s.emLookup e.eui).any fun o => (s.writtenEm e).bare = o.bare
    let s1 := l.foldl (fun (s1 : State) w => match w.2.1 with
      | some e => s1.emPut w.1 { s.writtenEm e with mark := .plain, span := 0 }
      | none => if s.emFree w.1 then s1 else s1.emClear w.1) s
    .ok ((writeChanges (·.eui) same s.tbl.em keys l).foldl (fun s k => s.changed ⟨.em, k.toNat⟩ none 2 0) s1)

/-- The key of an LPM entry. -/
def LpmEntry.key (e : LpmEntry) : Nat := lpmKey e.pfx.toNat e.len

/-- TBL_WRITE to the LPM table (R260). -/
def State.writeLpm (s : State) (l : List (Nat × (Option LpmEntry × Nat))) : Except Status State :=
  let outside := s.tbl.lpm.filter fun e => !(l.any fun w => w.1 = e.1) && s.inForce e.2.mark e.2.span
  let keys := (l.filterMap fun w => w.2.1.map LpmEntry.key) ++ outside.map fun e => e.2.key
  let pending := (s.tbl.lpm.filter fun e => e.2.mark = .pendingAdd && !s.spanVis e.2.span.toNat).length
  if marked (·.mark) s.tbl.lpm l then .error .conflict
  else if l.any fun w => w.2.2 ≠ 0 || match w.2.1 with
      | some e => decide (128 < e.len) || !(lpmSlots e.pfx e.len).contains w.1 || !s.resultOk e.result ||
          decide (e.pfx.toNat % 2 ^ (128 - e.len) ≠ 0)
      | none => false then .error .unsupported
  else if !distinct keys then .error .unsupported
  else if s.tp.lpmPrefixes < keys.length + pending then .error .noRoom
  else
    let was (e : LpmEntry) : Option LpmEntry := (s.lpmFind e.pfx e.len).bind fun p => afind s.tbl.lpm p
    let same (e : LpmEntry) : Bool := (was e).any fun o => o.result = e.result
    let ver (e : LpmEntry) : BitVec 16 := match was e with
      | some o => if same e then o.ver else o.ver + 1
      | none => 1
    let m := l.foldl (fun m w => match w.2.1 with
      | some e => aput m w.1 { e with ver := ver e }
      | none => aerase m w.1) s.tbl.lpm
    .ok ((writeChanges LpmEntry.key same s.tbl.lpm keys l).foldl (fun s k => s.changed ⟨.lpm, k⟩ none 2 0)
      { s with tbl := s.tbl.withLpm m })

/-- The key of a seen-cache entry. -/
def SeenEntry.key (e : SeenEntry) : Nat := seenKey e.seed.toNat e.seq.toNat

/-- TBL_WRITE to the seen-cache (R260). -/
def State.writeSeen (s : State) (l : List (Nat × (Option SeenEntry × Nat))) : Except Status State :=
  let outside := s.tbl.seen.filter fun e => !(l.any fun w => w.1 = e.1) && s.inForce e.2.mark e.2.span && s.seenLive e.2
  let keys := (l.filterMap fun w => w.2.1.map SeenEntry.key) ++ outside.map fun e => e.2.key
  if marked (·.mark) s.tbl.seen l then .error .conflict
  else if l.any fun w => w.2.2 ≠ 0 || match w.2.1 with
      | some e => !(seenSlots e.seed e.seq).contains w.1
      | none => false then .error .unsupported
  else if !distinct keys then .error .unsupported
  else
    let same (e : SeenEntry) : Bool := ((s.seenFind e.seed e.seq).bind fun p => afind s.tbl.seen p).any fun o => o.expiry = e.expiry
    let m := l.foldl (fun m w => match w.2.1 with
      | some e => aput m w.1 e
      | none => aerase m w.1) s.tbl.seen
    .ok ((writeChanges SeenEntry.key same s.tbl.seen keys l).foldl (fun s k => s.changed ⟨.seen, k⟩ none 2 0)
      { s with tbl := { s.tbl with seen := m } })

/-- The units of a write as positions with their entries. -/
def writeSlots {α : Type} (table first count n : Nat) (data : List Byte) (rd : List Byte → Option α × Nat) :
    List (Nat × (Option α × Nat)) :=
  let ps := (List.range count).flatMap fun i => unitSlots table (first + i)
  (List.range ps.length).map fun i => (ps.getD i 0, rd (slotData data n i))

/-- The objects whose entries a write of octets to units of a table would add, replace or remove. -/
def State.writeObjects (s : State) (t first count : Nat) (data : List Byte) : List Obj :=
  let both {α : Type} (m : List (Nat × α)) (l : List (Nat × (Option α × Nat))) : List α :=
    l.filterMap (fun w => w.2.1) ++ l.filterMap fun w => afind m w.1
  match t with
  | 2 => (both s.tbl.lpm (writeSlots t first count 32 data readLpm)).map fun e => ⟨.lpm, e.key⟩
  | 3 => (both s.tbl.seen (writeSlots t first count 16 data readSeen)).map fun e => ⟨.seen, e.key⟩
  | _ => (both s.tbl.em (writeSlots t first count 16 data readEm)).map fun e => ⟨.em, e.eui.toNat⟩

/-- TBL_WRITE, its arguments checked (R260): its whole range is checked before it writes anything. A write that would touch
the target of a span about to commit is held, and judged again on the state it is applied to (R82). -/
def State.tblWriteNow (s : State) (d : Desc) : State :=
  let t := d.byte 8
  let first := (d.word 3).toNat
  let count := (d.word 4).toNat
  let data := s.readWin (d.word 5).toNat (count * unitBytes t)
  if !((List.range count).all fun i => s.locked (lockTable t) (regionOf (lockTable t) (unitPos t (first + i)))) then
    s.complete d .unsupported
  else
    match (match t with
      | 2 => s.writeLpm (writeSlots t first count 32 data readLpm)
      | 3 => s.writeSeen (writeSlots t first count 16 data readSeen)
      | _ => s.writeEm (writeSlots t first count 16 data readEm)) with
    | .error e => s.complete d e
    | .ok s1 =>
      if (s.writeObjects t first count data).any fun o => s.decidedOn o then s.holdChange (.write d)
      else s1.complete d .ok (b4 := d.word 4)

/-- TBL_WRITE (R259, R260). -/
def State.tblWrite (s : State) (d : Desc) : State :=
  s.command d stSAY fun s =>
    match tblArgs s d with
    | some e => s.complete d e
    | none => s.tblWriteNow d

/-! ### Waiting insertions, overflow moves and locks -/

/-- Apply one waiting insertion (R262, R244): it may wait again or find no room. -/
def State.applyWait (s : State) (w : WaitInsert) : State :=
  if w.table = 2 then s.seenPut w.eui w.seq w.age else s.learnKey w.eui w.nidx w.band w.pier

/-- Apply in order the waiting insertions of a region that is no longer locked (R262). -/
def State.applyWaits (s : State) (table : Nat) (region : Option Nat) : State :=
  let mine := fun w : WaitInsert => w.table = table && w.region = region
  let l := s.tbl.waits.filter mine
  l.foldl (fun s w => s.applyWait w) { s with tbl := { s.tbl with waits := s.tbl.waits.filter fun w => !mine w } }

/-- Move an overflow entry back into a candidate bucket with a free slot outside locked regions (R240). -/
def State.drainOne (s : State) (p : Nat) : State :=
  match afind s.tbl.em p with
  | none => s
  | some e =>
    let ok := fun q => !s.locked 0 (regionOf 0 q)
    let a := (s.freeSlot (emBucket s.tbl.seed0 e.eui)).filter ok
    let b := (s.freeSlot (emBucket s.tbl.seed1 e.eui)).filter ok
    if s.locked 0 (regionOf 0 p) then s
    else match a <|> b with
      | some q =>
        let s1 := s.emPut q e
        { s1 with tbl := { s1.tbl with em := aerase s1.tbl.em p } }.bump (Reg.TBL_CNT 9)
      | none => s

/-- Some overflow entry has a candidate bucket with a free slot. -/
def State.drainable (s : State) : Bool :=
  s.tbl.em.any fun e => decide (ovfBase ≤ e.1) &&
    ((s.freeSlot (emBucket s.tbl.seed0 e.2.eui)).isSome || (s.freeSlot (emBucket s.tbl.seed1 e.2.eui)).isSome)

/-- The overflow moves of a tick edge, lowest index first (R240), and none during a migration (R244). An entry that a lock
keeps in the store waits for a later edge. -/
def State.drainOverflow (s : State) : State :=
  if s.tbl.migration.isSome || !s.tbl.drainDue then s
  else
    let s1 := ((s.tbl.em.filter fun e => decide (ovfBase ≤ e.1)).map fun e => e.1).foldl (fun s p => s.drainOne p) s
    { s1 with tbl := { s1.tbl with drainDue := s1.drainable } }

/-- Clear a region's lock bit (R264). -/
def State.unlock (s : State) (table region : Nat) : State :=
  { s with tbl := { s.tbl with lockedAt := aerase s.tbl.lockedAt (64 * table + region) } }.setFld
    (Reg.TBL_LOCK table (region / 32)) (region % 32) (region % 32) 0

/-- A write of TBL_LOCK(t, h): newly locked regions note their tick, unlocked ones forget it (R261). -/
def State.writeLock (s : State) (t h : Nat) (v : Word) : State :=
  let s1 := (List.range 32).foldl (fun s k =>
    let r := 64 * t + 32 * h + k
    if bit v k then
      (if (afind s.tbl.lockedAt r).isSome then s
       else { s with tbl := { s.tbl with lockedAt := aput s.tbl.lockedAt r s.time.tickno } })
    else { s with tbl := { s.tbl with lockedAt := aerase s.tbl.lockedAt r } }) s
  s1.setReg (Reg.TBL_LOCK t h) v

/-! ### Rehash -/

/-- Read an EM_REHASH image: positions with entries, and whether every reserved, SPAN and MARK bit is 0. -/
def readImage (bs : List Byte) : List (Nat × EmEntry) × Bool :=
  let l := (List.range 331776).map fun i => (i, readEm (slice bs (16 * i) 16))
  (l.filterMap fun e => e.2.1.map fun x => (e.1, x), l.all fun e => e.2.2 = 0)

/-- EM_REHASH at staging (R243): the new positions of the entries in force, each with the VER it has. -/
def stageRehash (s : State) (img : List Byte) (sd0 sd1 : Word) : Except Status (List (Nat × EmEntry)) :=
  let r := readImage img
  let live := (s.tbl.em.filter fun e => s.inForce e.2.mark e.2.span).map fun e => e.2
  let strip (e : EmEntry) : EmEntry := { e with ver := 0, mark := .plain, span := 0 }
  if s.tbl.migration.isSome then .error .busyLock
  else if !((List.range 64).all fun k => s.locked 0 k) ∨ sd0 = sd1 ∨ !r.2 ∨
      !(r.1.all fun e => decide (ovfBase ≤ e.1) || e.1 / 4 = emBucket sd0 e.2.eui || e.1 / 4 = emBucket sd1 e.2.eui) ∨
      !distinct (r.1.map fun e => e.2.eui) ∨ r.1.length ≠ live.length ∨
      !(live.all fun o => r.1.any fun e => strip e.2 = strip o) then .error .unsupported
  else .ok (r.1.map fun e => (e.1, match live.find? fun o => o.eui = e.2.eui with
    | some o => { e.2 with ver := o.ver }
    | none => e.2))

/-- A committed EM_REHASH starts the migration (R244). -/
def State.startMigration (s : State) (img : List (Nat × EmEntry)) (sd0 sd1 : Word) : State :=
  { s with tbl := { s.tbl with migration := some { image := img, oldSeed0 := s.tbl.seed0, oldSeed1 := s.tbl.seed1 },
                               seed0 := sd0, seed1 := sd1 } }

/-- The end of the migration (R244): the table is the image, MIGRATING and REHASH_REQ clear, an INFO record is written,
and waiting insertions in unlocked regions are applied. -/
def State.endMigration (s : State) : State :=
  match s.tbl.migration with
  | none => s
  | some m =>
    let now (e : EmEntry) : EmEntry := match s.tbl.em.find? fun x => x.2.eui = e.eui with
      | some x => x.2
      | none => e
    let s1 := { s with tbl := { s.tbl with migration := none, em := m.image.map fun (e : Nat × EmEntry) => (e.1, now e.2) } }.setFld Reg.TBL_EM_STATUS 31 31 0
    (post s1 .info 0x0B none 0 []).applyWaits 0 none

end Sys2Proof.Machine
end

