-- ==== Sys2Proof/Machine/Cells.lean ====
section
/-! DEFINITION. Gate lists and cells: their layouts, kinds and checks, and channel hopping (R180 to R188). -/

namespace Sys2Proof.Machine

/-- Read a cell record (Table 09-2). -/
def readCell (bs : List Byte) : Cell :=
  { slotOffset := leAt bs 0 2, chOffset := leAt bs 2 2, options := BitVec.ofNat 8 (leAt bs 4 1), template := leAt bs 5 1,
    rsv := BitVec.ofNat 16 (leAt bs 6 2), peer := BitVec.ofNat 32 (leAt bs 8 4), queue := BitVec.ofNat 16 (leAt bs 12 2),
    rxGuard := leAt bs 14 2 }

/-- A cell record as stored. -/
def Cell.bytes (c : Cell) : List Byte :=
  leBytes c.slotOffset 2 ++ leBytes c.chOffset 2 ++ [c.options, BitVec.ofNat 8 c.template] ++ leBytes c.rsv.toNat 2 ++
    leBytes c.peer.toNat 4 ++ leBytes c.queue.toNat 2 ++ leBytes c.rxGuard 2

/-- Read a gate list (Table 09-1). -/
def readGateList (bs : List Byte) : GateList :=
  { sfLen := leAt bs 0 2, family := leAt bs 2 1,
    cells := (List.range (leAt bs 4 2)).map fun i => readCell (slice bs (16 + 16 * i) 16) }

/-- A gate list as stored. -/
def GateList.bytes (g : GateList) : List Byte :=
  leBytes g.sfLen 2 ++ [BitVec.ofNat 8 g.family, 0] ++ leBytes g.cells.length 2 ++ List.replicate 10 0 ++
    g.cells.flatMap Cell.bytes

/-- OPTIONS of a cell (Table 09-2). -/
def Cell.tx (c : Cell) : Bool := bit c.options 0
def Cell.rx (c : Cell) : Bool := bit c.options 1
def Cell.shared (c : Cell) : Bool := bit c.options 2
def Cell.beacon (c : Cell) : Bool := bit c.options 3
def Cell.bestEffort (c : Cell) : Bool := bit c.options 4
def Cell.advertise (c : Cell) : Bool := bit c.options 5

/-- NODE_VALID and NIDX of PEER. -/
def Cell.nodeValid (c : Cell) : Bool := bit c.peer 31
def Cell.nidx (c : Cell) : Nat := bits c.peer 17 0

/-- The kinds of Table 09-3. -/
inductive CellKind where
  | inactive | dedicated | shared | beaconTx | parentRx
  deriving DecidableEq, Repr

/-- The kind of a cell, when Table 09-3 lists its combination; `child` is the time role CHILD. -/
def Cell.kind (child : Bool) (c : Cell) : Option CellKind :=
  if c.options = 0 then some .inactive
  else if c.beacon then
    if c.nodeValid || c.shared || c.bestEffort then none
    else if c.tx && !c.rx then some .beaconTx
    else if c.rx && !c.tx && child then some .parentRx else none
  else if c.nodeValid then
    if (c.tx || c.rx) && !c.shared && !c.advertise then some .dedicated else none
  else if c.shared && (c.tx || c.rx) then some .shared else none

/-- The rank of a cell on the precedence ladder (Table 09-3). -/
def CellKind.rank (k : CellKind) (bestEffort : Bool) : Nat :=
  match k with
  | .dedicated => if bestEffort then 9 else 6
  | .shared => if bestEffort then 9 else 8
  | .beaconTx | .parentRx => 5
  | .inactive => 10

/-- The time role is CHILD. -/
def TrussParams.child (p : TrussParams) : Bool := p.timeRole = 2

/-- A queue's type under the truss (0 disabled). -/
def TrussParams.queueType (p : TrussParams) (q : Nat) : Nat :=
  match p.queueRanges.find? fun r => decide (r.first ≤ q ∧ q ≤ r.last) with
  | some r => r.type
  | none => 0

/-- The clusters that serve a family on a band (R183). -/
def TrussParams.familyClusters (p : TrussParams) (family : Nat) : List Cluster :=
  p.clusters.filter fun c => c.sfFamily = family

/-- Some cluster has a family, and a BAND of either or of band `b` (R183). -/
def TrussParams.servesFamily (p : TrussParams) (family b : Nat) : Bool :=
  (p.familyClusters family).any fun c => c.band = 0 || c.band = b + 1

/-- The reserved bits of a record are 0 (Table 09-2); an inactive record's other fields are ignored (R182). -/
def Cell.reservedOk (c : Cell) : Bool :=
  c.options = 0 || (bits c.options 7 6 = 0 && c.rsv = 0 && bits c.queue 15 10 = 0 &&
    (if c.beacon then bits c.peer 31 8 = 0 else bits c.peer 30 18 = 0))

/-- A cell that passes R183 within a list of length `sfLen` and family `family` on band `b`. -/
def cellOk (p : TrussParams) (b sfLen family : Nat) (c : Cell) : Bool :=
  match c.kind p.child with
  | none => false
  | some .inactive => true
  | some k =>
    c.reservedOk && p.servesFamily family b &&
    decide (c.slotOffset < sfLen ∧ c.chOffset ≤ 511 ∧ c.template < p.templates.length) &&
    (p.templates.getD c.template {}).band = b &&
    (match k with
     | .dedicated => c.queue = 0 &&
         (p.familyClusters family).any fun x => decide (x.base ≤ c.nidx ∧ c.nidx < x.base + x.nodes)
     | .shared => if c.tx then p.queueType (bits c.queue 9 0) = 1 || p.queueType (bits c.queue 9 0) = 2 else c.queue = 0
     | _ => c.queue = 0 && decide (bits c.peer 7 0 < p.clusters.length) &&
         (p.clusters.getD (bits c.peer 7 0) {}).sfFamily = family)

/-- Two active cells share a slot offset and channel offset (R183). -/
def cellsClash (l : List Cell) : Bool :=
  !distinct ((l.filter fun c => c.options != 0).map fun c => (c.slotOffset, c.chOffset))

/-- The checks of R183 on a whole list of band `b`. -/
def gateListOk (p : TrussParams) (b : Nat) (g : GateList) : Bool :=
  (p.band b).present && decide (1 ≤ g.sfLen ∧ g.sfLen ≤ 16384 ∧ g.cells.length ≤ 16384) &&
  p.servesFamily g.family b &&
  (g.cells.all fun c => cellOk p b g.sfLen g.family c) && !cellsClash g.cells

/-- The gate list that governs a slotframe at an ASN: the newest whose start has come (R180). -/
def State.gateList (s : State) (band handle asn : Nat) : Option GateList :=
  ((aget [] s.sch.frames (frameKey band handle)).find? fun g => decide (g.start ≤ asn)).bind fun g =>
    if g.cells = [] then none else some g

/-- The gate list in force of a slotframe: the newest, its start come or not (R180: the list before it governs the slots
before its START). SCH_GL_READ copies it and CELL items change it. -/
def State.listInForce (s : State) (band handle : Nat) : Option GateList :=
  match aget [] s.sch.frames (frameKey band handle) with
  | g :: _ => if g.cells = [] then none else some g
  | [] => none

/-- Records in the cell store in force (R184). -/
def State.cellsUsed (s : State) : Nat :=
  s.sch.frames.foldl (fun n e => n + match e.2 with
    | g :: _ => g.cells.length
    | [] => 0) 0

/-- Capacity of the cell store (R184). -/
def cellStore : Nat := 1048576

/-- The gate lists staged: their slotframes and their records. -/
def State.stagedLists (s : State) : List (Nat × Nat) :=
  s.spanc.spans.flatMap fun x => if x.keeps then x.items.filterMap fun i => match i.staged with
    | .gateList g => some (i.obj.key, g.cells.length)
    | _ => none else []

/-- The records in the store if every staged gate list committed, `more` among them (R184). Each replaces the list in force
for its slotframe: of several staged for one slotframe the longest counts (DEDUCED, log 80). -/
def State.cellsIfCommitted (s : State) (more : List (Nat × Nat)) : Nat :=
  let all := more ++ s.stagedLists
  let longest := all.foldl (fun m e => aput m e.1 (max e.2 ((afind m e.1).getD 0))) []
  (s.sch.frames.foldl (fun m e => if (afind longest e.1).isSome then m else m + match e.2 with
    | g :: _ => g.cells.length
    | [] => 0) 0) + longest.foldl (fun m e => m + e.2) 0

/-- A GATE_LIST item at staging (R181 to R184): its list, or its status. -/
def stageGateList (s : State) (band handle : Nat) (bs : List Byte) (len : Nat) : Except Status GateList :=
  let g := readGateList bs
  if !gateListOk s.tp band g ∨ leAt bs 3 1 ≠ 0 ∨ leAt bs 6 10 ≠ 0 then .error .unsupported
  else if cellStore < s.cellsIfCommitted [(frameKey band handle, leAt bs 4 2)] then .error .noRoom
  else if len ≠ 16 + 16 * leAt bs 4 2 then .error .length
  else .ok g

/-- CELL_SET at staging (R185): the record is checked under R183 against the list as it would be, whose other records stand
as they do, inactive under R186 or not. -/
def stageCellSet (s : State) (band handle idx : Nat) (c : Cell) : Except Status Cell :=
  match s.listInForce band handle with
  | none => .error .unsupported
  | some g =>
    if g.cells.length ≤ idx ∨ !cellOk s.tp band g.sfLen g.family c ∨ cellsClash (lset g.cells idx c) then .error .unsupported
    else if cellStore < s.cellsIfCommitted [] then .error .noRoom
    else .ok c

/-- CELL_DEL at staging (R185). -/
def stageCellDel (s : State) (band handle idx : Nat) : Option Status :=
  match s.listInForce band handle with
  | none => some .unsupported
  | some g => if g.cells.length ≤ idx then some .unsupported else none

/-- Replace the record of the list in force at a commit (R185). -/
def State.commitCell (s : State) (band handle idx : Nat) (f : Cell → Cell) : State :=
  let k := frameKey band handle
  match aget [] s.sch.frames k with
  | [] => s
  | g :: rest => { s with sch := { s.sch with
      frames := aset [] s.sch.frames k ({ g with cells := lset g.cells idx (f (g.cells.getD idx {})) } :: rest) } }

/-- A committed gate list governs from its start; lists that no slot to come can use are dropped (R180, R86). -/
def State.commitGateList (s : State) (band handle : Nat) (g : GateList) (start : Nat) : State :=
  let k := frameKey band handle
  let asn := s.asn band
  let old := aget [] s.sch.frames k
  let keep := old.takeWhile fun x => decide (asn < x.start)
  let l := { g with start := start } :: ((keep ++ (old.drop keep.length).take 1).filter fun x => decide (x.start < start))
  { s with sch := { s.sch with frames := aset [] s.sch.frames k l } }

/-- Cells in force that pass R183 under parameters `old` and fail it under those in force: a commit has made them inactive
(R186). -/
def State.madeInactive (s : State) (old : TrussParams) : Nat :=
  s.sch.frames.foldl (fun n e => n + match e.2 with
    | g :: _ => (g.cells.filter fun c => c.options != 0 && cellOk old (e.1 / 256) g.sfLen g.family c &&
        !cellOk s.tp (e.1 / 256) g.sfLen g.family c).length
    | [] => 0) 0

/-- The channel of a cell at an ASN (R188). -/
def channelAt (p : TrussParams) (band asn chOffset : Nat) : Nat :=
  let h := if band = 0 then p.hopA else p.hopB
  h.getD ((asn + chOffset) % h.length) 0

/-- SCH_GL_READ (R187). -/
def State.schGlRead (s : State) (d : Desc) : State :=
  s.command d stSAYML fun s =>
    let b := d.byte 8
    let g := (s.listInForce b (d.byte 9)).getD {}
    let bs := g.bytes
    let ofs := (d.word 3).toNat
    if !d.unlistedZero [8, 9, 12, 13, 14, 15, 16, 17, 18, 19] || 1 < b || !(s.tp.band b).present then s.complete d .unsupported
    else if ofs % 16 ≠ 0 || !s.inWindow ofs (d.word 4).toNat || (d.word 4).toNat < bs.length then s.complete d .length
    else (s.writeWin ofs bs).complete d .ok

end Sys2Proof.Machine
end

