-- ==== Sys2Proof/Machine/Cipher.lean ====
section
/-! DEFINITION. The cipher block: job descriptors, dispatch order, results and self-tests (R316 to R331). -/

namespace Sys2Proof.Machine

/-- The mode a MODE byte names (Table 14-3). -/
def cipModeOf (n : Nat) : Option CipMode :=
  match n with
  | 0x01 => some .ccmProtect | 0x02 => some .ccmCheck | 0x03 => some .gcmSeal | 0x04 => some .gcmOpen
  | 0x05 => some .ctrEnc | 0x06 => some .ctrDec | 0x07 => some .cmacGen | 0x08 => some .cmacVerify
  | 0x10 => some .sha256 | 0x11 => some .p256Verify | _ => none

/-- The usage a mode needs (Table 13-3); none for the modes without a key. -/
def CipMode.usage (m : CipMode) : Option Nat :=
  match m with
  | .ccmProtect | .gcmSeal | .ctrEnc | .cmacGen => some 0
  | .ccmCheck | .gcmOpen | .ctrDec | .cmacVerify => some 1
  | .sha256 | .p256Verify | .p256Sign => none

/-- TAGLEN allowed for a mode (Table 14-3). -/
def CipMode.tagLenOk (m : CipMode) (n : Nat) : Bool :=
  match m with
  | .ccmProtect | .ccmCheck => n = 0 || n = 4 || n = 8 || n = 16
  | .gcmSeal | .gcmOpen => decide (12 ≤ n ∧ n ≤ 16)
  | .ctrEnc | .ctrDec => n = 0
  | .cmacGen | .cmacVerify => decide (4 ≤ n ∧ n ≤ 16)
  | .sha256 => n = 32
  | .p256Verify | .p256Sign => n = 64

/-- NONCE octets a mode uses; the rest are 0. -/
def CipMode.nonceLen (m : CipMode) : Nat :=
  match m with
  | .ccmProtect | .ccmCheck => 13
  | .gcmSeal | .gcmOpen => 12
  | .ctrEnc | .ctrDec => 16
  | _ => 0

/-- The mode writes its tag area (Table 14-2). -/
def CipMode.writesTag (m : CipMode) : Bool :=
  match m with
  | .ccmProtect | .gcmSeal | .cmacGen | .sha256 => true
  | _ => false

/-- The mode has an output area of LEN octets. -/
def CipMode.hasOutput (m : CipMode) : Bool :=
  match m with
  | .ccmProtect | .ccmCheck | .gcmSeal | .gcmOpen | .ctrEnc | .ctrDec => true
  | _ => false

/-- B of Table 14-3 for `a` octets of additional data and `m` of input. -/
def CipMode.blocks (md : CipMode) (a m : Nat) : Nat :=
  match md with
  | .ccmProtect | .ccmCheck => 1 + (if a = 0 then 0 else ceilDiv (a + if a < 65280 then 2 else 6) 16) + ceilDiv m 16
  | .gcmSeal | .gcmOpen => 2 + ceilDiv m 16
  | .ctrEnc | .ctrDec => ceilDiv m 16
  | .cmacGen | .cmacVerify => 1 + max 1 (ceilDiv m 16)
  | .sha256 => (m + 9 + 63) / 64
  | .p256Verify | .p256Sign => 0

/-- NOM in ns (R326). -/
def CipJob.nominal (j : CipJob) : Nat :=
  match j.mode with
  | .sha256 => 200 + 40 * j.blocks
  | .p256Verify => 1800000
  | .p256Sign => 1200000
  | _ => 100 + 11 * j.blocks

/-- The unit kind of a mode: 8 the SHA-256 unit, 9 the P-256 unit, 0 an AES core. -/
def CipMode.unit (m : CipMode) : Nat :=
  match m with
  | .sha256 => 8
  | .p256Verify | .p256Sign => 9
  | _ => 0

/-- A job can run on a unit. -/
def CipJob.fits (j : CipJob) (u : Nat) : Bool := if j.mode.unit = 0 then decide (u < 8) else j.mode.unit = u

/-- Unit `u`. -/
def State.unit (s : State) (u : Nat) : CipUnit := s.cip.units.getD u {}

/-- Set unit `u`. -/
def State.setUnit (s : State) (u : Nat) (x : CipUnit) : State :=
  { s with cip := { s.cip with units := lset s.cip.units u x } }

/-- A unit is in service for new jobs: the SHA-256 and P-256 units stay in service while SLOW (R327). -/
def CipUnit.serves (x : CipUnit) (u : Nat) : Bool := x.test.isNone && (x.state = .inService || (u ≥ 8 && x.state = .slow))

/-- AES cores in service (R328): one that awaits a self-test leaves service when its job ends (R329). -/
def State.coresInService (s : State) : Nat := ((s.cip.units.take 8).filter fun x => x.state = .inService).length

/-- Queue a job; a MAC job keeps its own number. -/
def State.queueJob (s : State) (j : CipJob) : State :=
  { s with cip := { s.cip with queue := s.cip.queue ++ [{ j with id := s.cip.nextId, arrived := s.time.elapsed }],
                               nextId := s.cip.nextId + 1 } }

/-- Jobs of a class queued (Table 14-1). -/
def State.queued (s : State) (c : JobClass) : Nat := (s.cip.queue.filter fun j => j.cls = c).length

/-- The time in ns to the due instant by which a MAC job is ordered (R318 step 3). -/
def State.jobOrder (s : State) (j : CipJob) : Int :=
  match j.due with
  | some d => (d : Int) - s.now
  | none => (j.arrived : Int) + 1000000 - s.time.elapsed

/-- The job with the least order, the earlier arrival on a tie. -/
def State.earliest (s : State) (l : List CipJob) : Option CipJob :=
  l.foldl (fun m j => match m with
    | none => some j
    | some k => if s.jobOrder j < s.jobOrder k then some j else some k) none

/-- The next job for a unit in the order of R318, and whether it is an aged one. -/
def State.nextJob (s : State) (u : Nat) : Option (CipJob × Bool) :=
  let q := s.cip.queue.filter fun j => j.fits u
  let clear := s.cip.queue.all fun j => j.cls != .mac || match j.due with
    | some d => decide (s.now + 100000 < d)
    | none => true
  let age := s.regFld Reg.CIP_CTRL 31 16
  match q.find? fun j => j.cls = .mac && j.again with
  | some j => some (j, false)
  | none =>
    match (if clear then q.find? fun j => j.cls != .mac && decide (j.arrived + age * 1000 ≤ s.time.elapsed) else none) with
    | some j => some (j, true)
    | none =>
      match s.earliest (q.filter fun j => j.cls = .mac) with
      | some j => some (j, false)
      | none => (((q.find? fun j => j.cls = .host) <|> (q.find? fun j => j.cls = .fwSec) <|>
          (q.find? fun j => j.cls = .fwCore))).map fun j => (j, false)

/-- The unit may take a job now: in service, idle, and no lower idle core (R318). -/
def State.unitReady (s : State) (u : Nat) : Bool :=
  (s.unit u).serves u && (s.unit u).run.isNone &&
    (decide (8 ≤ u) || (List.range u).all fun v => !((s.unit v).serves v && (s.unit v).run.isNone))

/-- Give a job to a unit: its keys are read from the key cache now (R316). -/
def State.startRun (s : State) (u : Nat) (j : CipJob) (aged : Bool) : State :=
  let s1 := { s with cip := { s.cip with queue := s.cip.queue.filter fun k => k.id != j.id || k.again != j.again } }
  let s2 := s1.setUnit u { s1.unit u with run := some { job := j, start := s.time.elapsed, key := (s.slot j.slot).key,
                                                        ackKey := match j.ackSlot with
                                                          | some a => (s.slot a).key
                                                          | none => [] } }
  if aged then s2.bump (Reg.CIP_CNT 9) else s2

/-- Two octet lists compare equal over the tag length. -/
def tagEq (a b : List Byte) (n : Nat) : Bool := slice a 0 n == slice b 0 n

/-- What a run computes: its status, its output and its tag (Table 14-3, R323). -/
def CipRun.result (r : CipRun) : Status × List Byte × List Byte :=
  let j := r.job
  match j.mode with
  | .ccmProtect => let p := Config.ccmProtect r.key j.nonce j.aad j.input j.tagLen; (.ok, p.1, p.2)
  | .ccmCheck => match Config.ccmCheck r.key j.nonce j.aad j.input j.tag with
    | some m => (.ok, m, j.tag)
    | none => (.authFail, List.replicate j.input.length 0, [])
  | .gcmSeal => let p := Config.gcmSeal r.key j.nonce j.aad j.input j.tagLen; (.ok, p.1, p.2)
  | .gcmOpen => match Config.gcmOpen r.key j.nonce j.aad j.input j.tag with
    | some m => (.ok, m, j.tag)
    | none => (.authFail, List.replicate j.input.length 0, [])
  | .ctrEnc | .ctrDec => (.ok, Config.aesCtr r.key j.nonce j.input, [])
  | .cmacGen => (.ok, [], slice (Config.aesCmac r.key j.input) 0 j.tagLen)
  | .cmacVerify => if tagEq (Config.aesCmac r.key j.input) j.tag j.tagLen then (.ok, [], []) else (.authFail, [], [])
  | .sha256 => (.ok, [], Config.sha256 j.input)
  | .p256Verify => if Config.p256VerifyDigest j.aad j.input j.tag then (.ok, [], []) else (.authFail, [], [])
  | .p256Sign => (.ok, [], Config.p256Sign r.key j.input)

/-- Count a job's completion by class and outcome (Table 14-7). -/
def State.countJob (s : State) (c : JobClass) (st : Status) : State :=
  let s1 := s.bump (Reg.CIP_CNT (match c with
    | .mac => 0
    | .host => 1
    | _ => 2))
  match st with
  | .late => s1.bump (Reg.CIP_CNT 3)
  | .authFail => s1.bump (Reg.CIP_CNT 4)
  | .keyRevoked => (s1.bump (Reg.CIP_CNT 5)).bump (Reg.KEY_CNT 3)
  | .keyAttr => s1.bump (Reg.CIP_CNT 5)
  | .slowUnit => s1.bump (Reg.CIP_CNT 7)
  | _ => s1

/-- Complete a CIP_SUBMIT (Table 14-4). REDO reads 0: R328 re-runs MAC jobs alone. -/
def State.completeSubmit (s : State) (d : Desc) (st : Status) (unit : Nat) : State :=
  s.complete d st (b4 := fld unit 0) (b8 := pw s.tick) (b12 := pw (s.tick / 2 ^ 32 % 65536))

/-- A HOST job ends: what its run leaves in the output area, if anything, and its tag are written, and its completion is
held. -/
def State.endHostJob (s : State) (j : CipJob) (st : Status) (out tag : List Byte) (unit : Nat) : State :=
  match j.owner with
  | .host d =>
    let s1 := if j.mode.hasOutput then s.writeWin j.outOfs out else s
    let s2 := if st = .ok && j.mode.writesTag then s1.writeWin j.tagOfs (slice tag 0 j.tagLen) else s1
    (s2.countJob .host st).completeSubmit d st unit
  | _ => s

/-- What the output area holds after a run that was stopped or aborted: zeros (R328, Table 14-5). -/
def CipJob.zeroed (j : CipJob) : List Byte := List.replicate j.input.length 0

/-- Two areas overlap. -/
def overlap (a n b m : Nat) : Bool := decide (a < b + m ∧ b < a + n ∧ 0 < n ∧ 0 < m)

/-- The checks of R322 on a job descriptor of a HOST job, and the job it makes. -/
def parseJob (s : State) (d : Desc) (jd : List Byte) : Except Status CipJob :=
  match cipModeOf (leAt jd 0 1) with
  | none => .error .unsupported
  | some m =>
    let dl := leAt jd 1 1 = 1
    let slot := leAt jd 2 2
    let tagLen := leAt jd 4 1
    let aadO := leAt jd 8 4
    let aadL := leAt jd 0x0C 4
    let inO := leAt jd 0x10 4
    let len := leAt jd 0x14 4
    let outO := leAt jd 0x18 4
    let tagO := leAt jd 0x1C 4
    let nonce := slice jd 0x20 16
    let deadline := leAt jd 0x30 6
    let keyed := m.usage.isSome
    if leAt jd 1 1 > 1 ∨ slot ≥ 4096 ∨ leAt jd 5 3 ≠ 0 ∨ leAt jd 0x36 10 ≠ 0 ∨ leNat (nonce.drop m.nonceLen) ≠ 0 ∨
        !m.tagLenOk tagLen ∨ (keyed ∧ s.keyPart slot ≠ .host) ∨ (¬ keyed ∧ slot ≠ 0) ∨
        (m.hasOutput ∧ outO ≠ inO ∧ overlap outO len inO len) ∨
        (dl ∧ liesAhead deadline s.tick ∧ 2 ^ 32 < tickAhead deadline s.tick) then .error .unsupported
    else if 65535 < aadL ∨ 65535 < len ∨ (m = .p256Verify ∧ (len ≠ 32 ∨ aadL ≠ 64)) ∨ !s.inWindow aadO aadL ∨
        !s.inWindow inO len ∨ (m.hasOutput ∧ !s.inWindow outO len) ∨ !s.inWindow tagO tagLen then .error .length
    else if keyed ∧ !s.usable slot then .error .keyRevoked
    else if keyed ∧ m.usage ≠ some (usage (s.slot slot).attr) then .error .keyAttr
    else if dl ∧ !liesAhead deadline s.tick then .error .late
    else .ok { id := 0, cls := .host, owner := .host d, mode := m, slot := slot, aad := s.readWin aadO aadL,
               input := s.readWin inO len, nonce := nonce.take m.nonceLen, tagLen := tagLen,
               tag := s.readWin tagO tagLen, outOfs := outO, tagOfs := tagO,
               due := if dl then some (s.now + tickAhead deadline s.tick * s.tickNs - s.now % s.tickNs) else none,
               blocks := m.blocks aadL len }

/-- CIP_SUBMIT (R324): the job is queued, or the command completes with the first failure. -/
def State.cipSubmit (s : State) (d : Desc) : State :=
  let o := (d.word 2).toNat
  if d.byte 4 ≠ 0xFF then s.completeSubmit d .unsupported 0xFF
  else if !s.inStates stSAYM then (s.completeSubmit d .state 0xFF).rejectNote d
  else if !d.unlistedZero [8, 9, 10, 11] then s.completeSubmit d .unsupported 0xFF
  else if !s.inWindow o 64 || o % 64 ≠ 0 then s.completeSubmit d .length 0xFF
  else match parseJob s d (s.readWin o 64) with
    | .error e => (s.countJob .host e).completeSubmit d e 0xFF
    | .ok j =>
      if j.mode.unit = 0 && s.coresInService = 0 then (s.countJob .host .slowUnit).completeSubmit d .slowUnit 0xFF
      else if 128 ≤ s.queued .host then s.completeSubmit d .noRoom 0xFF
      else s.queueJob j

/-- The last AES core has left service: one ERROR record, and every queued AES job of a host ends SLOW_UNIT (R328). -/
def State.noCoreLeft (s : State) : State :=
  if s.coresInService ≠ 0 then s
  else
    let gone := s.cip.queue.filter fun j => j.mode.unit = 0 && j.cls != .mac
    let s1 := post s .error 0x0F (some .slowUnit) 0 []
    let s2 := { s1 with cip := { s1.cip with queue := s1.cip.queue.filter fun j => j.mode.unit != 0 || j.cls = .mac } }
    gone.foldl (fun s j => if j.cls = .host then s.endHostJob j .slowUnit [] [] 0xFF else s.countJob j.cls .slowUnit) s2

/-- The runs of a job go on with their output discarded, and its queued copies go: the job has ended (R319), or one of its
runs has given the result (R327; step 5 of Table 14-6 still finds the other on its core). -/
def State.voidJob (s : State) (id : Nat) : State :=
  { s with cip := { s.cip with
      queue := s.cip.queue.filter fun j => j.id != id,
      units := s.cip.units.map fun x => match x.run with
        | some r => if r.job.id = id then { x with run := some { r with job := { r.job with void := true } } } else x
        | none => x } }

/-- The unit a job runs on, 0xFF for one that has not run (Table 14-4): a job that ends while it runs names its unit
(DEDUCED, log 77). -/
def State.unitOf (s : State) (id : Nat) : Nat :=
  ((List.range s.cip.units.length).find? fun u => match (s.unit u).run with
    | some r => r.job.id = id
    | none => false).getD 0xFF

/-- The result of a unit's known-answer tests, decided by the hardware (R329). -/
def State.selfTestEnd (s : State) (u : Nat) (pass : Bool) : State :=
  let x := s.unit u
  let s1 := s.setFld (Reg.CIP_CORE_TEST u) 31 24 (if pass then 0 else Status.checkFail.code)
  let s2 := s1.setUnit u { state := if pass then .inService else .slow }
  let s3 := if pass then s2 else post s2 .error 0x0F (some .checkFail) (match x.test with
    | some d => d.opcode % 256
    | none => 0) [pw u]
  match x.test with
  | some d => s3.complete d (if pass then .ok else .checkFail)
  | none => s3

end Sys2Proof.Machine
end

