-- ==== Sys2Proof/Machine/Measure.lean ====
section
/-! DEFINITION. Measurement registers (R352 to R354), the chains' calibration entries as octets (R141, R142), and the
OEM key hash in force (R348). -/

namespace Sys2Proof.Machine

/-- MR`n` becomes SHA-256 of MR`n` and D. -/
def State.setMr (s : State) (n : Nat) (dig : List Byte) : State :=
  { s with boot := { s.boot with mr := lset s.boot.mr n (Config.sha256 (s.boot.mr.getD n [] ++ dig)) } }

/-- An extension that no command makes (R353, R354): always made; its AUDIT record is written, held until the recorder
starts, or missing with AUDIT_GAP set. -/
def State.mrExtend (s : State) (n : Nat) (dig : List Byte) : State :=
  let s1 := s.setMr n dig
  let pl := pw n :: toWords dig
  if !s1.evr.running then
    { s1 with boot := { s1.boot with held := s1.boot.held ++ [(.audit, 0x11, none, 0, pl)] } }
  else match s1.postAsk .audit 0x11 none 0 pl with
    | (s2, true) => s2
    | (s2, false) => { s2 with evr := { s2.evr with auditGap := true } }

/-- BOOT_MR_EXTEND (R355). -/
def State.bootMrExtend (s : State) (d : Desc) : State :=
  s.command d stSAYM fun s =>
    let n := d.byte 8
    let o := (d.word 3).toNat
    let dig := s.readWin o 32
    if (n ≠ 6 ∧ n ≠ 7) || !d.unlistedZero [8, 12, 13, 14, 15] then s.complete d .unsupported
    else if !s.inWindow o 32 || o % 4 ≠ 0 then s.complete d .length
    else match s.postAsk .audit 0x11 none (d.opcode % 256) (pw n :: toWords dig) with
      | (s1, true) => (s1.setMr n dig).complete d .ok
      | (s1, false) => s1.complete d .noRoom

/-! ### Chains and calibration entries -/

/-- The band of a transmit chain: TX0 and TX1 Band A, TX2 and TX3 Band B. -/
def chainBand (c : Nat) : Nat := c / 2

/-- Entries of a chain (R141). -/
def TrussParams.calCount (p : TrussParams) (c : Nat) : Nat :=
  let b := p.band (chainBand c)
  if !b.present then 0
  else if b.chainSplit = 0 then b.channelCount
  else if c % 2 = 0 then (b.channelCount + 1) / 2 else b.channelCount / 2

/-- The channel of a chain's entry (R141). -/
def TrussParams.calChannel (p : TrussParams) (c i : Nat) : Nat :=
  if (p.band (chainBand c)).chainSplit = 0 then i else 2 * i + c % 2

/-- The entry of a channel on a chain. -/
def TrussParams.calIndex (p : TrussParams) (c ch : Nat) : Nat :=
  if (p.band (chainBand c)).chainSplit = 0 then ch else ch / 2

/-- A calibration entry as 16 octets (Table 07-1). -/
def CalEntry.bytes (e : CalEntry) : List Byte :=
  leBytes e.channel 2 ++ [BitVec.ofNat 8 (2 * b2n e.host + b2n e.valid), BitVec.ofNat 8 e.vcoBand] ++ leBytes e.capCode 2 ++
    leBytes e.loopGain 2 ++ leBytes e.tpmGain 2 ++ leBytes (unsigned e.temp 16) 2 ++ leBytes e.tick.toNat 4

/-- Read a calibration entry, with whether its reserved bits are 0. -/
def readCal (bs : List Byte) : CalEntry × Bool :=
  ({ channel := leAt bs 0 2 % 1024, host := leAt bs 2 1 / 2 % 2 = 1, valid := leAt bs 2 1 % 2 = 1,
     vcoBand := leAt bs 3 1 % 64, capCode := leAt bs 4 2 % 4096, loopGain := leAt bs 6 2 % 1024, tpmGain := leAt bs 8 2,
     temp := signed (leAt bs 0x0A 2) 16, tick := BitVec.ofNat 32 (leAt bs 0x0C 4) },
   decide (leAt bs 0 2 < 1024 ∧ leAt bs 2 1 < 4 ∧ leAt bs 3 1 < 64 ∧ leAt bs 4 2 < 4096 ∧ leAt bs 6 2 < 1024))

/-- Entry `i` of chain `c`; an entry never written is EMPTY and holds its channel. -/
def State.calEntry (s : State) (c i : Nat) : CalEntry := aget { channel := s.tp.calChannel c i } s.cal.entries (1024 * c + i)

/-- Write entry `i` of chain `c`. -/
def State.setCal (s : State) (c i : Nat) (e : CalEntry) : State :=
  { s with cal := { s.cal with entries := aset { channel := s.tp.calChannel c i } s.cal.entries (1024 * c + i) e } }

end Sys2Proof.Machine
end

