-- ==== Sys2Proof/Machine/Spans.lean ====
section
/-! DEFINITION. Staging, arming, deciding, reporting and cleaning up spans (R67 to R89, R455, R63, R64). -/

namespace Sys2Proof.Machine

/-! ### Numbers and capacity -/

/-- A span number is free (R68). -/
def Span.free (x : Span) : Bool := (x.state = .committed || x.state = .aborted) && x.clean

/-- The span's items count against the limits of R73: it keeps them, or its cleanup is not done. -/
def Span.counts (x : Span) : Bool := x.keeps || !x.clean

/-- Items counted against a limit, of the spans whose number the test selects. -/
def State.itemsHeld (s : State) (p : Nat → Bool) : Nat :=
  (List.range 16).foldl (fun n i => if (p i && (s.span i).counts) then n + (s.span i).items.length else n) 0

/-- Octets of copies counted against R73. -/
def State.copiesHeld (s : State) : Nat :=
  s.spanc.spans.foldl (fun n x => if x.counts then x.items.foldl (fun m i => m + i.copyBytes) n else n) 0

/-- One more item of span `n` with `copy` octets of copies passes the limits of R73. -/
def State.itemFits (s : State) (n copy : Nat) : Bool :=
  decide ((s.span n).items.length < 8192 ∧ s.itemsHeld (fun _ => true) < 65536 ∧ s.copiesHeld + copy ≤ 0x1000000) &&
    (decide (12 ≤ n) || decide (s.itemsHeld (fun i => decide (i < 12)) < 61440))

/-! ### Judging an item (R455) -/

/-- Every octet of `bs` from `o` on is 0. -/
def zeroFrom (bs : List Byte) (o : Nat) : Bool := (bs.drop o).all fun b => b = 0

/-- Step 1 of R455: the kind, the reserved bits of its fields (Tables 07-1, 09-2, 11-2, 12-2 and 13-2 give those of its
payload) and the range of the target (R76, Tables 04-3 and 04-4). -/
def headOk (s : State) (it : SpanItem) (rsv : Nat) : Bool :=
  let t := it.target.toNat
  let f := it.flags.toNat
  let p := it.payload
  let band (b : Nat) := (s.tp.band b).present
  let keySlot := decide (t < 4096) && (s.keyPart t = .domain || s.keyPart t = .host)
  rsv = 0 && (f = 0 || (it.kind = 0x03 && f = 1)) &&
  match it.kind with
  | 0x01 => decide (t < 2 ^ 25) && band (t / 2 ^ 24) && zeroFrom p 16 && (readCell p).reservedOk
  | 0x02 => decide (t < 2 ^ 25) && band (t / 2 ^ 24) && zeroFrom p 0
  | 0x03 => decide (t < 512) && band (t / 256) && zeroFrom p 13
  | 0x10 => t = 0 && zeroFrom p 16 && leAt p 8 8 / 2 ^ 40 = 0 && leAt p 12 1 % 128 = 0 && leAt p 8 4 / 2 ^ 18 = 0
  | 0x11 => t = 0 && zeroFrom p 8
  | 0x12 => t = 0 && zeroFrom p 16
  | 0x13 => t = 0 && leAt p 17 3 = 0
  | 0x14 => t = 0 && zeroFrom p 17
  | 0x15 => t = 0 && zeroFrom p 14
  | 0x16 => t = 0 && zeroFrom p 12
  | 0x20 => keySlot && zeroFrom p 8 && decide (leAt p 4 1 < 16)
  | 0x21 => keySlot && leAt p 6 2 = 0 && decide (leAt p 4 1 < 16)
  | 0x22 => keySlot && zeroFrom p 0
  | 0x30 => decide (t < 4096 ∧ t < s.tp.policers) && zeroFrom p 16
  | 0x31 => decide (t < 1024) && (s.queue t).type != .disabled && zeroFrom p 10 && decide (leAt p 9 1 < 16)
  | 0x40 => decide (t % 65536 < 512 ∧ t < 4 * 65536) && s.tp.calFull && decide (t % 512 < s.tp.calCount (t / 65536)) &&
      zeroFrom p 16 && (readCal p).2
  | 0x50 => mutableType t && zeroFrom p 8
  | _ => false

/-- Octets of copies an item holds (R73). -/
def SpanItem.copies (it : SpanItem) : Nat :=
  match it.kind with
  | 0x03 => leAt it.payload 4 4
  | 0x12 => leAt it.payload 12 4
  | 0x50 => leAt it.payload 4 4
  | _ => 0

/-- The section an item's area holds, read as Table 03-2. -/
def readSection (raw : List Byte) : Section :=
  { type := leAt raw 0 2, serial := BitVec.ofNat 32 (leAt raw 8 4), raw := raw }

/-- Step 3 of R455: the areas an item names. -/
def areasOk (s : State) (it : SpanItem) : Bool :=
  let p := it.payload
  match it.kind with
  | 0x03 => decide (1 ≤ leAt p 4 4) && s.inWindow (leAt p 0 4) (leAt p 4 4) &&
      (decide (leAt p 4 4 < 16) == false) && leAt p 4 4 = 16 + 16 * leAt (s.readWin (leAt p 0 4) 16) 4 2
  | 0x12 => leAt p 12 4 = 5308416 && s.inWindow (leAt p 8 4) 5308416
  | 0x20 => s.inWindow (leAt p 0 4) (blobSize (BitVec.ofNat 8 (leAt p 4 1)))
  | 0x50 => decide (1 ≤ leAt p 4 4) && s.inWindow (leAt p 0 4) (leAt p 4 4) && decide (80 ≤ leAt p 4 4) &&
      leAt p 4 4 = 80 + leAt (s.readWin (leAt p 0 4) 16) 4 4
  | _ => true

/-- Step 4 of R455: an overlap with a staged item, but for two gate lists or two sections in different spans (R77). -/
def overlapsStaged (s : State) (n : Nat) (it : SpanItem) : Bool :=
  (List.range 16).any fun m => (s.span m).keeps && (s.span m).items.any fun o =>
    o.obj.overlaps it.obj && !(m != n && o.kind = it.kind && (it.kind = 0x03 || it.kind = 0x50))

/-- A key item (KIND 0x20 to 0x22). -/
def SpanItem.isKey (it : SpanItem) : Bool := it.kind = 0x20 || it.kind = 0x21 || it.kind = 0x22

/-- The checks of a replacement section (R63, R64, Table 03-5): the section and the parameters it gives. -/
def stageSection (s : State) (type : Nat) (raw : List Byte) : Except Status (Section × TrussParams) :=
  let t := s.truss.truss
  let key := slice t.header 0x38 64
  let id := slice t.header 0x0C 4
  let old := (t.sections.find? fun x => x.type = type).map fun x => x.serial
  match parseSections key id raw raw.length [type] 0 with
  | .error e => .error e.reason.status
  | .ok l =>
    let sec := readSection raw
    let all := t.sections.map fun x => if x.type = type then sec else x
    let p := readParams all
    match sectionsRefused all p with
    | some r => .error r.1.status
    | none =>
      if l.isEmpty then .error .unsupported
      else if s.par.state = .sealed && !parapetOk p s.parImage then .error .parapet
      else if sec.serial.toNat ≤ (old.getD 0).toNat then .error .stale
      else .ok (sec, p)

/-- The checks of POLICER_SET (R76, R284). -/
def stagePolicer (p : List Byte) : Except Status Policer :=
  let cir := leAt p 0 4
  let cbs := leAt p 4 4
  let pir := leAt p 8 4
  let pbs := leAt p 12 4
  let burst (v : Nat) := decide (2048 ≤ v ∧ v ≤ 16777216)
  if (cir = 0xFFFFFFFF && pir = 0xFFFFFFFF || decide (cir ≤ 625000000 ∧ pir ≤ 625000000)) && burst cbs && burst pbs &&
      decide (cir ≤ pir) then
    .ok { cir := BitVec.ofNat 32 cir, cbs := BitVec.ofNat 32 cbs, pir := BitVec.ofNat 32 pir, pbs := BitVec.ofNat 32 pbs }
  else .error .unsupported

/-- QUOTA and OVF_QUOTA of a queue if every staged QUEUE_SET committed (R268). -/
def State.stagedQuota (s : State) (q : Nat) : Nat × Nat :=
  (s.spanc.spans.flatMap fun x => if x.keeps then x.items else []).foldl
    (fun m it => match it.staged with
      | .queue quota ovf _ _ => if it.obj.key = q then (quota, ovf) else m
      | _ => m) ((s.queue q).quota, (s.queue q).ovfQuota)

/-- The sums of R268 with queue `q` given new quotas. -/
def quotaFits (s : State) (q quota ovf : Nat) : Bool :=
  let sums := (s.que.queues.filter fun e => e.2.type != .disabled).foldl
    (fun (m : Nat × Nat) e =>
      let v := if e.1 = q then (quota, ovf) else s.stagedQuota e.1
      (m.1 + v.1, m.2 + v.2)) (0, 0)
  decide (sums.1 ≤ 5242880 ∧ sums.2 ≤ s.tp.deckOverflow.size)

/-- The checks of QUEUE_SET (R269, Table 12-2); capacity under R268. -/
def stageQueueSet (s : State) (q : Nat) (p : List Byte) : Except Status Staged :=
  let quota := leAt p 0 4
  let ovf := leAt p 4 4
  let ring := leAt p 8 1
  let f := leAt p 9 1
  let cons := f / 4 % 4
  let ringOk := if cons = 0 then decide (ring < 8) || ring = 0xFF else ring = 0xFF
  if quota % 128 ≠ 0 ∨ ovf % 128 ≠ 0 ∨ 5242880 < quota ∨ quota + ovf < 8192 ∨ 16 ≤ f ∨ !ringOk ∨
      (2 ≤ cons ∧ (s.queue q).type = .rewind) then .error .unsupported
  else if !quotaFits s q quota ovf then .error .noRoom
  else .ok (.queue quota ovf ring (BitVec.ofNat 8 f))

/-- The checks of CAL_ENTRY (R143). -/
def stageCal (s : State) (chain idx : Nat) (p : List Byte) : Except Status CalEntry :=
  let e := readCal p
  if e.2 && e.1.channel = s.tp.calChannel chain idx && e.1.loopGain ≠ 0 && decide (-160 ≤ e.1.temp ∧ e.1.temp ≤ 600) then
    .ok e.1
  else .error .unsupported

/-- Steps 5 and 6 of R455 for a kind: the state with the item's marks placed and what is staged beside it, or the status
with the state the search left. A PARENT of 4,096 or above names no slot: it is judged as a slot that is not usable (DESIGN
CHOICE, log 42: the manual states no check of its range). -/
def stageOwn (s : State) (n : Nat) (it : SpanItem) : Except (State × Status) (State × Staged) :=
  let t := it.target.toNat
  let p := it.payload
  let here {α : Type} (r : Except Status α) (f : α → State × Staged) : Except (State × Status) (State × Staged) :=
    match r with
    | .ok x => .ok (f x)
    | .error e => .error (s, e)
  let plain (r : Except Status State) : Except (State × Status) (State × Staged) := here r fun x => (x, .none)
  let eui := BitVec.ofNat 64 (leAt p 0 8)
  let pfx := BitVec.ofNat 128 (beNat (slice p 0 16))
  let put (k : KeySlot) : State × Staged := (s.setSlot t { k with pendingOf := some n }, .key t)
  match it.kind with
  | 0x01 => here (stageCellSet s (t / 2 ^ 24) (t / 65536 % 256) (t % 65536) (readCell p)) fun c => (s, .cell c)
  | 0x02 => match stageCellDel s (t / 2 ^ 24) (t / 65536 % 256) (t % 65536) with
    | some e => .error (s, e)
    | none => .ok (s, .none)
  | 0x03 => here (stageGateList s (t / 256) (t % 256) (s.readWin (leAt p 0 4) (leAt p 4 4)) (leAt p 4 4))
      fun g => (s, .gateList g)
  | 0x10 => (stageEmAdd s n eui (BitVec.ofNat 64 (leAt p 8 8))).map fun x => (x, .none)
  | 0x11 => plain (stageEmDel s n eui)
  | 0x12 => here (stageRehash s (s.readWin (leAt p 8 4) 5308416) (BitVec.ofNat 32 (leAt p 0 4)) (BitVec.ofNat 32 (leAt p 4 4)))
      fun m => (s, .rehash m (BitVec.ofNat 32 (leAt p 0 4)) (BitVec.ofNat 32 (leAt p 4 4)))
  | 0x13 => plain (stageLpmAdd s n pfx (leAt p 16 1) (BitVec.ofNat 32 (leAt p 20 4)))
  | 0x14 => plain (stageLpmDel s n pfx (leAt p 16 1))
  | 0x15 => plain (stageSeenAdd s n eui (leAt p 8 4) (leAt p 12 2))
  | 0x16 => plain (stageSeenDel s n eui (leAt p 8 4))
  | 0x20 =>
    let attr := BitVec.ofNat 8 (leAt p 4 1)
    here (keyLoad s t attr (BitVec.ofNat 8 (leAt p 5 1)) (leAt p 6 2) (s.readWin (leAt p 0 4) (blobSize attr))) put
  | 0x21 => here (keyDerive s t (BitVec.ofNat 8 (leAt p 4 1)) (BitVec.ofNat 8 (leAt p 5 1)) (leAt p 0 2) (leAt p 2 2)
      (slice p 8 16)) put
  | 0x22 => if (s.slot t).valid then .ok (s, .none) else .error (s, .unsupported)
  | 0x30 => here (stagePolicer p) fun x => (s, .policer x)
  | 0x31 => here (stageQueueSet s t p) fun x => (s, x)
  | 0x40 => here (stageCal s (t / 65536) (t % 512) p) fun e => (s, .calEntry e)
  | _ => here (stageSection s t (s.readWin (leAt p 0 4) (leAt p 4 4))) fun x => (s, .section_ x.1 x.2)

/-- The PARENT slot a KEY_LOAD or KEY_DERIVE records (R80). -/
def SpanItem.parentSlot (it : SpanItem) : Option Nat :=
  match it.kind with
  | 0x20 => some (leAt it.payload 6 2)
  | 0x21 => some (leAt it.payload 0 2)
  | _ => none

/-- An item as its 32 octets hold it (Table 04-3). -/
def readItem (bs : List Byte) : SpanItem :=
  let it : SpanItem := { kind := leAt bs 0 1, flags := BitVec.ofNat 8 (leAt bs 1 1), target := BitVec.ofNat 32 (leAt bs 4 4),
                         payload := slice bs 8 24, staged := .none }
  { it with parent := it.parentSlot, copyBytes := it.copies }

/-- Stage one item into span `n` (R71, R455), or the status it fails with and the state its search left. -/
def stageItem (s : State) (n : Nat) (bs : List Byte) : Except (State × Status) State :=
  let it := readItem bs
  let x := s.span n
  if !headOk s it (leAt bs 2 2) then .error (s, .unsupported)
  else if it.isKey && !s.key.acceptsItems then .error (s, .state)
  else if !areasOk s it then .error (s, .length)
  else if overlapsStaged s n it then .error (s, .conflict)
  else if (it.kind = 0x12 && x.items.length ≠ 0) || x.items.any (fun o => o.kind = 0x12) then .error (s, .unsupported)
  else match stageOwn s n it with
    | .error (s1, e) => if e = .noRoom ∧ !s.itemFits n it.copyBytes then .error (s, .noRoom) else .error (s1, e)
    | .ok (s1, st) =>
      if !s.itemFits n it.copyBytes then .error (s, .noRoom)
      else
        let it1 := { it with
          staged := st, ver := s.version it.obj,
          parentVer := match it.parent with
            | some q => s.version ⟨.key, q⟩
            | none => 0 }
        .ok (s1.setSpan n { s1.span n with state := .staging, items := x.items ++ [it1] })

/-- Stage items in order, stopping at the first that fails: the state, how many were staged, and its status. -/
def stageAll (s : State) (n : Nat) (l : List (List Byte)) (done : Nat) : State × Nat × Option Status :=
  match l with
  | [] => (s, done, none)
  | bs :: r => match stageItem s n bs with
    | .ok s1 => stageAll s1 n r (done + 1)
    | .error (s1, e) => ((if (readItem bs).isKey then s1.countKeyFail e else s1), done, some e)

/-! ### Commands -/

/-- What every SPAN command but SPAN_OPEN shares: its states, a span of the host, and bytes 5 on that are 0 (R67, R69).
`b4` is what bytes 4 to 7 of the completion of a refused command hold. -/
def State.spanCommand (s : State) (d : Desc) (states : List SysState) (used : List Nat) (k : State → Nat → State)
    (b4 : Word := 0) : State :=
  if !s.inStates states then s.rejectState d b4
  else if 12 ≤ d.byte 4 ∨ !d.unlistedZero used then s.complete d .unsupported b4
  else k s (d.byte 4)

/-- SPAN_OPEN (R70). DESIGN CHOICE, log 42: of several of its checks that fail, reserved values come first, then a span that is not
free, then RESULT_OFFSET, then the want of a free span. -/
def State.spanOpen (s : State) (d : Desc) : State :=
  let b := d.byte 4
  let o := (d.word 2).toNat
  let pick := if b = 0xFF then (List.range 12).find? fun n => (s.span n).free else some b
  if !s.inStates stSAY then s.rejectState d
  else if (12 ≤ b ∧ b ≠ 0xFF) ∨ !d.unlistedZero [8, 9, 10, 11] then s.complete d .unsupported
  else if b ≠ 0xFF ∧ !(s.span b).free then s.rejectState d
  else if o % 8 ≠ 0 ∨ !s.inWindow o 65536 then s.complete d .length
  else match pick with
    | none => s.complete d .noRoom
    | some n => (s.setSpan n { state := .open_, clean := true, vis := false, resultOffset := o, openTag := d.tag,
                               lastStatus := (s.span n).lastStatus, lastFirstBad := (s.span n).lastFirstBad }).complete d .ok
                  (b4 := pw n)

/-- SPAN_STAGE (R71, R72). -/
def State.spanStage (s : State) (d : Desc) : State :=
  s.spanCommand d stSAY [8, 9, 10, 11, 12, 13] (b4 := 0xFFFF0000) fun s n =>
    let o := (d.word 2).toNat
    let c := d.half 12
    if (s.span n).state ≠ .open_ ∧ (s.span n).state ≠ .staging then s.rejectState d 0xFFFF0000
    else if o % 32 ≠ 0 ∨ c = 0 ∨ 8192 < c ∨ !s.inWindow o (32 * c) then s.complete d .length (b4 := 0xFFFF0000)
    else match stageAll s n ((List.range c).map fun i => s.readWin (o + 32 * i) 32) 0 with
      | (s1, k, none) => s1.complete d .ok (b4 := fld k 0 ||| fld 0xFFFF 16)
      | (s1, k, some e) => s1.complete d e (b4 := fld k 0 ||| fld k 16)

/-- The span holds an epoch-bound item (R84). -/
def Span.epochBound (s : State) (x : Span) : Bool :=
  x.items.any fun it => (it.isKey && s.keyPart (it.target.toNat % 4096) = .domain) || (it.kind = 0x03 && bit it.flags 0)

/-- The first epoch boundary at or after a tick. -/
def epochAt (t : Nat) : Nat := (t + 65535) / 65536 * 65536 % 2 ^ 48

/-- Armed spans other than `n` whose target is `t`. -/
def State.armedFor (s : State) (n t : Nat) : Nat :=
  ((List.range 16).filter fun m => m != n && (s.span m).state = .armed && (s.span m).target.toNat = t).length

/-- The tick to which ALIGN_FORWARD moves span `n` (R85). -/
def State.forwardTarget (s : State) (n : Nat) (epoch : Bool) : Nat :=
  let cand (k : Nat) := if epoch then (epochAt (s.tick + 1) + 65536 * k) % 2 ^ 48 else (s.tick + 1 + k) % 2 ^ 48
  match (List.range 16).find? fun k => decide (s.armedFor n (cand k) < 4) with
  | some k => cand k
  | none => cand 16

/-- Where a span that leaves OPEN, STAGING or ARMED reports, with its statuses (R87). -/
def State.reportSpan (s : State) (n : Nat) (st : Status) (item : SpanItem → Status × Nat) (tick : Nat) : State :=
  let x := s.span n
  { s with spanc := { s.spanc with outcomes := s.spanc.outcomes ++
      [{ span := n, resultOffset := x.resultOffset, tag := x.openTag, armCmd := x.armCmd, status := st,
         results := x.items.map item, tick := BitVec.ofNat 48 tick }] } }

/-- A span aborts: its outcome is to be written and its cleanup is due (R87, R88). -/
def State.abortSpan (s : State) (n : Nat) (st : Status) (item : SpanItem → Status × Nat) (tick : Nat) : State :=
  let s1 := s.reportSpan n st item tick
  s1.setSpan n { s1.span n with state := .aborted, clean := false, decided := false, armCmd := none,
                                target := BitVec.ofNat 48 tick }

/-- The tick a span was decided in, 0 when it never reached a window (Table 04-7). -/
def Span.decidedIn (x : Span) : Nat := if x.decided then x.target.toNat else 0

/-- Abort every span that holds items with one status (R61, R89). -/
def State.abortSpans (s : State) (st : Status) : State :=
  (List.range 16).foldl (fun s n => if (s.span n).keeps then s.abortSpan n st (fun _ => (st, 0)) (s.span n).decidedIn else s) s

/-- Entry to MAINTENANCE in a commit window: no armed span commits, and all stay armed (R89). -/
def State.undecideSpans (s : State) : State :=
  { s with spanc := { s.spanc with spans := s.spanc.spans.map fun x => { x with decided := false, starts := [] } } }

/-- SPAN_ARM (R74, R84, R85). -/
def State.spanArm (s : State) (d : Desc) : State :=
  s.spanCommand d stSAY [8, 9, 10, 11, 12, 13, 14] fun s n =>
    let x := s.span n
    let align := d.byte 14 = 1
    let t0 := (d.word 2).toNat + 2 ^ 32 * d.half 12
    let epoch := Span.epochBound s x
    let t := if epoch && align then epochAt t0 else t0
    if 1 < d.byte 14 then s.complete d .unsupported
    else match x.state with
      | .open_ => s.complete d .length
      | .staging =>
        if epoch && !align && t0 % 65536 ≠ 0 then s.complete d .unsupported
        else if liesAhead t s.tick then
          if 2 ^ 32 < tickAhead t s.tick then s.complete d .unsupported
          else s.setSpan n { x with state := .armed, armCmd := some d, target := BitVec.ofNat 48 t, alignForward := align }
        else if align then
          s.setSpan n { x with state := .armed, armCmd := some d, alignForward := true,
                               target := BitVec.ofNat 48 (s.forwardTarget n epoch) }
        else (s.setSpan n { x with armCmd := some d }).abortSpan n .stale (fun _ => (.stale, 0)) 0
      | _ => s.rejectState d

/-- SPAN_ABORT (R75). -/
def State.spanAbort (s : State) (d : Desc) : State :=
  s.spanCommand d stSAYM [] fun s n =>
    if (s.span n).keeps then (s.abortSpan n .aborted (fun _ => (.aborted, 0)) (s.span n).decidedIn).complete d .ok
    else s.rejectState d

/-! ### The commit window -/

/-- The start of a gate list committed at tick `c` (R86): none when it has passed. -/
def gateStart (k l s c : Nat) (align : Bool) : Option Nat :=
  let a0 := ceilDiv c k
  if a0 ≤ s then some s
  else if align then some (a0 + (s + l * a0 - a0) % l) else none

/-- The starts of a span's gate lists, or the index of the first item whose start has passed. -/
def State.spanStarts (s : State) (x : Span) (l : List SpanItem) (i : Nat) : Except Nat (List (Nat × Nat)) :=
  match l with
  | [] => .ok []
  | it :: r => match it.staged with
    | .gateList g =>
      match gateStart (s.tp.k (it.target.toNat / 256)) g.sfLen (leAt it.payload 8 5) s.tick x.alignForward with
      | none => .error i
      | some a => (s.spanStarts x r (i + 1)).map fun t => (i, a) :: t
    | _ => s.spanStarts x r (i + 1)

/-- A status and DETAIL of an item of a span that aborts for a conflict (Table 04-6). -/
def conflictResult (it : SpanItem) : Status × Nat :=
  match it.conflict with
  | some (cause, other) => (.conflict, cause * 2 ^ 40 + if cause = 4 then other else 0)
  | none => (.aborted, 0)

/-- Slots whose PARENT chain a committing span's KEY_INVAL items reach. -/
def State.invalReach (s : State) (x : Span) : List Nat :=
  (x.items.filter fun it => it.kind = 0x22).flatMap fun it => s.familyOf (it.target.toNat % 4096)

/-- A decided span sets the flags of the later spans of the window that recorded what its commit will change (R81, causes 4
and 5). -/
def State.markRivals (s : State) (n : Nat) : State :=
  let x := s.span n
  let dead := s.invalReach x
  let later (m : Nat) : Bool := decide (n < m) && (s.span m).state = .armed && (s.span m).target = x.target
  let s1 := s.markItems later 4 n fun it =>
    (it.kind = 0x03 || it.kind = 0x50) && x.items.any fun o => o.kind = it.kind && o.obj = it.obj
  s1.markItems later 5 n fun it => match it.parent with
    | some p => dead.contains p
    | none => false

/-- Decide one span in its turn (R81, R86). -/
def State.decideSpan (s : State) (n : Nat) : State :=
  let x := s.span n
  if x.conflicted then s.abortSpan n .conflict conflictResult s.tick
  else match s.spanStarts x x.items 0 with
    | .error i =>
      let bad := x.items.getD i { kind := 0, flags := 0, target := 0, payload := [], staged := .none }
      s.abortSpan n .stale (fun it => if it = bad then (.stale, 0) else (.aborted, 0)) s.tick
    | .ok l => (s.setSpan n { x with decided := true, starts := l }).markRivals n

/-- A span whose turn does not come (R81, index 0 of Table 02-2). -/
def State.lateSpan (s : State) (n : Nat) : State :=
  (s.abortSpan n .late (fun _ => (.late, 0)) s.tick).bump16 (Reg.TIME_LATE 0)

/-- An armed span whose target has passed meets a commit window (R85). -/
def State.passedSpan (s : State) (n : Nat) : State :=
  let x := s.span n
  if x.alignForward then
    s.setSpan n { x with target := BitVec.ofNat 48 (s.forwardTarget n (Span.epochBound s x)) }
  else s.abortSpan n .stale (fun _ => (.stale, 0)) s.tick

/-- The decisions of the commit window of this tick (R81, R85), in STRUCTURED, ACTIVE and STANDBY. -/
def State.decideSpans (s : State) : State :=
  if !s.inStates stSAY then s
  else
    let armed := (List.range 16).filter fun n => (s.span n).state = .armed && !(s.span n).decided
    let due := armed.filter fun n => (s.span n).target.toNat = s.tick
    let passed := armed.filter fun n => (s.span n).target.toNat ≠ s.tick && !liesAhead (s.span n).target.toNat s.tick
    let s1 := passed.foldl (fun s n => s.passedSpan n) s
    let s2 := (due.take 4).foldl (fun s n => s.decideSpan n) s1
    (due.drop 4).foldl (fun s n => s.lateSpan n) s2

/-- SPAN_VIS. -/
def State.spanVisWord (s : State) : Word :=
  (List.range 16).foldl (fun w n => if (s.span n).vis then w ||| fld 1 n else w) 0

/-- Hold the span as committed: its bit is set and its outcome is to be written (R82, R87). -/
def State.showSpan (s : State) (n : Nat) : State :=
  let x := s.span n
  let s1 := s.reportSpan n .ok (fun _ => (.ok, 0)) s.tick
  let fill (o : SpanOutcome) : SpanOutcome :=
    if o.span = n && o.status = .ok then
      { o with results := (List.range x.items.length).map fun i =>
          (.ok, match x.starts.find? fun p => p.1 = i with
            | some p => p.2
            | none => 0) }
    else o
  { s1 with spanc := { s1.spanc with outcomes := s1.spanc.outcomes.map fill } }.setSpan n
    { x with state := .committed, clean := false, decided := false, vis := true, armCmd := none,
             target := BitVec.ofNat 48 s.tick }

/-- A policer that colours every packet GREEN (R282). -/
def Policer.unlimited (x : Policer) : Bool := x.cir = 0xFFFFFFFF && x.pir = 0xFFFFFFFF

/-- The buckets after the credit of every whole microsecond since they were last brought up to date (R282). -/
def Policer.fill (x : Policer) (now : Nat) : Policer :=
  let us := (now - x.at_) / 1000
  { x with tc := min (x.cbs.toNat * 1000000) (x.tc + us * x.cir.toNat),
           tp := min (x.pbs.toNat * 1000000) (x.tp + us * x.pir.toNat),
           at_ := x.at_ + us * 1000 }

/-- Note the committed deficit CBS − Tc of a policer that is not unlimited, in whole bytes of Tc as TOL_TC shows it
(R281). -/
def Policer.noteDeficit (x : Policer) : Policer :=
  if x.unlimited then x else { x with hwmDepth := max x.hwmDepth (x.cbs.toNat - x.tc / 1000000) }

/-- R284 at commit: a policer that was unlimited starts full, any other keeps its buckets, credited to now, within its new
bursts; the deficit left is noted (R281). -/
def commitPolicer (old0 new : Policer) (now : Nat) : Policer :=
  let old := old0.fill now
  let fresh := old.cir = 0xFFFFFFFF
  let tc := if fresh then new.cbs.toNat * 1000000 else min old.tc (new.cbs.toNat * 1000000)
  let tp := if fresh then new.pbs.toNat * 1000000 else min old.tp (new.pbs.toNat * 1000000)
  Policer.noteDeficit { new with tc := tc, tp := tp, at_ := now, hwmDepth := old.hwmDepth, hwmSoj := old.hwmSoj }

/-- A replacement section takes force (R65, R186). -/
def State.commitSection (s : State) (sec : Section) : State :=
  let t := s.truss.truss
  let all := t.sections.map fun x => if x.type = sec.type then sec else x
  let s1 := { s with truss := { s.truss with truss := { t with sections := all, params := readParams all } } }
  let s2 := (s1.mrExtend 2 (Config.sha256 sec.raw)).bump16 Reg.TRUSS_SEC_COMMITS
  let s3 := post s2 .notice 0x02 none 0 [pw sec.type, sec.serial]
  if sec.type = 5 || sec.type = 6 then
    let n := s3.madeInactive s.tp
    post { s3 with sch := { s3.sch with inactive := n } } .warning 0x09 none 0 [pw n]
  else s3

/-- One item of span `n`, its `i`-th, takes effect (R82, R83); `endJob` ends a queued cipher job. -/
def State.commitItem (endJob : State → CipJob → Status → State) (s : State) (n i : Nat) (it : SpanItem) : State :=
  let t := it.target.toNat
  let start := match (s.span n).starts.find? fun p => p.1 = i with
    | some p => p.2
    | none => 0
  let chg (s : State) : State := s.changed it.obj (some n) 4 n
  match it.kind, it.staged with
  | 0x22, _ =>
    let dead := s.familyOf t
    let s1 := dead.foldl (fun s k => s.changed ⟨.key, k⟩ (some n) 4 n) (s.invalidate dead)
    let s2 := s1.markItems (fun m => m != n) 5 n fun it => match it.parent with
      | some p => dead.contains p
      | none => false
    let gone := s2.cip.queue.filter fun j => (dead.contains j.slot && j.mode.unit = 0) || match j.ackSlot with
      | some a => dead.contains a
      | none => false
    gone.foldl (fun s j => endJob { s with cip := { s.cip with queue := s.cip.queue.filter fun k => k != j } } j .keyRevoked) s2
  | 0x02, _ => chg (s.commitCell (t / 2 ^ 24) (t / 65536 % 256) (t % 65536) fun c => { c with options := 0 })
  | _, .cell c => chg (s.commitCell (t / 2 ^ 24) (t / 65536 % 256) (t % 65536) fun _ => c)
  | _, .gateList g => chg (s.commitGateList (t / 256) (t % 256) g start)
  | _, .rehash img a b => chg (s.startMigration img a b)
  | _, .policer p => chg { s with tol := { s.tol with
      policers := aset {} s.tol.policers t (commitPolicer (aget {} s.tol.policers t) p s.time.elapsed) } }
  | _, .queue quota ovf ring f => chg (s.queueSet t quota ovf ring f)
  | _, .calEntry e => chg (s.setCal (t / 65536) (t % 512) { e with host := true })
  | _, .section_ sec _ => chg (s.commitSection sec)
  | _, _ => chg s

/-- The spans decided in this window take effect together (R82). Visibility bits first, then each item in order. -/
def State.commitSpans (endJob : State → CipJob → Status → State) (s : State) : State :=
  let l := (List.range 16).filter fun n => (s.span n).decided
  let s1 := l.foldl (fun s n => s.showSpan n) s
  l.foldl (fun s n =>
    let items := (s.span n).items
    (List.range items.length).foldl (fun s i => match items[i]? with
      | some it => s.commitItem endJob n i it
      | none => s) s) s1

/-! ### Outcome and cleanup -/

/-- The class of SPAN_COUNT an outcome counts in. -/
def outcomeClass (st : Status) : Nat :=
  match st with
  | .ok => 0 | .conflict => 1 | .stale => 2 | .late => 3 | _ => 4

/-- FIRST_BAD (Table 04-7). -/
def SpanOutcome.firstBad (o : SpanOutcome) : Nat :=
  match (List.range o.results.length).find? fun i => match o.results[i]? with
    | some (st, _) => st != o.status && st != .aborted
    | none => false with
  | some i => i
  | none => 0xFFFF

/-- Write the results and the completion of span `n`'s outcome (R87, Tables 04-6 and 04-7). -/
def State.spanOutcome (s : State) (n : Nat) : State :=
  match s.spanc.outcomes.find? fun o => o.span = n with
  | none => s
  | some o =>
    let s1 := { s with spanc := { s.spanc with outcomes := dropFirst s.spanc.outcomes o } }
    let s2 := s1.writeWin o.resultOffset (o.results.flatMap fun r => leBytes (r.1.code + r.2 * 65536) 8)
    let fb := o.firstBad
    let s3 := (s2.setSpan n { s2.span n with lastStatus := o.status, lastFirstBad := BitVec.ofNat 16 fb }).bump16
      (Reg.SPAN_COUNT (outcomeClass o.status))
    let b4 := fld n 0 ||| fld (o.tick.toNat % 65536) 16
    let b8 := pw (o.tick.toNat / 65536)
    let b12 := fld (o.results.length % 65536) 0 ||| fld fb 16
    match o.armCmd with
    | some d => s3.complete d o.status b4 b8 b12
    | none => s3.hold { tag := o.tag, status := o.status, kind := .outcome, b4 := b4, b8 := b8, b12 := b12 }

/-- Settle the marks of span `n` in a table: keep, make plain or remove each entry. -/
def settle {α : Type} (mark : α → Mark) (mine : α → Bool) (plain : α → α) (commit : Bool) (l : List (Nat × α)) :
    List (Nat × α) :=
  l.filterMap fun e =>
    if !mine e.2 then some e
    else match mark e.2 with
      | .plain => some e
      | .pendingAdd => if commit then some (e.1, plain e.2) else none
      | .pendingDelete => if commit then none else some (e.1, plain e.2)

/-- Cleanup of span `n` (R88). -/
def State.spanCleanup (s : State) (n : Nat) : State :=
  let x := s.span n
  if x.clean then s
  else
    let commit := x.state = .committed
    let em := settle (·.mark) (fun e => e.span.toNat = n) (fun e => { e with mark := .plain, span := 0 }) commit s.tbl.em
    let lpm := settle (·.mark) (fun e => e.span.toNat = n) (fun e => { e with mark := .plain, span := 0 }) commit s.tbl.lpm
    let t := { s.tbl.withLpm lpm with
      em := em, drainDue := s.tbl.drainDue || em.length != s.tbl.em.length,
      seen := settle (·.mark) (fun e => e.span.toNat = n) (fun e => { e with mark := .plain, span := 0 }) commit s.tbl.seen }
    let keep (k : KeySlot) : KeySlot :=
      if k.pendingOf = some n then
        if commit then { k with pendingOf := none }
        else { invalSeen := k.invalSeen, invalGen := k.invalGen }
      else k
    let slots := (s.key.slots.map fun e => (e.1, keep e.2)).filter fun e => e.2 != {}
    { s with tbl := t, key := { s.key with slots := slots } }.setSpan n
      { x with clean := true, vis := false, items := [], starts := [], alignForward := false }

end Sys2Proof.Machine
end

