-- ==== Sys2Proof/Machine/Time.lean ====
section
/-! DEFINITION. The time base: sources, lock, steps, holdover and its guard, and the PPS output (R25 to R49). -/

namespace Sys2Proof.Machine

/-- Change the time base. -/
def State.setTime (s : State) (f : TimeSt → TimeSt) : State := { s with time := f s.time }

/-- TIME_ROLE of the truss in force: FREE while none is. -/
def State.role (s : State) : Nat := if s.truss.loaded then s.tp.timeRole else 0

/-- TICKNO by R26; 0 before a truss is in force. -/
def tickOf (dtime periodUs : Nat) : Nat := if periodUs = 0 then 0 else dtime / (periodUs * 1000) % 2 ^ 48

/-- The rate correction applied to DTIME, in 10^-12: that of the sources and that of the crowd reference (TIME_FREQ_ADJ). -/
def State.freqCorrection (s : State) : Int := clampS (s.time.freqAdj + (s.reg Reg.CAL_CR_EST).toInt) 32

/-- Step DTIME (R42): TICKNO follows by R26, a step onto a whole tick is an edge, and a NOTICE record holds both. An earlier
measurement no longer tells the phase error (DEDUCED, log 80). -/
def State.stepTime (s : State) (new : Nat) : State :=
  let old := s.now
  let s1 := s.setTime fun t => { t with
    dtime := BitVec.ofNat 64 new, tickno := BitVec.ofNat 48 (tickOf (new % 2 ^ 64) s.tp.tickPeriod),
    edgeDue := decide (new % 2 ^ 64 % (max 1 s.tickNs) = 0), lastMeasure := none }
  post s1 .notice 0x01 none 0 (pw2 old ++ pw2 (new % 2 ^ 64))

/-- HOLDOVER of SYS_STATUS: valid in ACTIVE and STANDBY (R44). -/
def State.holdoverFlag (s : State) : Bool := s.inStates [.active, .standby] && s.time.holdover.isSome

/-- One microsecond in the units of EXTRA_GUARD, 10⁻¹¹ µs: HOLDOVER_PPM counts 0.01 ppm of a time in ns. -/
def guardUnit : Nat := 100000000000

/-- EXTRA_GUARD in force, in 10⁻¹¹ µs (R45). -/
def State.extraGuardFine (s : State) : Nat :=
  match s.time.holdover with
  | some e => min (s.tp.holdoverGuardMax * guardUnit) (s.tp.holdoverPpm * (s.now - e.toNat))
  | none => s.time.extraGuard

/-- EXTRA_GUARD in force in whole µs, as TIME_HOLD shows it. -/
def State.extraGuard (s : State) : Nat := s.extraGuardFine / guardUnit

/-- R44 asks for HOLDOVER: a ROOT has neither source, or a CHILD has lost its parent's beacons under Table 02-3. -/
def State.sourcesLost (s : State) : Bool :=
  (s.role = 1 && !s.time.ppsOk && !s.time.ptpOk) || (s.role = 2 && decide (3 ≤ s.time.beaconMisses))

/-- Set HOLDOVER when R44 asks for it: a WARNING record and cause 10. -/
def State.holdoverCheck (s : State) : State :=
  if s.inStates [.active, .standby] && s.time.holdover.isNone && s.sourcesLost then
    (post (s.setTime fun t => { t with holdover := some t.dtime }) .warning 0x01 none 0 []).raise 10
  else s

/-- Clear HOLDOVER on lock (R44): an INFO record and cause 10. EXTRA_GUARD stays until the next tick edge (R45). -/
def State.holdoverClear (s : State) : State :=
  if s.time.holdover.isSome && s.inStates [.active, .standby] then
    (post (s.setTime fun t => { t with extraGuard := s.extraGuardFine, holdover := none }) .info 0x01 none 0 []).raise 10
  else s

/-- What entry to ACTIVE or STANDBY does to a holdover: one held through MAINTENANCE clears when the device has become
locked, and a new one is set when no source is present (R44). -/
def State.holdoverAtEntry (s : State) : State := (if s.time.locked then s.holdoverClear else s).holdoverCheck

/-- No source is selected any more: there is no phase error, and no lock (R41). -/
def TimeSt.deselected (t : TimeSt) : TimeSt := { t with selected := .none, phaseErr := 0, lockRun := 0, locked := false }

/-- Lock is lost, or counted towards, at a tick edge (R41). -/
def State.lockTick (s : State) : State :=
  s.setTime fun t =>
    if t.selected ≠ .none ∧ -1000 ≤ t.phaseErr ∧ t.phaseErr ≤ 1000 then { t with lockRun := min 16 (t.lockRun + 1) }
    else { t with lockRun := 0, locked := false }

/-- EXTRA_GUARD returns to 0 at the tick edge after HOLDOVER clears (R45). -/
def State.guardTick (s : State) : State :=
  if s.time.holdover.isNone then s.setTime fun t => { t with extraGuard := 0, capped := false } else s

/-- A rate correction limited to TIME_SLEW_MAX (R43), in 10^-12. -/
def clampRate (slewMax : Nat) (adj : Int) : Int :=
  let m : Int := (slewMax * 1000000 : Nat)
  max (-m) (min m adj)

/-- A measurement of the selected source: source time minus DTIME in ns, and the rate correction the servo then asks
for. The first acquisition in STRUCTURED or MAINTENANCE steps DTIME (R42): one flag serves every source, so a second source
acquired after it does not step the phase again (DESIGN CHOICE, log 77). In ACTIVE and STANDBY an error within 1 ms is slewed
and one beyond it writes an ERROR record (R43); in ALARM an error within 1 ms is slewed as R27 has it, and one beyond it is
left (DESIGN CHOICE, log 77: R43 names ACTIVE and STANDBY only). -/
def State.measure (s : State) (err adj : Int) : State :=
  let far := decide (err < -1000000 ∨ 1000000 < err)
  let s1 := s.setTime fun t => { t with
    phaseErr := clampS err 32, lastMeasure := some t.dtime, freqAdj := clampS (clampRate s.tp.slewMax adj) 32 }
  if s.inStates [.structured, .maintenance] && !s.time.acquired then
    (s1.stepTime ((s1.now : Int) + err).toNat).setTime fun t => { t with acquired := true }
  else if s.inStates [.active, .standby, .alarm] && far then
    let s2 := s1.setTime fun t => { t with freqAdj := s.time.freqAdj }
    if s.sys.state = .alarm then s2 else post s2 .error 0x01 none 0 [pw (unsigned (clampS err 32) 32)]
  else s1.setTime fun t => { t with acquired := true }

/-- Entry to MAINTENANCE steps DTIME by a phase error beyond 1 ms measured less than 2 s ago (R43). The error is carried
forward by subtracting what the frequency correction has made up since (DESIGN CHOICE, log 77: the direction is not stated).
The first source acquired after the entry steps it too (R42); a source that is still present has been acquired before. -/
def State.maintenanceTime (s : State) : State :=
  let s0 := s.setTime fun t => { t with acquired := decide (t.selected ≠ .none), ptpAcquired := t.ptpOk }
  match s.time.lastMeasure with
  | some m =>
    let dt := s.now - m.toNat
    if s.time.selected ≠ .none ∧ dt < 2000000000 ∧ (s.time.phaseErr < -1000000 ∨ 1000000 < s.time.phaseErr) then
      s0.stepTime ((s.now : Int) + s.time.phaseErr - s.freqCorrection * (dt : Int) / 1000000000000).toNat
    else s0
  | none => s0

/-- SYS_STATE is one in which the sources are measured: in ALARM too, where R27 has corrections change the rate (DESIGN
CHOICE, log 77). -/
def State.timed (s : State) : Bool := s.inStates [.structured, .active, .standby, .maintenance, .alarm]

/-- PPS_EDGE (R38): a rising edge of PPS_IN at DTIME `t`; `adj` is the rate the servo then asks for. -/
def State.ppsEdge (s0 : State) (t : U64) (adj : Int) : State :=
  let s := s0.at_ t
  if !s.timed || s.role ≠ 1 then s
  else
    let sec := (s.now + 500000000) / 1000000000 * 1000000000
    let err : Int := (sec : Int) - (s.now : Int)
    if s.time.locked && decide (err < -1000000 ∨ 1000000 < err) then
      s.setTime fun t => { t with ppsRejected := t.ppsRejected + 1 }
    else (s.setTime fun t => { t with ppsOk := true, selected := .pps, lastPps := t.elapsed }).measure err adj

/-- PPS_LOSS (R38, Table 02-3): two expected seconds have passed without an accepted edge. -/
def State.ppsLoss (s0 : State) (t : U64) : State :=
  let s := s0.at_ t
  if s.role ≠ 1 || !s.time.ppsOk || decide (s.time.elapsed < s.time.lastPps + 2000000000) then s
  else
    let s1 := s.setTime fun t => { t with ppsOk := false }
    (if s1.time.ptpOk then post (s1.setTime fun t => { t with selected := .ptp }) .notice 0x01 none 0 []
     else s1.setTime TimeSt.deselected).holdoverCheck

/-- PTP_LOSS (R44, Table 02-3): four Sync intervals have passed without an accepted Sync, the interval being that of the last
two (DEDUCED, log 80). -/
def State.ptpLoss (s0 : State) (t : U64) : State :=
  let s := s0.at_ t
  if s.role ≠ 1 || !s.time.ptpOk || decide (s.time.elapsed < s.time.lastSync + 4 * s.time.syncEvery) then s
  else
    let s1 := s.setTime fun t => { t with ptpOk := false }
    (if s1.time.selected = .ptp then s1.setTime TimeSt.deselected else s1).holdoverCheck

/-- A Sync message accepted by the servo: the master's time minus DTIME, and the rate it asks for (R37, R38). PPS_IN,
while present, is selected for phase; PTP then gives the whole seconds, by a step where it is first acquired after an entry
to STRUCTURED or MAINTENANCE (R42; DESIGN CHOICE, log 77: this acquisition is counted beside that of PPS_IN). -/
def State.ptpSync (s : State) (err adj : Int) : State :=
  if !s.timed || s.role ≠ 1 then s
  else
    let first := s.inStates [.structured, .maintenance] && !s.time.ptpAcquired
    let s1 := s.setTime fun t => { t with
      ptpOk := true, ptpAcquired := true, lastSync := t.elapsed, syncEvery := if t.ptpOk then t.elapsed - t.lastSync else 0 }
    if s1.time.ppsOk then
      if first && decide (err < -500000000 ∨ 500000000 < err) then
        s1.stepTime ((s1.now : Int) + (err + 500000000) / 1000000000 * 1000000000).toNat
      else s1
    else (s1.setTime fun t => { t with selected := .ptp }).measure err adj

/-- ACQUISITION_SEARCH_TIMEOUT (R40): 60 s without a parent beacon in STRUCTURED. -/
def State.searchTimeout (s0 : State) (t : U64) : State :=
  let s := s0.at_ t
  match s.time.searching with
  | some b =>
    if s.sys.state = .structured && s.role = 2 && decide (b + 60000000000 ≤ s.time.elapsed) then
      post (s.setTime fun x => { x with searching := some x.elapsed }) .warning 0x01 none 0 []
    else s
  | none => s

/-- A new TIME_ROLE has come into force by a reload: no source of the old role is one of the new, and FREE has no holdover
(R37, R44). -/
def State.newRole (s : State) : State :=
  s.setTime fun t =>
    let u := { t.deselected with
      ppsOk := false, ptpOk := false, beaconOk := false, acquired := false, ptpAcquired := false, lastMeasure := none,
      beaconMisses := 0 }
    if s.role = 0 then { u with freqAdj := 0, holdover := none, extraGuard := 0, capped := false } else u

/-- LOCK_ACHIEVED (R41): 16 consecutive ticks within 1 µs. -/
def State.lockAchieved (s : State) : State :=
  if 16 ≤ s.time.lockRun then (s.setTime fun t => { t with locked := true }).holdoverClear else s

/-- EXTRA_GUARD_CAPPED (R45): CAPPED sets with one WARNING record. -/
def State.guardCapped (s0 : State) (t : U64) : State :=
  let s := s0.at_ t
  if s.time.holdover.isSome && !s.time.capped && decide (s.tp.holdoverGuardMax ≤ s.extraGuard) then
    post (s.setTime fun x => { x with capped := true }) .warning 0x01 none 0 []
  else s

/-- TIME_SET (R42, Table 20-4). -/
def State.timeSet (s : State) (d : Desc) : State :=
  s.command d [.structured, .maintenance] fun s =>
    if !d.unlistedZero [8, 9, 10, 11, 12, 13, 14, 15] then s.complete d .unsupported
    else (s.stepTime ((d.word 2).toNat + 2 ^ 32 * (d.word 3).toNat)).complete d .ok

/-- PPS_OUT_PULSE (R48). -/
def State.ppsOut (s0 : State) (t : U64) : State :=
  let s := s0.at_ t
  let w := s.regFld Reg.TIME_PPS_CTRL 8 1
  if s.inStates [.structured, .active, .standby, .maintenance, .alarm] && s.now % 1000000000 = 0 &&
      bit (s.reg Reg.TIME_PPS_CTRL) 0 then
    s.emit (.ppsOut t (if w = 0 ∨ 200 < w then 100 else w))
  else s

/-- DTIME_SNAPSHOT (R49): a read of TIME_DTIME_LO latches the other three registers. -/
def State.dtimeSnapshot (s0 : State) (t : U64) : State :=
  let s := s0.at_ t
  (((s.setReg Reg.TIME_DTIME_LO (pw s.now)).setReg Reg.TIME_DTIME_HI (pw (s.now / 2 ^ 32))).setReg
    Reg.TIME_TICKNO_LO (pw s.tick)).setReg Reg.TIME_TICKNO_HI (pw (s.tick / 2 ^ 32))

end Sys2Proof.Machine
end

