-- ==== Sys2Proof/Machine/Report.lean ====
section
/-! DEFINITION. The attestation report and the dispatch of its signature (R357, R358). -/

namespace Sys2Proof.Machine

/-- The public attestation key, when it exists. -/
def State.attestPublic (s : State) : Option (List Byte) := s.key.attestKey.map Config.p256Public

/-- Octets 0x000 to 0x15F of a report (Table 16-6), taken now. -/
def State.attestReport (s : State) (nonce : List Byte) : List Byte :=
  let flags := b2n s.holdoverFlag + 2 * b2n (s.boot.bank = 1) + 4 * b2n (s.boot.loader = 1) +
    8 * b2n (s.par.state = .sealed) + 16 * b2n s.evr.auditGap
  leBytes 0x7A417454 4 ++ leBytes 1 2 ++
    [BitVec.ofNat 8 s.key.lc.code, BitVec.ofNat 8 s.sys.state.code] ++ leBytes 0x92645A0E 4 ++
    [0x20, BitVec.ofNat 8 flags, BitVec.ofNat 8 s.key.returns, 0] ++ leBytes s.key.uid.toNat 8 ++
    leBytes s.truss.truss.trussId.toNat 4 ++ leBytes s.truss.truss.domainId.toNat 2 ++
    [BitVec.ofNat 8 s.truss.truss.brId.toNat, 0] ++ leBytes s.now 8 ++ leBytes s.tick 6 ++ leBytes 0 2 ++
    leBytes s.boot.loaderVer.toNat 4 ++ leBytes s.boot.fwVer.toNat 4 ++
    slice (Config.sha256 (s.attestPublic.getD [])) 0 8 ++ slice nonce 0 32 ++
    (List.range 8).flatMap fun n => slice (s.boot.mr.getD n []) 0 32

/-- Queue the signature of the oldest request, when none is queued or running (R358). -/
def State.attestNext (s : State) : State :=
  let busy := (s.cip.queue.any fun j => j.owner = .attest) || s.boot.report.isSome
  if s.boot.attest = [] || busy then s
  else s.queueJob { id := 0, cls := .fwSec, owner := .attest, mode := .p256Sign }

/-- The snapshot: the dispatch of a signature. The P-256 unit signs with the attestation key it holds (R289). -/
def State.attestDispatch (s : State) (u : Nat) (j : CipJob) (aged : Bool) : State :=
  match s.boot.attest with
  | [] => s.startRun u j aged
  | r :: _ =>
    let rep := s.attestReport r.nonce
    let s1 := ({ s with boot := { s.boot with report := some rep } }).startRun u j aged
    s1.setUnit u { s1.unit u with
      run := some { job := { j with input := rep }, start := s.time.elapsed, key := s.key.attestKey.getD [] } }

end Sys2Proof.Machine
end

