-- ==== Sys2Proof/Machine/Contexts.lean ====
section
/-! DEFINITION. Node context lines: their octets, their check, and the commands that read, update and repair them (R19
to R21, R342, R343). -/

namespace Sys2Proof.Machine

/-- Octets 0x00 to 0x7B of a line (Table 01-8), reserved bits 0. -/
def Ctx.body (c : Ctx) : List Byte :=
  leBytes c.eui64.toNat 8 ++
  leBytes (b2n c.valid * 2 ^ 31 + b2n c.sleepy * 2 ^ 30 + b2n c.altValid * 2 ^ 29 + b2n c.blocked * 2 ^ 28 +
    c.bandPref.toNat * 2 ^ 26 + c.cluster.toNat * 2 ^ 18 + c.nidx.toNat) 4 ++
  leBytes c.shortAddr.toNat 2 ++ leBytes c.panId.toNat 2 ++ leBytes c.rxFc.toNat 4 ++ leBytes c.txFc.toNat 4 ++
  leBytes c.micTag.toNat 8 ++
  leBytes (c.ackSeq.toNat * 2 ^ 16 + c.ackFlags.toNat * 2 ^ 12 + c.ackTc.toNat) 4 ++
  leBytes c.cfo.toNat 4 ++ leBytes c.link.toNat 4 ++ leBytes c.altLink.toNat 4 ++
  leBytes (c.driftClass.toNat * 2 ^ 48 + c.resyncTick.toNat) 8 ++ leBytes c.baseGuard.toNat 4 ++
  leBytes (c.keyGen.toNat * 2 ^ 24 + c.decSlot.toNat * 2 ^ 12 + c.encSlot.toNat) 4 ++
  leBytes (c.queue.toNat * 2 ^ 12 + c.policer.toNat) 4 ++ leBytes (c.sfHandle.toNat * 2 ^ 16 + c.cellRef.toNat) 4 ++
  leBytes c.hopCount.toNat 4 ++ (c.route.take 8).flatMap (fun h => leBytes (h.toNat % 2 ^ 18) 3) ++
  leBytes c.rxFrames.toNat 2 ++ leBytes c.txFrames.toNat 2 ++ leBytes c.dupCount.toNat 2 ++ leBytes c.replayCount.toNat 2 ++
  leBytes c.noackCount.toNat 2 ++ leBytes c.lateCount.toNat 2 ++ leBytes c.lastHeard.toNat 8 ++ leBytes 0 4

/-- A line as its 128 octets. -/
def Ctx.bytes (c : Ctx) : List Byte := c.body ++ leBytes c.lineCrc.toNat 4

/-- Bits [hi:lo] of a number as a bit vector. -/
def cut (v hi lo n : Nat) : BitVec n := BitVec.ofNat n (v / 2 ^ lo % 2 ^ (hi + 1 - lo))

/-- Read a line of 128 octets. -/
def readCtx (bs : List Byte) : Ctx :=
  let w08 := leAt bs 0x08 4
  let w20 := leAt bs 0x20 4
  let w30 := leAt bs 0x30 8
  let w3c := leAt bs 0x3C 4
  let w40 := leAt bs 0x40 4
  let w44 := leAt bs 0x44 4
  { eui64 := BitVec.ofNat 64 (leAt bs 0 8), valid := w08 / 2 ^ 31 % 2 = 1, sleepy := w08 / 2 ^ 30 % 2 = 1,
    altValid := w08 / 2 ^ 29 % 2 = 1, blocked := w08 / 2 ^ 28 % 2 = 1, bandPref := cut w08 27 26 2,
    cluster := cut w08 25 18 8, nidx := cut w08 17 0 18, shortAddr := BitVec.ofNat 16 (leAt bs 0x0C 2),
    panId := BitVec.ofNat 16 (leAt bs 0x0E 2), rxFc := BitVec.ofNat 32 (leAt bs 0x10 4),
    txFc := BitVec.ofNat 32 (leAt bs 0x14 4), micTag := BitVec.ofNat 64 (leAt bs 0x18 8), ackSeq := cut w20 23 16 8,
    ackFlags := cut w20 15 12 4, ackTc := cut w20 11 0 12, cfo := BitVec.ofNat 24 (leAt bs 0x24 3),
    link := BitVec.ofNat 32 (leAt bs 0x28 4), altLink := BitVec.ofNat 32 (leAt bs 0x2C 4), driftClass := cut w30 55 48 8,
    resyncTick := cut w30 47 0 48, baseGuard := BitVec.ofNat 16 (leAt bs 0x38 2), keyGen := cut w3c 31 24 8,
    decSlot := cut w3c 23 12 12, encSlot := cut w3c 11 0 12, queue := cut w40 21 12 10, policer := cut w40 11 0 12,
    sfHandle := cut w44 23 16 8, cellRef := cut w44 15 0 16, hopCount := BitVec.ofNat 4 (leAt bs 0x48 1),
    route := (List.range 8).map fun i => BitVec.ofNat 24 (leAt bs (0x4C + 3 * i) 3 % 2 ^ 18),
    rxFrames := BitVec.ofNat 16 (leAt bs 0x64 2), txFrames := BitVec.ofNat 16 (leAt bs 0x66 2),
    dupCount := BitVec.ofNat 16 (leAt bs 0x68 2), replayCount := BitVec.ofNat 16 (leAt bs 0x6A 2),
    noackCount := BitVec.ofNat 16 (leAt bs 0x6C 2), lateCount := BitVec.ofNat 16 (leAt bs 0x6E 2),
    lastHeard := BitVec.ofNat 64 (leAt bs 0x70 8), lineCrc := BitVec.ofNat 32 (leAt bs 0x7C 4) }

/-- The CRC of a line at its memory-die address (R342). -/
def lineCrc (addr : Nat) (body : List Byte) : Word := crc 2 (leBytes addr 8 ++ leBytes 0 4 ++ body)

/-- Memory-die address of a node's line (Table 01-10). -/
def State.ctxAddr (s : State) (n : Nat) : Nat := s.tp.contexts.base + 128 * n

/-- The stored line of a node. -/
def State.line (s : State) (n : Nat) : CtxLine := aget {} s.ctxs n

/-- A line passes its check (R21, R342): it is blank, or its CRC matches. -/
def State.lineOk (s : State) (n : Nat) : Bool :=
  (s.line n).ctx = {} || (s.line n).ctx.lineCrc = lineCrc (s.ctxAddr n) (s.line n).ctx.body

/-- Write back a line with its CRC recomputed (R21). -/
def State.setCtx (s : State) (n : Nat) (c : Ctx) : State :=
  { s with ctxs := aset {} s.ctxs n { ctx := { c with lineCrc := lineCrc (s.ctxAddr n) c.body }, found := false } }

/-- Note a line as found failing (R21): one ERROR record. -/
def State.lineFound (s : State) (n : Nat) : State :=
  if (s.line n).found then s
  else post { s with ctxs := aset {} s.ctxs n { s.line n with found := true } } .error 0x0A (some .integrity) 0 [pw n]

/-- A line is usable (R21): it passes its check, and it has not been found failing since its last repair. -/
def State.lineUsable (s : State) (n : Nat) : Bool := s.lineOk n && !(s.line n).found

/-- Fetch a context (R21): none when the line is not usable, counted in MAC INTEGRITY. -/
def State.fetchCtx (s : State) (n : Nat) : State × Option Ctx :=
  if s.lineUsable n then (s, some (s.line n).ctx) else ((s.lineFound n).bump (Reg.MAC_CNT 10), none)

/-- Change a usable context in place. -/
def State.updCtx (s : State) (n : Nat) (f : Ctx → Ctx) : State :=
  if s.lineUsable n then s.setCtx n (f (s.line n).ctx) else s

/-- Host-owned bits of each word of a line (Table 01-8). -/
def hostMask (w : Nat) : Nat :=
  match w with
  | 0 | 1 => 0xFFFFFFFF
  | 2 => 0xDFFFFFFF
  | 3 => 0xFFFFFFFF
  | 13 => 0x00FF0000
  | 14 => 0x0000FFFF
  | 16 => 0x003FFFFF
  | 17 => 0x00FFFFFF
  | 18 => 0x0000000F
  | 19 | 20 | 21 | 22 | 23 | 24 => 0xFFFFFFFF
  | _ => 0

/-- A word with the masked bits taken from another. -/
def mixWord (old new mask : Word) : Word := (old &&& ~~~ mask) ||| (new &&& mask)

/-- A context line after a CTX_UPDATE (R20): the Host-owned bits of the masked words come from the image. -/
def applyUpdate (c : Ctx) (img : List Byte) (mask : Word) : Ctx :=
  readCtx ((List.range 32).flatMap fun w =>
    let old := BitVec.ofNat 32 (leAt c.bytes (4 * w) 4)
    let new := BitVec.ofNat 32 (leAt img (4 * w) 4)
    leBytes (if bit mask w then mixWord old new (BitVec.ofNat 32 (hostMask w)) else old).toNat 4)

/-- CTX_READ, CTX_UPDATE and CTX_REPAIR name a NIDX within the contexts partition (R427). -/
def State.ctxNidxOk (s : State) (n : Nat) : Bool := decide (n < 2 ^ 18 ∧ n < s.tp.contexts.size / 128)

/-- CTX_READ (R20, R21, R427): a line that is not usable is copied as stored, and its fetch ends INTEGRITY. -/
def State.ctxRead (s : State) (d : Desc) : State :=
  s.command d stSAYML fun s =>
    let n := (d.word 2).toNat
    let o := (d.word 3).toNat
    if !d.unlistedZero [8, 9, 10, 11, 12, 13, 14, 15] || !s.ctxNidxOk n then s.complete d .unsupported
    else if o % 4 ≠ 0 || !s.inWindow o 128 then s.complete d .length
    else
      match (s.writeWin o (s.line n).ctx.bytes).fetchCtx n with
      | (s1, some _) => s1.complete d .ok
      | (s1, none) => s1.complete d .integrity

/-- What CTX_UPDATE and its repair share: their argument checks. -/
def State.ctxArgs (s : State) (d : Desc) : Option Status :=
  let o := (d.word 4).toNat
  if !d.unlistedZero [8, 9, 10, 11, 12, 13, 14, 15, 16, 17, 18, 19] || !s.ctxNidxOk (d.word 2).toNat then some .unsupported
  else if o % 4 ≠ 0 || !s.inWindow o 128 then some .length
  else none

/-- Repair a failing line (R21): its finding, when this is the first; all of its octets from the image, a new CRC and a
NOTICE record. -/
def State.repairLine (s : State) (d : Desc) : State :=
  let n := (d.word 2).toNat
  let s1 := (s.lineFound n).setCtx n (readCtx (s.readWin (d.word 4).toNat 128))
  (post s1 .notice 0x0A none (d.opcode % 256) [pw n]).complete d .ok

/-- CTX_UPDATE and CTX_REPAIR, one command (R20, R21): a usable line is updated by the mask and never repaired, and on a
line that is not usable only the repair mask is taken. -/
def State.ctxUpdate (s : State) (d : Desc) : State :=
  s.command d stSAY fun s =>
    let n := (d.word 2).toNat
    let mask := d.word 3
    match s.ctxArgs d with
    | some e => s.complete d e
    | none =>
      if s.lineUsable n then
        if bit mask 31 then s.complete d .unsupported
        else (s.setCtx n (applyUpdate (s.line n).ctx (s.readWin (d.word 4).toNat 128) mask)).complete d .ok
      else if mask = 0xFFFFFFFF then s.repairLine d
      else (s.fetchCtx n).1.complete d .integrity

/-- One line of the scrub (R343). -/
def State.scrubLine (s : State) (n : Nat) : State :=
  if s.lineOk n || (s.line n).found then s
  else (((s.lineFound n).bump Reg.CHK_SCRUB_BAD).setReg Reg.CHK_SCRUB_LAST (fld 1 31 ||| fld n 0)).raise 17

/-- Lines the scrub covers: up to the last node of the truss. -/
def TrussParams.scrubTop (p : TrussParams) : Nat := p.clusters.foldl (fun n c => max n (c.base + c.nodes)) 0

/-- CONTEXT_SCRUB (R343): RATE lines from the position on, wrapping after the last node. -/
def State.contextScrub (s : State) : State :=
  let top := s.tp.scrubTop
  if !s.inStates stSAYM || top = 0 || !bit (s.reg Reg.CHK_SCRUB) 31 then s
  else
    let rate := s.regFld Reg.CHK_SCRUB 14 0
    let s1 := (List.range rate).foldl (fun s i => s.scrubLine ((s.chk.scrubPos + i) % top))  s
    let s2 := { s1 with chk := { s1.chk with scrubPos := (s.chk.scrubPos + rate) % top } }
    s2.bumpBy Reg.CHK_SCRUB_PASSES 31 ((s.chk.scrubPos + rate) / top)

end Sys2Proof.Machine
end

