-- ==== Sys2Proof/Machine/Check.lean ====
section
/-! DEFINITION. Check channels: CHK_SCAN, its completion and CHK_CFG (R332 to R341, R344). -/

namespace Sys2Proof.Machine

/-- Channel `n`. -/
def State.chan (s : State) (n : Nat) : ChkChan := s.chk.chans.getD n {}

/-- Set channel `n`. -/
def State.setChan (s : State) (n : Nat) (c : ChkChan) : State :=
  { s with chk := { s.chk with chans := lset s.chk.chans n c } }

/-- OWNER of a channel: 0 shared, 1 host, 2 firmware, 3 fixed (R332). -/
def State.chanOwner (s : State) (n : Nat) : Nat := if 4 ≤ n then 3 else s.tp.checkOwners.getD n 0

/-- A channel context (R339), when its CHECK, POLY and MODE are right: polynomial, mode, value, LAST_ALIVE, SEEN. -/
def readChanCtx (bs : List Byte) : Option (Nat × Nat × Word × Byte × Bool) :=
  if leAt bs 12 4 = (crc 2 (slice bs 0 12)).toNat && decide (leAt bs 4 1 < 4 ∧ leAt bs 5 1 < 2) then
    some (leAt bs 4 1, leAt bs 5 1, BitVec.ofNat 32 (leAt bs 0 4), BitVec.ofNat 8 (leAt bs 6 1), leAt bs 7 1 % 2 = 1)
  else none

/-- A channel's context as 16 octets. -/
def chanCtxBytes (poly mode : Nat) (value : Word) (alive : Byte) (seen : Bool) : List Byte :=
  let b := leBytes value.toNat 4 ++ [BitVec.ofNat 8 poly, BitVec.ofNat 8 mode, alive, BitVec.ofNat 8 (b2n seen)] ++
    List.replicate 4 0
  b ++ leBytes (crc 2 b).toNat 4

/-- Flags of a CHK_SCAN. -/
def scanStart (d : Desc) : Bool := d.byte 9 % 2 = 1
def scanLoad (d : Desc) : Bool := d.byte 9 / 2 % 2 = 1
def scanSave (d : Desc) : Bool := d.byte 9 / 4 % 2 = 1
def scanCompare (d : Desc) : Bool := d.byte 9 / 8 % 2 = 1

/-- CHK_SCAN (R336, R337, R340): the job is queued on its channel, or the first failed check decides. The context a job loads
is judged when the job runs, after the jobs before it may have saved it (DEDUCED, log 77). -/
def State.chkScan (s : State) (d : Desc) : State :=
  s.command d stSAYML fun s =>
    let ch := d.byte 8
    let ctx := scanLoad d || scanSave d
    let owner := s.chanOwner ch
    let co := (d.word 5).toNat
    let len := (d.word 4).toNat
    if 7 < ch || 16 ≤ d.byte 9 || d.byte 10 ≠ 0 || !d.unlistedZero ((List.range 24).map fun i => i + 8) ||
        (owner ≠ 0 && owner ≠ 1) || (ctx && decide (4 ≤ ch)) then s.complete d .unsupported
    else if 0x10000000 < len || !s.inWindow (d.word 3).toNat len || (ctx && (!s.inWindow co 16 || co % 16 ≠ 0)) then
      s.complete d .length
    else if 17 ≤ (s.chan ch).jobs.length then s.complete d .noRoom
    else s.setChan ch { s.chan ch with jobs := (s.chan ch).jobs ++ [d] }

/-- The value and guard of a job (R334, R338): what is folded before its data. -/
def scanGuard (c : ChkChan) (d : Desc) : List Byte :=
  if !scanStart d || d.word 4 = 0 then []
  else if c.mode = 0 then leBytes (d.word 3).toNat 8 ++ leBytes (d.word 7).toNat 4
  else [BitVec.ofNat 8 (d.byte 11)]

/-- A CHK_CFG write takes effect (R344): INIT, and SEEN clears. -/
def ChkChan.config (c : ChkChan) (poly mode : Nat) : ChkChan :=
  { c with poly := poly, mode := mode, value := crcInit poly, seen := false, cfgDue := none }

/-- A channel as its running job finds it: with the context the job loads, or none when that is wrong (R339). -/
def State.chanLoaded (s : State) (c : ChkChan) (d : Desc) : Option ChkChan :=
  if scanLoad d then (readChanCtx (s.readWin (d.word 5).toNat 16)).map fun x =>
    { c with poly := x.1, mode := x.2.1, value := x.2.2.1, lastAlive := x.2.2.2.1, seen := x.2.2.2.2 }
  else some c

/-- The running job of a channel gives way to the next, and a CHK_CFG write that waited takes effect (R344). -/
def ChkChan.jobEnds (c : ChkChan) (st : Status) (rest : List Desc) : ChkChan :=
  let c1 := { c with lastStatus := st, jobs := rest }
  match c1.cfgDue with
  | some (p, m) => c1.config p m
  | none => c1

/-- The running job of a channel runs to its end (R334, R335, R338). -/
def State.scanRun (s : State) (ch : Nat) (c : ChkChan) (d : Desc) (rest : List Desc) : State :=
  let len := (d.word 4).toNat
  let init := if scanStart d then crcInit c.poly else c.value
  let value := crcFold c.poly (crcFold c.poly init (scanGuard c d)) (s.readWin (d.word 3).toNat len)
  let out := value ^^^ crcXor c.poly
  let alive := BitVec.ofNat 8 (d.byte 11)
  let judged := scanStart d && c.mode = 1 && len ≠ 0
  let aliveBad := judged && c.seen && alive != c.lastAlive + 1
  let differs := scanCompare d && out != d.word 6
  let st : Status := if aliveBad || differs then .checkFail else .ok
  let c1 := { c with value := value, lastAlive := if judged then alive else c.lastAlive, seen := c.seen || judged }
  let s1 := if scanSave d then s.writeWin (d.word 5).toNat (chanCtxBytes c.poly c.mode value c1.lastAlive c1.seen) else s
  let s2 := (s1.setChan ch (c1.jobEnds st rest)).bump (Reg.CHK_CNT ch 0)
  let s3 := if aliveBad then s2.bump (Reg.CHK_CNT ch 1) else s2
  let s4 := if differs then s3.bump (Reg.CHK_CNT ch 2) else s3
  s4.complete d st (b4 := value) (b8 := out) (b12 := fld c1.lastAlive.toNat 0)

/-- CHK_SCAN_COMPLETE (R338): the running job of a channel ends; one whose context is wrong scans nothing. -/
def State.chkScanComplete (s : State) (ch : Nat) : State :=
  let c0 := s.chan ch
  match c0.jobs with
  | [] => s
  | d :: rest => match s.chanLoaded c0 d with
    | some c => s.scanRun ch c d rest
    | none => (s.setChan ch (c0.jobEnds .integrity rest)).complete d .integrity

/-- CHK_CFG_WRITE (R332, R344): a host write of CHK_CFG(n). -/
def State.chkCfgWrite (s : State) (n : Nat) (v : Word) : State :=
  let owner := s.chanOwner n
  if 8 ≤ n || s.inStates [.fault] then s
  else if owner ≠ 0 ∧ owner ≠ 1 then s.notice 0x10
  else
    let c := s.chan n
    s.setChan n (if c.jobs = [] then c.config (bits v 1 0) (bits v 4 4)
                 else { c with cfgDue := some (bits v 1 0, bits v 4 4) })

end Sys2Proof.Machine
end

