-- ==== Sys2Proof/Machine/Tollgate.lean ====
section
/-! DEFINITION. The tollgate: policers and their buckets (R282 to R284) and the airtime shaper (R285). -/

namespace Sys2Proof.Machine

/-- A policer. -/
def State.policer (s : State) (p : Nat) : Policer := aget {} s.tol.policers p

/-- Set a policer. -/
def State.setPolicer (s : State) (p : Nat) (x : Policer) : State :=
  { s with tol := { s.tol with policers := aset {} s.tol.policers p x } }

/-- Colours (R282), in the order of TOL_CNT. -/
inductive Colour where
  | green | yellow | red
  deriving DecidableEq, Repr

/-- Colour a packet of `len` octets against filled buckets, and take its credit (R282). -/
def Policer.colour (x : Policer) (len : Nat) : Colour × Policer :=
  let l := len * 1000000
  if x.unlimited then (.green, x)
  else if x.tp < l then (.red, x)
  else if x.tc < l then (.yellow, { x with tp := x.tp - l })
  else (.green, { x with tp := x.tp - l, tc := x.tc - l })

/-- The index of a colour in TOL_CNT. -/
def Colour.idx (c : Colour) : Nat :=
  match c with
  | .green => 0 | .yellow => 1 | .red => 2

/-- A policer number polices (R283). -/
def State.polices (s : State) (p : Nat) : Bool := decide (p < s.tp.policers)

/-- Police a packet: its colour, counted, with its credit taken. A number at or above COUNT polices nothing (R283). -/
def State.police (s : State) (p len : Nat) : State × Colour :=
  if s.polices p then
    let r := ((s.policer p).fill s.time.elapsed).colour len
    ((s.setPolicer p r.2.noteDeficit).bump (Reg.TOL_CNT r.1.idx), r.1)
  else (s, .green)

/-- Note the wait of a held downlink frame in ticks, saturating (R281). -/
def State.noteWait (s : State) (p : Nat) (since : Option Nat) : State :=
  match since with
  | none => s
  | some t => let x := s.policer p
    s.setPolicer p { x with hwmSoj := max x.hwmSoj (min (s.tick - t) 0xFFFF) }

/-- A policer would colour a packet GREEN or YELLOW now (R283). -/
def State.conforms (s : State) (p len : Nat) : Bool :=
  !s.polices p || (((s.policer p).fill s.time.elapsed).colour len).1 != .red

/-- The use of a queue is below TOL_CTRL.YELLOW_PCT of its quotas (R283). -/
def State.yellowRoom (s : State) (q : Nat) : Bool :=
  let x := s.queue q
  decide ((x.unitsUsed false + x.unitsUsed true) * 128 * 100 < s.regFld Reg.TOL_CTRL 6 0 * (x.quota + x.ovfQuota))

/-- An uplink packet meets its policer (R283): true when it may be enqueued. -/
def State.policeUplink (s : State) (p q len : Nat) : State × Bool :=
  match s.police p len with
  | (s1, .green) => (s1, true)
  | (s1, .yellow) => if s1.yellowRoom q then (s1, true) else (s1.bump (Reg.TOL_CNT 3), false)
  | (s1, .red) => (s1, false)

/-! ### The airtime shaper -/

/-- LIMIT of a band (R285): 0.9 of the smallest DUTY_PPM of its VALID ranges with DUTY = 1. -/
def State.shapeLimit (s : State) (b : Nat) : Nat :=
  let l := (if s.par.state = .sealed then (readRanges s.parImage b).filter fun r => r.valid && r.duty else []).map
    ParRange.dutyPpm
  match l with
  | [] => 1000000
  | a :: r => r.foldl min a * 9 / 10

/-- RATE in force: a write above LIMIT is applied as LIMIT (R285). -/
def State.shapeRate (s : State) (b : Nat) : Nat := min (s.regFld (Reg.TOL_SHAPE_RATE b) 19 0) (s.shapeLimit b)

/-- A band's level with its credit up to now, in 10^-6 µs (R285). -/
def State.shapeLevel (s : State) (b : Nat) : Int :=
  let l := if b = 0 then s.tol.levelA else s.tol.levelB
  let burst : Int := (s.regFld (Reg.TOL_SHAPE_BURST b) 23 0 * 1000000 : Nat)
  min burst (max (-burst) l + ((((s.now - s.tol.at_.toNat) / 1000) * s.shapeRate b : Nat) : Int))

/-- Bring both levels up to date. DTIME that has stepped back gives no credit, and none is lost by it. -/
def State.shapeNow (s : State) : State :=
  let us := (s.now - s.tol.at_.toNat) / 1000
  { s with tol := { s.tol with levelA := s.shapeLevel 0, levelB := s.shapeLevel 1,
                               at_ := BitVec.ofNat 64 (min s.now (s.tol.at_.toNat + us * 1000)) } }

/-- Charge airtime in ns to a band, or refund it when negative, within −BURST to +BURST (R285). -/
def State.shapeCharge (s0 : State) (b : Nat) (air : Int) : State :=
  let s := s0.shapeNow
  let burst : Int := (s.regFld (Reg.TOL_SHAPE_BURST b) 23 0 * 1000000 : Nat)
  let l := max (-burst) (min burst ((if b = 0 then s.tol.levelA else s.tol.levelB) - air * 1000))
  { s with tol := if b = 0 then { s.tol with levelA := l } else { s.tol with levelB := l } }

/-- What entry to STRUCTURED does to the tollgate (R284, R285). -/
def State.tollAtStructured (s : State) : State :=
  let s2 := (s.setReg (Reg.TOL_SHAPE_RATE 0) (pw (s.shapeLimit 0))).setReg (Reg.TOL_SHAPE_RATE 1) (pw (s.shapeLimit 1))
  { s2 with tol := { policers := [], levelA := (s2.regFld (Reg.TOL_SHAPE_BURST 0) 23 0 * 1000000 : Nat),
                     levelB := (s2.regFld (Reg.TOL_SHAPE_BURST 1) 23 0 * 1000000 : Nat), at_ := s2.time.dtime } }

end Sys2Proof.Machine
end

