-- ==== Sys2Proof/Machine/Parapet.lean ====
section
/-! DEFINITION. The parapet: its slots and programming (R163 to R170), and the limits a transmission meets at its decision
instant (R171 to R179). -/

namespace Sys2Proof.Machine

/-! ### Slots -/

/-- The image of a slot. -/
def ParSt.image (p : ParSt) (n : Nat) : List Byte := if n = 0 then p.slot0 else p.slot1

/-- A slot has a burned octet. -/
def ParSt.burned (p : ParSt) (n : Nat) : Bool := (p.image n).any (· != 0) || (if n = 0 then p.torn0 else p.torn1)

/-- SEAL of a slot reads its value. -/
def ParSt.hasSeal (p : ParSt) (n : Nat) : Bool :=
  leAt (p.image n) 0x7FC 4 = 0x5EA10C0D && !(if n = 0 then p.torn0 else p.torn1)

/-- A slot is torn (R165). -/
def ParSt.torn (p : ParSt) (n : Nat) : Bool := p.burned n && !p.hasSeal n

/-- SIG of a slot image verifies against the OEM key (R165). -/
def State.parSigOk (s : State) (img : List Byte) : Bool :=
  Config.p256Verify (Config.oemKey s.key.oemKeyHash) (slice img 0 0x440) (slice img 0x440 64)

/-- A slot is sealed (R165). -/
def State.parSealed (s : State) (n : Nat) : Bool := s.par.hasSeal n && s.parSigOk (s.par.image n)

/-- The whole region (R163). -/
def ParSt.region (p : ParSt) : List Byte := p.slot0 ++ p.slot1

/-- Apply R165 to the region and hold its digest (R168). -/
def State.parSense (s : State) : State :=
  let d := Config.sha256 s.par.region
  let st : ParState × Nat :=
    if s.parSealed 0 then (.sealed, 0) else if s.parSealed 1 then (.sealed, 1)
    else if s.par.hasSeal 0 || s.par.hasSeal 1 then (.invalid, 0) else (.unwritten, 0)
  { s with par := { s.par with state := st.1, slot := st.2, digest := d, sealDue := none } }

/-- What the loader does with the parapet at every boot (R168). -/
def State.parAtBoot (s : State) : State :=
  let s1 := s.parSense
  let s2 := s1.mrExtend 4 s1.par.digest
  if s2.par.state = .invalid then
    { s2 with boot := { s2.boot with held := s2.boot.held ++ [(.error, 0x08, none, 0, [])] } }
  else s2

/-- A range record within Table 08-2 on band `b`. -/
def rangeRecordOk (b : Nat) (r : ParRange) (tail : Nat) : Bool :=
  decide (r.low < r.high) && bits r.flags 7 5 = 0 && tail = 0 &&
  (if b = 0 then decide (410000000 ≤ r.low ∧ r.high ≤ 960000000) else decide (2400000000 ≤ r.low ∧ r.high ≤ 2483500000)) &&
  (if r.duty then decide (1 ≤ r.dutyPpm ∧ r.dutyPpm ≤ 1000000 ∧ 1 ≤ r.dutyWindow ∧ r.dutyWindow ≤ 3600)
   else r.dutyPpm = 0 && r.dutyWindow = 0) &&
  (if r.lbt then decide (1 ≤ r.lbtTime ∧ r.lbtTime ≤ 5000) else r.lbtTime = 0) &&
  (if r.hop then decide (1 ≤ r.minHop ∧ r.minHop ≤ 1024 ∧ 1 ≤ r.dwell ∧ 1 ≤ r.dwellPeriod ∧ r.dwellPeriod ≤ 60)
   else r.minHop = 0 && r.dwell = 0 && r.dwellPeriod = 0)

/-- Ranges in ascending LOW without overlap (R164). -/
def rangesAscend (l : List ParRange) : Bool :=
  match l with
  | a :: b :: r => decide (a.low < b.low ∧ a.high ≤ b.low) && rangesAscend (b :: r)
  | _ => true

/-- EXT_GAIN of a band of a slot image, 0.25 dB. -/
def extGain (img : List Byte) (b : Nat) : Int := signed (leAt img (0x022 + 0x210 * b) 2) 16

/-- A band block of a slot image within R164. -/
def bandBlockOk (img : List Byte) (b : Nat) : Bool :=
  let o := 0x020 + 0x210 * b
  let n := leAt img o 1
  let rs := readRanges img b
  decide (n ≤ 16) && leAt img (o + 1) 1 = 0 && decide (0 ≤ extGain img b ∧ extGain img b ≤ 160) && leAt img (o + 4) 12 = 0 &&
  (bit (BitVec.ofNat 8 (leAt img 6 1)) b || n = 0) &&
  ((List.range n).all fun i => rangeRecordOk b (rs.getD i {}) (leAt img (o + 16 + 32 * i + 0x1E) 2)) && rangesAscend rs &&
  ((List.range 16).all fun i => decide (i < n) || leNat (slice img (o + 16 + 32 * i) 32) = 0)

/-- Check 1 of R166. -/
def parImageOk (img : List Byte) : Bool :=
  leAt img 0 4 = 0x7A506172 && leAt img 4 2 = 1 && leAt img 6 1 / 4 = 0 && leAt img 7 1 = 0 && leAt img 0x0E 18 = 0 &&
  leNat (slice img 0x480 892) = 0 && leAt img 0x7FC 4 = 0 && bandBlockOk img 0 && bandBlockOk img 1

/-- Set LAST_STATUS of PAR_STATUS and complete a PAR_PROGRAM. -/
def State.parEnd (s : State) (d : Desc) (st : Status) : State :=
  (s.setFld Reg.PAR_STATUS 31 24 st.code).complete d st

/-- PAR_PROGRAM (R166): the burn of an accepted image begins. -/
def State.parProgram (s : State) (d : Desc) : State :=
  s.command d [.structured] fun s =>
    let o := (d.word 2).toNat
    let img := s.readWin o 2048
    if s.key.lc ≠ .provisioned ∨ s.par.state ≠ .unwritten ∨ s.par.burn.isSome ∨ s.par.sealDue.isSome then s.rejectState d
    else if !d.unlistedZero [8, 9, 10, 11] then s.parEnd d .unsupported
    else if o % 4 ≠ 0 ∨ !s.inWindow o 2048 then s.parEnd d .length
    else if s.par.burned 0 && s.par.burned 1 then s.parEnd d .noRoom
    else if !parImageOk img then s.parEnd d .unsupported
    else if !s.parSigOk img then s.parEnd d .authFail
    else if !parapetOk s.tp img then s.parEnd d .parapet
    else { s with par := { s.par with burn := some (d, img, if s.par.burned 0 then 1 else 0) } }

/-- Octets of a slot whose burn stopped after `k` whole words of its image, with the bits `part` of the next one: unreached
octets read 0 (R163). -/
def burnedTo (img : List Byte) (k : Nat) (part : Word) : List Byte :=
  (img.take (4 * k) ++ leBytes (BitVec.ofNat 32 (leAt img (4 * k) 4) &&& part).toNat 4 ++ List.replicate 2048 0).take 2048

/-- A burn ends with its slot torn, holding the octets given. -/
def State.parTornWith (s : State) (n : Nat) (img : List Byte) : State :=
  if n = 0 then { s with par := { s.par with burn := none, slot0 := img, torn0 := true } }
  else { s with par := { s.par with burn := none, slot1 := img, torn1 := true } }

/-- A burn stops part-way and leaves its slot torn (R167): an alarm lets the word in progress end, a supply loss (`cut`) need
not. How far the burn has come by then is a free value. -/
def State.parTear (s : State) (cut : Bool) : State :=
  match s.par.burn with
  | none => s
  | some (_, img, n) =>
    s.nextFree.nextFree.parTornWith n
      (burnedTo img ((Config.freeWord s.free).toNat % 511) (if cut then Config.freeWord (s.free + 1) else 0))

/-- What a slot holds after a burn that read back wrong (R167): SEAL is burned only after the image read back right, and the
reserved octets 0x480 to 0x7FB are left unburned. -/
def mismatched (img read : List Byte) : List Byte :=
  slice read 0 0x480 ++ List.replicate 892 0 ++
    (if slice read 0 0x480 == slice img 0 0x480 then slice read 0x7FC 4 else [0, 0, 0, 0])

/-- PAR_BURN_COMPLETE (R167): the burn ends; `read` is what its slot then reads. -/
def State.parBurnComplete (s : State) (read : List Byte) : State :=
  match s.par.burn with
  | none => s
  | some (d, img, n) =>
    let img1 := slice img 0 2044 ++ leBytes 0x5EA10C0D 4
    if read != img1 then (s.parTornWith n (mismatched img read)).parEnd d .integrity
    else
      let p := s.par
      let s1 := { s with par := if n = 0 then { p with burn := none, slot0 := img1, sealDue := some 0 }
                                else { p with burn := none, slot1 := img1, sealDue := some 1 } }
      let s2 := s1.mrExtend 4 (Config.sha256 s1.par.region)
      (post s2 .audit 0x08 none (d.opcode % 256) [pw (leAt img1 8 4), pw n]).parEnd d .ok

/-- The parapet takes force at the tick edge after its burn (R167). Its ranges start with empty buckets. -/
def State.parTick (s : State) : State :=
  match s.par.sealDue with
  | none => s
  | some _ => let s1 := s.parSense; { s1 with par := { s1.par with duty := [], dwell := [], dwellAge := 60 } }

/-- PAR_READ (R170). Its state is that of a served command ring. -/
def State.parRead (s : State) (d : Desc) : State :=
  s.command d [.boot, .structured, .active, .standby, .maintenance, .alarm] fun s =>
    let o := (d.word 2).toNat
    if !d.unlistedZero [8, 9, 10, 11] then s.complete d .unsupported
    else if o % 4 ≠ 0 ∨ !s.inWindow o 4096 then s.complete d .length
    else (s.writeWin o s.par.region).complete d .ok

/-! ### Airtime budgets -/

/-- A band's range by its place, with the key of its buckets. -/
def rangeKey (b i : Nat) : Nat := 16 * b + i

/-- Buckets of a range's duty history. -/
def State.dutyBuckets (s : State) (b i : Nat) : List Nat := aget [] s.par.duty (rangeKey b i)

/-- Buckets of a channel's dwell history (R177), an uncharged channel's being the fill of R175 as aged since. -/
def State.dwellBuckets (s : State) (b i : Nat) (r : ParRange) (ch : Nat) : List Nat :=
  match afind s.par.dwell (1024 * rangeKey b i + ch) with
  | some l => l
  | none => let a := min s.par.dwellAge r.dwellPeriod
            List.replicate a 0 ++ List.replicate (r.dwellPeriod - a) (r.dwell * 1000000 / r.dwellPeriod)

/-- Sum of buckets. -/
def sumNat (l : List Nat) : Nat := l.foldl (· + ·) 0

/-- Add to the current bucket. -/
def chargeHead (l : List Nat) (v : Nat) : List Nat :=
  match l with
  | [] => [v]
  | a :: r => (a + v) :: r

/-- Take a refund from the newest buckets first. -/
def refundFrom (l : List Nat) (v : Nat) : List Nat :=
  match l with
  | [] => []
  | a :: r => (a - v) :: refundFrom r (v - a)

/-- What entry to STRUCTURED after a reset puts into the buckets (R175). -/
def State.parFill (s : State) : State :=
  let ranges := fun b => if s.par.state = .sealed then readRanges s.parImage b else []
  let fill := fun b => (List.range (ranges b).length).filterMap fun i =>
    let r := (ranges b).getD i {}
    if r.duty then some (rangeKey b i, List.replicate r.dutyWindow (r.dutyPpm * 1000)) else none
  { s with par := { s.par with duty := fill 0 ++ fill 1, dwell := [], dwellAge := 0, bucketAt := s.time.elapsed,
                               contA := none, contB := none } }

/-- DUTY_BUCKET_ADVANCE (R174): a new bucket opens at a whole second of DTIME at least 1 s of elapsed time after the
last one opened. -/
def State.dutyAdvance (s0 : State) (t : U64) : State :=
  let s := s0.at_ t
  if s.now % 1000000000 = 0 && decide (s.par.bucketAt + 1000000000 ≤ s.time.elapsed) then
    let r := fun k => (readRanges s.parImage (k / 16)).getD (k % 16) {}
    { s with par := { s.par with
        duty := s.par.duty.map fun e => (e.1, (0 :: e.2).take (r e.1).dutyWindow),
        dwell := s.par.dwell.map fun e => (e.1, (0 :: e.2).take (r (e.1 / 1024)).dwellPeriod),
        dwellAge := min 60 (s.par.dwellAge + 1), bucketAt := s.time.elapsed } }
  else s

/-! ### The checks at the decision instant -/

/-- The largest power of a band's internal PA (Table 06-1), 0.25 dB. -/
def paMax (b : Nat) : Int := if b = 0 then 56 else 40

/-- The power of a transmission at the ball (R121). A power named or set below the least power of the PA is sent as it stands
(DESIGN CHOICE, log 77: the manual gives no lower limit). -/
def State.txPower (s : State) (b : Nat) (lower : Option Int) : Int :=
  let dflt := signed (s.regFld (Reg.TXC_PWR b) 11 0) 12
  let m := min (min dflt (s.tp.band b).maxPower) (paMax b)
  match lower with
  | some l => min m l
  | none => m

/-- A FEM line of the band has the function PA_EN (R121, Table 06-6). -/
def TrussParams.paEn (p : TrussParams) (b : Nat) : Bool := ((p.femFn.drop (6 * b)).take 6).contains 1

/-- The VALID range that contains the occupied span of a transmission, and its place (R171). -/
def governing (rs : List ParRange) (raster fTx : Nat) (i : Nat) : Option (Nat × ParRange) :=
  match rs with
  | [] => none
  | r :: rest =>
    if r.valid && decide (2 * r.low + raster ≤ 2 * fTx ∧ 2 * fTx + raster ≤ 2 * r.high) then some (i, r)
    else governing rest raster fTx (i + 1)

/-- The run of continuous transmission an emission from `a` to `z` joins or starts, the last run being `run` (R176). -/
def joinRun (run : Option (Nat × Nat)) (a z : Nat) : Nat × Nat :=
  match run with
  | some (x, y) => if a < y + 100000 then (min x a, max y z) else (a, z)
  | none => (a, z)

/-- The start of the run that an emission from `a` joins, among emissions of its band (R176). -/
def runStart (l : List (Nat × Nat)) (a : Nat) : Nat :=
  (List.range l.length).foldl (fun m _ =>
    l.foldl (fun m x => if x.1 < m ∧ m < x.2 + 100000 then x.1 else m) m) a

/-- A band's run in progress. -/
def ParSt.cont (p : ParSt) (b : Nat) : Option (Nat × Nat) := if b = 0 then p.contA else p.contB

/-- The elapsed time at an instant of DTIME, in ns. -/
def State.elapsedAt (s : State) (t : Nat) : Nat := s.time.elapsed + t - s.now

/-- What the parapet is asked of a transmission. -/
structure ParAsk where
  band : Nat
  channel : Nat
  fTx : Nat
  power : Int
  /-- Start of the ramp-up and end of the ramp-down, DTIME ns. -/
  from_ : Nat
  to_ : Nat
  ack : Bool
  /-- The energy on the channel, referred to the ball: instants of DTIME in ns with levels in 0.25 dB. -/
  energy : List (Nat × Int)
  /-- The end of the listening interval: of the template's CCA window, or an acknowledgement's decision instant. -/
  listenTo : Nat
  /-- For an acknowledgement, the end of the received frame. -/
  earliest : Nat
  /-- Emissions of the band in elapsed time, in progress or granted, but for its own. -/
  runs : List (Nat × Nat)

/-- The listen-before-talk step (R177): the energy stayed at or below LBT_THR throughout the listening interval. -/
def ParAsk.listened (a : ParAsk) (r : ParRange) : Bool :=
  !r.lbt || (a.ack && r.ackExempt) ||
    (let from_ := a.listenTo - r.lbtTime * 1000
     (!a.ack || decide (a.earliest ≤ from_)) &&
       a.energy.all fun e => decide (e.1 < from_ ∨ a.listenTo < e.1 ∨ e.2 ≤ 4 * r.lbtThr))

/-- The parapet at the decision instant (R169, R171 to R179): the power it leaves with the end of the checked run, or the
counter of the step that refuses; an allowed transmission is charged. -/
def State.parCheck (s : State) (a : ParAsk) : State × Option (Int × Nat) :=
  let refuse := fun (s : State) (m : Nat) => (s.bump (Reg.PAR_CNT a.band m), (none : Option (Int × Nat)))
  let air := a.to_ - a.from_
  if s.par.state ≠ .sealed then refuse s 5
  else match governing (readRanges s.parImage a.band) (s.tp.band a.band).raster a.fTx 0 with
    | none => refuse s 0
    | some (i, r) =>
      let e := if s.tp.paEn a.band then extGain s.parImage a.band else 0
      let ended := decide (r.maxPower < a.power + e)
      let p := if ended then r.maxPower - e else a.power
      if ended ∧ r.maxPower - e < -40 then refuse s 8
      else
        let s1 := if ended then s.bump (Reg.PAR_CNT a.band 6) else s
        let duty := s1.dutyBuckets a.band i
        let dwell := s1.dwellBuckets a.band i r a.channel
        let emissions := match s1.par.cont a.band with
          | some x => x :: a.runs
          | none => a.runs
        let ends := s1.elapsedAt a.to_
        if r.duty ∧ r.dutyPpm * r.dutyWindow * 1000 < sumNat duty + air then refuse s1 1
        else if 0 < r.maxCont ∧ r.maxCont * 1000 < ends - runStart emissions (s1.elapsedAt a.from_) then refuse s1 2
        else if r.hop ∧ r.dwell * 1000000 < sumNat dwell + air then refuse s1 3
        else if !a.listened r then refuse s1 4
        else
          let p1 := s1.par
          let s2 := { s1 with par := { p1 with
            duty := if r.duty then aput p1.duty (rangeKey a.band i) (chargeHead duty air) else p1.duty,
            dwell := if r.hop then aput p1.dwell (1024 * rangeKey a.band i + a.channel) (chargeHead dwell air) else p1.dwell } }
          (s2.shapeCharge a.band (air : Int), some (p, if 0 < r.maxCont then ends else 0))

/-- An emission of a band ends, in elapsed time from `a` to `z`: it joins the band's run (R176). -/
def State.emitted (s : State) (b a z : Nat) : State :=
  let run := some (joinRun (s.par.cont b) a z)
  { s with par := if b = 0 then { s.par with contA := run } else { s.par with contB := run } }

/-- Refund the airtime a transmission did not emit (R172). -/
def State.parRefund (s : State) (b ch fTx air : Nat) : State :=
  match governing (readRanges s.parImage b) (s.tp.band b).raster fTx 0 with
  | none => s
  | some (i, r) =>
    let p := s.par
    let s1 := { s with par := { p with
      duty := if r.duty then aput p.duty (rangeKey b i) (refundFrom (s.dutyBuckets b i) air) else p.duty,
      dwell := if r.hop then aput p.dwell (1024 * rangeKey b i + ch) (refundFrom (s.dwellBuckets b i r ch) air) else p.dwell } }
    s1.shapeCharge b (-(air : Int))

end Sys2Proof.Machine
end

