-- ==== Sys2Proof/Machine/MacFrames.lean ====
section
/-! DEFINITION. The frames the device builds (Tables 09-5 and 10-3, R204, R209, R218, R230), the outgoing frame counters
(R13, R398) and the air times of frames. Frame formats are those of IEEE 802.15.4-2020. -/

namespace Sys2Proof.Machine

/-! ### Serving and standing by -/

/-- The chip holds the interlock and may emit: ACTIVE, ILK_OUT held and ILK_IN inactive (R385). -/
def State.mayEmit (s : State) : Bool := s.sys.state = .active && s.sys.ilkOut && !s.sys.ilkIn

/-- A chip in ACTIVE that does not hold ILK_OUT (R388). -/
def State.heldOff (s : State) : Bool := s.sys.state = .active && !s.sys.ilkOut

/-- The chip serves: it makes claims, delivers, fetches and resolves for transmission. It does not while held off
(R388), before the first tick edge after a takeover decision (R394) and during a planned switch-over (R402). -/
def State.serving (s : State) : Bool :=
  s.sys.state = .active && s.sys.ilkOut && !s.red.recover && s.red.leaving.isEmpty

/-- The chip delivers what passes the MAC: it serves, also through a planned switch-over (R402), or it is in MAINTENANCE and
served when that was entered. -/
def State.delivers (s : State) : Bool :=
  (s.sys.state = .active && s.sys.ilkOut && !s.red.recover) || (s.sys.state = .maintenance && s.sys.served)

/-- The chip receives as a standby chip does (R396). -/
def State.standingBy (s : State) : Bool := s.sys.state = .standby || s.heldOff

/-! ### Airtime -/

/-- The time of `n` octets in ns. -/
def BandCfg.octetsNs (c : BandCfg) (n : Nat) : Nat :=
  if c.bitRate = 0 then 0 else ceilDiv (n * 8 * 1000000000) c.bitRate

/-- Symbol period in ns. -/
def BandCfg.symbolNs (c : BandCfg) (n : Nat) : Nat :=
  if c.phy = 3 then n * 16000 else if c.symbolRate = 0 then 0 else ceilDiv (n * 1000000000) c.symbolRate

/-- From the first preamble symbol to the end of the SFD, in ns (R211). -/
def BandCfg.sfdNs (c : BandCfg) : Nat := if c.phy = 3 then 160000 else c.octetsNs (c.preambleLen + 2)

/-- Symbols per octet (R103). -/
def BandCfg.symsPerOctet (c : BandCfg) : Nat := if c.phy = 3 then 2 else if c.phy = 2 then 4 else 8

/-- Octets of the PHR. -/
def BandCfg.phrLen (c : BandCfg) : Nat := if c.phy = 3 then 1 else 2

/-- FCS octets of the frames the device sends on a band (R213, R228: 4 on an FSK PHY). -/
def BandCfg.fcsLen (c : BandCfg) : Nat := if c.phy = 3 then 2 else 4

/-- MIC octets of a security level. -/
def micLen (level : Nat) : Nat :=
  match level % 4 with
  | 0 => 0 | 1 => 4 | 2 => 8 | _ => 16

/-- A level that enciphers its payload. -/
def enciphers (level : Nat) : Bool := decide (4 ≤ level)

/-- The FCS of an MPDU (R106). -/
def fcsOf (four : Bool) (mpdu : List Byte) : List Byte :=
  if four then leBytes (crc 1 mpdu).toNat 4 else leBytes (crc 0 mpdu).toNat 2

/-! ### Identities -/

/-- The border router's EUI-64 (SCH_EUI). -/
def State.brEui (s : State) : U64 := BitVec.ofNat 64 ((s.reg Reg.SCH_EUI_LO).toNat + 2 ^ 32 * (s.reg Reg.SCH_EUI_HI).toNat)

/-- The time parent's EUI-64 (SCH_PARENT). -/
def State.parentEui (s : State) : U64 :=
  BitVec.ofNat 64 ((s.reg Reg.SCH_PARENT_LO).toNat + 2 ^ 32 * (s.reg Reg.SCH_PARENT_HI).toNat)

/-- MAC_BR_SHORT. -/
def State.brShort (s : State) : BitVec 16 := BitVec.ofNat 16 (s.regFld Reg.MAC_BR_SHORT 15 0)

/-- Octets of an address as they stand in a MAC header. -/
def MacAddr.bytes (a : MacAddr) : List Byte :=
  match a with
  | .absent => []
  | .short x => leBytes x.toNat 2
  | .ext x => leBytes x.toNat 8

/-- The nonce of a CCM* job: source EUI-64, frame counter, security level (R204). -/
def ccmNonce (eui : U64) (fc : Word) (level : Nat) : List Byte :=
  beBytes eui.toNat 8 ++ beBytes fc.toNat 4 ++ [BitVec.ofNat 8 level]

/-- Frame control of IEEE 802.15.4, version 2. -/
def frameCtl (type : Nat) (sec ar panComp seqSupp ie : Bool) (dst src : Nat) : List Byte :=
  leBytes (type + 8 * b2n sec + 32 * b2n ar + 64 * b2n panComp + 256 * b2n seqSupp + 512 * b2n ie + 1024 * dst +
    8192 + 16384 * src) 2

/-- The auxiliary security header: mode 1 names a key index, mode 0 none. -/
def auxHeader (level : Nat) (keyIndex : Option Byte) (fc : Word) : List Byte :=
  if level = 0 then []
  else match keyIndex with
    | some k => [BitVec.ofNat 8 (level + 8)] ++ leBytes fc.toNat 4 ++ [k]
    | none => [BitVec.ofNat 8 level] ++ leBytes fc.toNat 4

/-- The MAC header of a unicast data frame (R218, Table 10-7): short source and destination, the peer's PAN ID. -/
def unicastHeader (s : State) (seq : BitVec 8) (ar : Bool) (level : Nat) (peer : Ctx) (key : Byte) (fc : Word) : List Byte :=
  frameCtl 1 (level != 0) ar true false false 2 2 ++ [seq] ++ leBytes peer.panId.toNat 2 ++ leBytes peer.shortAddr.toNat 2 ++
    leBytes s.brShort.toNat 2 ++ auxHeader level (some key) fc

/-- Octets of a unicast frame's header. -/
def unicastHeaderLen (level : Nat) : Nat := if level = 0 then 9 else 15

/-- The MAC header of a flood frame (R230): broadcast, with SCH_EUI as its source. -/
def floodHeader (s : State) (seq : BitVec 8) (level : Nat) (key : Byte) (fc : Word) : List Byte :=
  frameCtl 1 (level != 0) false true false false 2 3 ++ [seq] ++ leBytes 0xFFFF 2 ++ leBytes 0xFFFF 2 ++
    leBytes s.brEui.toNat 8 ++ auxHeader level (some key) fc

/-- Octets of a flood frame's header. -/
def floodHeaderLen (level : Nat) : Nat := if level = 0 then 15 else 21

/-- The MAC header of an Enhanced ACK (Table 10-3); IE present follows the Time Correction IE. -/
def ackHeader (seq : Option (BitVec 8)) (dst : MacAddr) (level : Nat) (key : Byte) (fc : Word) (tc : Option (BitVec 12)) :
    List Byte :=
  frameCtl 2 (level != 0) false true seq.isNone tc.isSome (match dst with
    | .ext _ => 3
    | _ => 2) 0 ++
  (match seq with
   | some q => [q]
   | none => []) ++ dst.bytes ++ auxHeader level (some key) fc ++
  (match tc with
   | some t => leBytes 0x0F02 2 ++ leBytes t.toNat 2
   | none => [])

/-! ### Enhanced beacons -/

/-- A nested short IE. -/
def shortIe (id : Nat) (c : List Byte) : List Byte := leBytes (c.length + 256 * id) 2 ++ c

/-- TSCH Timeslot IE, full form, from the template and the band's settings (Table 09-5). -/
def timeslotIe (s : State) (b : Nat) (t : SlotTemplate) : List Byte :=
  let shared := s.regFld (Reg.SCH_GUARD b) 15 0
  let ackg := s.regFld (Reg.SCH_ACK_WAIT b) 15 0
  let len := s.tp.k b * s.tp.tickPeriod
  let n := if len < 65536 then 2 else 3
  shortIe 0x1C ([0] ++ leBytes t.ccaOffset 2 ++ leBytes t.ccaLen 2 ++ leBytes t.txOffset 2 ++
    leBytes (t.txOffset - shared) 2 ++ leBytes (t.txAckGap - ackg) 2 ++ leBytes t.txAckGap 2 ++ leBytes (2 * shared) 2 ++
    leBytes (2 * ackg) 2 ++ leBytes 0 2 ++ leBytes 0 2 ++ leBytes 0 n ++ leBytes len n)

/-- A link of the TSCH Slotframe and Link IE: the node's view of the cell. -/
def linkInfo (c : Cell) : List Byte :=
  leBytes c.slotOffset 2 ++ leBytes c.chOffset 2 ++ [BitVec.ofNat 8 (b2n c.rx + 2 * b2n c.tx + 4 * b2n c.shared)]

/-- SERIAL[7:0] of a section of the truss in force. -/
def State.sectionSerial (s : State) (type : Nat) : Word :=
  match s.truss.truss.sections.find? fun x => x.type = type with
  | some x => x.serial
  | none => 0

/-- The payload IEs of an enhanced beacon: those before the links, and each link. -/
def beaconIes (s : State) (b : Nat) (t : SlotTemplate) (asn handle : Nat) (g : GateList) (room : Nat) : List Byte :=
  let sync := shortIe 0x1A (leBytes asn 5 ++ [BitVec.ofNat 8 (s.regFld (Reg.SCH_EB b) 7 0)])
  let ts := timeslotIe s b t
  let hop := leBytes (0x8000 + 0x9 * 2048 + 1) 2 ++ leBytes ((s.sectionSerial 7).toNat % 256) 1
  let fixed := sync.length + ts.length + hop.length + 2 + 5 + 2
  let links := (g.cells.filter Cell.advertise).take ((room - fixed) / 5)
  let sf := shortIe 0x1B ([1, BitVec.ofNat 8 handle] ++ leBytes g.sfLen 2 ++ [BitVec.ofNat 8 links.length] ++
    links.flatMap linkInfo)
  let body := sync ++ ts ++ hop ++ sf
  leBytes (body.length + 2048 + 0x8000) 2 ++ body

/-- The MAC header of an enhanced beacon (Table 09-5), its header terminated before the payload IEs. -/
def beaconHeader (s : State) (level : Nat) (pan : Nat) (fc : Word) : List Byte :=
  frameCtl 0 (level != 0) false false true true 0 3 ++ leBytes pan 2 ++ leBytes s.brEui.toNat 8 ++ auxHeader level none fc ++
    leBytes 0x3F00 2

/-! ### Outgoing frame counters -/

/-- An outgoing frame counter (R398). -/
inductive FcKind where
  | node (n : Nat)
  | beacon (b : Nat)
  | bcast
  deriving DecidableEq, Repr

/-- The key of a counter in the map of counters that have leapt. -/
def FcKind.key (k : FcKind) : Nat :=
  match k with
  | .node n => n
  | .beacon b => 2 ^ 18 + b
  | .bcast => 2 ^ 18 + 2

/-- The value of a counter. -/
def State.fcValue (s : State) (k : FcKind) : Word :=
  match k with
  | .node n => (s.line n).ctx.txFc
  | .beacon b => s.reg (Reg.SCH_EB_FC b)
  | .bcast => s.reg Reg.MAC_BC_FC

/-- Set a counter. -/
def State.setFc (s : State) (k : FcKind) (v : Word) : State :=
  match k with
  | .node n => s.updCtx n fun c => { c with txFc := v }
  | .beacon b => s.setReg (Reg.SCH_EB_FC b) v
  | .bcast => s.setReg Reg.MAC_BC_FC v

/-- Bind a counter into a job (R13): its value, leaping by FC_LEAP on first use after a takeover (R398); none when the
counter is exhausted. -/
def State.bindFc (s : State) (k : FcKind) : State × Option Word :=
  let v := s.fcValue k
  if s.rf.leap && !s.rf.leapt.contains k.key then
    let s1 := { s with rf := { s.rf with leapt := k.key :: s.rf.leapt } }.bump (Reg.RED_CNT 9)
    if 0xFFFFFFFE < v.toNat + s.tp.fcLeap then
      (post (s1.setFc k 0xFFFFFFFF) .error 0x13 (some .keyRevoked) 0 [pw k.key, 0xFFFFFFFF], none)
    else
      let w := v + BitVec.ofNat 32 s.tp.fcLeap
      (s1.setFc k (w + 1), some w)
  else if v = 0xFFFFFFFF then (s, none)
  else (s.setFc k (v + 1), some v)

/-- Raise a counter on overhearing the active chip (R396). -/
def State.raiseFc (s : State) (k : FcKind) (fc : Word) : State :=
  let v := s.fcValue k
  let w := fc + 1
  (if v.toNat < w.toNat then s.setFc k w else s).bump (Reg.RED_CNT 8)

end Sys2Proof.Machine
end

