-- ==== Sys2Proof/Machine/Chains.lean ====
section
/-! DEFINITION. Claims on the transmit chains (R120 to R124): who may claim which chain, displacement, and the release of
a claim with the jobs, lines and blanking that belong to it. -/

namespace Sys2Proof.Machine

/-- The claim of a number. -/
def State.claim (s : State) (id : Nat) : Option Claim := s.rf.claims.find? fun c => c.id = id

/-- Replace a claim. -/
def State.setClaim (s : State) (c : Claim) : State :=
  { s with rf := { s.rf with claims := s.rf.claims.map fun x => if x.id = c.id then c else x } }

/-- Change the radio's state. -/
def State.setRf (s : State) (f : RfSt → RfSt) : State := { s with rf := f s.rf }

/-- A transmit register's value for a transmission tuned at `tune`, with the values in force: a write that waits for the
tick edge governs it when that instant is at or after the edge (R140). -/
def State.regAhead (s : State) (a tune : Nat) : Word :=
  if tune < (s.tick + 1) * s.tickNs then s.reg a
  else match (s.regWrites.filter fun w => w.1 = a).getLast? with
    | some w => w.2
    | none => s.reg a

/-- RAMP of a chain, µs. -/
def State.ramp (s : State) (c : Nat) : Nat := s.regFld (Reg.TXC_CTRL c) 13 8

/-- Airtime T(PSDU) of a claim, ns. -/
def State.claimAir (s : State) (c : Claim) : Nat := (s.tp.band c.band).airtimeNs c.len

/-- The tune instant (Table 06-3). -/
def Claim.tuneAt (c : Claim) : Nat := c.t0 - (c.ramp + 100) * 1000

/-- The decision instant (R128). -/
def Claim.decisionAt (c : Claim) : Nat := c.t0 - (c.ramp + c.femLead) * 1000

/-- The end of the occupied interval (R122's preface): a slip lies within TX_SLIP, and a transmission that ends early ends
the interval with it. -/
def State.occupiedTo (s : State) (c : Claim) : Nat :=
  if c.ended && !c.sent then c.downAt + (c.femLag + c.slip) * 1000
  else c.t0 - c.slipped + s.claimAir c + (c.ramp + c.femLag + c.slip) * 1000

/-- Two claims' occupied intervals overlap. -/
def State.claimsOverlap (s : State) (a b : Claim) : Bool :=
  decide (a.tuneAt < s.occupiedTo b ∧ b.tuneAt < s.occupiedTo a)

/-- Claims on a chain that the new claim, taken on that chain, would overlap: one that has ended counts to the end of its
occupied interval. -/
def State.rivals (s : State) (c : Claim) : List Claim :=
  s.rf.claims.filter fun x => x.chain = c.chain && s.claimsOverlap x c

/-- The chains a claim with its first symbol at `t0` may use (R121, R122, R140). -/
def State.allowedChains (s : State) (b ch t0 : Nat) : List Nat :=
  let l := if (s.tp.band b).chainSplit = 1 then [2 * b + ch % 2] else [2 * b, 2 * b + 1]
  if (s.tp.band b).present then l.filter fun c =>
    bit (s.regAhead (Reg.TXC_CTRL c) (t0 - (s.ramp c + 100) * 1000)) 0 else []

/-- A claim taken on a chain, with the settings of the chain and its band that govern it (R140). -/
def State.onChain (s : State) (c : Claim) (chain : Nat) : Claim :=
  let tune := c.t0 - (s.ramp chain + 100) * 1000
  let fem := s.regAhead (Reg.TXC_FEM c.band) tune
  let coex := s.regAhead (Reg.TXC_COEX c.band) tune
  { c with chain := chain, ramp := bits (s.regAhead (Reg.TXC_CTRL chain) tune) 13 8, femLead := bits fem 23 16,
           femLag := bits fem 15 8, tail := bits fem 7 0, coex := bit coex 31, priRank := bits coex 27 24,
           reqLead := bits coex 15 0 }

/-- The instant from which a claim requests coexistence (R137). -/
def Claim.reqAt (c : Claim) : Nat := c.t0 - (c.ramp + c.reqLead) * 1000

/-- A claim has not reached its decision instant. -/
def Claim.undecided (c : Claim) : Bool := !c.ended && c.ask.isNone && (c.stage = .claimed || c.stage = .tuned)

/-- A transmission is past its decision instant and not ended. -/
def Claim.onAir (c : Claim) : Bool := !c.ended && (c.stage = .decided || c.stage = .on)

/-- Every claim in a list may be displaced by one of rank `r` (R123). -/
def clearable (l : List Claim) (r : Nat) : Bool := l.all fun x => x.undecided && decide (r < x.rank)

/-- Highest rank (least number) in a list of claims. -/
def topRank (l : List Claim) : Nat := l.foldl (fun m x => min m x.rank) 100

/-- Latest tune instant in a list of claims. -/
def lastTune (l : List Claim) : Nat := l.foldl (fun m x => max m x.tuneAt) 0

/-- The chain R123 clears, of those that can be cleared. -/
def State.chainToClear (s : State) (c : Claim) (l : List Nat) : Option Nat :=
  (l.filter fun n => clearable (s.rivals (s.onChain c n)) c.rank).foldl (fun m n =>
    match m with
    | none => some n
    | some k =>
      let a := s.rivals (s.onChain c k)
      let b := s.rivals (s.onChain c n)
      if topRank a < topRank b ∨ (topRank a = topRank b ∧ lastTune a < lastTune b) then some n else some k) none

/-- Withdraw a claim's cipher job (Table 14-5): a run in progress goes on and its output is discarded (R319). -/
def State.withdrawJob (s : State) (id : Nat) : State :=
  { s with cip := { s.cip with
      queue := s.cip.queue.filter fun j => j.owner != .txProtect id,
      units := s.cip.units.map fun x => match x.run with
        | some r => if r.job.owner = .txProtect id then { x with run := some { r with job := { r.job with void := true } } }
                    else x
        | none => x } }

/-- Remove a claim. -/
def State.dropClaim (s : State) (id : Nat) : State :=
  (s.withdrawJob id).setRf fun r => { r with claims := r.claims.filter fun c => c.id != id }

/-- A claim's attempt has ended before its decision instant: nothing of it is on the lines. -/
def State.endClaim (s : State) (c : Claim) : State := s.dropClaim c.id

/-- Claims that have ended go once their lines and blanking have returned and their occupied interval is over. -/
def State.purgeClaims (s : State) : State :=
  s.setRf fun r => { r with claims := r.claims.filter fun c =>
    !(c.ended && !c.fem && !c.blanking && decide (s.occupiedTo c ≤ s.now)) }

/-! ### Descriptors in the MAC -/

/-- The descriptor of a number. -/
def State.txDesc (s : State) (n : Nat) : Option TxDesc := s.rf.descs.find? fun x => x.num = n

/-- Replace a descriptor. -/
def State.setDesc (s : State) (x : TxDesc) : State :=
  s.setRf fun r => { r with descs := r.descs.map fun y => if y.num = x.num then x else y }

/-- An item is a frame of a descriptor. -/
def QItem.ownedBy (i : QItem) (n : Nat) : Bool :=
  match i.owner with
  | some o => o.desc = n
  | none => false

/-- Free every item a descriptor's frames hold in a queue. -/
def State.freeOwned (s : State) (q n : Nat) : State :=
  let x := s.queue q
  (s.setQueue q { x with items := x.items.filter fun i => !i.ownedBy n }).freeGaps q

/-- Release from a rewind queue the items of a flood, wherever they stand in it (R230, R278). -/
def State.releaseFlood (s : State) (q n : Nat) : State :=
  let x := s.queue q
  let mine := fun (l : List QItem) => (l.filter fun i => i.ownedBy n).length
  ((s.bumpBy (Reg.QUE_CNT 6) 31 (mine x.items)).setQueue q { x with
    items := x.items.filter fun i => !i.ownedBy n, read := x.read - mine (x.items.take x.read),
    mark := x.mark - mine (x.items.take x.mark), readMax := x.readMax - mine (x.items.take x.readMax) }).freeGaps q

/-- The frame at work of a descriptor stays queued for its next eligible cell (R34). -/
def State.untake (s : State) (x : TxDesc) : State :=
  let q := s.queue x.queue
  s.setQueue x.queue { q with items := q.items.map fun i => match i.owner with
    | some o => if o.desc = x.num then { i with taken := false } else i
    | none => i }

/-- The completion of a transmit descriptor (R224, Table 10-5). -/
def TxDesc.completion (x : TxDesc) (st : Status) (ring : Nat) : Completion :=
  let rest := decide (st ≠ .ok ∧ x.form ≠ .flood ∧ x.at_ + 1 < x.frags.length)
  { tag := x.tag, status := st, kind := .transmit, ring := BitVec.ofNat 3 ring, count := x.count,
    b4 := fld (min 255 x.attempts) 0 ||| fld (min 255 x.done) 8 ||| fld (b2n x.noNode) 16 ||| fld (b2n x.blocked) 17 |||
      fld (b2n rest) 18,
    b8 := pw x.lastTick, b12 := pw (x.lastTick / 2 ^ 32 % 65536 + 65536 * x.link) }

/-- A descriptor completes: its queued frames are freed, its claims that have not reached their decision are withdrawn,
and its completion is held; a relayed frame has none. -/
def State.txComplete (s : State) (x : TxDesc) (st : Status) : State :=
  let s1 := s.freeOwned x.queue x.num
  let s2 := if x.form = .flood then s1.releaseFlood x.rq x.num else s1
  let s3 := s2.setRf fun r => { r with
    descs := r.descs.filter fun y => y.num != x.num,
    waits := r.waits.filter fun w => w.desc != x.num }
  let s3 := { s3 with que := { s3.que with orphans := s3.que.orphans.filter fun o => o.1.desc != x.num } }
  let s4 := (s3.rf.claims.filter fun c => c.kind = .cell x.num && c.undecided).foldl (fun s c => s.endClaim c) s3
  match x.ring with
  | some k => s4.hold (x.completion st k)
  | none => s4

/-- A descriptor ends with no completion of its own: the new active chip completes it (R401, R402). -/
def State.txForget (s : State) (x : TxDesc) : State := s.txComplete { x with ring := none } .switchover

/-- A queue reset has discarded the frame at work of a descriptor (R276). -/
def State.orphaned (s : State) (n : Nat) : Bool := s.que.orphans.any fun o => o.1.desc = n

/-- Complete the descriptors whose queued frame a queue reset has discarded while no attempt of it runs (R276). -/
def State.settleOrphans (s : State) : State :=
  (s.que.orphans.filter fun o => !o.2).foldl (fun s o =>
    match s.txDesc o.1.desc with
    | some x => s.txComplete x .qReset
    | none => { s with que := { s.que with orphans := s.que.orphans.filter fun q => q != o } }) s

/-- An attempt of a cell transmission ends without having been acknowledged: LATE and PARAPET leave the frame queued
(R34, R220), any other status completes it; a frame whose item a queue reset discarded completes QRESET (R276). -/
def State.cellEnds (s : State) (n : Nat) (st : Status) : State :=
  match s.txDesc n with
  | none => s
  | some x =>
    if s.orphaned n then s.txComplete x .qReset
    else if st = .late ∨ st = .parapet then (s.untake x).setDesc { x with last := some st }
    else s.txComplete x st

/-- A beacon's attempt ends without being sent (R196). -/
def State.beaconEnds (s : State) (b : Nat) : State := s.bump (Reg.SCH_CNT b 6)

/-- A frame loses its acknowledgement claim: none is sent for it (R124). `mute` when that is for no want of a chain. -/
def State.ackLost (s : State) (id : Nat) (mute : Bool) : State :=
  s.setRf fun r => { r with
    frames := r.frames.map fun f => if f.ackClaim = some id then { f with ackClaim := none, mute := f.mute || mute } else f,
    piers := r.piers.map fun p => if p.ackClaim = some id then { p with ackClaim := none } else p }

/-- The acknowledgement wait opened for a claim is withdrawn. -/
def State.dropWait (s : State) (id : Nat) : State :=
  s.setRf fun r => { r with waits := r.waits.filter fun w => w.claim != id }

/-- A claim that has not reached its decision instant ends LATE (R34, R123). What becomes of the frame that owes an
acknowledgement is settled when it passes, or at its check deadline (R124). -/
def State.claimLate (s : State) (c : Claim) : State :=
  let s1 := (s.dropWait c.id).endClaim c
  match c.kind with
  | .cell n => s1.cellEnds n .late
  | .beacon _ _ => s1.beaconEnds c.band
  | .ack _ => s1.ackLost c.id false

/-- Displace claims (R123). -/
def State.displace (s : State) (l : List Claim) : State :=
  l.foldl (fun s c => (s.claimLate c).bump (Reg.TXC_CNT c.chain 6)) s

/-- Claim a chain (R122, R123): the state, and the claim as made when it succeeds. -/
def State.makeClaim (s0 : State) (c0 : Claim) : State × Option Claim :=
  let s := s0.purgeClaims
  let c := { c0 with id := s.rf.nextClaim }
  let l := s.allowedChains c.band c.channel c.t0
  let take := fun (s : State) (n : Nat) =>
    let y := s.onChain c n
    let x := { y with req := y.coex && decide (y.reqAt ≤ s.now) }
    (s.setRf fun r => { r with claims := r.claims ++ [x], nextClaim := r.nextClaim + 1 }, some x)
  match l.find? fun n => (s.rivals (s.onChain c n)).isEmpty with
  | some n => take s n
  | none => match s.chainToClear c l with
    | some n => take (s.displace (s.rivals (s.onChain c n))) n
    | none => (s, none)

/-- A work item of an index of Table 02-2 completes LATE (R36): in MAINTENANCE and ALARM no radio work is due, and indices 1
to 4 count nothing (R35). -/
def State.countLate (s : State) (i : Nat) : State :=
  if s.inStates [.maintenance, .alarm] then s else s.bump16 (Reg.TIME_LATE i)

/-! ### Blanking -/

/-- Listen-while-talk applies to a band: its declared isolation is at least 45 dB (R112). -/
def BandCfg.lwt (c : BandCfg) : Bool := decide (90 ≤ c.iso)

/-- A transmission on channel `ch` blanks a pier that serves channel `pc` of its band (R112, R136). -/
def BandCfg.blanks (c : BandCfg) (ch pc : Nat) : Bool :=
  !c.lwt || decide (ch ≤ pc + c.lwtExcl ∧ pc ≤ ch + c.lwtExcl)

/-- Some transmission blanks a channel of a band now. -/
def State.blankedBy (s : State) (b pc : Nat) : Bool :=
  s.rf.claims.any fun c => c.blanking && c.band = b && (s.tp.band b).blanks c.channel pc

end Sys2Proof.Machine
end

