-- ==== Sys2Proof/Machine/Lowpan.lean ====
section
/-! DEFINITION. 6LoWPAN adaptation over octet strings: the subset of Table 10-6 (R225), decompression (R226), compression
(R227), fragments (R228), the source routing header (R218) and the MPL option (R230, R231). The layouts of RFC 4944, 6282,
6554 and 7731 are those standards' (PRESUMED, log 79: the manual names them and does not restate them). -/

namespace Sys2Proof.Machine

/-! ### Octets -/

/-- Replace octets of a list. -/
def putAt (d : List Byte) (o : Nat) (v : List Byte) : List Byte := d.take o ++ v ++ d.drop (o + v.length)

/-- A list of `n` zero octets. -/
def zeros (n : Nat) : List Byte := List.replicate n 0

/-- A register's octets, the first in [31:24]. -/
def regOctets (w : Word) : List Byte := beBytes w.toNat 4

/-- Octets of padding options: Pad1 or PadN. -/
def padOptions (n : Nat) : List Byte :=
  match n with
  | 0 => []
  | 1 => [0]
  | k + 2 => [1, BitVec.ofNat 8 k] ++ zeros k

/-! ### The IPv6 header chain -/

/-- Octets of an extension header of type `nh` at offset `o`, as the IPv6 header chain is walked; none for another upper
layer. -/
def extLen (d : List Byte) (nh o : Nat) : Option Nat :=
  if nh = 0 ∨ nh = 43 ∨ nh = 60 ∨ nh = 135 ∨ nh = 139 ∨ nh = 140 then some (8 * (leAt d (o + 1) 1 + 1))
  else if nh = 44 then some 8
  else if nh = 51 then some (4 * (leAt d (o + 1) 1 + 2))
  else none

/-- Where the header chain of a datagram holds a header of type `want`, looking past extension headers. -/
def ipFind (d : List Byte) (want : Nat) (nh o fuel : Nat) : Option Nat :=
  match fuel with
  | 0 => none
  | k + 1 =>
    if nh = want then some o
    else match extLen d nh o with
      | some n => if d.length ≤ o then none else ipFind d want (leAt d o 1) (o + n) k
      | none => none

/-- The first header of a type in a datagram. -/
def ipHeader (d : List Byte) (want : Nat) : Option Nat := ipFind d want (leAt d 6 1) 40 (d.length + 1)

/-- A datagram holds a routing header. -/
def hasRouting (d : List Byte) : Bool := (ipHeader d 43).isSome

/-- A datagram's upper layer is ICMPv6 type 155, RPL control (R214). -/
def isRpl (d : List Byte) : Bool :=
  match ipHeader d 58 with
  | some o => decide (o < d.length) && leAt d o 1 = 155
  | none => false

/-- A datagram holds a routing header other than RFC 6554 source routing (R225). -/
def otherRouting (d : List Byte) : Bool :=
  match ipHeader d 43 with
  | some o => decide (o + 3 ≤ d.length) && leAt d (o + 2) 1 ≠ 3
  | none => false

/-- Destination address of a datagram. -/
def ipDst (d : List Byte) : BitVec 128 := BitVec.ofNat 128 (beNat (slice d 24 16))

/-! ### The source routing header (R218) -/

/-- Leading octets two addresses share, up to `n`. -/
def sharedOctets (a b : List Byte) (n : Nat) : Nat :=
  match n, a, b with
  | k + 1, x :: xs, y :: ys => if x = y then 1 + sharedOctets xs ys k else 0
  | _, _, _ => 0

/-- Insert an RFC 6554 header for the path `hops`, its last the final destination, and send the datagram to `first`
(R218). -/
def insertRoute (d : List Byte) (first : List Byte) (hops : List (List Byte)) : List Byte :=
  let h := hops.length
  let ci := (hops.dropLast).foldl (fun m a => min m (sharedOctets a first 15)) 15
  let ce := match hops.getLast? with
    | some a => sharedOctets a first 15
    | none => 15
  let addrs := (hops.dropLast).flatMap (fun a => a.drop ci) ++ (match hops.getLast? with
    | some a => a.drop ce
    | none => [])
  let pad := (8 - addrs.length % 8) % 8
  let hbh := leAt d 6 1 = 0
  let at_ := if hbh then 40 + 8 * (leAt d 41 1 + 1) else 40
  let nh := if hbh then leAt d 40 1 else leAt d 6 1
  let rh := leBytes nh 1 ++ leBytes ((addrs.length + pad) / 8) 1 ++ [3, BitVec.ofNat 8 h, BitVec.ofNat 8 (16 * ci + ce),
    BitVec.ofNat 8 (16 * pad), 0, 0] ++ addrs ++ zeros pad
  let d1 := putAt d (if hbh then 40 else 6) [43]
  let d2 := putAt d1 4 (beBytes (beNat (slice d 4 2) + rh.length) 2)
  let d3 := putAt d2 24 first
  d3.take at_ ++ rh ++ d3.drop at_

/-! ### The MPL option (R230, R231) -/

/-- The MPL option (type 0x6D) with S = 2, a 64-bit seed ID. Its M bit says that the sequence is the seed's newest. -/
def mplBytes (seed : U64) (seq : Byte) : List Byte := [0x6D, 10, 0xA0, seq] ++ beBytes seed.toNat 8

/-- The datagram with an MPL option put into its hop-by-hop options, in a header made for it when there is none (R230). -/
def mplInsert (d : List Byte) (seed : U64) (seq : Byte) : List Byte :=
  let d1 := putAt d 4 (beBytes (beNat (slice d 4 2) + 16) 2)
  if leAt d 6 1 = 0 then
    let n := 8 * (leAt d 41 1 + 1)
    let d2 := putAt d1 41 (leBytes (leAt d 41 1 + 2) 1)
    d2.take (40 + n) ++ mplBytes seed seq ++ padOptions 4 ++ d2.drop (40 + n)
  else
    let d2 := putAt d1 6 [0]
    d2.take 40 ++ leBytes (leAt d 6 1) 1 ++ [1] ++ mplBytes seed seq ++ padOptions 2 ++ d2.drop 40

/-- The first option of a type among the octets of hop-by-hop options: its octets after type and length. -/
def findOption (l : List Byte) (want : Nat) (fuel : Nat) : Option (List Byte) :=
  match fuel, l with
  | 0, _ => none
  | _, [] => none
  | k + 1, t :: r =>
    if t = 0 then findOption r want k
    else match r with
      | [] => none
      | n :: rest => if t.toNat = want then some (rest.take n.toNat) else findOption (rest.drop n.toNat) want k

/-- The seed identifier and the sequence of a datagram's MPL option, when it has one (R231). -/
def mplOption (d : List Byte) : Option (U64 × BitVec 16) :=
  if leAt d 6 1 ≠ 0 then none
  else match findOption (slice d 42 (8 * (leAt d 41 1 + 1) - 2)) 0x6D d.length with
    | none => none
    | some o =>
      let v := beNat (match leAt o 0 1 / 64 with
        | 0 => slice d 16 8
        | 1 => slice o 2 2
        | 2 => slice o 2 8
        | _ => slice o 10 8)
      some (BitVec.ofNat 64 v, BitVec.ofNat 16 (leAt o 1 1))

/-! ### Addresses and contexts (R227) -/

/-- The interface identifier derived from a link-layer address. -/
def MacAddr.iid (a : MacAddr) : List Byte :=
  match a with
  | .absent => zeros 8
  | .short x => [0, 0, 0, 0xFF, 0xFE, 0] ++ beBytes x.toNat 2
  | .ext x => beBytes (x.toNat ^^^ 2 ^ 57) 8

/-- An IPHC context: its prefix octets and its length in bits; none when it is not in use. -/
abbrev IphcCtx := List Byte × Nat

/-- The 64-bit prefix of a context, zero past its length. -/
def ctxPrefix (c : IphcCtx) : List Byte := beBytes (beNat (c.1.take 8) / 2 ^ (64 - c.2) * 2 ^ (64 - c.2)) 8

/-- A context's prefix is the first half of an address. -/
def ctxMatches (c : IphcCtx) (a : List Byte) : Bool := decide (0 < c.2) && a.take 8 == ctxPrefix c

/-- The context with the longest matching prefix, the lower CID among equals (R227). -/
def bestCtx (ctxs : List IphcCtx) (a : List Byte) : Option Nat :=
  (List.range ctxs.length).foldl (fun m i =>
    let c := ctxs.getD i ([], 0)
    if !ctxMatches c a then m
    else match m with
      | some j => if (ctxs.getD j ([], 0)).2 < c.2 then some i else m
      | none => some i) none

/-- How an address is sent: its context, the compression bits (SAC or DAC with SAM or DAM), and the octets carried (R227). An
IID that is not the link-layer one is carried in 64 bits. -/
def sendAddr (ctxs : List IphcCtx) (l2 : MacAddr) (a : List Byte) : Nat × Nat × List Byte :=
  if leAt a 0 1 = 0xFF then (0, 0, a)
  else match bestCtx ctxs a with
    | none => (0, 0, a)
    | some i => if a.drop 8 == l2.iid then (i, 7, []) else (i, 5, a.drop 8)

/-! ### Compression (R227) -/

/-- UDP ports in the shortest form: the two bits of the form and the octets. -/
def udpPorts (src dst : Nat) : Nat × List Byte :=
  if src / 16 = 0xF0B ∧ dst / 16 = 0xF0B then (3, [BitVec.ofNat 8 (src % 16 * 16 + dst % 16)])
  else if src / 256 = 0xF0 then (2, leBytes (src % 256) 1 ++ beBytes dst 2)
  else if dst / 256 = 0xF0 then (1, beBytes src 2 ++ leBytes (dst % 256) 1)
  else (0, beBytes src 2 ++ beBytes dst 2)

/-- The NHC form of the headers from offset `o` on, the first of type `nh`: hop-by-hop (EID 0), RFC 6554 routing (EID 3, as
Table 10-6 gives it) and UDP; the octets, none when the header is carried inline, and the offset they cover the datagram
to. -/
def nhcEncode (d : List Byte) (nh o fuel : Nat) : List Byte × Nat :=
  match fuel with
  | 0 => ([], o)
  | k + 1 =>
    if (nh = 0 ∨ (nh = 43 ∧ leAt d (o + 2) 1 = 3)) ∧ o + 8 * (leAt d (o + 1) 1 + 1) ≤ d.length ∧ leAt d (o + 1) 1 < 32 then
      let n := 8 * (leAt d (o + 1) 1 + 1)
      let next := leAt d o 1
      let r := nhcEncode d next (o + n) k
      let eid := if nh = 0 then 0 else 3
      (BitVec.ofNat 8 (0xE0 + 2 * eid + b2n (!r.1.isEmpty)) :: (if r.1.isEmpty then leBytes next 1 else []) ++
        leBytes (n - 2) 1 ++ slice d (o + 2) (n - 2) ++ r.1, r.2)
    else if nh = 17 ∧ o + 8 ≤ d.length ∧ beNat (slice d (o + 4) 2) = d.length - o then
      let p := udpPorts (beNat (slice d o 2)) (beNat (slice d (o + 2) 2))
      (BitVec.ofNat 8 (0xF0 + p.1) :: p.2 ++ slice d (o + 6) 2, o + 8)
    else ([], o)

/-- Compress a datagram (R227): its compressed headers, and the octets of the datagram they cover. -/
def lowpanEncode (d : List Byte) (l2src l2dst : MacAddr) (ctxs : List IphcCtx) : List Byte × Nat :=
  let vtf := beNat (slice d 0 4)
  let tc := vtf / 2 ^ 20 % 256
  let flow := vtf % 2 ^ 20
  let tcRot := tc % 4 * 64 + tc / 4
  let tf : Nat × List Byte :=
    if tc = 0 ∧ flow = 0 then (3, [])
    else if flow = 0 then (2, leBytes tcRot 1)
    else if tc = 0 then (1, beBytes flow 3)
    else (0, leBytes tcRot 1 ++ beBytes flow 3)
  let nh := leAt d 6 1
  let n := nhcEncode d nh 40 (d.length + 1)
  let hop := leAt d 7 1
  let hlim := if hop = 1 then 1 else if hop = 64 then 2 else if hop = 255 then 3 else 0
  let src := sendAddr ctxs l2src (slice d 8 16)
  let dst := sendAddr ctxs l2dst (slice d 24 16)
  let cid := decide (src.1 ≠ 0 ∨ dst.1 ≠ 0)
  let m := b2n (leAt d 24 1 = 0xFF)
  ([BitVec.ofNat 8 (0x60 + 8 * tf.1 + 4 * b2n (!n.1.isEmpty) + hlim),
    BitVec.ofNat 8 (128 * b2n cid + 16 * src.2.1 + 8 * m + dst.2.1)] ++
    (if cid then [BitVec.ofNat 8 (16 * src.1 + dst.1)] else []) ++ tf.2 ++ (if n.1.isEmpty then leBytes nh 1 else []) ++
    (if hlim = 0 then leBytes hop 1 else []) ++ src.2.2 ++ dst.2.2 ++ n.1, n.2)

/-! ### Decompression (R225, R226) -/

/-- What a deciphered MAC payload holds: a datagram whole, its first or a later fragment, or an element outside Table
10-6. -/
inductive LowpanKind where
  | whole | frag1 | fragN | unsupported
  deriving DecidableEq, Repr, Inhabited

/-- A 6LoWPAN payload: the contexts its IPHC refers to, the datagram_size, datagram_tag and offset in octets of a
fragment, and the uncompressed octets it covers. -/
structure Lowpan where
  kind : LowpanKind := .unsupported
  ctxs : List Nat := []
  size : Nat := 0
  tag : Nat := 0
  offset : Nat := 0
  data : List Byte := []
  deriving DecidableEq, Repr, Inhabited

/-- A unicast address from its compression bits (SAC or DAC, then SAM or DAM): the address and the octets left. -/
def readAddr (bits_ : Nat) (c : IphcCtx) (l2 : MacAddr) (src : Bool) (l : List Byte) : Option (List Byte × List Byte) :=
  let take := fun (n : Nat) (f : List Byte → List Byte) => if n ≤ l.length then some (f (l.take n), l.drop n) else none
  let link := [0xFE, 0x80, 0, 0, 0, 0, 0, 0]
  let short := fun v => [0, 0, 0, 0xFF, 0xFE, 0] ++ v
  match bits_ with
  | 0 => take 16 id
  | 1 => take 8 fun v => link ++ v
  | 2 => take 2 fun v => link ++ short v
  | 3 => some (link ++ l2.iid, l)
  | 4 => if src then some (zeros 16, l) else none
  | 5 => take 8 fun v => ctxPrefix c ++ v
  | 6 => take 2 fun v => ctxPrefix c ++ short v
  | _ => some (ctxPrefix c ++ l2.iid, l)

/-- A multicast address from its compression bits (DAC, DAM). -/
def readMulticast (bits_ : Nat) (c : IphcCtx) (l : List Byte) : Option (List Byte × List Byte) :=
  let take := fun (n : Nat) (f : List Byte → List Byte) => if n ≤ l.length then some (f (l.take n), l.drop n) else none
  match bits_ with
  | 0 => take 16 id
  | 1 => take 6 fun v => [0xFF] ++ v.take 1 ++ zeros 9 ++ v.drop 1
  | 2 => take 4 fun v => [0xFF] ++ v.take 1 ++ zeros 11 ++ v.drop 1
  | 3 => take 1 fun v => [0xFF, 2] ++ zeros 13 ++ v
  | 4 => take 6 fun v => [0xFF] ++ v.take 2 ++ [BitVec.ofNat 8 c.2] ++ ctxPrefix c ++ v.drop 2
  | _ => none

/-- The headers in NHC form at the head of some octets: the type of the first, their octets (a UDP length left 0) with where
a UDP header begins among them, and the octets left; none for a form outside Table 10-6. -/
def nhcDecode (l : List Byte) (fuel : Nat) : Option (Nat × List Byte × Option Nat × List Byte) :=
  match fuel, l with
  | 0, _ => none
  | _, [] => none
  | k + 1, b :: r =>
    if b.toNat / 16 = 14 then
      let eid := b.toNat / 2 % 8
      let nh := b.toNat % 2
      let r1 := if nh = 0 then r.drop 1 else r
      let n := leAt r1 0 1
      let body := slice r1 1 n
      let after := r1.drop (1 + n)
      let pad := if eid = 0 then padOptions ((8 - (n + 2) % 8) % 8) else []
      let full := body ++ pad
      if (eid ≠ 0 ∧ eid ≠ 3) ∨ r1.length < 1 + n ∨ (full.length + 2) % 8 ≠ 0 ∨ (eid = 3 ∧ leAt body 0 1 ≠ 3) then none
      else
        let type := if eid = 0 then 0 else 43
        let head := fun (next : Nat) => leBytes next 1 ++ leBytes ((full.length + 2) / 8 - 1) 1 ++ full
        if nh = 0 then some (type, head (leAt r 0 1), none, after)
        else match nhcDecode after k with
          | some (next, hs, udp, rest) => some (type, head next ++ hs, udp.map (· + full.length + 2), rest)
          | none => none
    else if b.toNat / 8 = 30 ∧ b.toNat / 4 % 2 = 0 then
      let p := b.toNat % 4
      let n := match p with
        | 0 => 4 | 1 => 3 | 2 => 3 | _ => 1
      let ports := match p with
        | 0 => r.take 4
        | 1 => r.take 2 ++ [0xF0] ++ slice r 2 1
        | 2 => [0xF0] ++ r.take 1 ++ slice r 1 2
        | _ => beBytes (0xF0B0 + leAt r 0 1 / 16) 2 ++ beBytes (0xF0B0 + leAt r 0 1 % 16) 2
      if r.length < n + 2 then none
      else some (17, ports ++ [0, 0] ++ slice r n 2, some 0, r.drop (n + 2))
    else none

/-- Decompress an IPHC payload: `size` is the datagram_size of a fragment, or 0 for a whole datagram. -/
def iphcDecode (l : List Byte) (l2src l2dst : MacAddr) (ctxs : List IphcCtx) (size : Nat) : Option (List Byte × List Nat) :=
  match l with
  | b0 :: b1 :: r0 =>
    let a := b0.toNat
    let b := b1.toNat
    let cid := if 128 ≤ b then leAt r0 0 1 else 0
    let r := if 128 ≤ b then r0.drop 1 else r0
    let sci := cid / 16
    let dci := cid % 16
    let tf := a / 8 % 4
    let tfLen := match tf with
      | 0 => 4 | 1 => 3 | 2 => 1 | _ => 0
    let t := beNat (r.take tfLen)
    let rot := fun (v : Nat) => v % 64 * 4 + v / 64
    let vtf := match tf with
      | 0 => rot (t / 2 ^ 24) * 2 ^ 20 + t % 2 ^ 20
      | 1 => t / 2 ^ 22 * 2 ^ 20 + t % 2 ^ 20
      | 2 => rot t * 2 ^ 20
      | _ => 0
    let r1 := r.drop tfLen
    let nhc := a / 4 % 2 = 1
    let r2 := if nhc then r1 else r1.drop 1
    let hop := match a % 4 with
      | 0 => leAt r2 0 1 | 1 => 1 | 2 => 64 | _ => 255
    let r3 := if a % 4 = 0 then r2.drop 1 else r2
    let sac := b / 16 % 8
    let mdac := b % 16
    if r.length < tfLen + (if nhc then 0 else 1) + (if a % 4 = 0 then 1 else 0) then none
    else match readAddr sac (ctxs.getD sci ([], 0)) l2src true r3 with
      | none => none
      | some (src, r4) =>
        match (if 8 ≤ mdac then readMulticast (mdac % 8) (ctxs.getD dci ([], 0)) r4
               else readAddr mdac (ctxs.getD dci ([], 0)) l2dst false r4) with
        | none => none
        | some (dst, r5) =>
          let hs : Option (Nat × List Byte × Option Nat × List Byte) :=
            if nhc then nhcDecode r5 (r5.length + 1) else some (leAt r1 0 1, [], none, r5)
          match hs with
          | none => none
          | some (nh, ext, udp, rest) =>
            let total := if size = 0 then 40 + ext.length + rest.length else size
            let ext1 := match udp with
              | some o => putAt ext (o + 4) (beBytes (total - 40 - o) 2)
              | none => ext
            some (beBytes (0x60000000 + vtf) 4 ++ beBytes (total - 40) 2 ++ leBytes nh 1 ++ leBytes hop 1 ++ src ++ dst ++
              ext1 ++ rest, (if 5 ≤ sac then [sci] else []) ++ (if (mdac % 8) / 4 = 1 then [dci] else []))
  | _ => none

/-- The datagram at the head of a payload, whole or the first part of one of `size` octets (R225). -/
def datagramDecode (l : List Byte) (l2src l2dst : MacAddr) (ctxs : List IphcCtx) (size : Nat) :
    Option (List Byte × List Nat) :=
  let r : Option (List Byte × List Nat) :=
    if leAt l 0 1 = 0x41 then some (l.drop 1, [])
    else if leAt l 0 1 / 32 = 3 then iphcDecode l l2src l2dst ctxs size else none
  match r with
  | some (d, cs) => if d.length < 40 ∨ otherRouting d then none else some (d, cs)
  | none => none

/-- What a MAC payload holds (R225, R229). -/
def lowpanDecode (l : List Byte) (l2src l2dst : MacAddr) (ctxs : List IphcCtx) : Lowpan :=
  let b := leAt l 0 1
  let size := leAt l 0 1 % 8 * 256 + leAt l 1 1
  let tag := beNat (slice l 2 2)
  if b / 8 = 24 ∧ 4 ≤ l.length then
    match datagramDecode (l.drop 4) l2src l2dst ctxs (max 1 size) with
    | some (d, cs) => { kind := .frag1, ctxs := cs, size := size, tag := tag, data := d }
    | none => {}
  else if b / 8 = 28 ∧ 5 ≤ l.length then
    { kind := .fragN, size := size, tag := tag, offset := 8 * leAt l 4 1, data := l.drop 5 }
  else match datagramDecode l l2src l2dst ctxs 0 with
    | some (d, cs) => { kind := .whole, ctxs := cs, size := d.length, data := d }
    | none => {}

/-! ### Fragments (R228) -/

/-- The FRAGN payloads of a datagram from offset `o` on. -/
def fragRest (d : List Byte) (size tag room o fuel : Nat) : List (List Byte) :=
  match fuel with
  | 0 => []
  | k + 1 =>
    if d.length ≤ o then []
    else
      let left := d.length - o
      let n := if left + 5 ≤ room then left else (room - 5) / 8 * 8
      if n = 0 then []
      else (beBytes (0xE000 + size) 2 ++ beBytes tag 2 ++ [BitVec.ofNat 8 (o / 8)] ++ (d.drop o).take n) ::
        fragRest d size tag room (o + n) k

/-- The MAC payloads of a compressed datagram (R228): `hdr` are its compressed headers, which cover `cov` octets; none
when it completes LENGTH. -/
def fragments (d hdr : List Byte) (cov room tag : Nat) : Option (List (List Byte) × Bool) :=
  if 2047 < d.length then none
  else if hdr.length + (d.length - cov) ≤ room then some ([hdr ++ d.drop cov], false)
  else if room < hdr.length + 4 ∨ room < 13 then none
  else
    let y := room - 4 - hdr.length
    let x := (cov + y) / 8 * 8 - cov
    if (cov + y) / 8 * 8 < cov then none
    else
      let first := beBytes (0xC000 + d.length) 2 ++ beBytes tag 2 ++ hdr ++ (d.drop cov).take x
      some (first :: fragRest d d.length tag room (cov + x) (d.length + 1), true)

end Sys2Proof.Machine
end

