-- ==== Sys2Proof/Machine/MacTx.lean ====
section
/-! DEFINITION. Sending (R216 to R224, R227, R228) and managed flooding (R230): the transmit descriptor, its resolution to
a link peer, its fragments, and what becomes of each frame. -/

namespace Sys2Proof.Machine

/-- The mesh address of a node, from its context (R251). -/
def State.meshAddr (s : State) (c : Ctx) : List Byte :=
  let n := c.cluster.toNat
  regOctets (s.reg (Reg.TBL_MESH_PFX_A n)) ++ regOctets (s.reg (Reg.TBL_MESH_PFX_B n)) ++
    [0, 0, 0, 0xFF, 0xFE, 0] ++ beBytes c.shortAddr.toNat 2

/-- The IPHC contexts: prefix octets with their length, none where VALID = 0 or, on transmit, where COMPRESS = 0. -/
def State.iphcCtxs (s : State) (tx : Bool) : List IphcCtx :=
  (List.range 16).map fun i =>
    let c := s.reg (Reg.MAC_IPHC_CFG i)
    if bit c 31 && (!tx || bit c 30) then
      (regOctets (s.reg (Reg.MAC_IPHC_PFX_A i)) ++ regOctets (s.reg (Reg.MAC_IPHC_PFX_B i)), bits c 6 0)
    else ([], 0)

/-! ### Room -/

/-- Octets of MPDU a band's frame carries: MAX_PSDU less its FCS. -/
def BandCfg.mpduMax (c : BandCfg) : Nat := c.maxPsdu - c.fcsLen

/-- Octets of MPDU that a frame may have on every band present of those given. -/
def TrussParams.mpduOver (p : TrussParams) (a b : Bool) : Nat :=
  min (if p.bandA.present && a then p.bandA.mpduMax else 2047) (if p.bandB.present && b then p.bandB.mpduMax else 2047)

/-- Octets of MPDU that a frame may have on every band present that a cluster is served on (its BAND 0 is both). -/
def TrussParams.mpduOf (p : TrussParams) (cluster : Nat) : Nat :=
  let b := (p.clusters.getD cluster {}).band
  p.mpduOver (b ≠ 2) (b ≠ 1)

/-- Octets of MAC payload in an MPDU of `mpdu` octets, its header being `hdr` octets. -/
def payloadRoom (mpdu hdr level : Nat) : Nat := mpdu - (hdr + micLen level)

/-! ### Resolution to a node -/

/-- The node of a MESH result (R250): its cluster and an interface identifier. -/
def State.meshNode (s : State) (cluster : Nat) (iid : Nat) : Option Nat :=
  let c := s.tp.clusters.getD cluster {}
  if iid / 2 ^ 16 = 0x000000FFFE00 then
    if iid % 2 ^ 16 < c.nodes then some (c.base + iid % 2 ^ 16) else none
  else
    match s.emLookup (BitVec.ofNat 64 (iid ^^^ 2 ^ 57)) with
    | some e => if c.base ≤ e.nidx.toNat ∧ e.nidx.toNat < c.base + c.nodes then some e.nidx.toNat else none
    | none => none

/-- Stage 2 for a datagram (R250): its node; a lookup that gives none is counted. -/
def State.lookupNode (s : State) (dst : BitVec 128) : State × Option Nat :=
  match s.lpmLookup dst with
  | none => (s.bump (Reg.TBL_CNT 11), none)
  | some e => match lpmResult e.result with
    | .drop => (s.bump (Reg.TBL_CNT 12), none)
    | .mesh c => match s.meshNode c (dst.toNat % 2 ^ 64) with
      | some n => (s, some n)
      | none => (s.bump (Reg.TBL_CNT 13), none)
    | _ => (s, none)

/-- The lookup of a FLOOD (R250): whether its result is MESH. A flood has no one node, so only the result counts. -/
def State.lookupMesh (s : State) (dst : BitVec 128) : State × Bool :=
  match s.lpmLookup dst with
  | none => (s.bump (Reg.TBL_CNT 11), false)
  | some e => match lpmResult e.result with
    | .drop => (s.bump (Reg.TBL_CNT 12), false)
    | .mesh _ => (s, true)
    | _ => (s, false)

/-- The route of a node's context, ROUTE[0] first, and its link peer (R218). -/
def Ctx.hops (c : Ctx) : List Nat := (c.route.take c.hopCount.toNat).map fun h => h.toNat % 2 ^ 18

/-! ### Frames into the downlink queue -/

/-- A queue is device-consumed and of type data or control (R269). -/
def Queue.downlink (x : Queue) : Bool := x.consumer = 1 && (x.type = .data || x.type = .control)

/-- Queue the frame at work of a descriptor (R223): a frame dropped at enqueue completes its descriptor NO_ROOM (R273),
and one whose node names no device-consumed queue completes it UNSUPPORTED (R269). -/
def State.queueFrame (s : State) (x : TxDesc) : State :=
  if !(s.queue x.queue).downlink then (s.bump (Reg.QUE_CNT 8)).txComplete x .unsupported
  else
    let f := x.frags.getD x.at_ []
    match s.enqueue x.queue { len := f.length, aux := pw x.peer, bytes := f, owner := some ⟨x.num, x.at_⟩ } with
    | (s1, some _) => s1
    | (s1, none) => s1.txComplete x .noRoom

/-- Add a descriptor to the MAC. -/
def State.addDesc (s : State) (x : TxDesc) : State × TxDesc :=
  let y := { x with num := s.rf.nextDesc, fetchTick := s.tick }
  (s.setRf fun r => { r with descs := r.descs ++ [y], nextDesc := r.nextDesc + 1 }, y)

/-- The default RETRIES and LIFETIME of MAC_RETRY. -/
def State.dfltRetries (s : State) : Nat := s.regFld Reg.MAC_RETRY 3 0
def State.dfltLifetime (s : State) : Nat := s.regFld Reg.MAC_RETRY 31 16

/-- MIN_SEC of MAC_CTRL. -/
def State.minSec (s : State) : Nat := s.regFld Reg.MAC_CTRL 18 16

/-- The contexts of some nodes, fetched in order: none when a line fails its check (R21). -/
def State.fetchAll (s : State) (l : List Nat) : State × Option (List Ctx) :=
  l.foldl (fun acc n => match acc.2 with
    | none => acc
    | some cs => match acc.1.fetchCtx n with
      | (s1, some c) => (s1, some (cs ++ [c]))
      | (s1, none) => (s1, none)) (s, some [])

/-- The link peer of a node (R218). -/
def Ctx.peerOf (c : Ctx) (n : Nat) : Nat :=
  match c.hops with
  | [] => n
  | a :: _ => a

/-- The MAC payloads of data for a node (R218, R227, R228), with whether a datagram_tag was used; none for LENGTH. `via` are
the contexts of the route past the link peer. -/
def State.txFrags (s : State) (form : TxForm) (level : Nat) (c pc : Ctx) (via : List Ctx) (data : List Byte) :
    Option (List (List Byte) × Bool) :=
  let room := payloadRoom (s.tp.mpduOf pc.cluster.toNat) (unicastHeaderLen level) level
  if form = .payload then if room < data.length then none else some ([data], false)
  else
    let d := if c.hopCount = 0 then data else insertRoute data (s.meshAddr pc) (via.map s.meshAddr ++ [s.meshAddr c])
    let r := lowpanEncode d (.short s.brShort) (.short pc.shortAddr) (s.iphcCtxs true)
    fragments d r.1 r.2 room (s.regFld Reg.MAC_FRAG_TAG 15 0)

/-- datagram_tag advances by one for each datagram fragmented (R228). -/
def State.tagUsed (s : State) (cut : Bool) : State :=
  if cut then s.setFld Reg.MAC_FRAG_TAG 15 0 (s.regFld Reg.MAC_FRAG_TAG 15 0 + 1) else s

/-- Send a datagram or a MAC payload to a node (R218, R219, R227, R228). `x` carries the descriptor's own settings. -/
def State.sendTo (s : State) (x0 : TxDesc) (nidx : Option Nat) (data : List Byte) : State :=
  let (s0, x) := s.addDesc x0
  let noNode := fun (s : State) => s.txComplete { x with noNode := true } .noAck
  match nidx with
  | none => noNode s0
  | some n =>
    match s0.fetchCtx n with
    | (s1, none) => s1.txComplete x .integrity
    | (s1, some c) =>
      let peer := c.peerOf n
      if !c.valid ∨ 8 < c.hopCount.toNat then noNode s1
      else match (if peer = n then (s1, some c) else s1.fetchCtx peer) with
        | (s2, none) => s2.txComplete x .integrity
        | (s2, some pc) =>
          if !pc.valid then noNode s2
          else if c.blocked ∨ pc.blocked then (s2.bump (Reg.MAC_CNT 3)).txComplete { x with blocked := true } .noAck
          else match s2.fetchAll (c.hops.drop 1) with
            | (s3, none) => s3.txComplete x .integrity
            | (s3, some via) =>
              let y := { x with node := n, peer := peer, queue := pc.queue.toNat,
                                overhead := unicastHeaderLen x.level + micLen x.level }
              match s3.txFrags x.form x.level c pc via data with
              | none => s3.txComplete y .length
              | some (fs, cut) => ((s3.tagUsed cut).setDesc { y with frags := fs }).queueFrame { y with frags := fs }

/-- Place the frames of a flood in its rewind queue: all of them, or none (R230, R273). -/
def State.holdFlood (s : State) (x : TxDesc) : State :=
  let q := s.queue x.rq
  if q.type = .disabled then (s.bumpBy (Reg.QUE_CNT 9) 31 x.frags.length).txComplete x .noRoom
  else if q.type ≠ .rewind ∨ q.resetDrops.isSome ∨ q.depth < q.items.length + x.frags.length + 1 then s.txComplete x .noRoom
  else
    let step := fun (a : State × Bool × Nat) (f : List Byte) =>
      match a.1.enqueue x.rq { len := f.length, bytes := f, owner := some ⟨x.num, a.2.2⟩ } with
      | (s1, some _) => (s1, a.2.1, a.2.2 + 1)
      | (s1, none) => (s1, false, a.2.2 + 1)
    match x.frags.foldl step (s, true, 0) with
    | (s1, true, _) => s1
    | _ => s.txComplete x .noRoom

/-- The MAC payloads of a flood (R230 step 3), with whether a datagram_tag was used; none for LENGTH. -/
def State.floodFrags (s : State) (d : List Byte) : Option (List (List Byte) × Bool) :=
  let level := s.regFld Reg.MAC_BC_KEY 30 28
  let r := lowpanEncode d (.ext s.brEui) (.short 0xFFFF) (s.iphcCtxs true)
  fragments d r.1 r.2 (payloadRoom (s.tp.mpduOver true true) (floodHeaderLen level) level) (s.regFld Reg.MAC_FRAG_TAG 15 0)

/-- Flood a datagram that carries its MPL option (R230 steps 3 and 4). -/
def State.startFlood (s : State) (x0 : TxDesc) (d : List Byte) : State :=
  let level := s.regFld Reg.MAC_BC_KEY 30 28
  let (s1, x) := s.addDesc { x0 with form := .flood, level := level, noAr := true,
                                     overhead := floodHeaderLen level + micLen level,
                                     reps := s.regFld Reg.MAC_FLOOD 23 20 }
  match s1.floodFrags d with
  | none => s1.txComplete x .length
  | some (fs, cut) =>
    let y := { x with frags := fs }
    ((s1.tagUsed cut).setDesc y).holdFlood y

/-- Insert a flood's key into the seen-cache (R230, R231, R232). -/
def State.floodSeen (s : State) (seed : U64) (seq : BitVec 16) : State := s.seenPut seed seq s.tp.seenAge

/-- FLOOD_REPETITION (R230): the next repetition of a flood begins, once the previous one has been sent and the flood is
the oldest of its rewind queue. -/
def State.floodRepetition (s : State) (n : Nat) : State :=
  match s.txDesc n with
  | none => s
  | some x =>
    let rq := s.queue x.rq
    let oldest := match rq.items with
      | i :: _ => i.ownedBy n
      | [] => false
    if x.form ≠ .flood ∨ x.left ≠ 0 ∨ x.reps = 0 ∨ !oldest ∨ rq.consumer ≠ 1 ∨ !s.serving then s
    else
      let k := x.frags.length
      let again := decide (k ≤ rq.readMax)
      let s1 := s.setQueue x.rq { rq with mark := 0, read := k, readMax := max rq.readMax k }
      let s2 := if again then s1.bumpBy (Reg.QUE_CNT 5) 31 k else s1
      let y := { x with left := k }
      let s3 := s2.setDesc y
      if !(s3.queue x.queue).downlink then (s3.bump (Reg.QUE_CNT 8)).txComplete y .unsupported
      else
        let put := fun (a : State × Bool × Nat) (f : List Byte) =>
          if !a.2.1 then a
          else match a.1.enqueue x.queue { len := f.length, bytes := f, owner := some ⟨n, a.2.2⟩ } with
            | (t, some _) => (t, true, a.2.2 + 1)
            | (t, none) => (t, false, a.2.2 + 1)
        match y.frags.foldl put (s3, true, 0) with
        | (t, true, _) => t
        | (t, false, _) => t.txComplete y .noRoom

/-! ### The fetched descriptor -/

/-- FLAGS, FORM and the fields of Table 10-4 that must be 0 or in range. -/
def txFieldsOk (s : State) (d : Desc) : Bool :=
  let form := d.byte 4
  let fl := form = 2
  decide (form ≤ 2) && decide (d.byte 5 < 4) && (d.byte 5 / 2 = 0 || form = 1) && decide (d.byte 6 < 8) &&
  (decide (d.byte 7 ≤ 15) || d.byte 7 = 255) && decide ((d.word 2).toNat < 2 ^ 18) &&
  (if fl then decide (d.half 24 < 1024 ∧ 992 ≤ d.half 26 ∧ d.half 26 < 1024)
   else d.half 24 = 0 && d.half 26 = 0 && d.byte 28 = 0) &&
  d.byte 29 = 0 && d.byte 30 = 0 && d.byte 31 % 128 = 0 &&
  (if d.byte 6 = 0 then bit (s.reg Reg.MAC_CTRL) 4 else decide (s.minSec ≤ d.byte 6)) &&
  (!fl || ((s.queue (d.half 24)).type = .data && (s.queue (d.half 26)).type = .rewind))

/-- The datagram of a FLOOD descriptor (R230 steps 1 and 2), its sequence the next. -/
def State.floodDatagram (s : State) (d : Desc) (data : List Byte) : List Byte :=
  mplInsert (putAt data 7 [BitVec.ofNat 8 (if d.byte 28 = 0 then s.tp.floodTtl else d.byte 28)]) s.brEui
    (BitVec.ofNat 8 (s.regFld Reg.MAC_FLOOD 31 24))

/-- The node a DATAGRAM or PAYLOAD descriptor is for, when it has one (R218). -/
def State.txNode (s : State) (d : Desc) (data : List Byte) : Option Nat :=
  if d.byte 5 % 2 = 1 ∨ d.byte 4 = 1 then some (d.word 2).toNat else (s.lookupNode (ipDst data)).2

/-- A descriptor whose LEN is out of range, or whose frame or datagram could not be sent within R228 or MAX_PSDU (R217). One
whose node or route is not known is judged by what any band carries. -/
def State.neverFits (s : State) (d : Desc) (data : List Byte) : Bool :=
  let len := d.half 0
  let level := d.byte 6 % 8
  let m := fun (b : BandCfg) => if b.present then b.mpduMax else 0
  let loose := if d.byte 4 = 1 then decide (payloadRoom (max (m s.tp.bandA) (m s.tp.bandB)) (unicastHeaderLen level) level < len)
    else decide (2047 < len)
  len = 0 || len = 0xFFFF || decide (d.byte 4 ≤ 2) && (
    if d.byte 4 = 2 then (s.floodFrags (s.floodDatagram d data)).isNone
    else match s.txNode d data with
      | none => loose
      | some n =>
        let c := (s.line n).ctx
        let p := c.peerOf n
        let ok := fun k => s.lineUsable k && (s.line k).ctx.valid
        if ok n && ok p && decide (c.hopCount.toNat ≤ 8) && (c.hops.drop 1).all s.lineUsable then
          (s.txFrags (if d.byte 4 = 1 then .payload else .datagram) level c (s.line p).ctx
            ((c.hops.drop 1).map fun h => (s.line h).ctx) data).isNone
        else loose)

/-- Complete a descriptor at fetch, before anything of it is queued. -/
def State.txRefuse (s : State) (ring count : Nat) (d : Desc) (st : Status) : State :=
  s.hold { tag := d.tag, status := st, kind := .transmit, ring := BitVec.ofNat 3 ring, count := count }

/-- A fetched transmit descriptor with its data (R217, R218, R230). -/
def State.txAccept (s : State) (ring count : Nat) (d : Desc) (data : List Byte) : State :=
  let x : TxDesc := {
    num := 0, ring := some ring, tag := d.tag, count := count, level := d.byte 6,
    form := if d.byte 4 = 1 then .payload else if d.byte 4 = 2 then .flood else .datagram,
    retries := if d.byte 7 = 255 then s.dfltRetries else d.byte 7,
    lifetime := if d.half 20 = 0 then s.dfltLifetime else d.half 20,
    power := if d.half 22 = 0x8000 then none else some (signed (d.half 22) 16),
    noAr := d.byte 4 = 1 && d.byte 5 / 2 = 1 }
  if s.neverFits d data then s.txRefuse ring count d .length
  else if !txFieldsOk s d then s.txRefuse ring count d .unsupported
  else if d.byte 4 = 2 then
    let r := if d.byte 5 % 2 = 1 then (s, true) else s.lookupMesh (ipDst data)
    if !r.2 then r.1.hold ({ x with noNode := true }.completion .noAck ring)
    else
      let seq := r.1.regFld Reg.MAC_FLOOD 31 24
      let d1 := r.1.floodDatagram d data
      let s1 := r.1.setFld Reg.MAC_FLOOD 31 24 (seq + 1)
      (s1.floodSeen s.brEui (BitVec.ofNat 16 seq)).startFlood { x with queue := d.half 24, rq := d.half 26 } d1
  else if d.byte 4 = 0 ∧ hasRouting data then s.txRefuse ring count d .unsupported
  else if d.byte 5 % 2 = 1 ∨ d.byte 4 = 1 then s.sendTo x (some (d.word 2).toNat) data
  else
    let r := s.lookupNode (ipDst data)
    r.1.sendTo x r.2 data

/-! ### The end of a frame -/

/-- A frame of a descriptor is done (R220, R223): the next fragment is queued, or the descriptor completes OK. -/
def State.frameDone (s : State) (x : TxDesc) : State :=
  let y := { x with done := x.done + 1, tries := 0, charged := false, heldSince := none, held := false, last := none }
  let last := decide (x.frags.length ≤ x.at_ + 1)
  if s.orphaned x.num then s.txComplete y (if last then .ok else .qReset)
  else
    let s1 := s.freeOwned x.queue x.num
    if last then s1.txComplete y .ok
    else
      let z := { y with at_ := x.at_ + 1 }
      (s1.setDesc z).queueFrame z

/-- Free one taken frame of a descriptor by its index. -/
def State.freeFrame (s : State) (q n i : Nat) : State :=
  let x := s.queue q
  (s.setQueue q { x with items := x.items.filter fun it => !(it.owner = some ⟨n, i⟩) }).freeGaps q

/-- A flood frame's ramp-down has ended (R230): after the last frame of the last repetition the flood completes OK. -/
def State.floodSent (s : State) (x : TxDesc) (i : Nat) : State :=
  let y := { x with left := x.left - 1, reps := if x.left = 1 then x.reps - 1 else x.reps, done := x.frags.length }
  if s.orphaned x.num then s.txComplete y .qReset
  else
    let s1 := s.freeFrame x.queue x.num i
    if y.left = 0 ∧ y.reps = 0 then s1.txComplete y .ok else s1.setDesc y

/-- An acknowledgement wait has closed without an accepted acknowledgement (R220). -/
def State.waitFailed (s : State) (n : Nat) : State :=
  match s.txDesc n with
  | none => s
  | some x =>
    let s1 := s.bump (Reg.MAC_CNT 22)
    let y := { x with tries := x.tries + 1, last := some .noAck }
    if s1.orphaned n then s1.txComplete y .qReset
    else if y.retries + 1 ≤ y.tries then
      ((s1.bump (Reg.MAC_CNT 23)).updCtx x.peer fun c => { c with noackCount := satAdd c.noackCount 1 }).txComplete y .noAck
    else (s1.untake y).setDesc y

/-- LIFETIME_EXPIRY (R222): a frame still incomplete LIFETIME ticks after its fetch. -/
def State.lifetimeExpiry (s : State) (n : Nat) : State :=
  match s.txDesc n with
  | none => s
  | some x =>
    if s.tick < x.fetchTick + x.lifetime ∨ x.lifetime = 0 then s
    else
      let st := x.last.getD .timeout
      let s1 := s.noteWait (s.line x.peer).ctx.policer.toNat (if x.charged then none else x.heldSince)
      (if x.form = .flood then s1 else s1.updCtx x.peer fun c => { c with
        lateCount := if st = .late then satAdd c.lateCount 1 else c.lateCount,
        noackCount := if st = .noAck then satAdd c.noackCount 1 else c.noackCount }).txComplete x st

end Sys2Proof.Machine
end

