-- ==== Sys2Proof/Machine/MacRx.lean ====
section
/-! DEFINITION. The receive side of the MAC after stage 7: descriptors (Table 05-5), delivery (R214, R215), reassembly
(R229), forwarding (R250, R283) and floods (R231). -/

namespace Sys2Proof.Machine

/-- The received frame of a number. -/
def State.rxFrame (s : State) (id : Nat) : Option RxFrame := s.rf.frames.find? fun f => f.id = id

/-- Replace a received frame. -/
def State.setFrame (s : State) (f : RxFrame) : State :=
  s.setRf fun r => { r with frames := r.frames.map fun x => if x.id = f.id then f else x }

/-- Words 1 to 5 of a receive delivery descriptor (Table 05-5), in the form given. -/
def RxFrame.meta_ (f : RxFrame) (form : Nat) : RxMeta :=
  { status := if f.late then .late else if f.noack then .noAck else .ok,
    w1 := pw f.sfd, w2 := pw (f.sfd / 2 ^ 32),
    w3 := fld (b2n f.node.isSome) 31 ||| fld (b2n f.capture) 30 ||| fld (b2n f.clipped) 29 ||| fld (b2n f.twin) 28 |||
      fld (b2n f.alt) 27 ||| fld (b2n f.ms) 26 ||| fld (b2n f.secured) 25 ||| fld (b2n f.acked) 24 ||| fld form 22 |||
      fld (f.node.getD 0) 0,
    w4 := pw (unsigned (clampS f.cfo 24) 24),
    w5 := fld f.channel 22 ||| pw (unsigned (clampS f.power 12) 12) }

/-- The band and pier of a frame, kept beside its buffer for word 0. -/
def RxFrame.place (f : RxFrame) : Word := fld f.band 14 ||| fld f.pier 8

/-- The item of a delivery; AUX of a received item is 0, so its band and pier stand with its metadata. -/
def RxFrame.item (f : RxFrame) (form : Nat) (bs : List Byte) : QItem :=
  { len := bs.length, bytes := bs, rx := { f.meta_ form with w0 := f.place } }

/-- The MPDU without FCS, its payload deciphered in place and its MIC as received (FORM 0). -/
def RxFrame.form0 (f : RxFrame) : List Byte := f.air.header ++ f.plain ++ f.air.mic

/-- Enqueue one frame in FORM 0. -/
def State.deliverForm0 (s : State) (q : Nat) (f : RxFrame) : State := (s.enqueue q (f.item 0 f.form0)).1

/-- Stage 10 fetches the sender of a frame that has a node (R283): its policer, or none at all when the line fails its check
and the frame ends INTEGRITY (R21). -/
def State.rxPolicer (s : State) (f : RxFrame) : State × Option (Option Nat) :=
  match f.node with
  | none => (s, some none)
  | some n => match s.fetchCtx n with
    | (s1, some c) => (s1, some (some c.policer.toNat))
    | (s1, none) => (s1, none)

/-- Police one packet on its way to a queue (stage 10), then enqueue it. -/
def State.policedEnqueue (s : State) (f : RxFrame) (q : Nat) (it : QItem) : State :=
  match s.rxPolicer f with
  | (s1, none) => s1
  | (s1, some none) => (s1.enqueue q it).1
  | (s1, some (some p)) => match s1.policeUplink p q it.len with
    | (s2, true) => (s2.enqueue q it).1
    | (s2, false) => s2

/-- Deliver a datagram to a receive queue, once in FORM 1 or as its MPDUs in FORM 0 (R215, R117). `last` completed it. -/
def State.toQueue (s : State) (q : Nat) (d : List Byte) (frames : List RxFrame) (last : RxFrame) : State :=
  if (s.queue q).raw then
    let n := frames.length
    (List.range n).foldl (fun s i =>
      let f := frames.getD i last
      s.policedEnqueue f q { f.item 0 f.form0 with sop := i = 0, eop := i + 1 = n }) s
  else s.policedEnqueue last q (last.item 1 d)

/-- The egress queue of an Ethernet port (R269): the lowest-numbered whose consumer it is. -/
def State.ethQueue (s : State) (port : Nat) : Option Nat :=
  (s.que.queues.find? fun e => e.2.type != .disabled && e.2.consumer = port + 2).map Prod.fst

/-- Send a datagram back into the mesh, from stage 3 of the downlink path. -/
def State.forward (s : State) (n : Nat) (d : List Byte) : State :=
  s.sendTo { num := 0, level := s.minSec, retries := s.dfltRetries, lifetime := s.dfltLifetime } (some n) d

/-- Stages 9 to 11 for a datagram (R214, R250). -/
def State.routeUp (s : State) (d : List Byte) (frames : List RxFrame) (last : RxFrame) : State :=
  if isRpl d then s.toQueue (s.regFld Reg.MAC_CTRLQ 9 0) d frames last
  else match s.lpmLookup (ipDst d) with
    | none => s.bump (Reg.TBL_CNT 11)
    | some e => match lpmResult e.result with
      | .drop => s.bump (Reg.TBL_CNT 12)
      | .queue q => s.toQueue q d frames last
      | .eth port nh => match s.ethQueue port with
        | none => s.bump (Reg.QUE_CNT 7)
        | some q => s.policedEnqueue last q { last.item 1 d with aux := pw nh }
      | .mesh c => match s.meshNode c ((ipDst d).toNat % 2 ^ 64) with
        | none => s.bump (Reg.TBL_CNT 13)
        | some n => match s.rxPolicer last with
          | (s1, none) => s1
          | (s1, some none) => s1.forward n d
          | (s1, some (some p)) => match s1.police p d.length with
            | (s2, .red) => s2
            | (s2, _) => s2.forward n d

/-- Relay a flood with its hop limit one less and its original seed and sequence (R231). -/
def State.relay (s : State) (d : List Byte) : State :=
  let hop := leAt d 7 1
  if bit (s.reg Reg.MAC_CTRL) 5 && decide (1 < hop) then
    (s.bump (Reg.MAC_CNT 25)).startFlood
      { num := 0, retries := 0, lifetime := s.dfltLifetime, queue := s.regFld Reg.MAC_FLOOD 19 10,
        rq := s.regFld Reg.MAC_FLOOD 9 0 } (putAt d 7 [BitVec.ofNat 8 (hop - 1)])
  else s

/-- A whole datagram after stage 8: floods first (R231), then stages 9 to 11. -/
def State.datagramUp (s : State) (d : List Byte) (frames : List RxFrame) (last : RxFrame) : State :=
  match mplOption d with
  | none => s.routeUp d frames last
  | some (seed, seq) =>
    if (s.seenFind seed seq).isSome then s.bump (Reg.MAC_CNT 24)
    else ((s.floodSeen seed seq).routeUp d frames last).relay d

/-! ### Reassembly -/

/-- The datagram a fragment belongs to (R229). Its sender is known by its node as well: short addresses repeat from cluster
to cluster. -/
def Reasm.is (x : Reasm) (f : RxFrame) (l : Lowpan) : Bool :=
  x.src = f.air.src && x.dst = f.air.dst && x.node = f.node && x.size = l.size && x.tag = l.tag

/-- A datagram is abandoned, its fragments discarded. -/
def State.dropReasm (s : State) (x : Reasm) : State := s.setRf fun r => { r with reasm := r.reasm.filter fun y => y != x }

/-- Two pieces overlap without being the same. -/
def piecesClash (a b : Nat × List Byte) : Bool :=
  decide (a.1 < b.1 + b.2.length ∧ b.1 < a.1 + a.2.length) && !(a.1 = b.1 && a.2.length = b.2.length)

/-- Insert a piece by its offset, with its frame. -/
def insertPiece (ps : List ((Nat × List Byte) × RxFrame)) (p : Nat × List Byte) (f : RxFrame) :
    List ((Nat × List Byte) × RxFrame) :=
  match ps with
  | [] => [(p, f)]
  | x :: r => if p.1 < x.1.1 then (p, f) :: x :: r else x :: insertPiece r p f

/-- A fragment joins its datagram (R229). -/
def State.reassemble (s : State) (f : RxFrame) (l : Lowpan) : State :=
  let found := s.rf.reasm.find? fun x => x.is f l
  let bad := fun (s : State) => (match found with
    | some x => s.dropReasm x
    | none => s).bump (Reg.MAC_CNT 18)
  let p := (l.offset, l.data)
  if s.regFld Reg.MAC_REASM_MAX 10 0 < l.size ∨ l.size < l.offset + l.data.length then bad s
  else match found with
    | none =>
      if 1024 ≤ s.rf.reasm.length then s.bump (Reg.MAC_CNT 19)
      else
        let n := s.rf.reasm.length + 1
        let s1 := s.setFld Reg.MAC_REASM 26 16 (max n (s.regFld Reg.MAC_REASM 26 16))
        if l.data.length = l.size then (s1.bump (Reg.MAC_CNT 16)).datagramUp l.data [f] f
        else s1.setRf fun r => { r with reasm := r.reasm ++
          [{ src := f.air.src, dst := f.air.dst, node := f.node, ctxs := s.iphcCtxs false, size := l.size, tag := l.tag,
             firstTick := s.tick, parts := [p], frames := [f] }] }
    | some x =>
      if x.parts.any fun q => q.1 = p.1 && q.2.length = p.2.length then s
      else if x.parts.any fun q => piecesClash q p then bad s
      else
        let ps := insertPiece (x.parts.zip x.frames) p f
        let y := { x with parts := ps.map Prod.fst, frames := ps.map Prod.snd }
        if x.size ≤ sumNat (y.parts.map fun q => q.2.length) then
          ((s.dropReasm x).bump (Reg.MAC_CNT 16)).datagramUp (y.parts.flatMap Prod.snd) y.frames f
        else s.setRf fun r => { r with reasm := r.reasm.map fun z => if z = x then y else z }

/-- REASSEMBLY_TIMEOUT (R229): REASM_TIMEOUT ticks since the first fragment of the datagram at a place in the list. -/
def State.reassemblyTimeout (s : State) (i : Nat) : State :=
  match s.rf.reasm[i]? with
  | none => s
  | some x => if x.firstTick + s.tp.reasmTimeout ≤ s.tick then (s.dropReasm x).bump (Reg.MAC_CNT 17) else s

/-! ### Delivery -/

/-- Remove a received frame from the MAC. -/
def State.dropFrame (s : State) (id : Nat) : State :=
  s.setRf fun r => { r with frames := r.frames.filter fun f => f.id != id }

/-- The adaptation layer of a frame read with some contexts, and whether each it refers to is valid (R226). -/
def RxFrame.lowpanWith (f : RxFrame) (ctxs : List IphcCtx) : Lowpan × Bool :=
  let l := lowpanDecode f.plain f.air.src f.air.dst ctxs
  (l, l.ctxs.all fun i => decide ((ctxs.getD i ([], 0)).2 ≠ 0))

/-- The adaptation layer of a frame: a fragment of a datagram whose reassembly has started is read with the contexts in force
then (R233). -/
def RxFrame.lowpan (s : State) (f : RxFrame) : Lowpan × Bool :=
  let r := f.lowpanWith (s.iphcCtxs false)
  match s.rf.reasm.find? fun x => x.is f r.1 with
  | some x => f.lowpanWith x.ctxs
  | none => r

/-- Stage 8 and on for a frame whose acknowledgement is settled and that is in no hold (R214). A chip that is standing by
delivers nothing (R113, R394, R396). -/
def State.deliver (s : State) (f : RxFrame) : State :=
  let s0 := s.dropFrame f.id
  if !s0.delivers then s0
  else
    let s1 := if f.late then s0.bump (Reg.MAC_CNT 14) else s0
    if f.air.level = 0 then s1.deliverForm0 (s1.regFld Reg.MAC_CTRLQ 29 20) f
    else if f.air.type = .command then s1.deliverForm0 (s1.regFld Reg.MAC_CTRLQ 19 10) f
    else
      match f.lowpan s1 with
      | (_, false) => s1.bump (Reg.MAC_CNT 20)
      | (l, true) =>
        if l.kind = .unsupported then s1.bump (Reg.MAC_CNT 20)
        else if l.kind = .whole then s1.datagramUp l.data [f] f
        else s1.reassemble f l

/-- Deliver a frame if nothing holds it back any more; a DUP frame is only dropped (R206). -/
def State.release (s : State) (id : Nat) : State :=
  match s.rxFrame id with
  | none => s
  | some f => if !f.settled || f.inHold then s else if f.dup then s.dropFrame id else s.deliver f

/-- The fate of a frame's acknowledgement is known: sent, or not sent with NOACK when `noack`. A frame found to owe none
is settled already (R124). -/
def State.settleAck (s : State) (id : Nat) (acked noack capture : Bool) : State :=
  match s.rxFrame id with
  | none => s
  | some f => if f.settled then s.setFrame { f with ackClaim := none } else
    (s.setFrame { f with settled := true, acked := acked, noack := noack && !f.late, capture := capture,
                         stage := .done, ackClaim := none }).release id

/-! ### Learning -/

/-- The path of a frame in the LINK format (Table 01-8). -/
def RxFrame.link (f : RxFrame) : Word :=
  fld f.band 28 ||| fld (f.pier % 64) 22 ||| fld (f.channel % 1024) 12 ||| pw (unsigned (clampS f.power 12) 12)

/-- The source EUI-64 of a frame of a known node (R255). -/
def State.sourceEui (s : State) (f : RxFrame) : U64 :=
  match f.air.src with
  | .ext e => e
  | _ => (s.line (f.node.getD 0)).ctx.eui64

/-- Stage 7 (R255, R256, R258). -/
def State.learn (s : State) (id : Nat) : State :=
  match s.rxFrame id with
  | none => s
  | some f =>
    if !bit (BitVec.ofNat 8 s.tp.learnEn) f.band || f.node.isNone then s
    else
      let eui := s.sourceEui f
      let nidx := BitVec.ofNat 18 (f.node.getD 0)
      if (s.emLookup eui).isSome then s.learnKey eui nidx (f.band = 1) (BitVec.ofNat 6 f.pier)
      else
        let hold := s.tbl.holds.find? fun h => h.eui = eui
        match hold with
        | some h =>
          if 8 ≤ h.frames.length then s
          else ({ s with tbl := { s.tbl with holds := s.tbl.holds.map fun (x : Hold) => if x.eui = eui then
            { x with frames := x.frames ++ [id] } else x } }).setFrame { f with inHold := true }
        | none =>
          if 256 ≤ s.tbl.holds.length then (s.bump (Reg.TBL_CNT 15)).learnKey eui nidx (f.band = 1) (BitVec.ofNat 6 f.pier)
          else ({ s with tbl := { s.tbl with holds := s.tbl.holds ++ [({ eui := eui, openTick := s.time.tickno, frames := [id] } : Hold)] } }).setFrame
            { f with inHold := true }

/-- The frame of earliest SFD among some. -/
def earliestSfd (l : List RxFrame) : Option RxFrame :=
  l.foldl (fun m f => match m with
    | none => some f
    | some g => if f.sfd < g.sfd then some f else some g) none

/-- Frames in the order of their SFD. -/
def sfdOrder (l : List RxFrame) (fuel : Nat) : List RxFrame :=
  match fuel with
  | 0 => []
  | k + 1 => match earliestSfd l with
    | none => []
    | some f => f :: sfdOrder (l.filter fun g => g.id != f.id) k

/-- LEARN_HOLD_CLOSE (R256): the hold of a sender closes at the LEARN_HOLD-th edge after the tick it opened in. A key that has
got an entry in force meanwhile is judged under R255 (DEDUCED, log 80: R237 allows it one). -/
def State.learnHoldClose (s : State) (eui : U64) : State :=
  match s.tbl.holds.find? fun h => h.eui = eui with
  | none => s
  | some h =>
    if s.tick < h.openTick.toNat + s.tp.learnHold then s
    else
      let fs := s.rf.frames.filter fun f => h.frames.contains f.id
      let s1 := { s with tbl := { s.tbl with holds := s.tbl.holds.filter fun x => x.eui != eui } }
      match earliestSfd fs with
      | none => s1
      | some f =>
        let s2 := s1.learnKey eui (BitVec.ofNat 18 (f.node.getD 0)) (f.band = 1) (BitVec.ofNat 6 f.pier)
        let other := earliestSfd (fs.filter fun g => g.id != f.id && (g.band != f.band || g.pier != f.pier))
        let s3 := match other with
          | none => s2
          | some g => ((s2.updCtx (f.node.getD 0) fun c => { c with altLink := g.link, altValid := true }).bump
              (Reg.TBL_CNT 3)).setFrame { g with alt := true }
        (sfdOrder fs 9).foldl (fun s f => match s.rxFrame f.id with
          | some g => (s.setFrame { g with inHold := false }).release f.id
          | none => s) s3

end Sys2Proof.Machine
end

