-- ==== Sys2Proof/Machine/Mac.lean ====
section
/-! DEFINITION. The receive side of the MAC to stage 6: frames taken (R200, R201), their source (R202), the frame counter
(R205 to R207), the check job and what it leaves (R203, R204, R208, R212), and the acknowledgement (R209 to R213). -/

namespace Sys2Proof.Machine

/-! ### Windows and waits -/

/-- Mark the windows on a band and channel as having heard their beacon. -/
def State.heardOn (s : State) (b ch : Nat) : State :=
  s.setRf fun r => { r with
    watches := r.watches.filter fun w => !(w.band = b && w.channel = ch),
    piers := r.piers.map fun p => match p.window with
      | some w => if p.band = b && w.channel = ch then { p with window := some { w with heard := true } } else p
      | none => p }

/-- A frame that may still bring the acknowledgement of a wait: in a pier or in the MAC. -/
def State.mayAnswer (s : State) (claim : Nat) : Bool :=
  (s.rf.piers.any fun p => (p.state = .sync || p.state = .header || p.state = .payload) && p.waits.contains claim) ||
  s.rf.frames.any fun f => f.air.type = .ack && f.waits.contains claim

/-- Close the waits whose interval has ended and that no frame can answer any more (R220). -/
def State.settleWaits (s : State) : State :=
  (s.rf.waits.filter fun w => w.closed && !s.mayAnswer w.claim).foldl (fun s w =>
    (s.setRf fun r => { r with waits := r.waits.filter fun x => x.claim != w.claim }).waitFailed w.desc) s

/-- A frame ends without effect: it is removed, and so is its hold on a wait. Its acknowledgement claim stays until the
check deadline (R124). -/
def State.endFrame (s : State) (id : Nat) : State := (s.dropFrame id).settleWaits

/-! ### Addresses and sources -/

/-- The PAN ID that counts (R201). -/
def AirFrame.pan (a : AirFrame) : Option (BitVec 16) := a.dstPan <|> a.srcPan

/-- The cluster of a PAN ID. -/
def TrussParams.clusterOf (p : TrussParams) (pan : BitVec 16) : Option Cluster := p.clusters.find? fun c => c.panId = pan.toNat

/-- A data or command frame is addressed to the border router (R201). -/
def State.addressed (s : State) (a : AirFrame) : Bool :=
  (match a.dst with
   | .absent => true
   | .short x => x = s.brShort || x = 0xFFFF
   | .ext e => e = s.brEui) &&
  (match a.pan with
   | some p => p = 0xFFFF || (s.tp.clusterOf p).isSome
   | none => false)

/-- A frame owes an acknowledgement (R201). -/
def State.owesAck (s : State) (a : AirFrame) : Bool :=
  a.ar && match a.dst with
    | .short x => x = s.brShort
    | .ext e => e = s.brEui
    | .absent => false

/-- Whom stage 3 finds (R202). -/
inductive Source where
  | known (n : Nat) (c : Ctx)
  | unknown
  | integrity

/-- Resolve a source address to a node (R202). -/
def State.resolve (s : State) (a : AirFrame) : State × Source :=
  let check := fun (n : Nat) (ok : Ctx → Bool) => match s.fetchCtx n with
    | (s1, none) => (s1, Source.integrity)
    | (s1, some c) => (s1, if c.valid && ok c then .known n c else .unknown)
  match a.src with
  | .absent => (s, .unknown)
  | .short x => match (a.srcPan <|> a.dstPan).bind s.tp.clusterOf with
    | none => (s, .unknown)
    | some c =>
      if x.toNat < c.nodes then check (c.base + x.toNat) fun k => k.panId.toNat = c.panId && k.shortAddr = x
      else (s, .unknown)
  | .ext e => match s.emLookup e with
    | none => (s, .unknown)
    | some m => check m.nidx.toNat fun k => k.eui64 = e

/-! ### The acknowledgement -/

/-- The acknowledgement instant of a frame in ns (R210). -/
def RxFrame.ackAt (f : RxFrame) : Nat := f.ends + f.tmpl.txAckGap * 1000

/-- The instant by which the check and its acknowledgement are due (Table 02-2 index 3). -/
def RxFrame.ackDue (f : RxFrame) : Nat := f.ackAt - 60000

/-- The time correction of a frame (R211), with whether it was limited. -/
def State.timeCorr (s : State) (f : RxFrame) : Int × Bool :=
  let x : Int := (f.slotStart + f.tmpl.txOffset * 1000 + (s.tp.band f.band).sfdNs : Nat)
  let us := (x - (f.sfd : Int) + 500) / 1000
  if us < -2047 then (-2047, true) else if 2047 < us then (2047, true) else (us, false)

/-- The acknowledgement of an accepted frame: its sequence number, flags and time correction (Table 10-3). -/
def State.ackFields (s : State) (f : RxFrame) : State × RxFrame :=
  let tc := s.timeCorr f
  let en := bit (s.reg Reg.MAC_CTRL) 0
  let flags := b2n en + 2 * b2n f.air.seq.isNone + 4 * b2n (match f.air.src with
    | .ext _ => true
    | _ => false)
  (if en && tc.2 then s.bump (Reg.MAC_CNT 13) else s,
    { f with ackSeq := f.air.seq.getD 0, ackFlags := BitVec.ofNat 4 flags,
             ackTc := if en then BitVec.ofNat 12 (unsigned tc.1 12) else 0 })

/-- Build the acknowledgement of a frame under a frame counter and key (R209); its MIC under the key given. -/
def State.buildAck (s : State) (f : RxFrame) (key : List Byte) (keyIndex : Byte) (fc : Word) : List Byte :=
  let seq := if bit f.ackFlags 1 then none else some f.ackSeq
  let tc := if bit f.ackFlags 0 then some f.ackTc else none
  let dst : MacAddr := match f.air.src with
    | .ext e => if bit f.ackFlags 2 then .ext e else .short (s.line (f.node.getD 0)).ctx.shortAddr
    | a => if bit f.ackFlags 2 then .ext (s.line (f.node.getD 0)).ctx.eui64 else a
  let hdr := ackHeader seq dst f.air.level keyIndex fc tc
  let mic := if f.air.level = 0 then []
             else (Config.ccmProtect key (ccmNonce s.brEui fc f.air.level) hdr [] (micLen f.air.level)).2
  let mpdu := hdr ++ slice mic 0 (micLen f.air.level)
  mpdu ++ fcsOf f.fcs4 mpdu

/-- The PSDU octets of a frame's acknowledgement (R213). -/
def RxFrame.ackLen (f : RxFrame) : Nat :=
  2 + (if bit f.ackFlags 1 then 0 else 1) + (if bit f.ackFlags 2 then 8 else 2) + (if f.air.level = 0 then 0 else 6) +
    (if bit f.ackFlags 0 then 4 else 0) + micLen f.air.level + (if f.fcs4 then 4 else 2)

/-- Withdraw a frame's acknowledgement claim. -/
def State.releaseAck (s : State) (f : RxFrame) : State :=
  match f.ackClaim with
  | some c => (s.dropClaim c).setFrame { f with ackClaim := none }
  | none => s

/-! ### Stage 6 -/

/-- The context fields of an accepted frame (R208). A broadcast frame is checked with MAC_BC_KEY, not with keys of its node,
and leaves those as they are. -/
def acceptCtx (c : Ctx) (f : RxFrame) : Ctx :=
  let c1 := { c with rxFc := f.air.fc, micTag := BitVec.ofNat 64 (leNat (f.air.mic.take 8)),
                     cfo := BitVec.ofNat 24 (unsigned (clampS f.cfo 24) 24), link := f.link,
                     lastHeard := BitVec.ofNat 64 f.sfd, rxFrames := satAdd c.rxFrames 1 }
  let c2 := if f.air.dst = .short 0xFFFF then c1
            else { c1 with keyGen := BitVec.ofNat 8 f.gen.toNat, decSlot := BitVec.ofNat 12 f.decSlot,
                           encSlot := BitVec.ofNat 12 f.encSlot }
  { c2 with ackSeq := f.ackSeq, ackFlags := f.ackFlags, ackTc := f.ackTc }

/-- A band's sensitivity in 0.25 dB (R451): the limit of Table 21-13 for the settings it lists. -/
def BandCfg.sensitivity (c : BandCfg) : Int :=
  if c.phy = 3 then -396
  else if c.phy = 0 ∧ c.symbolRate = 50000 ∧ c.modIndex = 10 then -436
  else if c.phy = 1 ∧ c.symbolRate = 50000 ∧ c.modIndex = 10 then -432
  else if c.phy = 0 ∧ c.symbolRate = 10000 then -460
  else if c.phy = 2 ∧ c.symbolRate = 200000 then -388
  else Config.sensitivity c.phy c.symbolRate c.modIndex

/-- A sample for the crowd reference (R155): the node, and CFO / f_ch in bins of 0.01 ppm. The sensitivity is that of the
band and its settings. -/
def State.crowdSample (s : State) (f : RxFrame) : State :=
  let b := s.tp.band f.band
  let n := f.node.getD 0
  let bin := (f.cfo * 100000000) / ((max 1 (b.centre f.channel) : Nat) : Int)
  if f.clipped || (s.cal.samples.any fun e => e.1 = n) || decide (f.power < b.sensitivity + 40) ||
      !(s.inStates [.active, .standby]) then s
  else { s with cal := { s.cal with samples := s.cal.samples ++ [(n, max (-4096) (min 4095 bin))] } }

/-- A frame has passed. The fate of its acknowledgement is settled now when it owes none, when the chip delivers nothing,
when it is late (R35), when the attempt has ended or its acknowledgement is too long (R213); otherwise its check deadline
decides (R110, R124). -/
def State.afterPass (s : State) (id : Nat) : State :=
  match s.rxFrame id with
  | none => s
  | some f =>
    if !f.owes then (s.setFrame { f with settled := true, stage := .done }).release id
    else if !s.delivers then (s.releaseAck f).settleAck id false false false
    else if f.late then s.settleAck id false false false
    else if f.mute then s.settleAck id false true false
    else if f.tmpl.ackPsduMax < f.ackLen then
      ((s.releaseAck f).bump (Reg.MAC_CNT 12)).settleAck id false true false
    else s.setFrame { f with stage := .passed }

/-- A new frame passes stage 5: stage 6, stage 7, and on (R208). -/
def State.acceptFrame (s : State) (f0 : RxFrame) : State :=
  let f := { f0 with secured := true, checkedAt := some s.now }
  let s1 := (s.bump (Reg.MAC_CNT 0)).setFrame f
  let s2 := (s1.updCtx (f.node.getD 0) fun c => acceptCtx c f).crowdSample f
  (s2.learn f.id).afterPass f.id

/-! ### Stages 4 and 5 -/

/-- Frames of the same node with an earlier SFD that have passed stage 3 and not yet stage 6 (R12). -/
def State.mustWait (s : State) (f : RxFrame) : Bool :=
  s.rf.frames.any fun g => g.id != f.id && g.known && g.node = f.node &&
    (g.stage = .arrived || g.stage = .checking) && !g.dup && (decide (g.sfd < f.sfd) || (g.sfd = f.sfd && decide (g.id < f.id)))

/-- A WARNING record for a REPLAY, within the limit of each second (R207). -/
def State.replayRecord (s : State) (n : Nat) (fc rxFc : Word) : State :=
  let sec := s.now / 1000000000
  let k := if s.rf.replaySecond = sec then s.rf.replayCount else 0
  if k < s.regFld Reg.MAC_EVT_LIMIT 7 0 then
    post (s.setRf fun r => { r with replaySecond := sec, replayCount := k + 1 }) .warning 0x0A (some .replay) 0 [pw n, fc, rxFc]
  else s

/-- What Table 10-2 decides. -/
inductive FcRule where
  | fresh | dup | replay
  deriving DecidableEq, Repr

/-- Table 10-2. -/
def fcRule (c : Ctx) (a : AirFrame) : FcRule :=
  if a.fc = 0xFFFFFFFF then .replay
  else if c.lastHeard = 0 then .fresh
  else if c.rxFc.toNat < a.fc.toNat then .fresh
  else if a.fc = c.rxFc ∧ BitVec.ofNat 64 (leNat (a.mic.take 8)) = c.micTag then .dup
  else .replay

/-- The keys of a node of a generation, derived when its context's pair is not usable (R203, R301): the pair's even and
odd slots with the generation. `none` for KEY_REVOKED, `some none` when no pair can be taken (R302). -/
def State.nodeKeys (s : State) (n : Nat) (c : Ctx) (gen : Byte) : State × Option (Option (Nat × Nat × Byte)) :=
  if gen = c.keyGen && s.ownedUsable c.encSlot.toNat n 0 && s.ownedUsable c.decSlot.toNat n 1 &&
      (s.slot c.encSlot.toNat).gen = gen then
    ((s.touchSlot c.encSlot.toNat), some (some (c.encSlot.toNat, c.decSlot.toNat, gen)))
  else match s.masterOf gen with
    | none => (s, none)
    | some m => match s.deriveNode m n c.eui64 with
      | (s1, some e) => (s1, some (some (e, e + 1, gen)))
      | (s1, none) => (s1, some none)

/-- The generation a received frame names (R203): none for KEY_REVOKED. -/
def State.rxGen (s : State) (c : Ctx) (a : AirFrame) : Option Byte :=
  if a.keyMode = 0 ∨ a.keyIndex = c.keyGen then some c.keyGen
  else match s.nodeMaster with
    | some m => if (s.slot m).gen = a.keyIndex then some a.keyIndex else none
    | none => none

/-- A frame fails stage 3, 4 or 5: counted, never acknowledged (R10). -/
def State.failFrame (s : State) (f : RxFrame) (cnt : Nat) : State := (s.bump (Reg.MAC_CNT cnt)).endFrame f.id

/-- A MAC queue that is full counts as a missed due instant (R317): no acknowledgement is sent for a frame that owes one. -/
def State.missedCheck (s : State) (f : RxFrame) : State :=
  if f.owes && !f.late then ((s.releaseAck f).setFrame { f with late := true, ackClaim := none }).countLate 3 else s

/-- Queue the check job of a frame, or the job of a repeated acknowledgement (R204, R206, R212). -/
def State.queueCheck (s : State) (f : RxFrame) : State :=
  let lv := f.air.level
  let (aad, m) := if enciphers lv then (f.air.header, f.air.payload) else (f.air.header ++ f.air.payload, [])
  let eui := match f.air.src with
    | .ext e => e
    | _ => (s.line (f.node.getD 0)).ctx.eui64
  let ackBlocks := if f.owes then CipMode.ccmProtect.blocks (f.ackLen - micLen lv) 0 else 0
  let j : CipJob := {
    id := 0, cls := .mac, owner := .rxCheck f.id, mode := if f.dup then .ccmProtect else .ccmCheck,
    slot := if f.dup then f.encSlot else f.decSlot, ackSlot := if f.owes && !f.dup then some f.encSlot else none,
    aad := aad, input := m, nonce := ccmNonce eui f.air.fc lv, tagLen := micLen lv, tag := f.air.mic,
    due := if f.owes then some f.ackDue else none,
    blocks := (if f.dup then 0 else CipMode.ccmCheck.blocks aad.length m.length) + ackBlocks }
  (s.queueJob j).setFrame { f with stage := .checking }

/-- A frame that Table 10-2 finds DUP, of a node with context `c` (R206): it is counted, and its acknowledgement is made
again. -/
def State.dupFrame (s : State) (f0 : RxFrame) (n : Nat) (c : Ctx) : State :=
  let s1 := (s.updCtx n fun k => { k with dupCount := satAdd k.dupCount 1 }).bump (Reg.MAC_CNT 7)
  if !f0.owes ∨ f0.late then s1.endFrame f0.id
  else if 256 ≤ s1.queued .mac then (s1.missedCheck f0).endFrame f0.id
  else
    let f := { f0 with dup := true, checkedAt := some s.now, ackSeq := c.ackSeq, ackFlags := c.ackFlags, ackTc := c.ackTc }
    match s1.nodeKeys n c (BitVec.ofNat 8 c.keyGen.toNat) with
    | (s2, some (some (e, d, g))) => s2.queueCheck { f with encSlot := e, decSlot := d, gen := g }
    | (s2, _) => s2.endFrame f.id

/-- A frame that Table 10-2 finds new, of a node with context `c`: its acknowledgement is built and its check queued (R203,
R209). Where the MAC queue is full it waits, still to pass stage 4, and is late if it owes an acknowledgement. -/
def State.freshFrame (s : State) (f0 : RxFrame) (n : Nat) (c : Ctx) : State :=
  if 256 ≤ s.queued .mac then s.missedCheck f0
  else
    let (s1, f) := s.ackFields f0
    if f.air.dst = .short 0xFFFF then
      let k := s1.regFld Reg.MAC_BC_KEY 27 16
      if !s1.usable k || usage (s1.slot k).attr != 1 then s1.failFrame f 9
      else s1.queueCheck { f with decSlot := k }
    else match s1.rxGen c f.air with
      | none => s1.failFrame f 9
      | some g => match s1.nodeKeys n c g with
        | (s2, none) => s2.failFrame f 9
        | (s2, some none) => s2.endFrame f.id
        | (s2, some (some (e, d, g))) => s2.queueCheck { f with encSlot := e, decSlot := d, gen := g }

/-- Stages 4 and 5 of a frame of a known node (R205, R203). -/
def State.stage4 (s0 : State) (f : RxFrame) : State :=
  let n := f.node.getD 0
  match s0.fetchCtx n with
  | (s, none) => s.endFrame f.id
  | (s, some c) => match fcRule c f.air with
    | .replay =>
      ((s.updCtx n fun k => { k with replayCount := satAdd k.replayCount 1 }).replayRecord n f.air.fc c.rxFc).failFrame f 6
    | .dup => s.dupFrame f n c
    | .fresh => s.freshFrame f n c

/-- Frames that wait under R12, or for room in the MAC queue, go on, in the order of their SFD. -/
def State.resumeFrames (s : State) : State :=
  (sfdOrder (s.rf.frames.filter fun f => f.known && f.stage = .arrived) (s.rf.frames.length + 1)).foldl (fun s f =>
    match s.rxFrame f.id with
    | some g => if g.stage = .arrived && !s.mustWait g then s.stage4 g else s
    | none => s) s

/-- Stages 4 on for a frame that has passed stage 3, in its node's order (R12). -/
def State.stage4InOrder (s : State) (f : RxFrame) : State :=
  let s1 := s.setFrame f
  if s1.mustWait f then s1 else (s1.stage4 f).resumeFrames

/-! ### Frames the MAC takes -/

/-- An unsecured frame (R203). -/
def State.unsecured (s : State) (f0 : RxFrame) : State :=
  let s1 := s.bump (Reg.MAC_CNT 15)
  if !bit (s1.reg Reg.MAC_CTRL) 2 then s1.endFrame f0.id
  else
    let f1 := { f0 with plain := f0.air.payload, node := none, owes := f0.owes && bit (s1.reg Reg.MAC_CTRL) 3,
                        checkedAt := some s.now }
    if f1.owes then
      let (s2, f) := s1.ackFields f1
      let g := { f with ackPsdu := s2.buildAck f [] 0 0 }
      (s2.setFrame g).afterPass g.id
    else (s1.setFrame f1).afterPass f1.id

/-- Stage 3 of a data or command frame addressed to the border router (R202, R203). A source that is known and BLOCKED, or
whose line fails, stops an unsecured frame too. -/
def State.stage3 (s : State) (f : RxFrame) : State :=
  let a := f.air
  match s.resolve a with
  | (s1, .integrity) => s1.endFrame f.id
  | (s1, .unknown) => if a.level = 0 then s1.unsecured f else s1.failFrame f 2
  | (s1, .known n c) =>
    if c.blocked then s1.failFrame f 3
    else if a.level = 0 then s1.unsecured f
    else if a.level < s1.minSec then s1.failFrame f 5
    else if a.keyMode ≠ 1 ∧ (a.keyMode ≠ 0 ∨ !bit (s1.reg Reg.MAC_CTRL) 1) then s1.failFrame f 4
    else s1.stage4InOrder { f with node := some n, known := true }

/-- An enhanced beacon heard by a standby chip (R396, R397). -/
def State.overheardBeacon (s : State) (f : RxFrame) : State :=
  if f.air.src = .ext s.brEui then
    let s1 := s.heardOn f.band f.channel
    (if f.air.level = 0 then s1 else s1.raiseFc (.beacon f.band) f.air.fc).endFrame f.id
  else s.failFrame f 4

/-- A secured frame of the active chip heard by a standby chip (R396): the state when it is one. -/
def State.overheardData (s : State) (f : RxFrame) : Option State :=
  let a := f.air
  let ours := match a.src with
    | .ext e => e = s.brEui
    | .short x => x = s.brShort
    | .absent => false
  if !s.standingBy || !f.overheard || !ours || a.level = 0 then none
  else match a.dst with
    | .short 0xFFFF => some ((s.raiseFc .bcast a.fc).endFrame f.id)
    | d => match s.resolve { a with src := d, srcPan := a.dstPan } with
      | (s1, .known n _) => some ((s1.raiseFc (.node n) a.fc).endFrame f.id)
      | (s1, _) => some (s1.endFrame f.id)

/-- The slot start in ns of an ASN on band `b`, with TICKNO the smallest value that gives it (R40). -/
def State.asnStart (s : State) (b asn : Nat) : Nat := asn * s.tp.k b * s.tickNs

/-- The start of the slot of band `b` in which an instant lies. -/
def State.slotAt (s : State) (b t : Nat) : Nat := t / (s.tp.k b * s.tickNs) * (s.tp.k b * s.tickNs)

/-- The beacon of a time parent passes its security check: the spec names no key for it, so whether it does is open (log
50). -/
def AirFrame.beaconPasses (a : AirFrame) : Bool := a.level = 0 || Config.parentBeaconOk a.level a.header a.payload a.mic

/-- A beacon of the time parent (R39, R40, R197). `adj` is the rate the servo then asks for. On acquisition it is placed at
the smallest TICKNO that gives its ASN, and afterwards in the device's own slot of that ASN. -/
def State.parentBeacon (s : State) (f : RxFrame) (adj : Int) : State :=
  if f.air.src ≠ .ext s.parentEui ∨ !s.tp.child then s.failFrame f 4
  else if !f.air.beaconPasses then s.failFrame f 8
  else
    let b := f.band
    let acquiring := s.inStates [.structured, .maintenance] && !s.time.acquired
    let start := if acquiring then s.asnStart b f.air.asn else s.slotAt b f.sfd
    let target := start + f.air.txOffset * 1000 + (s.tp.band b).sfdNs
    let own := if s.tp.k b = 0 ∨ s.tickNs = 0 then 0 else f.sfd / s.tickNs / s.tp.k b % 2 ^ 40
    if acquiring || own = f.air.asn then
      let s1 := (s.heardOn b f.channel).setTime fun t => { t with beaconOk := true, beaconMisses := 0, selected := .beacons }
      (s1.measure ((target : Int) - (f.sfd : Int)) adj).endFrame f.id
    else (post s .error 0x01 none 0 [pw own, pw f.air.asn]).endFrame f.id

/-- A node's acknowledgement is accepted (R221, R191). -/
def State.ackAccepted (s : State) (w : AckWait) : State :=
  let s1 := s.setRf fun r => { r with waits := r.waits.filter fun x => x.claim != w.claim }
  match s1.txDesc w.desc with
  | none => s1
  | some x =>
    let s2 := (s1.bump (Reg.MAC_CNT 21)).updCtx w.peer fun c =>
      { c with txFrames := satAdd c.txFrames 1, resyncTick := s1.time.tickno }
    s2.frameDone x

/-- The wait an acknowledgement answers (R221). -/
def State.waitFor (s : State) (f : RxFrame) : Option AckWait :=
  s.rf.waits.find? fun w => f.waits.contains w.claim && (match f.air.seq with
    | none => false
    | some q => q = w.seq) &&
    (match f.air.dst with
     | .absent => true
     | .short x => x = s.brShort
     | .ext e => e = s.brEui) && (w.level = 0 || f.air.level = w.level)

/-- An Enhanced ACK received in an acknowledgement wait (R221). -/
def State.ackRx (s : State) (f : RxFrame) : State :=
  match s.waitFor f with
  | none => s.endFrame f.id
  | some w =>
    if w.level = 0 then (s.ackAccepted w).endFrame f.id
    else match s.fetchCtx w.peer with
      | (s1, none) => s1.endFrame f.id
      | (s1, some c) =>
        if f.air.fc.toNat ≤ c.rxFc.toNat ∨ !s1.ownedUsable c.decSlot.toNat w.peer 1 ∨ 256 ≤ s1.queued .mac then
          s1.endFrame f.id
        else
          let (aad, m) := if enciphers w.level then (f.air.header, f.air.payload) else (f.air.header ++ f.air.payload, [])
          let j : CipJob := { id := 0, cls := .mac, owner := .rxCheck f.id, mode := .ccmCheck, slot := c.decSlot.toNat,
                              aad := aad, input := m, nonce := ccmNonce c.eui64 f.air.fc w.level, tagLen := micLen w.level,
                              tag := f.air.mic, blocks := CipMode.ccmCheck.blocks aad.length m.length }
          (s1.queueJob j).setFrame { f with stage := .checking, node := some w.peer }

/-- MAC_FRAME_RX (R200 to R203): a frame handed over by its pier passes stage 3. -/
def State.macFrameRx (s : State) (id : Nat) (adj : Int) : State :=
  match s.rxFrame id with
  | none => s
  | some f0 =>
    if f0.stage ≠ .arrived then s
    else if f0.known then s.resumeFrames
    else
      let a := f0.air
      let f := { f0 with owes := s.owesAck a }
      if a.version = 2 ∧ a.type = .beacon then
        if f.parent || f.search then s.parentBeacon f adj
        else if s.standingBy && f.overheard then s.overheardBeacon f
        else s.failFrame f 4
      else if !s.inStates [.active, .standby] then s.failFrame f 4
      else if a.version = 2 ∧ a.type = .ack ∧ f.waits ≠ [] then s.ackRx f
      else if (a.version = 1 ∨ a.version = 2) ∧ (a.type = .data ∨ a.type = .command) then
        match s.overheardData f with
        | some s1 => s1
        | none => if !s.addressed a then s.failFrame f 1 else s.stage3 f
      else s.failFrame f 4

/-! ### The check deadline -/

/-- A reception in progress on a channel ends after an instant; one whose PHR has not been decoded counts so (R110). -/
def State.laterReception (s : State) (f : RxFrame) (t0 : Nat) : Bool :=
  s.rf.piers.any fun p => p.connected && p.band = f.band && p.channel = f.channel &&
    (p.state = .sync || p.state = .header || p.state = .payload) && (match p.ends with
      | some e => decide (t0 < e)
      | none => true)

/-- Another frame of the slot has passed its check first and its own deadline is still to come, with a chain claimed for its
acknowledgement (R110): it holds the channel's. -/
def State.rivalHolds (s : State) (f : RxFrame) : Bool :=
  s.rf.frames.any fun g => g.id != f.id && g.band = f.band && g.channel = f.channel && g.slotStart = f.slotStart &&
    g.owes && g.stage = .passed && g.ackClaim.isSome && !g.mute && (match g.checkedAt, f.checkedAt with
      | some x, some y => decide (x < y) || (x = y && decide (g.sfd < f.sfd))
      | _, _ => false)

/-- The channel's acknowledgement in the slot has been given to a frame (R110). -/
def State.ackGiven (s : State) (f : RxFrame) : Bool := s.rf.acks.contains (f.band, f.channel, f.slotStart)

end Sys2Proof.Machine
end

