-- ==== Sys2Proof/Machine/Calib.lean ====
section
/-! DEFINITION. Calibration Alongside Traffic: entry conditions and pending entries (R144, R151), the jobs and their ends
(R145 to R154), CAL_SYNTH (R149), the crowd reference (R155 to R157), the receive corrections (R158, R159) and the transmit
observation (R160, R161). Measured values are free values. -/

namespace Sys2Proof.Machine

/-- Change the calibration state. -/
def State.setCalSt (s : State) (f : CalSt → CalSt) : State := { s with cal := f s.cal }

/-! ### Conditions -/

/-- The condition of an entry (Table 07-2). -/
inductive CalCond where
  | current | stale | expired | empty
  deriving DecidableEq, Repr

/-- TEMP of a chain at the last tick edge, 0.25 °C. -/
def State.chainTemp (s : State) (c : Nat) : Int := signed (s.regFld (Reg.CAL_TEMP c) 11 0) 12

/-- The key of an entry. -/
def calKey (c i : Nat) : Nat := 1024 * c + i

/-- Δ of an entry in 0.25 °C, one that R149 or R160 has marked counting as at least 8.00 °C. -/
def State.calDelta (s : State) (c i : Nat) : Nat :=
  let d := (s.chainTemp c - (s.calEntry c i).temp).natAbs
  if s.cal.marked.contains (calKey c i) then max 32 d else d

/-- The condition of an entry (Table 07-2). -/
def State.calCond (s : State) (c i : Nat) : CalCond :=
  if !(s.calEntry c i).valid then .empty
  else
    let d := s.calDelta c i
    if d < 32 then .current else if d < 64 then .stale else .expired

/-- Entries of a chain in a condition. -/
def State.calIn (s : State) (c : Nat) (k : CalCond) : List Nat :=
  (List.range (s.tp.calCount c)).filter fun i => s.calCond c i = k

/-- The chains that calibrate: those of the bands present that are not disabled (R121). -/
def State.calChains (s : State) : List Nat :=
  (List.range 4).filter fun c => (s.tp.band (chainBand c)).present && bit (s.reg (Reg.TXC_CTRL c)) 0

/-- The pending entries of a chain that calibration may choose from (R151), each with the tick it became so. -/
def State.calPending (s : State) (c : Nat) : List (Nat × Nat) :=
  s.cal.pending.filter fun e => e.1 / 1024 = c

/-- Entries that have become pending join the list, those that are so no longer leave it (R151). -/
def State.calRepend (s : State) : State :=
  if !s.tp.calFull then s
  else
    let want := (List.range 4).flatMap fun c => ((List.range (s.tp.calCount c)).filter fun i =>
      s.calCond c i = .stale || s.calCond c i = .empty).map fun i => calKey c i
    s.setCalSt fun x => { x with
      pending := want.map fun k => (k, match afind x.pending k with
        | some t => t
        | none => s.tick),
      starved := x.starved.filter fun k => want.contains k }

/-- CAL_BLOCK of a chain (R133): a calibration of rank 1 is due or running on it. -/
def State.calBlock (s : State) (c : Nat) : Bool :=
  (s.cal.jobs.any fun j => j.chain = c && j.rank = 1) ||
    (if s.tp.calFull then s.calChains.contains c && !(s.calIn c .expired).isEmpty else s.cal.compactDue.contains c)

/-! ### Jobs -/

/-- The duration of a job in ns (Table 07-3). -/
def State.calJobNs (s : State) (j : CalJob) : Nat :=
  if j.kind = 2 then (400 + 15 * s.tp.calCount j.chain) * 1000 else 200000 * j.entries.length

/-- The job on a chain. -/
def State.calJob (s : State) (c : Nat) : Option CalJob := s.cal.jobs.find? fun j => j.chain = c

/-- A calibration result measured now: its quantities are free values within Table 07-1. -/
def State.measuredEntry (s : State) (c ch : Nat) : CalEntry :=
  let a := Config.freeWord s.free
  let b := Config.freeWord (s.free + 1)
  { channel := ch, valid := true, vcoBand := bits a 5 0, capCode := bits a 17 6, loopGain := 1 + bits a 31 18 % 1023,
    tpmGain := bits b 15 0, temp := s.chainTemp c, tick := pw s.tick }

/-- One entry is recalibrated: it is CURRENT at the present temperature (R152). -/
def State.calEntryDone (s : State) (c i : Nat) : State :=
  let k := calKey c i
  let s1 := (s.setCal c i (s.measuredEntry c (s.tp.calChannel c i))).nextFree.nextFree
  (s1.setCalSt fun x => { x with marked := x.marked.filter (· != k), pending := x.pending.filter (fun e => e.1 != k),
                                 starved := x.starved.filter (· != k) }).bump (Reg.CAL_CNT c 0)

/-- Entries of an ENTRY job finished by DTIME `t`. -/
def CalJob.doneBy (j : CalJob) (t : Nat) : List Nat := j.entries.take ((t - j.start) / 200000)

/-- A job ends with a status (Table 07-7): the entries finished keep their results. -/
def State.endCalJob (s : State) (j : CalJob) (st : Status) (done : List Nat) : State :=
  let s1 := done.foldl (fun s i => s.calEntryDone j.chain i) s
  (s1.setCalSt fun x => { x with jobs := x.jobs.filter fun y => y.chain != j.chain }).setFld (Reg.CAL_JOB j.chain) 31 24 st.code

/-- A compact calibration starts on a chain: it is the one that the CAL_SYNTH commands waiting there have caused (R149). -/
def CalCmd.started (x : CalCmd) (c : Nat) : CalCmd :=
  { x with chains := x.chains.map fun e => if e.1 = c then (c, true) else e }

/-- The compact calibration of a chain ends: a command waits no longer for one that it had caused there (R149). -/
def CalCmd.ended (x : CalCmd) (c : Nat) : CalCmd := { x with chains := x.chains.filter fun e => e != (c, true) }

/-- CAL_SYNTH commands end OK when the last calibration they caused has ended (R149). -/
def State.endCalCmds (s : State) (c : Nat) : State :=
  let l := s.cal.cmds.map fun x => x.ended c
  ((l.filter fun x => x.chains.isEmpty).foldl (fun s x => s.complete x.cmd .ok)
    (s.setCalSt fun x => { x with cmds := l.filter fun y => !y.chains.isEmpty }))

/-- A compact calibration of a chain ends OK (R148). -/
def State.compactDone (s : State) (c : Nat) : State :=
  let e := s.measuredEntry c 0
  let s1 := s.nextFree.nextFree.setCalSt fun x => { x with
    compact := aput x.compact c e, compactDone := (x.compactDone.filter (· != c)) ++ [c] }
  ((s1.setFld (Reg.CAL_TEMP c) 27 16 (unsigned e.temp 12)).bump (Reg.CAL_CNT c 0)).endCalCmds c

/-- CAL_JOB_COMPLETE (R152, R148): the job of a chain reaches its end. -/
def State.calJobComplete (s0 : State) (t : U64) (c : Nat) : State :=
  let s := s0.at_ t
  match s.calJob c with
  | none => s
  | some j =>
    if s.now < j.start + s.calJobNs j then s
    else if j.kind = 2 then (s.endCalJob j .ok []).compactDone c
    else s.endCalJob j .ok j.entries

/-- Stop a job for a transmission that tunes on its chain (R132, R152): it completes ABORTED. -/
def State.stopCalJob (s : State) (j : CalJob) : State :=
  (s.endCalJob j .aborted (j.doneBy s.now)).bump (Reg.CAL_CNT j.chain 1)

/-- What a tuning transmission meets (Table 06-5): the state after a preemptible job is stopped, and whether the claim
goes on. -/
def State.meetCalJob (s : State) (c : Claim) : State × Bool :=
  match s.calJob c.chain with
  | none => (s, true)
  | some j =>
    if j.rank = 1 || decide (s.occupiedTo c ≤ j.start) then (s, true)
    else if j.rank = 10 || decide (c.rank ≤ 6) then (s.stopCalJob j, true)
    else (s, false)

/-- Jobs that reach edge n + 1, at DTIME `e`: one not complete then completes LATE (R152, Table 02-2 index 5). -/
def State.lateCalJobs (s : State) (e : Nat) : State :=
  (s.cal.jobs.filter fun j => j.rank != 1 && decide (0 < j.due ∧ j.due ≤ e)).foldl (fun s j =>
    if j.start + s.calJobNs j ≤ e then s.endCalJob j .ok j.entries
    else ((s.endCalJob j .late (j.doneBy e)).bump (Reg.CAL_CNT j.chain 2)).bump16 (Reg.TIME_LATE 5)) s

/-- All jobs in progress end with a status: entry to ALARM, FAULT or a reset (R154, R17). -/
def State.endCalJobs (s : State) (st : Status) : State :=
  let s1 := s.cal.jobs.foldl (fun s j => s.endCalJob j st (j.doneBy s.now)) s
  let s2 := s1.setCalSt fun x => { x with cmds := [] }
  s1.cal.cmds.foldl (fun s x => s.complete x.cmd st) s2

/-! ### Placement -/

/-- The order in which pending entries are recalibrated: EMPTY first, then the largest Δ, then the lowest index. -/
def State.calBefore (s : State) (c a b : Nat) : Bool :=
  let ea := s.calCond c a = .empty
  let eb := s.calCond c b = .empty
  if ea != eb then ea
  else if s.calDelta c a ≠ s.calDelta c b ∧ !ea then decide (s.calDelta c b < s.calDelta c a) else decide (a < b)

/-- Insert an entry into an ordered list. -/
def calInsert (before : Nat → Nat → Bool) (i : Nat) (l : List Nat) : List Nat :=
  match l with
  | [] => [i]
  | a :: r => if before i a then i :: a :: r else a :: calInsert before i r

/-- The pending entries of a chain, in that order. -/
def State.calOrder (s : State) (c : Nat) : List Nat :=
  (s.calPending c).foldl (fun l e => calInsert (s.calBefore c) (e.1 % 1024) l) []

/-- The end of the gap that starts at `a`: 10 µs before the next tune instant on the chain, or edge n + 1. None where a
claim occupies the chain at `a`. -/
def State.gapEnd (s : State) (l : List Claim) (a edge : Nat) : Option Nat :=
  if l.any fun x => decide (x.tuneAt < a + 10000 ∧ a < s.occupiedTo x) then none
  else some ((l.filter fun x => decide (a ≤ x.tuneAt)).foldl (fun m x => min m (x.tuneAt - 10000)) edge)

/-- The earliest gap of at least 200 µs on a chain from DTIME `from_` to `edge` (R151): its start and its length. -/
def State.calGap (s : State) (l : List Claim) (from_ edge : Nat) : Option (Nat × Nat) :=
  let starts := from_ :: ((l.map fun x => s.occupiedTo x).filter fun z => decide (from_ < z ∧ z < edge))
  starts.foldl (fun m a => match s.gapEnd l a edge with
    | some z => if a + 200000 ≤ z then match m with
        | some (b, n) => if a < b then some (a, z - a) else some (b, n)
        | none => some (a, z - a) else m
    | none => m) none

/-- A claim that a starved job may displace (R151). -/
def State.starvedBeats (s : State) (x : Claim) : Bool :=
  (x.rank = 8 || x.rank = 9) && x.stage = .claimed && !x.ended && decide (s.now < x.tuneAt)

/-- Claims that bound the gaps of a chain, for a job of a rank (R151); one that has ended does to the end of its occupied
interval. -/
def State.boundingClaims (s : State) (c rank : Nat) : List Claim :=
  s.rf.claims.filter fun x => x.chain = c && !(rank = 7 && s.starvedBeats x)

/-- The background job of a rank that a chain's gaps would hold (R151, R153): the entries it takes, and its start. -/
def State.calFits (s : State) (edge c rank : Nat) : Option CalJob :=
  let l := s.calOrder c
  match s.calGap (s.boundingClaims c rank) (edge + 100000) (edge + s.tickNs) with
  | none => none
  | some (a, g) =>
    let j := min l.length (min (g / 200000) (s.tp.calBudget / 200))
    if j = 0 then none
    else some { chain := c, kind := 1, rank := rank, entries := l.take j, start := a, due := edge + s.tickNs }

/-- A job holds a starved entry. -/
def State.holdsStarved (s : State) (j : CalJob) : Bool := j.entries.any fun i => s.cal.starved.contains (calKey j.chain i)

/-- The background job to place on a chain: of rank 7 when it holds a starved entry, of rank 10 otherwise. -/
def State.calChoose (s : State) (edge c : Nat) : Option CalJob :=
  match s.calFits edge c 7 with
  | some j => if s.holdsStarved j then some j else s.calFits edge c 10
  | none => s.calFits edge c 10

/-- Place a background job on a chain (R151, R153): a starved one displaces the claims it meets. -/
def State.calPlace (s : State) (edge c : Nat) : State :=
  if (s.calJob c).isSome ∨ s.calBlock c then s
  else match s.calChoose edge c with
    | none => s
    | some j =>
      let hit := s.rf.claims.filter fun x => x.chain = c && j.rank = 7 && s.starvedBeats x &&
        decide (x.tuneAt < j.start + s.calJobNs j ∧ j.start < s.occupiedTo x)
      (hit.foldl (fun s x => (s.claimLate x).bump (Reg.CAL_CNT c 5)) s).setCalSt fun x => { x with jobs := x.jobs ++ [j] }

/-- The last tick edge, in ns of DTIME. -/
def State.edgeNs (s : State) : Nat := s.tick * s.tickNs

/-- The instant of the tick at which jobs are placed (R146, R151) has come, and they have not been placed in it. -/
def State.placementDue (s : State) : Bool := decide (s.edgeNs + 100000 ≤ s.now) && s.cal.placed != some s.tick

/-- Jobs have been placed in this tick. -/
def State.notePlaced (s : State) : State := s.setCalSt fun x => { x with placed := some s.tick }

/-- CAL_JOB_PLACEMENT (R151): at edge + 100 µs, in ACTIVE and STANDBY (Table 07-4). -/
def State.calJobPlacement (s0 : State) (t : U64) : State :=
  let s := s0.at_ t
  if !s.inStates [.active, .standby] || !s.tp.calFull || !bit (s.reg Reg.CAL_CTRL) 0 || !s.placementDue then s
  else s.calChains.foldl (fun s c => s.calPlace s.edgeNs c) s.notePlaced

/-- CALIBRATION_SWEEP (R146): in STRUCTURED and MAINTENANCE a sweep job runs from edge + 100 µs to 10 µs before the next
edge, over EMPTY entries in ascending index. -/
def State.calibrationSweep (s0 : State) (t : U64) : State :=
  let s := s0.at_ t
  if !s.inStates [.structured, .maintenance] || !s.tp.calFull || !s.placementDue then s
  else s.calChains.foldl (fun s c =>
    let l := (s.calIn c .empty).take ((s.tickNs - 110000) / 200000)
    if l = [] ∨ (s.calJob c).isSome ∨ s.calBlock c then s
    else s.setCalSt fun x => { x with
      jobs := x.jobs ++ [{ chain := c, kind := 1, rank := 10, entries := l, start := s.edgeNs + 100000,
                           due := s.edgeNs + s.tickNs }] }) s.notePlaced

/-- A chain is between a decision instant and the end of a ramp-down (R133). -/
def State.chainOnAir (s : State) (c : Nat) : Bool :=
  s.rf.claims.any fun x => x.chain = c && (x.onAir || (x.ended && decide (s.now < x.downAt)))

/-- The tuned claims of a chain wait for lock under R130 (R133). -/
def State.holdTuned (s : State) (c : Nat) : State :=
  s.setRf fun r => { r with claims := r.claims.map fun x =>
    if x.chain = c && !x.ended && x.stage = .tuned then { x with lock := none, blocked := true } else x }

/-- A calibration of rank 1 takes its chain (R133); a background job there ends. -/
def State.takeChain (s : State) (j : CalJob) : State :=
  let s1 := match s.calJob j.chain with
    | some x => s.stopCalJob x
    | none => s
  ((s1.holdTuned j.chain).setCalSt fun x => { x with jobs := x.jobs ++ [j] }).bump (Reg.CAL_CNT j.chain 4)

/-- SYS_STATE is one in which rank-1 calibration runs (Table 07-4). -/
def State.calRank1 (s : State) : Bool := s.inStates [.structured, .active, .standby, .maintenance]

/-- The chain has no rank-1 job and is free for one. -/
def State.rank1Free (s : State) (c : Nat) : Bool :=
  !s.chainOnAir c && !(match s.calJob c with
    | some j => j.rank = 1
    | none => false)

/-- MANDATORY_RECALIBRATION (R145): one EXPIRED entry, largest Δ first. -/
def State.mandatoryRecalibration (s0 : State) (t : U64) (c : Nat) : State :=
  let s := s0.at_ t
  if !s.calRank1 || !s.tp.calFull || !s.calChains.contains c || !s.rank1Free c then s
  else match (s.calIn c .expired).foldl (fun l i => calInsert (s.calBefore c) i l) [] with
    | [] => s
    | i :: _ => s.takeChain { chain := c, kind := 1, rank := 1, entries := [i], start := s.now }

/-- COMPACT_CALIBRATION (R148). -/
def State.compactCalibration (s0 : State) (t : U64) (c : Nat) : State :=
  let s := s0.at_ t
  if !s.calRank1 || s.tp.calFull || !s.cal.compactDue.contains c || !s.calChains.contains c || !s.rank1Free c then s
  else (s.takeChain { chain := c, kind := 2, rank := 1, start := s.now }).setCalSt fun x =>
    { x with compactDue := x.compactDue.filter (· != c), cmds := x.cmds.map fun y => y.started c }

/-- A compact calibration is due on a chain. -/
def State.compactDueOn (s : State) (c : Nat) : State :=
  s.setCalSt fun x => { x with compactDue := if x.compactDue.contains c then x.compactDue else x.compactDue ++ [c] }

/-- An entry is marked STALE with its Δ treated as 8.00 °C (R149, R160). -/
def State.calMark (s : State) (c i : Nat) : State :=
  s.setCalSt fun x => { x with marked := if x.marked.contains (calKey c i) then x.marked else x.marked ++ [calKey c i] }

/-- CAL_SYNTH (R149). -/
def State.calSynth (s : State) (d : Desc) : State :=
  s.command d stSAY fun s =>
    let ch := d.byte 8
    let e := d.half 10
    let chains := if ch = 0xFF then (List.range 4).filter fun c => (s.tp.band (chainBand c)).present else [ch]
    let all := decide (e = 0xFFFF)
    if !d.unlistedZero [8, 10, 11] || (ch != 0xFF && !s.calChains.contains ch) then s.complete d .unsupported
    else if s.tp.calFull then
      if !all && chains.any (fun c => decide (s.tp.calCount c ≤ e)) then s.complete d .unsupported
      else ((chains.foldl (fun s c => (if all then List.range (s.tp.calCount c) else [e]).foldl (fun s i => s.calMark c i) s)
        s).calRepend).complete d .ok
    else if !all then s.complete d .unsupported
    else
      let l := chains.filter s.calChains.contains
      if l = [] then s.complete d .ok
      else (l.foldl (fun s c => s.compactDueOn c) s).setCalSt fun x => { x with
        cmds := x.cmds ++ [{ cmd := d, chains := l.map fun c => (c, false) }] }

/-! ### Entry to STRUCTURED, reload and the tick edge -/

/-- Every entry becomes EMPTY (R146, R147). -/
def State.calEmpty (s : State) : State :=
  (s.setCalSt fun x => { x with entries := [], marked := [], pending := [], starved := [] }).calRepend

/-- Calibration at entry to STRUCTURED (R146, R148). -/
def State.calAtStructured (s : State) : State :=
  if s.tp.calFull then s.calEmpty else s.calChains.foldl (fun s c => s.compactDueOn c) s

/-- Pending entries become starved (R151). -/
def State.calStarve (s : State) : State :=
  let l := s.cal.pending.filter fun e => !s.cal.starved.contains e.1 && decide (e.2 + s.tp.starveTicks < s.tick)
  (l.foldl (fun s e => s.bump (Reg.CAL_CNT (e.1 / 1024) 3)) s).setCalSt fun x =>
    { x with starved := x.starved ++ l.map Prod.fst }

/-- The tick edge: the chain temperatures, conditions, starvation, a compact calibration due on an 8 °C move
(R144, R148, R151). -/
def State.calTick (s : State) (temps : List Int) : State :=
  let s2 := (List.range 4).foldl (fun s c =>
    s.setFld (Reg.CAL_TEMP c) 11 0 (unsigned (clampS (temps.getD c (s.chainTemp c)) 12) 12)) s
  if !s2.calRank1 then s2
  else if s2.tp.calFull then s2.calRepend.calStarve
  else s2.calChains.foldl (fun s c => match afind s.cal.compact c with
    | some e => if 32 ≤ (s.chainTemp c - e.temp).natAbs ∧ !(s.cal.jobs.any fun j => j.chain = c) then s.compactDueOn c else s
    | none => s) s2

/-! ### The crowd reference -/

/-- Insert a bin into an ordered list. -/
def binInsert (v : Int) (l : List Int) : List Int :=
  match l with
  | [] => [v]
  | a :: r => if v ≤ a then v :: a :: r else a :: binInsert v r

/-- The median of samples in bins of 0.01 ppm, in 10^-12: of an even number, the mean of the middle two. -/
def medianOf (l : List Int) : Int :=
  let o := l.foldl (fun m v => binInsert v m) []
  let n := o.length
  if n % 2 = 1 then o.getD (n / 2) 0 * 10000 else (o.getD (n / 2 - 1) 0 + o.getD (n / 2) 0) * 5000

/-- A value limited to ± a bound. -/
def clampTo (v : Int) (bound : Nat) : Int := max (-(bound : Int)) (min (bound : Int) v)

/-- A source measurement was accepted in the last 2 s while LOCKED (R156). -/
def State.sourceFresh (s : State) : Bool :=
  s.time.locked && match s.time.lastMeasure with
    | some m => decide (s.now ≤ m.toNat + 2000000000)
    | none => false

/-- CR_WINDOW in ticks. -/
def State.crWindow (s : State) : Nat := max 10 (s.regFld Reg.CAL_CR_CTRL 15 0)

/-- CROWD_WINDOW_END (R156, R157). -/
def State.crowdWindowEnd (s0 : State) (t : U64) : State :=
  let s := s0.at_ t
  if !s.inStates [.active, .standby] || decide (s.cal.windowTick < s.crWindow) then s
  else
    let en := bit (s.reg Reg.CAL_CTRL) 3
    let n := s.cal.samples.length
    let valid := decide (max 1 (s.regFld Reg.CAL_CR_CTRL 31 16) ≤ n)
    let m := medianOf (s.cal.samples.map Prod.snd)
    let x := match s.cal.baseDue with
      | some b => { s.cal with base := b, baseDue := none }
      | none => s.cal
    let y := if !en then { x with c := 0, cSrc := 0 }
      else if !valid then x
      else if s.sourceFresh then { x with base := x.base + (m - x.base) / 64, cSrc := x.c }
      else { x with c := clampTo (x.c + clampTo (m - x.base) (s.regFld Reg.CAL_CR_LIMIT 31 16 * 1000))
                               (s.regFld Reg.CAL_CR_LIMIT 15 0 * 10000) }
    let s1 := { s with cal := { y with samples := [], windowTick := 0, termDue := some (y.c - y.cSrc) } }
    let s2 := (s1.setReg Reg.CAL_CR_BASE (pw (unsigned (clampS y.base 32) 32))).setReg Reg.CAL_CR_COUNT
      (fld (b2n valid) 31 ||| fld (min n 0x3FFFF) 0)
    if valid then s2.setReg Reg.CAL_CR_MEDIAN (pw (unsigned (clampS m 32) 32)) else s2

/-- The crowd term takes force at a tick edge (R156). -/
def State.crowdTick (s : State) : State :=
  match s.cal.termDue with
  | some v => (s.setCalSt fun x => { x with termDue := none }).setReg Reg.CAL_CR_EST (pw (unsigned (clampS v 32) 32))
  | none => s

/-! ### Receive corrections and the transmit observation -/

/-- Move a value toward another by at most `n`. -/
def moveBy (v goal : Int) (n : Nat) : Int := v + clampTo (goal - v) n

/-- Frames that have contributed to a band's image estimate. -/
def CalSt.iqFrames (x : CalSt) (b : Nat) : Nat := if b = 0 then x.framesA else x.framesB

/-- The receive corrections at a tick edge (R158, R159), in the states of Table 07-4. -/
def State.iqTick (s : State) (b : Nat) (e : IqEstimate) : State :=
  if !s.inStates [.structured, .active, .standby, .maintenance, .alarm] || !(s.tp.band b).present then s
  else
    let conv := decide (500 ≤ s.cal.iqFrames b)
    let s1 := s.setReg (Reg.CAL_IMAGE b) (fld (b2n conv) 16 ||| fld (min 255 (if conv then max 45 e.image else e.image)) 0)
    if !bit (s1.reg Reg.CAL_CTRL) 2 then s1
    else
      let k := 32 * b + s1.regFld (Reg.RXF_GAIN b) 4 0
      let s2 := s1.setCalSt fun x => { x with dc := aput x.dc k (clampS e.dcI 16, clampS e.dcQ 16) }
      let g := moveBy (signed (s2.regFld (Reg.CAL_IQ b) 15 0) 16) e.gain 20
      let p := moveBy (signed (s2.regFld (Reg.CAL_IQ b) 31 16) 16) e.phase 10
      (s2.setFld (Reg.CAL_IQ b) 15 0 (unsigned (clampS g 16) 16)).setFld (Reg.CAL_IQ b) 31 16 (unsigned (clampS p 16) 16)

/-- A frame of RSSI at least −90 dBm contributes to its front-end's IQ estimate (R158). -/
def State.iqFrame (s : State) (b : Nat) (power : Int) : State :=
  if power < -360 then s
  else s.setCalSt fun x => if b = 0 then { x with framesA := min 500 (x.framesA + 1) }
                           else { x with framesB := min 500 (x.framesB + 1) }

/-- TRIM of a chain, 0.25 dB. -/
def State.txTrim (s : State) (c : Nat) : Int := signed (s.regFld (Reg.CAL_TXO c) 7 0) 8

/-- The carrier measured during a ramp-up, in Hz from f_tx (R160). -/
def State.observeCarrier (s : State) (c : Claim) (err : Int) : State :=
  if s.sys.state = .active && bit (s.reg Reg.CAL_CTRL) 1 && decide (err < -1000 ∨ 1000 < err) then
    (if s.tp.calFull then (s.calMark c.chain (s.tp.calIndex c.chain c.channel)).calRepend else s.compactDueOn c.chain).bump
      (Reg.CAL_CNT c.chain 6)
  else s

/-- TPM_GAIN moves by one step against a deviation error of more than 2 %, given in 0.1 % (R160): the device has then written
the entry (Table 07-1). -/
def CalEntry.trimTpm (e : CalEntry) (dev : Int) : CalEntry :=
  if 20 < dev then { e with tpmGain := e.tpmGain - 1, host := false }
  else if dev < -20 then { e with tpmGain := min 65535 (e.tpmGain + 1), host := false } else e

/-- The deviation observed over the preamble (0.1 %) trims TPM_GAIN of the entry in force (R160). -/
def State.observeDeviation (s : State) (c : Claim) (dev : Int) : State :=
  let n := c.chain
  if s.tp.calFull then
    let i := s.tp.calIndex n c.channel
    if (s.calEntry n i).valid then s.setCal n i ((s.calEntry n i).trimTpm dev) else s
  else match afind s.cal.compact n with
    | some e => s.setCalSt fun x => { x with compact := aput x.compact n (e.trimTpm dev) }
    | none => s

/-- The power (0.25 dB) and the deviation observed over the preamble of a transmission (R160, R161). -/
def State.observePower (s : State) (c : Claim) (obs dev : Int) : State :=
  let n := c.chain
  let s1 := s.setFld (Reg.CAL_TXO n) 27 16 (unsigned (clampS obs 12) 12)
  if !bit (s1.reg Reg.CAL_CTRL) 1 then s1
  else
    let s2 := s1.observeDeviation c dev
    let trim := s2.txTrim n
    let diff := obs - c.power
    let s3 := if (trim = 12 ∨ trim = -24) ∧ (diff < -6 ∨ 6 < diff) then
        post (((s2.setFld (Reg.CAL_TXO n) 31 31 1).bump (Reg.CAL_CNT n 7)).raise 16) .warning 0x07 none 0
          [pw n, pw (unsigned (clampS obs 32) 32)]
      else s2
    let s4 := if trim = -24 ∧ 6 < diff then post (s3.setFld (Reg.TXC_CTRL n) 0 0 0) .error 0x07 none 0 [pw n] else s3
    s4.setFld (Reg.CAL_TXO n) 7 0 (unsigned (max (-24) (min 12 (moveBy trim (trim - diff) 1))) 8)

/-- What the observation receiver saw of a claim's transmission over its preamble is acted on, once, when the preamble has
been sent in ACTIVE (R160). -/
def State.observeDue (s : State) (c : Claim) : State :=
  match c.seen with
  | none => s
  | some (obs, dev) =>
    let b := s.tp.band c.band
    let sent := decide (c.t0 + (if b.phy = 3 then 128000 else b.octetsNs b.preambleLen) ≤ s.now)
    let s1 := s.setRf fun r => { r with claims := r.claims.map fun x => if x.id = c.id then { x with seen := none } else x }
    if sent then s1.observePower c obs dev else s1

/-- CAL_ENTRY_DATA_READ (R162): the four words of the selected entry are latched together. -/
def State.calEntryDataRead (s : State) : State :=
  let c := s.regFld Reg.CAL_ENTRY_SEL 17 16
  let i := s.regFld Reg.CAL_ENTRY_SEL 8 0
  let bs := if s.tp.calFull && decide (i < s.tp.calCount c) then (s.calEntry c i).bytes else List.replicate 16 0
  (List.range 4).foldl (fun s k => s.setReg (Reg.CAL_ENTRY_DATA k) (pw (leAt bs (4 * k) 4))) s

end Sys2Proof.Machine
end

