-- ==== Sys2Proof/Machine/Piers.lean ====
section
/-! DEFINITION. The front-ends and the piers: gain control (R91 to R95), roles and windows (R97, R107, R113, R194),
detection, capture and the twin pool (R100 to R103, R108, R109), the PHR and the end of a frame (R104 to R106), blanking
(R112, R136), the acquisition search (R40), and the beacon windows that close unheard (R197, R397). -/

namespace Sys2Proof.Machine

/-- Pier `p`. -/
def State.pier (s : State) (p : Nat) : Pier := s.rf.piers.getD p {}

/-- Set pier `p`. -/
def State.setPier (s : State) (p : Nat) (x : Pier) : State := s.setRf fun r => { r with piers := lset r.piers p x }

/-- A pier is mid-frame. -/
def Pier.midFrame (x : Pier) : Bool := x.state = .sync || x.state = .header || x.state = .payload

/-- A pier enters a state of Table 05-4, and its AGC with it (R99). -/
def Pier.to (x : Pier) (st : PierState) : Pier :=
  { x with state := st, agc := st.agc, searched := x.searched || st = .search }

/-- Roles of a pier under the truss in force (R97). -/
inductive PierRole where
  | off | primaryA | primaryB | twin
  deriving DecidableEq, Repr

/-- The role of pier `p` (R97); every pier is OFF while no truss is in force. -/
def State.pierRole (s : State) (p : Nat) : PierRole :=
  if !s.truss.loaded then .off
  else if p < s.tp.piersA then .primaryA
  else if p < s.tp.piersA + s.tp.piersB then .primaryB
  else if p < s.tp.piersA + s.tp.piersB + s.tp.twin then .twin else .off

/-- The pier is a primary pier. -/
def State.isPrimary (s : State) (p : Nat) : Bool := s.pierRole p = .primaryA || s.pierRole p = .primaryB

/-- Primary piers of a band, ascending. -/
def State.primaries (s : State) (b : Nat) : List Nat :=
  (List.range 64).filter fun p => s.pierRole p = if b = 0 then .primaryA else .primaryB

/-- Twin piers that are free, ascending. -/
def State.freeTwins (s : State) : List Nat :=
  (List.range 64).filter fun p => s.pierRole p = .twin && (s.pier p).state = .idle

/-- Some pier of a band is mid-frame. -/
def State.bandMidFrame (s : State) (b : Nat) : Bool := s.rf.piers.any fun x => x.midFrame && x.band = b

/-- SYS_STATE is one in which the front-ends sample (R90). -/
def State.sampling (s : State) : Bool := s.inStates [.structured, .active, .standby, .maintenance, .alarm]

/-! ### Gain -/

/-- GAIN of a band. -/
def State.gain (s : State) (b : Nat) : Nat := s.regFld (Reg.RXF_GAIN b) 5 0

/-- Set the gain index of a band. -/
def State.setGain (s : State) (b g : Nat) : State := s.setFld (Reg.RXF_GAIN b) 5 0 g

/-- A write of RXF_GAIN.REQ under HR_HOLD still waits for its edge (R95). -/
def State.gainAsked (s : State) (b : Nat) : Bool := if b = 0 then s.rf.reqA else s.rf.reqB

/-- Note or drop such a write. -/
def State.askGain (s : State) (b : Nat) (v : Bool) : State :=
  s.setRf fun r => if b = 0 then { r with reqA := v } else { r with reqB := v }

/-- PENDING and DIR of a band; DIR is 1 for up. -/
def State.setPending (s : State) (b : Nat) (p : Bool) (up : Bool) : State :=
  (s.setFld (Reg.RXF_GAIN b) 31 31 (b2n p)).setFld (Reg.RXF_GAIN b) 30 30 (b2n (p && up))

/-- A run of tick edges with PEAK below UP_THR. -/
def RfSt.upRun (r : RfSt) (b : Nat) : Nat := if b = 0 then r.upRunA else r.upRunB

/-- Set that run. -/
def State.setUpRun (s : State) (b n : Nat) : State :=
  s.setRf fun r => if b = 0 then { r with upRunA := n } else { r with upRunB := n }

/-- A gain step to index `g` is wanted at a tick edge: made, or deferred while a pier of the band is mid-frame (R91, R92,
R95). -/
def State.gainStep (s : State) (b g : Nat) : State :=
  let up := decide (s.gain b < g)
  if s.bandMidFrame b then (s.setPending b true up).bump (Reg.RXF_CNT b 2)
  else ((s.setPending b false false).setGain b g).bump (Reg.RXF_CNT b (if up then 1 else 0))

/-- The headroom controller of a band at a tick edge, with PEAK and MEAN of the tick that ended in 0.25 dBFS (R91, R92,
R95). The run of edges below UP_THR is counted through a hold, and restarts after a step up. -/
def State.headroomTick (s0 : State) (b : Nat) (peak mean : Int) : State :=
  if !s0.sampling || !(s0.tp.band b).present then s0
  else
    let s := s0.setReg (Reg.RXF_LEVEL b) (fld (unsigned (clampS peak 16) 16) 16 ||| fld (unsigned (clampS mean 16) 16) 0)
    let thr := s.reg (Reg.RXF_HR_THR b)
    let g := s.gain b
    let down := signed (bits thr 7 0) 8 * 4
    let upT := signed (bits thr 15 8) 8 * 4
    let run := if peak < upT then s.rf.upRun b + 1 else 0
    let s1 := s.setUpRun b run
    if bit (s.reg (Reg.RXF_CTRL b)) 1 then
      let req := min 20 (s.regFld (Reg.RXF_GAIN b) 21 16)
      if !s1.gainAsked b then s1.setPending b false false
      else if s1.bandMidFrame b then s1.gainStep b req
      else if req = g then (s1.setPending b false false).askGain b false
      else (s1.gainStep b req).askGain b false
    else
      let s2 := s1.askGain b false
      if down < peak ∧ 0 < g then s2.gainStep b (g - 1)
      else if max 1 (bits thr 23 16) ≤ run ∧ g < 20 then
        (if s2.bandMidFrame b then s2 else s2.setUpRun b 0).gainStep b (g + 1)
      else s2.setPending b false false

/-- CLIPPING_STEP (R93, R94): 12 dB down at once; receptions of the band are flagged. -/
def State.clippingStep (s0 : State) (t : U64) (b : Nat) : State :=
  let s := s0.at_ t
  if !s.sampling || !(s.tp.band b).present || s.gain b = 0 then s
  else
    let hit := (s.rf.piers.filter fun x => x.midFrame && x.band = b && !x.clipped).length
    let s1 := ((s.setGain b (s.gain b - 4)).bump (Reg.RXF_CNT b 3)).bumpBy (Reg.RXF_CNT b 4) 31 hit
    s1.setRf fun r => { r with piers := r.piers.map fun x => if x.midFrame && x.band = b then { x with clipped := true } else x }

/-! ### Leaving a reception -/

/-- A pier with no window: connected to nothing. -/
def Pier.idle (x : Pier) : Pier :=
  { x.to .idle with connected := false, window := none, windowOpen := false, partner := none }

/-- A pier without its reception. -/
def Pier.clear (x : Pier) : Pier :=
  { x with clipped := false, ms := false, whitened := false, ackClaim := none, ends := none, sfd := 0, waits := [] }

/-- A pier leaves a reception: a twin to the pool, a primary to SEARCH, or to IDLE when its window has closed (R102). -/
def State.leave (s : State) (p : Nat) : State :=
  let x := (s.pier p).clear
  s.setPier p (if s.isPrimary p && x.windowOpen then x.to .search else x.idle)

/-- The reception of a pier comes to nothing: its acknowledgement claim is released at once, and in DRAIN its frame, not yet
in the MAC, is dropped. -/
def State.cutReception (s : State) (p : Nat) : State :=
  let x := s.pier p
  let s1 := match x.ackClaim with
    | some c => s.dropClaim c
    | none => s
  if x.state = .drain then
    s1.setRf fun r => { r with frames := r.frames.filter fun f => !(f.pier = p && f.sfd = x.sfd && f.stage = .arrived && !f.known) }
  else s1

/-- A reception is abandoned and counted in PIER_CNT of its band (R119). -/
def State.abandon (s : State) (p cnt : Nat) : State :=
  ((s.cutReception p).bump (Reg.PIER_CNT (s.pier p).band cnt)).leave p

/-- A pier is held by a reception or by the hand-over of one (SYNC to DRAIN). -/
def Pier.receiving (x : Pier) : Bool := x.midFrame || x.state = .drain

/-- A pier leaves DRAIN within 8 µs of the last PSDU symbol (Table 05-4). -/
def State.drained (s : State) : State :=
  (List.range 64).foldl (fun s p =>
    let x := s.pier p
    if x.state = .drain && (match x.ends with
      | some e => decide (e + 8000 ≤ s.now)
      | none => true) then s.leave p else s) s

/-- An event of the receive path happens at DTIME `t`. -/
def State.airAt (s : State) (t : U64) : State := (s.at_ t).drained

/-! ### Beacon windows that close unheard -/

/-- A parent beacon slot is missed (R197, Table 02-3): at three in a row the source is lost. -/
def State.parentMissed (s : State) (b : Nat) : State :=
  let s1 := (s.bump (Reg.SCH_CNT b 7)).setTime fun t => { t with beaconMisses := t.beaconMisses + 1 }
  if 3 ≤ s1.time.beaconMisses then
    (s1.setTime fun t => { t.deselected with beaconOk := false }).holdoverCheck
  else s1

/-- A standby's beacon window closes without a beacon (R397): a NOTICE record at each run of three. -/
def State.standbyMissed (s : State) (b : Nat) : State :=
  let n := (if b = 0 then s.red.missA else s.red.missB) + 1
  let s1 := s.bump (Reg.RED_CNT 4)
  let s2 := { s1 with red := if b = 0 then { s1.red with missA := n % 3 } else { s1.red with missB := n % 3 } }
  if n % 3 = 0 then post s2 .notice 0x13 none 0 [pw b] else s2

/-- A reception on a channel may still bring the beacon of a window that has closed. -/
def State.watchOpen (s : State) (w : BeaconWatch) : Bool :=
  (s.rf.piers.any fun x => x.midFrame && x.band = w.band && x.channel = w.channel) ||
    s.rf.frames.any fun f => f.band = w.band && f.channel = w.channel && f.slotStart = w.slotStart && f.stage = .arrived

/-- Count the windows that nothing can still make heard. -/
def State.settleWatches (s : State) : State :=
  (s.rf.watches.filter fun w => !s.watchOpen w).foldl (fun s w =>
    let s1 := s.setRf fun r => { r with watches := r.watches.filter (· != w) }
    if w.parent then s1.parentMissed w.band else s1.standbyMissed w.band) s

/-! ### The acquisition search -/

/-- A CHILD searches for its parent (R40). -/
def State.searchesParent (s : State) : Bool := s.sys.state = .structured && s.truss.loaded && s.tp.child && !s.time.acquired

/-- The band of the parent beacon receive cells in force: Band A when there is none (R40). -/
def State.parentBand (s : State) : Nat :=
  let has := fun b => s.sch.frames.any fun e => e.1 / 256 = b && (match s.listInForce b (e.1 % 256) with
    | some g => g.cells.any fun c => c.kind true = some .parentRx
    | none => false)
  if !has 0 && has 1 then 1 else 0

/-- Insert a channel into a rising list without repeats. -/
def insertChan (l : List Nat) (c : Nat) : List Nat :=
  match l with
  | [] => [c]
  | a :: r => if c < a then c :: a :: r else if c = a then a :: r else a :: insertChan r c

/-- The channels searched, one on each primary pier of the band as far as they reach. -/
def State.searchPlan (s : State) : List (Nat × Nat × Nat) :=
  if s.searchesParent then
    let b := s.parentBand
    ((s.primaries b).zip (((if b = 0 then s.tp.hopA else s.tp.hopB).foldl insertChan []))).map fun e => (e.1, b, e.2)
  else []

/-- The 60 s of a search run from its start (R40). -/
def State.searchClock (s : State) : State :=
  s.setTime fun t => { t with searching := if s.searchesParent then t.searching <|> some t.elapsed else none }

/-- Give the search its piers, and take back those it no longer needs; a reception in progress runs on. -/
def State.searchRefresh (s0 : State) : State :=
  let s := s0.searchClock
  let plan := s.searchPlan
  s.setRf fun r => { r with piers := (r.piers.zip (List.range 64)).map fun e =>
    let x := e.1
    match (plan.find? fun a => a.1 = e.2) with
    | some (_, b, ch) =>
      if x.receiving ∨ (x.band = b ∧ x.channel = ch ∧ x.windowOpen) then x
      else { x.to .search with band := b, channel := ch, connected := true, windowOpen := true,
                               window := some { channel := ch, openAt := s.now, closeAt := 0, search := true, parent := true } }
    | none => match x.window with
      | some w => if w.search then (if x.receiving then { x with windowOpen := false } else x.idle) else x
      | none => x }

/-- What every event of the receive path ends with: acknowledgement waits, beacon windows and the search (R220, R197,
R40). -/
def State.settleAir (s : State) : State := s.settleWaits.settleWatches.searchRefresh

/-! ### Windows -/

/-- SYS_STATE is one in which receive windows open (R113): a CHILD's parent cells open in STRUCTURED too. -/
def State.opensWindow (s : State) (w : Window) : Bool :=
  s.inStates [.active, .standby] || (s.sys.state = .structured && w.parent && s.tp.child && s.time.acquired)

/-- RX_WINDOW_OPEN (R194, Table 05-4): the window that resolution gave a primary pier opens. -/
def State.rxWindowOpen (s0 : State) (t : U64) (p : Nat) : State :=
  let s := s0.airAt t
  let x := s.pier p
  match x.window with
  | none => s
  | some w =>
    if !s.isPrimary p || !s.opensWindow w || x.windowOpen || x.state != .idle then s
    else s.setPier p { x.to .search with channel := w.channel, connected := true, windowOpen := true,
                                         band := if s.pierRole p = .primaryA then 0 else 1 }

/-- RX_WINDOW_CLOSE (R107, R197, R397): no new detections; a beacon window left unheard is counted once nothing can still
bring its beacon. -/
def State.rxWindowClose (s0 : State) (t : U64) (p : Nat) : State :=
  let s := s0.airAt t
  let x := s.pier p
  match x.window with
  | none => s
  | some w =>
    if !x.windowOpen || w.search then s
    else
      let y := { x with windowOpen := false }
      let s1 := s.setPier p (if y.receiving || y.state = .blanked then y else y.idle)
      let s2 := if (w.parent || w.beacon) && !w.heard then
          (s1.setRf fun r => { r with watches := r.watches ++
            [{ band := x.band, channel := w.channel, slotStart := w.slotStart, parent := w.parent }] })
        else if w.beacon then { s1 with red := if x.band = 0 then { s1.red with missA := 0 } else { s1.red with missB := 0 } }
        else s1
      s2.settleAir

/-- End every reception and window: entry to a state without receive windows (R113, Table 05-4). A reception ended so is
counted in STOPPED. -/
def State.stopPiers (s : State) : State :=
  let s1 := (List.range 64).foldl (fun s p => if (s.pier p).receiving then s.abandon p 12 else s) s.drained
  s1.setRf fun r => { r with watches := [], piers := r.piers.map fun x => if x.state = .off then x else x.clear.idle }

/-- Roles from the truss in force (R97): piers with a role are IDLE, the rest OFF. -/
def State.assignRoles (s : State) : State :=
  s.setRf fun r => { r with piers := (r.piers.zip (List.range 64)).map fun e =>
    let y := e.1.clear.idle
    if (s.pierRole e.2) = .off then y.to .off else y }

/-! ### Blanking -/

/-- Blanking begins (R112, R136): receptions in progress on the channels it covers are abandoned. -/
def State.blankPiers (s : State) (b ch : Nat) : State :=
  (List.range 64).foldl (fun s p =>
    let x := s.pier p
    if x.receiving && x.band = b && (s.tp.band b).blanks ch x.channel then
      let s1 := (s.cutReception p).bump (Reg.PIER_CNT b 11)
      if s1.isPrimary p then s1.setPier p (x.clear.to .blanked) else s1.leave p
    else s) s.drained

/-- Blanking ends: the piers that nothing blanks any more return to SEARCH, or to IDLE when their window has closed. -/
def State.unblankPiers (s : State) (b : Nat) : State :=
  (List.range 64).foldl (fun s p =>
    let x := s.pier p
    if x.state = .blanked && x.band = b && !s.blankedBy b x.channel then
      s.setPier p (if x.windowOpen then x.to .search else x.idle)
    else s) s

/-! ### Detection and capture -/

/-- Two instants lie within one symbol period. -/
def withinSymbol (sym a b : Nat) : Bool := decide (a ≤ b + sym ∧ b ≤ a + sym)

/-- DET_SYMS + 1 symbol periods bound the detection (R100); the SFD deadline of R103 in ns. -/
def BandCfg.sfdDeadline (c : BandCfg) : Nat := c.symbolNs (c.preambleLen * c.symsPerOctet + 2)

/-- Receptions in progress on a band and channel, but for one pier. -/
def State.receptions (s : State) (b ch : Nat) (but : Option Nat) : List Pier :=
  ((List.range 64).filter fun q => some q != but && (s.pier q).midFrame && (s.pier q).band = b &&
    (s.pier q).channel = ch).map s.pier

/-- The strongest P among receptions. -/
def strongest (l : List Pier) : Option Int :=
  l.foldl (fun m x => match m with
    | none => some x.power
    | some v => some (max v x.power)) none

/-- A pier starts a reception in SYNC (R100, R108). It may answer the acknowledgement waits its preamble is heard in: it
begins within the wait and is detected before the wait closes (R189). -/
def State.startSync (s : State) (p : Nat) (x : Pier) (d : Preamble) : State :=
  let c := s.tp.band x.band
  let heard := match x.window with
    | some w => w.waits.filter fun n => s.rf.waits.any fun v =>
        v.claim = n && !v.closed && decide (v.openAt ≤ d.start ∧ s.now ≤ v.closeAt)
    | none => []
  s.setPier p { x.clear.to .sync with waits := heard, power := clampS d.power 12, cfo := d.cfo, timing := d.start,
                                      sfdBy := s.now + c.sfdDeadline, octetNs := c.octetsNs 1, lastPower := clampS d.power 12 }

/-- A carrier offset lies within the pull-in range (R115). -/
def BandCfg.pullsIn (c : BandCfg) (cfo : Int) : Bool :=
  if c.phy = 3 then decide (cfo.natAbs ≤ 200000) else decide (10 * cfo.natAbs ≤ 3 * c.raster)

/-- PREAMBLE_DETECT (R100, R101, R108, R109, R115). -/
def State.preambleDetect (s0 : State) (t : U64) (p : Nat) (d : Preamble) : State :=
  let s := s0.airAt t
  let x := s.pier p
  let b := x.band
  let det := s.reg (Reg.RXF_DET b)
  if !s.isPrimary p || !x.windowOpen || !(x.state = .search || x.midFrame) || s.blankedBy b x.channel ||
      decide (d.corr < bits det 7 0) || decide (d.power < signed (bits det 23 16) 8 * 4) || !(s.tp.band b).pullsIn d.cfo then s
  else
    let sym := (s.tp.band b).symbolNs 1
    if (s.receptions b x.channel (some p)).any fun q => withinSymbol sym q.timing d.start then s.bump (Reg.PIER_CNT b 14)
    else if x.midFrame && withinSymbol sym x.timing d.start then s
    else
      let s1 := s.bump (Reg.PIER_CNT b 0)
      if x.state = .search then s1.startSync p x d
      else
        let qualifies := match strongest (s1.receptions b x.channel none) with
          | some v => decide (v + 2 * s1.tp.captureMargin ≤ d.power)
          | none => true
        if !qualifies then s1
        else match s1.freeTwins with
          | w :: _ => (s1.bump (Reg.PIER_CNT b 7)).startSync w { s1.pier w with
              band := b, channel := x.channel, connected := true, partner := some p, window := x.window, windowOpen := false } d
          | [] => if x.state = .sync then (s1.bump (Reg.PIER_CNT b 8)).startSync p x d else s1.bump (Reg.PIER_CNT b 9)

/-- SFD_FOUND (R101, R102, R46): `ts` is the SFD timestamp. -/
def State.sfdFound (s0 : State) (t : U64) (p ts : Nat) : State :=
  let s := s0.airAt t
  let x := s.pier p
  let c := s.tp.band x.band
  if x.state != .sync || decide (x.sfdBy < s.now) then s
  else if (s.receptions x.band x.channel (some p)).any fun q =>
      withinSymbol (c.symbolNs 1) (if q.sfd = 0 then q.timing + c.sfdNs else q.sfd) ts then s.bump (Reg.PIER_CNT x.band 14)
  else (s.bump (Reg.PIER_CNT x.band 1)).setPier p { x.to .header with sfd := ts }

/-- SFD_TIMEOUT (R103). -/
def State.sfdTimeout (s0 : State) (t : U64) (p : Nat) : State :=
  let s := s0.airAt t
  let x := s.pier p
  if x.state = .sync && decide (x.sfdBy ≤ s.now) then (s.abandon p 2).settleAir else s

/-! ### The PHR and the end of a frame -/

/-- A mode switch is accepted (R105). -/
def Phr.switchOk (h : Phr) (c : BandCfg) : Bool :=
  c.phy != 3 && h.msOk && !h.fec && decide (h.phy ≤ 2 ∧ 10000 ≤ h.symbolRate ∧ h.symbolRate ≤ 400000) &&
    (h.modIndex = 5 || h.modIndex = 10) && decide (h.symbolRate * (10 + h.modIndex) ≤ 8 * c.raster)

/-- FCS octets of a frame under its PHR. -/
def Phr.fcsOctets (h : Phr) (c : BandCfg) : Nat := if c.phy = 3 || h.fcs2 then 2 else 4

/-- The claim of the acknowledgement a reception may owe (R122, R124): the pier keeps its number. -/
def State.claimAck (s : State) (x : Pier) (ends : Nat) : State × Option Nat :=
  if !s.serving then (s, none)
  else
    let w := x.window.getD {}
    let tm := w.tmpl
    match s.makeClaim { id := 0, chain := 0, band := x.band, channel := x.channel, kind := .ack none, rank := 4,
                        t0 := ends + tm.txAckGap * 1000, slip := tm.txSlip, len := tm.ackPsduMax,
                        slotStart := w.slotStart, slotTick := s.time.tickno, tmpl := tm } with
    | (s1, some c) => (s1, some c.id)
    | (s1, none) => (s1, none)

/-- PHR_RECEIVED (R104, R105, R122): at the last symbol of the PHR. -/
def State.phrReceived (s0 : State) (t : U64) (p : Nat) (h : Phr) : State :=
  let s := s0.airAt t
  let x := s.pier p
  let c := s.tp.band x.band
  if x.state != .header then s
  else if c.phy != 3 && h.ms then
    if !h.reserved && h.switchOk c then
      let m : BandCfg := { c with phy := h.phy, modIndex := h.modIndex, symbolRate := h.symbolRate }
      (s.bump (Reg.PIER_CNT x.band 13)).setPier p { x.to .sync with
        ms := true, sfd := 0, octetNs := m.octetsNs 1,
        sfdBy := s.now + 1000000 + m.octetsNs m.preambleLen + m.symbolNs 2 }
    else (s.abandon p 3).settleAir
  else if h.len < h.fcsOctets c ∨ c.maxPsdu < h.len then (s.abandon p 4).settleAir
  else if h.reserved then (s.abandon p 3).settleAir
  else
    let ends := s.now + h.len * x.octetNs
    let (s1, cl) := s.claimAck x ends
    s1.setPier p { (s1.pier p).to .payload with
      ends := some ends, len := h.len, fcs4 := h.fcsOctets c = 4, whitened := h.whitened && c.phy != 3, ackClaim := cl }

/-- A frame that a pier hands to the MAC (R106). -/
def State.handOver (s : State) (p : Nat) (x : Pier) (air : AirFrame) (mpdu : List Byte) (cfo : Int) : State :=
  let w := x.window.getD {}
  let f : RxFrame := {
    id := s.rf.nextFrame, band := x.band, channel := x.channel, pier := p, sfd := x.sfd, ends := s.now, power := x.power,
    cfo := cfo, clipped := x.clipped, twin := s.pierRole p = .twin, ms := x.ms, fcs4 := x.fcs4, tmpl := w.tmpl,
    slotStart := w.slotStart, parent := w.parent, search := w.search, overheard := s.standingBy && (w.txCell || w.beacon),
    waits := x.waits, mpdu := mpdu, air := air, ackClaim := x.ackClaim }
  let s1 := s.setRf fun r => { r with frames := r.frames ++ [f], nextFrame := r.nextFrame + 1 }
  match x.ackClaim.bind s1.claim with
  | some c => s1.setClaim { c with kind := .ack (some f.id) }
  | none => s1

/-- FRAME_END (R106): the last PSDU octet. `octets` are the PSDU as received, `air` its MAC frame as parsed, `cfo` the final
estimate of R115. A frame whose FCS passes waits in DRAIN for the MAC. -/
def State.frameEnd (s0 : State) (t : U64) (p : Nat) (air : AirFrame) (octets : List Byte) (cfo : Int) : State :=
  let s := s0.airAt t
  let x := s.pier p
  if x.state != .payload then s
  else
    let mpdu := air.header ++ air.payload ++ air.mic
    let psdu := if x.whitened then Config.whiten octets else octets
    let ok := psdu == mpdu ++ fcsOf x.fcs4 mpdu && decide (psdu.length = x.len)
    let v := clampS cfo 24
    let s1 := (s.setPier p { x with lastCfo := v }).iqFrame x.band x.power
    if !ok then (s1.abandon p 6).settleAir
    else
      let s2 := (s1.bump (Reg.PIER_CNT x.band 5)).bump (Reg.PIER_FRAMES p)
      ((s2.handOver p x air mpdu v).setPier p { x.to .drain with lastCfo := v, ends := some s.now }).settleAir

/-- The pier that holds a frame in DRAIN has handed it over (Table 05-4). -/
def State.handedOver (s : State) (id : Nat) : State :=
  match s.rxFrame id with
  | none => s
  | some f =>
    let x := s.pier f.pier
    if x.state = .drain && x.sfd = f.sfd then s.leave f.pier else s

/-- MAC_FRAME_RX (R102, R200 to R203): a pier hands a frame over, and the frame passes stage 3. -/
def State.macFrameTaken (s : State) (id : Nat) (adj : Int) : State := ((s.handedOver id).macFrameRx id adj).settleAir

end Sys2Proof.Machine
end

