-- ==== Sys2Proof/Machine/Transmit.lean ====
section
/-! DEFINITION. The course of a transmission (R125 to R140): the tune, the coexistence lines, the lock, the decision
instant, the ramps, and every way in which one ends; the acknowledgement wait (R189, R220); the parapet's backstop (R178). -/

namespace Sys2Proof.Machine

/-- The frame an acknowledgement claim is for. -/
def State.ackFrame (s : State) (c : Claim) : Option RxFrame := s.rf.frames.find? fun f => f.ackClaim = some c.id

/-- PRE of a transmission before its limit (Table 06-2). -/
def State.preFor (s : State) (c : Claim) : Int :=
  if !bit (s.reg (Reg.TXC_PRECORR c.band)) 31 then 0
  else match c.kind with
    | .beacon _ _ => 0
    | .ack _ => match s.ackFrame c with
      | some f => f.cfo
      | none => 0
    | .cell n => match s.txDesc n with
      | none => 0
      | some x =>
        let k := (s.line x.peer).ctx
        if x.form = .flood ∨ k.lastHeard = 0 then 0 else signed k.cfo.toNat 24

/-- A lower power that the transmit descriptor names (R121). -/
def State.namedPower (s : State) (c : Claim) : Option Int :=
  match c.kind with
  | .cell n => (s.txDesc n).bind TxDesc.power
  | _ => none

/-- In the full profile a channel without a stored entry is calibrated before the synthesiser locks on it (R131), unless a
calibration of rank 1 holds the chain. -/
def State.ensureEntry (s : State) (c : Claim) : State :=
  let i := s.tp.calIndex c.chain c.channel
  if s.tp.calFull && !(s.calEntry c.chain i).valid && !s.calBlock c.chain then s.calEntryDone c.chain i else s

/-- The frequency word of a tune: f_tx in steps of 40 MHz / 2^25, to the nearest (R126). -/
def synthWord (f : Nat) : Nat := (f * 2 ^ 25 + 20000000) / 40000000

/-- The synthesiser of a chain takes a word. -/
def State.setSynth (s : State) (c word : Nat) : State := s.setRf fun r => { r with synths := lset r.synths c { word := word } }

/-- The tune of a claim (R125, R126): f_tx with its pre-correction, its read-backs and its frequency word. -/
def State.tune (s : State) (c : Claim) : State :=
  let want := s.preFor c
  let pre := clampTo want (s.regFld (Reg.TXC_PRECORR c.band) 19 0)
  let f := (((s.tp.band c.band).centre c.channel : Int) + pre).toNat
  let s1 := (if pre = want then s else s.bump (Reg.TXC_CNT c.chain 7)).ensureEntry c
  let s2 := ((s1.setReg (Reg.TXC_FREQ c.chain) (pw f)).setReg (Reg.TXC_PRE c.chain) (pw (unsigned pre 24))).setFld
    (Reg.TXC_STATUS c.chain) 9 0 c.channel
  (s2.setSynth c.chain (synthWord f)).setClaim { c with
    stage := .tuned, fTx := f, lock := none, blocked := s.calBlock c.chain, power := s.txPower c.band (s.namedPower c) }

/-- TUNE_INSTANT (R125, R126, R128, R131, R132, R140): the settings in force are taken, a preemptible calibration job stops,
and the synthesiser retunes; a channel without a stored entry is calibrated first. -/
def State.tuneInstant (s0 : State) (t : U64) (id : Nat) : State :=
  let s := s0.at_ t
  match s.claim id with
  | none => s
  | some c0 =>
    if c0.stage ≠ .claimed ∨ c0.ended then s
    else
      let c := s.onChain c0 c0.chain
      match s.meetCalJob c with
      | (s1, false) => s1.claimLate c
      | (s1, true) => s1.tune c

/-- COEX_REQUEST (R137): REQ, and with it PRI by rank, from T0 − RAMP − REQ_LEAD, with the settings that govern the
transmission (R140). -/
def State.coexRequest (s0 : State) (t : U64) (id : Nat) : State :=
  let s := s0.at_ t
  match s.claim id with
  | none => s
  | some c0 =>
    let c := if c0.stage = .claimed then s.onChain c0 c0.chain else c0
    if c.ended || !c.coex || decide (s.now < c.reqAt) then s else s.setClaim { c with req := true }

/-- COEXx_REQ of a band: only in ACTIVE (R14). -/
def State.coexReq (s : State) (b : Nat) : Bool :=
  s.sys.state = .active && s.rf.claims.any fun c => c.band = b && c.coex && c.req

/-- COEXx_PRI of a band: the rank of a requesting claim is at or above PRI_RANK. -/
def State.coexPri (s : State) (b : Nat) : Bool :=
  s.sys.state = .active && s.rf.claims.any fun c => c.band = b && c.coex && c.req && decide (c.rank ≤ c.priRank)

/-- A rank-1 calibration is running on a chain. -/
def State.rank1Runs (s : State) (c : Nat) : Bool := s.cal.jobs.any fun j => j.chain = c && j.rank = 1

/-- SYNTH_LOCK (R130, R131, R133): lock is confirmed, but not while a calibration of rank 1 runs on the chain, nor, for a
transmission whose tune instant met one due, before it has ended. -/
def State.synthLock (s0 : State) (t : U64) (id : Nat) : State :=
  let s := s0.at_ t
  match s.claim id with
  | none => s
  | some c =>
    if c.ended || !(c.stage = .tuned || c.stage = .decided) || c.lock.isSome || s.rank1Runs c.chain ||
        (c.blocked && s.calBlock c.chain) then s
    else (s.ensureEntry c).setClaim { c with lock := some s.now }

/-! ### Endings -/

/-- Airtime a transmission of a claim is charged for, in ns (R172). -/
def State.airtime (s : State) (c : Claim) : Nat := s.claimAir c + 2 * c.ramp * 1000

/-- The attempt at a frame's acknowledgement has ended without one (R129, R138, R139): a frame that has passed is delivered
NOACK, and one still to pass will be. -/
def State.ackRefused (s : State) (id : Nat) : State :=
  match s.rxFrame id with
  | none => s
  | some f =>
    if f.stage = .passed ∨ f.stage = .acking then s.settleAck id false true false
    else s.setFrame { f with ackClaim := none, mute := true }

/-- The attempt of a claim ends with a status (R220, R129): LATE and PARAPET leave a cell's frame queued, an
acknowledgement's frame is delivered NOACK, a beacon counts EB_FAILED. -/
def State.attemptEnds (s : State) (c : Claim) (st : Status) : State :=
  let s1 := s.dropWait c.id
  match c.kind with
  | .cell n => s1.cellEnds n st
  | .beacon _ _ => s1.beaconEnds c.band
  | .ack (some f) => s1.ackRefused f
  | .ack none => s1.ackLost c.id true

/-- An attempt cut off by loss of the interlock (Table 06-7): with PAIR = 1 the new active chip completes its descriptor,
with PAIR = 0 it completes LATE. -/
def State.interlockEnds (s : State) (c : Claim) : State :=
  match c.kind with
  | .cell n => if bit (s.reg Reg.RED_CTRL) 31 then match s.txDesc n with
      | some x => (s.dropWait c.id).txForget x
      | none => s.dropWait c.id
    else s.attemptEnds c .late
  | _ => s.attemptEnds c .late

/-- A refused attempt: its coexistence request goes, and its FEM lines and blanking return FEM_LAG and BLANK_TAIL after the
instant given (R129). Its airtime stays charged: R172 refunds other endings. -/
def State.refused (s : State) (c : Claim) : State :=
  (s.withdrawJob c.id).setClaim { c with ended := true, req := false, fem := true, blanking := true, downAt := s.now }

/-- Refund what a transmission that has ended did not emit (R172). -/
def State.refundDue (s : State) (c : Claim) : State :=
  if c.refund = 0 then s else s.parRefund c.band c.channel c.fTx c.refund

/-- A transmission ends early, its ramp-down of `ramp` ns begun (R138, R139, R178): its emission joins the run of its band
(R176), and the airtime it did not emit is refunded at its end (R172). -/
def State.cutOff (s0 : State) (c0 : Claim) (ramp : Nat) : State :=
  let s := s0.observeDue c0
  let c := { c0 with seen := none }
  let on := decide (c.stage = .on)
  let z := s.time.elapsed + ramp
  let s1 := if on then s.emitted c.band c.upAt z else s
  let d := { c with ended := true, stage := .ramped, sent := false, downAt := s.now + ramp, charged := 0,
                    refund := c.charged - (if on then z - c.upAt else 0) }
  if ramp = 0 then (s1.refundDue d).setClaim { d with refund := 0 } else s1.setClaim d

/-- The ramp-down of a claim cut short: RAMP once it is on the air, none before. -/
def Claim.rampNs (c : Claim) : Nat := if c.stage = .on then c.ramp * 1000 else 0

/-! ### The decision instant -/

/-- The claim of an acknowledgement whose frame's job is complete carries the secured acknowledgement (R129 check 4,
R212), also where its eligibility (R110) is judged later. -/
def State.ackSecured (s : State) (c : Claim) : Claim :=
  match c.kind, s.ackFrame c with
  | .ack _, some f =>
    if f.stage = .passed ∨ f.stage = .acking then { c with psdu := some f.ackPsdu, len := f.ackPsdu.length } else c
  | _, _ => c

/-- What a claim sends is an acknowledgement. -/
def Claim.isAck (c : Claim) : Bool :=
  match c.kind with
  | .ack _ => true
  | _ => false

/-- The emission of a claim, from the start of its ramp-up to the end of its ramp-down, in elapsed time. -/
def State.emission (s : State) (c : Claim) : Nat × Nat :=
  (if c.stage = .on then c.upAt else s.elapsedAt (c.t0 - c.ramp * 1000), s.elapsedAt (c.t0 + s.claimAir c + c.ramp * 1000))

/-- The length in ns of a band's current continuous run so far, of its emissions ended and on the air (R176, PAR_CONT). -/
def State.runNs (s : State) (b : Nat) : Nat :=
  let now := s.time.elapsed
  let l := (s.par.cont b).toList ++ (s.rf.claims.filter fun x => x.band = b && x.onAir && x.stage = .on).map s.emission
  let end_ := l.foldl (fun m x => if x.1 ≤ now then max m (min now x.2) else m) 0
  if l.any (fun x => decide (x.1 ≤ now ∧ now < x.2 + 100000)) then end_ - runStart l now else 0

/-- What the parapet is asked of a claim (R171 to R177). -/
def State.parAsk (s : State) (c : Claim) (energy : List (Nat × Int)) : ParAsk :=
  { band := c.band, channel := c.channel, fTx := c.fTx, power := c.power, from_ := c.t0 - c.ramp * 1000,
    to_ := c.t0 + s.claimAir c + c.ramp * 1000, ack := c.isAck, energy := energy,
    listenTo := if c.isAck then c.decisionAt else c.slotStart + (c.tmpl.ccaOffset + c.tmpl.ccaLen) * 1000,
    earliest := c.t0 - c.tmpl.txAckGap * 1000,
    runs := (s.rf.claims.filter fun x => x.band = c.band && x.id != c.id && x.onAir).map s.emission }

/-- The checks of R129, made for a claim at its decision instant with what was then sampled. -/
def State.decide_ (s : State) (c0 : Claim) (gnt : Bool) (energy : List (Nat × Int)) : State :=
  let c := { s.ackSecured c0 with ask := none }
  if s.sys.state ≠ .active then (s.refused c).attemptEnds c .late
  else if !s.mayEmit then (s.refused c).interlockEnds c
  else match s.parCheck (s.parAsk c energy) with
    | (s1, none) => ((s1.bump (Reg.TXC_CNT c.chain 5)).refused c).attemptEnds c .parapet
    | (s1, some (p, runEnd)) =>
      if c.coex && !gnt then ((s1.bump (Reg.TXC_CNT c.chain 3)).refused c).attemptEnds c .late
      else if c.psdu.isNone then ((s1.countLate 2).refused c).attemptEnds c .late
      else s1.setClaim { c with stage := .decided, power := p, charged := s1.airtime c, runEnd := runEnd, fem := true,
                                blanking := true }

/-- The decision of `x` comes before that of `c` (R179): their instants are one, and `x` has the higher rank, or the same
rank and the lower chain. -/
def Claim.decidesFirst (x c : Claim) : Bool :=
  x.band = c.band && x.id != c.id && !x.ended && x.stage = .tuned && x.decisionAt = c.decisionAt &&
    (decide (x.rank < c.rank) || (x.rank = c.rank && decide (x.chain < c.chain)))

/-- Make the decision of a claim that has been asked and waits for no other. -/
def State.decideAsked (s : State) (c : Claim) : State :=
  match c.ask with
  | none => s
  | some (gnt, energy) => if s.rf.claims.any fun x => x.decidesFirst c then s else s.decide_ c gnt energy

/-- Make every decision of a band that waits for no other (R179): at most one claim a chain is at its instant. -/
def State.decideBand (s : State) (b : Nat) : State :=
  (List.range 4).foldl (fun s _ =>
    match s.rf.claims.find? fun c => c.band = b && !c.ended && c.ask.isSome && !(s.rf.claims.any fun x => x.decidesFirst c) with
    | some c => s.decideAsked c
    | none => s) s

/-- DECISION_INSTANT (R129, R135, R136, R177, R179): `gnt` is the level of COEXx_GNT, `energy` what the channeliser measured
on the channel. A decision that R179 puts behind another of the same instant is made once that one is. -/
def State.decisionInstant (s0 : State) (t : U64) (id : Nat) (gnt : Bool) (energy : List (Nat × Int)) : State :=
  let s := s0.at_ t
  match s.claim id with
  | none => s
  | some c =>
    if c.stage ≠ .tuned ∨ c.ended ∨ c.ask.isSome ∨ s.now < c.decisionAt then s
    else
      let s1 := (s.setFld (Reg.TXC_COEX c.band) 30 30 (b2n gnt)).blankPiers c.band c.channel
      ((s1.setClaim { c with ask := some (gnt, energy) }).decideBand c.band).settleAir

/-- A claim asked and not yet decided by its ramp start is decided then. -/
def State.decideOverdue (s : State) (id : Nat) : State :=
  match s.claim id with
  | none => s
  | some c => match c.ask with
    | some (gnt, energy) => if c.ended then s else s.decide_ c gnt energy
    | none => s

/-- The slip of a transmission moves the acknowledgement wait that a pier is to open for it (R130, R189). -/
def State.slipWaits (s : State) (id sl : Nat) : State :=
  s.setRf fun r => { r with piers := r.piers.map fun p => { p with window := p.window.map fun w => w.slip id sl } }

/-- The ramp starts `sl` ns late (R130): its slip is shown and counted. -/
def State.rampUp (s : State) (c : Claim) (sl : Nat) (carrier obs dev : Int) : State :=
  let s1 := s.setReg (Reg.TXC_SLIP c.chain) (fld sl 0)
  let s2 := if sl = 0 then s1 else (s1.bump (Reg.TXC_CNT c.chain 1)).setReg (Reg.TXC_SLIP_MAX c.chain)
    (fld (max sl (s1.regFld (Reg.TXC_SLIP_MAX c.chain) 16 0)) 0)
  let s3 := s2.setReg (Reg.TXC_LASTPWR c.chain) (fld (unsigned c.power 12) 0)
  ((s3.setClaim { c with stage := .on, upAt := s.time.elapsed, slipped := sl, t0 := c.t0 + sl, seen := some (obs, dev) }).slipWaits
    c.id sl).observeCarrier c carrier

/-- RAMP_UP_START (R130): the ramp starts on a locked synthesiser, at T0 − RAMP or later by at most TX_SLIP; without a lock
by then the attempt completes LATE, its channel calibrated by then (R131). `carrier` is the carrier's error in Hz as observed
during the ramp-up, `obs` (0.25 dB) and `dev` (0.1 %) what it shows over the preamble if it is then cut off (R160). -/
def State.rampUpStart (s0 : State) (t : U64) (id : Nat) (carrier obs dev : Int) : State :=
  let s := (s0.at_ t).decideOverdue id
  match s.claim id with
  | none => s
  | some c =>
    let due := c.t0 - c.ramp * 1000
    let last := due + c.slip * 1000
    if c.stage ≠ .decided ∨ c.ended ∨ s.now < due then s
    else if c.lock.isSome ∧ s.now ≤ last then s.rampUp c (s.now - due) carrier obs dev
    else if last ≤ s.now then
      let s1 := ((s.ensureEntry c).bump (Reg.TXC_CNT c.chain 2)).countLate 4
      ((s1.refused { c with charged := 0 }).attemptEnds c .late).settleAir
    else s

/-- The last symbol of a cell transmission has been sent (R220, R224): the attempt counts as sent, and its acknowledgement
wait is timed from that instant (R189). -/
def State.frameSent (s : State) (c : Claim) : State :=
  match c.kind with
  | .cell n => match s.txDesc n with
    | none => s
    | some x =>
      let s1 := s.setDesc { x with attempts := x.attempts + 1 }
      if x.form = .flood ∨ x.noAr then s1
      else
        let g := s.regFld (Reg.SCH_ACK_WAIT c.band) 15 0 * 1000
        let e := s.now + c.tmpl.txAckGap * 1000
        s1.setRf fun r => { r with waits := r.waits ++
          [{ claim := c.id, desc := n, peer := x.peer, seq := c.seq, level := c.level, band := c.band, channel := c.channel,
             openAt := e - g, closeAt := e + g }] }
  | _ => s

/-- What a transmission whose ramp-down has ended normally leaves to its owner (R196, R206, R220, R230). RESYNC_TICK is that
of the end of the ramp-down (R191). -/
def State.sentNormally (s : State) (c : Claim) : State :=
  match c.kind with
  | .beacon _ _ => s.bump (Reg.SCH_CNT c.band 5)
  | .ack none => s
  | .ack (some id) => match s.rxFrame id with
    | none => s
    | some f =>
      let s1 := s.bump (Reg.MAC_CNT 11)
      let s2 := if bit f.ackFlags 0 && decide (f.air.level ≠ 0) then
          s1.updCtx (f.node.getD 0) fun k => { k with resyncTick := BitVec.ofNat 48 (tickOf c.downAt s1.tp.tickPeriod) }
        else s1
      s2.settleAck id true false false
  | .cell n => match s.txDesc n with
    | none => s
    | some x => if x.form = .flood then s.floodSent x c.item else if x.noAr then s.frameDone x else s

/-- TX_END (R127, R160, R220): the last PSDU symbol ends and the PA ramps down. `obs` (0.25 dB) and `dev` (0.1 %) are what the
observation receiver measured over the preamble; a power not acted on before is acted on now. -/
def State.txEnd (s0 : State) (t : U64) (id : Nat) (obs dev : Int) : State :=
  let s := s0.at_ t
  match s.claim id with
  | none => s
  | some c =>
    if c.stage ≠ .on ∨ c.ended then s
    else
      let s1 := (s.emit (.rfFrame c.chain c.channel (BitVec.ofNat 64 c.t0) (c.psdu.getD []))).observeDue
        { c with seen := c.seen.map fun _ => (obs, dev) }
      let s2 := (s1.emitted c.band c.upAt (s1.time.elapsed + c.ramp * 1000)).setClaim { c with
        stage := .ramped, ended := true, sent := true, seen := none, charged := 0, downAt := s.now + c.ramp * 1000 }
      (s2.frameSent c).settleAir

/-- Keep a claim that has ended until nothing is left of it: its lines, its blanking and its occupied interval (R122). -/
def State.retire (s : State) (c : Claim) : State := (s.setClaim c).purgeClaims

/-- FEM_RETURN (R134, R135, R137, R140, R172): FEM_LAG after the ramp-down the lines return to receive and REQ is released;
the ramp-down has ended, and with it a transmission sent whole. -/
def State.femReturn (s0 : State) (t : U64) (id : Nat) : State :=
  let s := s0.at_ t
  match s.claim id with
  | none => s
  | some c =>
    if !c.ended ∨ !c.fem then s
    else
      let s1 := (s.refundDue c).setClaim { c with fem := false, req := false, refund := 0 }
      ((if c.sent then (s1.bump (Reg.TXC_CNT c.chain 0)).sentNormally c else s1).purgeClaims).settleAir

/-- BLANKING_END (R136): BLANK_TAIL after the ramp-down, the piers that nothing else blanks search again. -/
def State.blankingEnd (s0 : State) (t : U64) (id : Nat) : State :=
  let s := s0.at_ t
  match s.claim id with
  | none => s
  | some c => if c.ended then (s.retire { c with blanking := false }).unblankPiers c.band else s

/-- COEX_GRANT_WITHDRAWN (R138): transmissions of the band past their decision instant ramp down and complete LATE. -/
def State.coexGrantWithdrawn (s0 : State) (t : U64) (b : Nat) : State :=
  let s := (s0.at_ t).setFld (Reg.TXC_COEX b) 30 30 0
  ((s.rf.claims.filter fun c => c.coex && c.band = b && c.onAir).foldl (fun s c =>
    ((s.cutOff c c.rampNs).bump (Reg.TXC_CNT c.chain 4)).attemptEnds c .late) s).settleAir

/-- PARAPET_BACKSTOP (R178): emission past the checked run of continuous transmission ends PARAPET. -/
def State.parapetBackstop (s0 : State) (t : U64) (id : Nat) : State :=
  let s := s0.at_ t
  match s.claim id with
  | none => s
  | some c =>
    if c.stage ≠ .on ∨ c.ended ∨ c.runEnd = 0 ∨ s.time.elapsed ≤ c.runEnd then s
    else
      let s1 := ((s.cutOff c c.rampNs).bump (Reg.TXC_CNT c.chain 5)).bump (Reg.PAR_CNT c.band 7)
      ((post s1 .error 0x08 (some .parapet) 0 [pw c.chain, pw c.channel]).attemptEnds c .parapet).settleAir

/-- ACK_WAIT_CLOSE (R220): the wait of a sent frame ends; a frame still being judged in it may yet answer. -/
def State.ackWaitClose (s0 : State) (t : U64) (id : Nat) : State :=
  let s := s0.at_ t
  (s.setRf fun r => { r with waits := r.waits.map fun w => if w.claim = id then { w with closed := true } else w }).settleAir

/-! ### State changes (Table 06-7) -/

/-- Claims not past their decision. -/
def State.openClaims (s : State) : List Claim := s.rf.claims.filter fun c => !c.ended && (c.stage = .claimed || c.stage = .tuned)

/-- The claim of an acknowledgement is withdrawn by a change of state: its attempt has ended (R139, R402). -/
def State.ackWithdrawn (s : State) (c : Claim) : State :=
  match s.ackFrame c with
  | some f => (s.endClaim c).ackRefused f.id
  | none => (s.endClaim c).ackLost c.id true

/-- Entry to MAINTENANCE: claims that have not reached their decision instant complete LATE (R139), and what a transmission on
the air has shown over its preamble is acted on (R160). -/
def State.claimsLate (s : State) : State :=
  s.openClaims.foldl (fun s c => if c.isAck then s.ackWithdrawn c else s.claimLate c)
    ((s.rf.claims.filter Claim.onAir).foldl (fun s c => s.observeDue c) s)

/-- Loss of the interlock in ACTIVE (R385, R387): transmissions past their decision instant are cut off without a ramp. -/
def State.interlockLost (s : State) : State :=
  ((s.rf.claims.filter Claim.onAir).foldl (fun s c => (s.cutOff c 0).interlockEnds c) s).settleAir

/-- Every transmission and transmit descriptor in flight completes with one status: entry to ALARM (ALARM), to FAULT or a
reset (ABORTED). The lines and the blanking are gone at once; a beacon not sent is counted (R196). -/
def State.endAllTx (s : State) (st : Status) : State :=
  let unsent := s.rf.claims.filter fun c => !c.ended && match c.kind with
    | .beacon _ _ => true
    | _ => false
  let s1 := (s.rf.claims.filter Claim.onAir).foldl (fun s c => s.cutOff c 0) s
  let s2 := unsent.foldl (fun s c => s.beaconEnds c.band) (s1.rf.claims.foldl (fun s c => s.refundDue c) s1)
  let s3 := s2.rf.descs.foldl (fun s x => s.txComplete x st) s2
  s3.setRf fun r => { r with claims := [], waits := [], descs := [] }

/-- A planned switch-over is accepted (R402): no new claim is made, and the attempts not yet at their decision instant end
with no completion of their own. -/
def State.claimsForget (s : State) : State :=
  s.openClaims.foldl (fun s c => match c.kind with
    | .cell n => match s.txDesc n with
      | some x => ((s.dropWait c.id).endClaim c).txForget x
      | none => (s.dropWait c.id).endClaim c
    | .beacon _ _ => (s.endClaim c).beaconEnds c.band
    | .ack _ => s.ackWithdrawn c) s

/-! ### The lines -/

/-- PA_EN of a band would be high (Table 06-6): some chain is between its decision instant and FEM_LAG after its ramp-down,
with the interlock and in ACTIVE (R135). -/
def State.paOn (s : State) (b : Nat) : Bool := s.mayEmit && s.rf.claims.any fun c => c.band = b && c.fem

/-- The level of FEM line `i` of a band (Table 06-6); none while the lines are high-impedance (R135). -/
def State.femLine (s : State) (b i : Nat) : Option Bool :=
  if s.sys.state = .reset then none
  else if !(s.tp.band b).present then some false
  else some (match s.tp.femFn.getD (6 * b + i) 0 with
    | 1 => s.paOn b
    | 2 => (s.tp.band b).lwt || !s.paOn b
    | 3 => s.paOn b
    | 4 => bit (s.reg (Reg.TXC_FEM b)) (24 + i)
    | _ => false)

/-! ### The check deadline of an acknowledgement -/

/-- A frame that has passed gets no acknowledgement, because another reception on its channel holds or took it (R111): an
acknowledgement already begun is cut off. A DUP frame is not delivered, so it is not counted. -/
def State.ackCaptured (s : State) (f : RxFrame) : State :=
  let s1 := match f.ackClaim.bind s.claim with
    | some c => if c.onAir then (s.cutOff { c with charged := 0 } c.rampNs).setFrame { f with ackClaim := none } else s.releaseAck f
    | none => s
  (if f.dup then s1 else s1.bump (Reg.PIER_CNT f.band 10)).settleAck f.id false true true

/-- A frame that has passed is eligible at its check deadline (R110): the channel's acknowledgement in the slot is given to
it, or no chain was to be had for it (R124). -/
def State.ackGrant (s : State) (f : RxFrame) : State :=
  match f.ackClaim.bind s.claim with
  | none => (s.bump (Reg.TXC_ACK_NOCHAIN f.band)).settleAck f.id false true false
  | some c => ((s.setClaim { c with psdu := some f.ackPsdu, len := f.ackPsdu.length }).setFrame { f with stage := .acking }).setRf
      fun r => { r with acks := r.acks ++ [(f.band, f.channel, f.slotStart)] }

/-- ACK_CHECK_DEADLINE (R110, R111, R124, Table 02-2 index 3): the check deadline of the acknowledgement a received frame may
owe. Where RAMP + FEM_LEAD exceeds 60 µs the decision instant comes first. -/
def State.ackCheckDeadline (s0 : State) (t : U64) (fid : Nat) : State :=
  let s := s0.at_ t
  match s.rxFrame fid with
  | none => (s.rf.claims.filter fun c => c.kind = .ack (some fid) && c.undecided).foldl (fun s c => s.endClaim c) s
  | some f =>
    if s.now < f.ackDue then s
    else if !(f.owes || (f.stage = .arrived && !f.known && s.owesAck f.air)) then s.releaseAck f
    else if f.stage = .arrived || f.stage = .checking then
      if f.late then s else ((s.releaseAck f).setFrame { f with late := true, ackClaim := none }).countLate 3
    else if f.stage ≠ .passed then s
    else if s.laterReception f f.ackAt || s.rivalHolds f || s.ackGiven f then s.ackCaptured f
    else s.ackGrant f

end Sys2Proof.Machine
end

