-- ==== Sys2Proof/Machine/MacCipher.lean ====
section
/-! DEFINITION. Cipher jobs as they meet the MAC: what a job binds at its dispatch (R13, R196, R212, R218, R230, R301), how
each job ends (R319, R323), and the slow units (R327, R328). -/

namespace Sys2Proof.Machine

/-! ### Binding at dispatch -/

/-- What a protect job is given at dispatch: its ENC_ONLY slot, additional data, message and nonce. -/
structure TxBound where
  slot : Nat
  aad : List Byte
  input : List Byte
  nonce : List Byte
  deriving DecidableEq, Repr

/-- The keys of a transmission to a node (R301): of KEY_GEN while a node master of that GEN is usable, else of the master in
force, whose GEN the context takes. `none` for KEY_REVOKED, `some none` when no pair can be taken. -/
def State.txKeys (s : State) (n : Nat) (c : Ctx) : State × Option (Option (Nat × Byte)) :=
  let put := fun (s : State) (e d : Nat) (g : Byte) => s.updCtx n fun k =>
    { k with keyGen := g, encSlot := BitVec.ofNat 12 e, decSlot := BitVec.ofNat 12 d }
  match s.masterOf c.keyGen with
  | some _ => match s.nodeKeys n c c.keyGen with
    | (s1, some (some (e, d, g))) => (put s1 e d g, some (some (e, g)))
    | (s1, some none) => (s1, some none)
    | (s1, none) => (s1, none)
  | none => match s.nodeMaster with
    | none => (s, none)
    | some m => match s.deriveNode m n c.eui64 with
      | (s1, some e) => (put s1 e (e + 1) (s.slot m).gen, some (some (e, (s.slot m).gen)))
      | (s1, none) => (s1, some none)

/-- Split a frame into what CCM* authenticates and what it enciphers. -/
def ccmParts (level : Nat) (hdr payload : List Byte) : List Byte × List Byte :=
  if enciphers level then (hdr, payload) else (hdr ++ payload, [])

/-- A slot that protects, checked as R196 sets out: invalid gives KEY_REVOKED, one without ENC_ONLY gives KEY_ATTR. -/
def State.encSlotCheck (s : State) (k : Nat) : Option Status :=
  if !s.usable k then some .keyRevoked else if usage (s.slot k).attr ≠ 0 then some .keyAttr else none

/-- The gate list of a slotframe at an ASN, or an empty one. -/
def State.listAt (s : State) (b h asn : Nat) : GateList := (s.gateList b h asn).getD {}

/-- The payload IEs of a beacon claim. -/
def State.beaconPayload (s : State) (c : Claim) (h level : Nat) : List Byte :=
  let asn := s.asnAt c.band c.slotTick.toNat
  let hdr := (beaconHeader s level 0 0).length
  beaconIes s c.band c.tmpl asn h (s.listAt c.band h asn) ((s.tp.band c.band).mpduMax - hdr - micLen level)

/-- Build the frame of a transmission and bind its frame counter (R13). -/
def State.bindTx (s : State) (c : Claim) : State × Except Status TxBound :=
  match c.kind with
  | .ack _ => (s, .error .aborted)
  | .beacon cl h =>
    let k := s.regFld (Reg.SCH_EB c.band) 23 12
    match s.encSlotCheck k with
    | some e => (s, .error e)
    | none => match s.bindFc (.beacon c.band) with
      | (s1, none) => (s1, .error .keyRevoked)
      | (s1, some fc) =>
        let p := ccmParts c.level (beaconHeader s1 c.level (s1.tp.clusters.getD cl {}).panId fc) (s1.beaconPayload c h c.level)
        (s1, .ok { slot := k, aad := p.1, input := p.2, nonce := ccmNonce s1.brEui fc c.level })
  | .cell n => match s.txDesc n with
    | none => (s, .error .aborted)
    | some x =>
      let data := x.frags.getD c.item []
      if x.form = .flood then
        let k := s.regFld Reg.MAC_BC_KEY 11 0
        match s.encSlotCheck k with
        | some e => (s, .error e)
        | none => match s.bindFc .bcast with
          | (s1, none) => (s1, .error .keyRevoked)
          | (s1, some fc) =>
            let p := ccmParts c.level (floodHeader s1 c.seq c.level (s1.slot k).gen fc) data
            (s1, .ok { slot := k, aad := p.1, input := p.2, nonce := ccmNonce s1.brEui fc c.level })
      else match s.fetchCtx x.peer with
        | (s1, none) => (s1, .error .integrity)
        | (s1, some k) => match s1.txKeys x.peer k with
          | (s2, none) => (s2, .error .keyRevoked)
          | (s2, some none) => (s2, .error .late)
          | (s2, some (some (e, g))) => match s2.bindFc (.node x.peer) with
            | (s3, none) => (s3, .error .keyRevoked)
            | (s3, some fc) =>
              let p := ccmParts c.level (unicastHeader s3 c.seq c.arq c.level k g fc) data
              (s3, .ok { slot := e, aad := p.1, input := p.2, nonce := ccmNonce s3.brEui fc c.level })

/-- The PSDU of an unsecured transmission. -/
def State.plainPsdu (s : State) (c : Claim) : List Byte :=
  let mpdu := match c.kind with
    | .ack _ => []
    | .beacon cl h => beaconHeader s 0 (s.tp.clusters.getD cl {}).panId 0 ++ s.beaconPayload c h 0
    | .cell n => match s.txDesc n with
      | none => []
      | some x =>
        let data := x.frags.getD c.item []
        if x.form = .flood then floodHeader s c.seq 0 0 0 ++ data
        else unicastHeader s c.seq c.arq 0 (s.line x.peer).ctx 0 0 ++ data
  mpdu ++ fcsOf ((s.tp.band c.band).phy != 3) mpdu

/-- Remove a queued job. -/
def State.unqueue (s : State) (id : Nat) : State :=
  { s with cip := { s.cip with queue := s.cip.queue.filter fun k => k.id != id } }

/-- The attempt of a claim that has not reached its decision instant ends with a status: LATE leaves the frame queued, any
other completes it (R220). -/
def State.claimFails (s : State) (c : Claim) (st : Status) : State :=
  if st = .late then s.claimLate c else (s.endClaim c).attemptEnds c st

/-- A MAC job ends without a result (R328, R303): its attempt ends with the status, its received frame is dropped. -/
def State.endMacJob (s : State) (j : CipJob) (st : Status) : State :=
  let s1 := s.countJob .mac st
  match j.owner with
  | .txProtect id => match s1.claim id with
    | some c => if c.ended then s1 else s1.claimFails c st
    | none => s1
  | .rxCheck id => match s1.rxFrame id with
    | some f => (if st = .keyRevoked then s1.failFrame f 9 else s1.endFrame id).resumeFrames
    | none => s1
  | _ => s1

/-- How a queued job ends with a status: the parameter of a span's commit (R82, R303). -/
def State.endQueued (s : State) (j : CipJob) (st : Status) : State :=
  match j.cls with
  | .host => s.endHostJob j st [] [] 0xFF
  | .mac => s.endMacJob j st
  | _ => s.countJob j.cls st

/-- While no AES core is in service, MAC jobs complete SLOW_UNIT at once (R328). -/
def State.flushMac (s : State) : State :=
  if s.coresInService ≠ 0 then s
  else (s.cip.queue.filter fun j => j.cls = .mac).foldl (fun s j => (s.unqueue j.id).endMacJob j .slowUnit) s

/-- Dispatch a protect job (R13, R301). -/
def State.dispatchTx (s : State) (u : Nat) (j : CipJob) (aged : Bool) (id : Nat) : State :=
  if j.again then s.startRun u j aged
  else match s.claim id with
    | none => s.unqueue j.id
    | some c => match s.bindTx c with
      | (s1, .error e) => (s1.unqueue j.id).endMacJob j e
      | (s1, .ok b) => s1.startRun u { j with slot := b.slot, aad := b.aad, input := b.input, nonce := b.nonce } aged

/-- Dispatch the check of a received frame: it binds TX_FC for the acknowledgement the frame owes, and builds it (R209,
R212, R396). -/
def State.dispatchRx (s : State) (u : Nat) (j : CipJob) (aged : Bool) (id : Nat) : State :=
  if j.again then s.startRun u j aged
  else match s.rxFrame id with
    | none => s.unqueue j.id
    | some f =>
      if !f.owes then s.startRun u j aged
      else match s.bindFc (.node (f.node.getD 0)) with
        | (s1, none) => (s1.unqueue j.id).endMacJob j .keyRevoked
        | (s1, some fc) =>
          (s1.setFrame { f with ackPsdu := s1.buildAck f (s1.slot f.encSlot).key f.gen fc }).startRun u j aged

/-- CIPHER_DISPATCH (R316, R318): an idle unit in service takes the next job, which reads its keys now. A frame that waited for
room in the MAC queue goes on. -/
def State.cipherDispatch (s0 : State) (t : U64) (u : Nat) : State :=
  let s := s0.at_ t
  if !s.unitReady u then s
  else match s.nextJob u with
    | none => s
    | some (j, aged) => match j.owner with
      | .txProtect id => (s.dispatchTx u j aged id).resumeFrames.settleAir
      | .rxCheck id => (s.dispatchRx u j aged id).resumeFrames.settleAir
      | .attest => s.attestDispatch u j aged
      | _ => s.startRun u j aged

/-! ### Completion -/

/-- A protected frame is ready: header, ciphered payload, MIC and FCS. -/
def State.txReady (s : State) (j : CipJob) (out tag : List Byte) (id : Nat) : State :=
  match s.claim id with
  | none => s
  | some c =>
    let mpdu := j.aad ++ out ++ slice tag 0 j.tagLen
    s.setClaim { c with psdu := some (mpdu ++ fcsOf ((s.tp.band c.band).phy != 3) mpdu) }

/-- The check of a received frame ends (R203, R208, R206, R221). -/
def State.rxChecked (s : State) (st : Status) (out : List Byte) (id : Nat) : State :=
  match s.rxFrame id with
  | none => s
  | some f =>
    let s1 := if f.air.type = .ack then
        match st, s.waitFor f with
        | .ok, some w => (s.ackAccepted w).endFrame id
        | _, _ => s.endFrame id
      else if f.dup then (s.setFrame { f with stage := .arrived }).afterPass id
      else if st = .ok then s.acceptFrame { f with plain := if enciphers f.air.level then out else f.air.payload }
      else s.failFrame f 8
    s1.resumeFrames

/-- A unit is free again; a self-test that waited for it begins, and an AES core leaves service with it (R328, R329). -/
def State.freeUnit (s : State) (u : Nat) : State :=
  let x := s.unit u
  let s1 := s.setUnit u { x with run := none, state := if x.test.isSome then .selfTest else x.state }
  if x.test.isSome && x.state = .inService && u < 8 then s1.noCoreLeft else s1

/-- Once a unit has begun the self-test it awaited, the MAC jobs that no core is left for end (R328, R329). -/
def State.afterTest (s : State) (x : CipUnit) : State := if x.test.isSome then s.flushMac.settleAir else s

/-- CIPHER_JOB_COMPLETE (R323): the run on a unit ends with its result. `attestEnd` takes the end of an ATTEST
signature. -/
def State.cipherJobComplete (attestEnd : State → Status → List Byte → State) (s0 : State) (t : U64) (u : Nat) : State :=
  let s := s0.at_ t
  match (s.unit u).run with
  | none => s
  | some r =>
    let s1 := s.freeUnit u
    let j := r.job
    if j.void then s1.afterTest (s.unit u)
    else
      let s2 := if u < 8 then s1.bump (Reg.CIP_CORE_JOBS u) else s1
      let (st, out, tag) := r.result
      match j.owner with
      | .host _ => (s2.endHostJob j st out tag u).afterTest (s.unit u)
      | .txProtect id => ((((s2.voidJob j.id).countJob .mac st).txReady j out tag id).flushMac).settleAir
      | .rxCheck id => ((((s2.voidJob j.id).countJob .mac st).rxChecked st out id).flushMac).settleAir
      | .attest => (attestEnd (s2.countJob j.cls st) st tag).afterTest (s.unit u)
      | .firmware => (s2.countJob j.cls st).afterTest (s.unit u)

/-- A job by its number: queued, or the job of a run. -/
def State.jobOf (s : State) (id : Nat) : Option CipJob :=
  (s.cip.queue.find? fun j => j.id = id) <|>
    ((s.cip.units.filterMap CipUnit.run).map CipRun.job).find? fun j => j.id = id && !j.void

/-- A cipher job is not complete at its due instant (R319, Table 02-2 indices 2 and 3). The check of a received frame goes
on: its acknowledgement is not sent. -/
def State.jobLate (s0 : State) (t : U64) (id : Nat) : State :=
  let s := s0.at_ t
  match s.jobOf id with
  | none => s
  | some j => match j.due with
    | none => s
    | some d =>
      if s.now < d then s
      else match j.owner with
        | .host _ => (s.voidJob id).endHostJob j .late [] [] (s.unitOf id)
        | .txProtect c => match s.claim c with
          | some x => if x.ended then s else
            ((((s.voidJob id).countJob .mac .late).countLate 2).claimFails x .late).settleAir
          | none => s.voidJob id
        | .rxCheck f => match s.rxFrame f with
          | some x => if !x.owes || x.late then s else
            ((s.releaseAck x).setFrame { x with late := true, ackClaim := none }).countLate 3
          | none => s
        | _ => s

/-! ### Slow units -/

/-- The code of a job class in a record. -/
def JobClass.code (c : JobClass) : Nat :=
  match c with
  | .mac => 0 | .host => 1 | .fwSec | .fwCore => 2

/-- SLOW_MARK (R327): a run's age reaches 4 × NOM. -/
def State.slowMark (s0 : State) (t : U64) (u : Nat) : State :=
  let s := s0.at_ t
  let x := s.unit u
  match x.run with
  | none => s
  | some r =>
    if x.state != .inService || decide (s.time.elapsed < r.start + 4 * r.job.nominal) then s
    else
      let s1 := ((s.setUnit u { x with state := .slow }).bump (Reg.CIP_CNT 6)).bump16 (Reg.CIP_CORE_TEST u)
      let s2 := post s1 .warning 0x0F none 0 [pw u, pw r.job.cls.code]
      let s3 := if r.job.cls = .mac && !r.job.void && decide (0 < s2.coresInService) then
          ({ s2 with cip := { s2.cip with queue := s2.cip.queue ++ [{ r.job with again := true }] } }).bump
            (Reg.CIP_CNT 8)
        else s2
      if u < 8 then (s3.noCoreLeft.flushMac).settleAir else s3

/-- Another run of a job is queued or running, but for the run on unit `u`. -/
def State.otherRun (s : State) (id u : Nat) : Bool :=
  (s.cip.queue.any fun j => j.id = id) || (List.range 10).any fun v => v != u && match (s.unit v).run with
    | some r => r.job.id = id
    | none => false

/-- The run on a unit stops with its output zeroed: it ends its job unless another run of it is queued or running
(R328). -/
def State.stopRun (attestEnd : State → Status → List Byte → State) (s : State) (u : Nat) : State :=
  match (s.unit u).run with
  | none => s
  | some r =>
    let s1 := s.setUnit u { s.unit u with run := none }
    let j := r.job
    if j.void then s1
    else match j.owner with
      | .host _ => s1.endHostJob j .slowUnit j.zeroed [] u
      | .attest => attestEnd (s1.countJob j.cls .slowUnit) .slowUnit []
      | .firmware => s1.countJob j.cls .slowUnit
      | _ => if s1.otherRun j.id u then s1 else (s1.endMacJob j .slowUnit).settleAir

/-- SLOW_STOP (R328): a run's age reaches 64 × NOM; it is stopped, and its unit stays SLOW. -/
def State.slowStop (attestEnd : State → Status → List Byte → State) (s0 : State) (t : U64) (u : Nat) : State :=
  let s := s0.at_ t
  match (s.unit u).run with
  | none => s
  | some r =>
    if s.time.elapsed < r.start + 64 * r.job.nominal then s
    else ((s.setUnit u { s.unit u with state := .slow }).stopRun attestEnd u).freeUnit u

/-- Begin a unit's self-test: at once when it is idle, or SLOW with its run stopped; else when its job ends (R329). -/
def State.beginTest (attestEnd : State → Status → List Byte → State) (s : State) (u : Nat) (d : Desc) : State :=
  let x := s.unit u
  if x.run.isSome && x.state != .slow then s.setUnit u { x with test := some d }
  else
    let s1 := s.stopRun attestEnd u
    let s2 := s1.setUnit u { state := .selfTest, test := some d }
    if x.state = .inService && u < 8 then (s2.noCoreLeft.flushMac).settleAir else s2

/-- CIP_SELFTEST (R329). A command for a unit whose test is pending or running waits for no second test: it takes the place
of none and is rejected with STATE (DESIGN CHOICE, log 77). -/
def State.cipSelfTest (attestEnd : State → Status → List Byte → State) (s : State) (d : Desc) : State :=
  s.command d stSAYM fun s =>
    if !d.unlistedZero [8] || 9 < d.byte 8 then s.complete d .unsupported
    else if (s.unit (d.byte 8)).test.isSome then s.rejectState d
    else s.beginTest attestEnd (d.byte 8) d

/-- SELF_TEST_COMPLETE (R329): the known-answer tests of a unit end, as the hardware finds them. -/
def State.selfTestComplete (s0 : State) (t : U64) (u : Nat) (pass : Bool) : State :=
  let s := s0.at_ t
  if (s.unit u).state = .selfTest then s.selfTestEnd u pass else s

/-- Every job completes with one status at an alarm, FAULT or a reset (Table 14-5); MAC jobs end with what owns them. -/
def State.endAllJobs (s : State) (st : Status) : State :=
  let runs := ((s.cip.units.zip (List.range 10)).filterMap fun e => e.1.run.map fun r => (r.job, e.2)).filter fun e =>
    !e.1.void && e.1.cls = .host
  let q := s.cip.queue.filter fun j => j.cls = .host
  let tests := s.cip.units.filterMap CipUnit.test
  let s1 := { s with cip := { s.cip with queue := [], units := s.cip.units.map fun x => { x with run := none, test := none } } }
  let s2 := runs.foldl (fun s e => s.endHostJob e.1 st (if st = .alarm then e.1.zeroed else []) [] e.2) s1
  let s3 := (q.filter fun j => !(runs.any fun e => e.1.id = j.id)).foldl (fun s j => s.endHostJob j st [] [] 0xFF) s2
  tests.foldl (fun s d => s.complete d st) s3

end Sys2Proof.Machine
end

