-- ==== Sys2Proof/Machine/Sched.lean ====
section
/-! DEFINITION. Resolution of the cells of a slot (R190 to R197, R283, R285), and the register reads that latch (R199). -/

namespace Sys2Proof.Machine

/-- An active cell of a slot: its slotframe, its place in its list, the list and its kind. -/
structure ActCell where
  handle : Nat
  idx : Nat
  list : GateList
  cell : Cell
  kind : CellKind
  deriving DecidableEq, Repr

/-- The slot template of a cell. -/
def State.cellTemplate (s : State) (a : ActCell) : SlotTemplate := s.tp.templates.getD a.cell.template {}

/-- The rank of a cell. -/
def ActCell.rank (a : ActCell) : Nat := a.kind.rank a.cell.bestEffort

/-- The cells of the lists in force whose slot offset is the present one (R180), with how many of them are inactive under
R186. -/
def State.activeCells (s : State) (b : Nat) : List ActCell × Nat :=
  let asn := s.asn b
  let all := s.sch.frames.flatMap fun e =>
    if e.1 / 256 ≠ b then []
    else match s.gateList b (e.1 % 256) asn with
      | none => []
      | some g =>
        if g.sfLen = 0 then []
        else ((List.range g.cells.length).filterMap fun i =>
          let c := g.cells.getD i {}
          if c.options = 0 ∨ c.slotOffset ≠ (asn - g.start) % g.sfLen then none
          else some (cellOk s.tp b g.sfLen g.family c,
            ({ handle := e.1 % 256, idx := i, list := g, cell := c, kind := (c.kind s.tp.child).getD .inactive } : ActCell)))
  ((all.filter fun x => x.1).map Prod.snd, (all.filter fun x => !x.1).length)

/-! ### Readiness (R193, R195) -/

/-- CELL_REF reaches a cell (R195): every cell from CELL_REF up to it names the node. -/
def reaches (g : GateList) (ref idx n : Nat) : Bool :=
  decide (ref ≤ idx) && (List.range (idx + 1 - ref)).all fun k =>
    let c := g.cells.getD (ref + k) {}
    c.nodeValid && c.nidx = n

/-- The frame of a queue item: its descriptor. -/
def State.itemDesc (s : State) (i : QItem) : Option (TxDesc × Nat) := i.owner.bind fun o => (s.txDesc o.desc).map fun x => (x, o.index)

/-- A policer lets a unicast frame go (R283): it has been charged, or it would be GREEN or YELLOW. -/
def State.policed (s : State) (x : TxDesc) (c : Ctx) (len : Nat) : Bool := x.charged || s.conforms c.policer.toNat len

/-- Note a frame held by its policer, once (R283). -/
def State.heldBack (s : State) (x : TxDesc) : State :=
  if x.held then s else (s.setDesc { x with held := true, heldSince := some s.tick }).bump (Reg.TOL_CNT 4)

/-- What a transmit cell would send: the descriptor with its frame, or the beacon. -/
inductive CellSend where
  | frame (desc : Nat) (item : Nat) (len : Nat)
  | beacon
  deriving DecidableEq, Repr

/-- The frame a dedicated cell carries, with the misses and holds it counts (R193, R195, R283). -/
def State.dedicatedReady (s : State) (b : Nat) (a : ActCell) (gone : List (Nat × Nat)) : State × Option CellSend :=
  let n := a.cell.nidx
  match s.fetchCtx n with
  | (s1, none) => (s1, none)
  | (s1, some c) =>
    if c.sfHandle.toNat ≠ a.handle ∨ !reaches a.list c.cellRef.toNat a.idx n then (s1.bump (Reg.SCH_CNT b 8), none)
    else
      let q := s1.queue c.queue.toNat
      if !q.downlink then (s1, none)
      else match (q.items.filter fun i => !i.gap && !i.taken).findSome? fun i => match s1.itemDesc i with
          | some (x, k) => if x.form != .flood && x.peer = n && !gone.contains (x.num, k) then some (x, k, i.len) else none
          | none => none with
      | none => (s1, none)
      | some (x, k, len) => if s1.policed x c len then (s1, some (.frame x.num k len)) else (s1.heldBack x, none)

/-- Items at the head of a device-consumed queue that no descriptor owns, put there by a producer other than the MAC, leave
it unsent: the cell scheduler sends frames of descriptors (DESIGN CHOICE, log 78). -/
def State.dropStrays (s : State) (q : Nat) : State :=
  let x := s.queue q
  let n := (x.items.takeWhile fun i => !i.taken && (s.itemDesc i).isNone).length
  if n = 0 then s else s.setQueue q { x with items := x.items.drop n }

/-- The frame at the head of a shared cell's queue, unless it is for a sleepy node (R193). A queue that is not
device-consumed has none ready (R269); a frame whose peer's line fails its check completes INTEGRITY (R21). -/
def State.sharedReady (s0 : State) (a : ActCell) (gone : List (Nat × Nat)) : State × Option CellSend :=
  let q := a.cell.queue.toNat
  if !(s0.queue q).downlink then (s0, none)
  else
    let s := s0.dropStrays q
    match ((s.queue q).items.filter fun i => !i.gap && !i.taken).findSome? fun i => match s.itemDesc i with
        | some (x, k) => if gone.contains (x.num, k) then none else some (x, k, i.len)
        | none => none with
    | none => (s, none)
    | some (x, k, len) =>
      if x.form = .flood then (s, some (.frame x.num k len))
      else match s.fetchCtx x.peer with
        | (s1, none) => (s1.txComplete x .integrity, none)
        | (s1, some c) =>
          if c.sleepy then (s1, none)
          else if s1.policed x c len then (s1, some (.frame x.num k len)) else (s1.heldBack x, none)

/-- Whether a transmit cell is ready, and with what (R193); `gone` are frames other cells of the slot have made ready. -/
def State.cellReady (s : State) (b : Nat) (a : ActCell) (gone : List (Nat × Nat)) : State × Option CellSend :=
  match a.kind with
  | .dedicated => s.dedicatedReady b a gone
  | .shared => s.sharedReady a gone
  | .beaconTx => (s, if bit (s.reg (Reg.SCH_EB b)) 31 then some .beacon else none)
  | _ => (s, none)

/-- The order of candidates (R192 step 2): rank, TX_OFFSET, slotframe handle, cell index. -/
def State.candBefore (s : State) (x y : ActCell) : Bool :=
  let kx := [x.rank, (s.cellTemplate x).txOffset, x.handle, x.idx]
  let ky := [y.rank, (s.cellTemplate y).txOffset, y.handle, y.idx]
  decide (kx < ky)

/-- Insert a cell into an ordered list. -/
def cellInsert (before : ActCell → ActCell → Bool) (x : ActCell) (l : List ActCell) : List ActCell :=
  match l with
  | [] => [x]
  | y :: r => if before x y then x :: y :: r else y :: cellInsert before x r

/-- The candidates of a slot, in their order. -/
def State.candidates (s : State) (b : Nat) (l : List ActCell) : State × List (ActCell × CellSend) :=
  let o := (l.filter fun a => a.cell.tx).foldl (fun m a => cellInsert s.candBefore a m) []
  o.foldl (fun (acc : State × List (ActCell × CellSend)) a =>
    let gone := acc.2.filterMap fun e => match e.2 with
      | .frame d k _ => some (d, k)
      | .beacon => none
    match acc.1.cellReady b a gone with
    | (s1, some snd) => (s1, acc.2 ++ [(a, snd)])
    | (s1, none) => (s1, acc.2)) (s, [])

/-! ### Selection and claims -/

/-- PSDU octets of what a candidate sends. -/
def State.sendLen (s : State) (b : Nat) (a : ActCell) (x : CellSend) : Nat :=
  match x with
  | .frame d _ len => (match s.txDesc d with
    | some y => y.overhead + len
    | none => len) + (s.tp.band b).fcsLen
  | .beacon =>
    let level := s.regFld (Reg.SCH_EB b) 26 24
    let hdr := (beaconHeader s level 0 0).length
    let p := beaconIes s b (s.cellTemplate a) (s.asn b) a.handle a.list ((s.tp.band b).mpduMax - hdr - micLen level)
    hdr + p.length + micLen level + (s.tp.band b).fcsLen

/-- Airtime of a candidate in ns (R172), with the ramp of the lower chain it may use. -/
def State.sendAir (s : State) (b : Nat) (a : ActCell) (x : CellSend) : Nat :=
  let ch := channelAt s.tp b (s.asn b) a.cell.chOffset
  let chain := (s.allowedChains b ch (s.edgeNs + (s.cellTemplate a).txOffset * 1000)).headD (2 * b)
  (s.tp.band b).airtimeNs (s.sendLen b a x) + 2 * s.ramp chain * 1000

/-- Select at most two candidates (R192); those of rank 6, 8 and 9 that the airtime shaper does not cover are skipped and
counted (R285). Returns the selected, and how many were left over. -/
def State.selectTwo (s : State) (b : Nat) (l : List (ActCell × CellSend)) : State × List (ActCell × CellSend) × Nat :=
  l.foldl (fun (acc : State × List (ActCell × CellSend) × Nat) e =>
    if acc.2.1.length = 2 then (acc.1, acc.2.1, acc.2.2 + 1)
    else
      let r := e.1.rank
      if (r = 6 ∨ r = 8 ∨ r = 9) ∧ acc.1.shapeLevel b < ((acc.1.sendAir b e.1 e.2 * 1000 : Nat) : Int) then
        (acc.1.bump (Reg.TOL_SHAPE_CNT b), acc.2.1, acc.2.2)
      else (acc.1, acc.2.1 ++ [e], acc.2.2)) (s, [], 0)

/-- The frame of a selected candidate is taken from its queue, and on the first attempt its wait is noted (R281)
and its policer charged (R283). -/
def State.takeFrame (s : State) (x : TxDesc) (k len : Nat) : State × TxDesc :=
  let q := s.queue x.queue
  let mine := fun (i : QItem) => i.owner = some ⟨x.num, k⟩
  let soj := (q.items.filter fun i => mine i && !i.tried).foldl (fun m i => max m (s.sojourn i)) 0
  let s1 := s.setQueue x.queue { q with
    hwmSoj := max q.hwmSoj soj
    items := q.items.map fun i => if mine i then { i with taken := true, tried := true } else i }
  if x.charged ∨ x.form = .flood then (s1, x)
  else
    let p := (s1.line x.peer).ctx.policer.toNat
    let s2 := (s1.police p len).1.noteWait p x.heldSince
    let y := { x with charged := true }
    (s2.setDesc y, y)

/-- Queue the protect job of a claim, due 60 µs before its first symbol (Table 02-2 index 2); an unsecured frame is ready
at once. A MAC queue that is full counts as a missed due instant (R317). -/
def State.protect (s : State) (c : Claim) : State :=
  if c.level = 0 then s.setClaim { c with psdu := some (s.plainPsdu c) }
  else if 256 ≤ s.queued .mac then (s.countLate 2).claimFails c .late
  else
    let j : CipJob := { id := 0, cls := .mac, owner := .txProtect c.id, mode := .ccmProtect, tagLen := micLen c.level,
                        due := some (c.t0 - 60000), blocks := CipMode.ccmProtect.blocks c.len 0 }
    s.queueJob j

/-- One selected candidate claims its chain (R122, R123). `some claim` for a unicast transmission that waits for an
acknowledgement, with the claim made. -/
def State.claimFor (s : State) (b : Nat) (a : ActCell) (x : CellSend) : State × Option Claim :=
  let tm := s.cellTemplate a
  let c0 : Claim := { id := 0, chain := 0, band := b, channel := channelAt s.tp b (s.asn b) a.cell.chOffset, kind := .ack none,
                      rank := a.rank, t0 := s.edgeNs + tm.txOffset * 1000, slip := tm.txSlip, len := s.sendLen b a x,
                      slotStart := s.edgeNs, slotTick := s.time.tickno, tmpl := tm }
  match x with
  | .beacon =>
    let c1 := { c0 with kind := .beacon (bits a.cell.peer 7 0) a.handle, level := s.regFld (Reg.SCH_EB b) 26 24 }
    match s.makeClaim c1 with
    | (s1, some c) => (s1.protect c, none)
    | (s1, none) => (s1.beaconEnds b, none)
  | .frame d k len => match s.txDesc d with
    | none => (s, none)
    | some y =>
      let (s1, z) := s.takeFrame y k len
      let arq := !z.noAr && z.form != .flood
      let s2 := (s1.setDesc { z with lastTick := s.tick, link := 32768 * b + c0.channel }).setRf fun r => { r with dsn := r.dsn + 1 }
      match s2.makeClaim { c0 with kind := .cell d, item := k, level := z.level, arq := arq, seq := s.rf.dsn, wait := arq } with
      | (s3, some c) => (s3.protect c, if arq then some c else none)
      | (s3, none) => (s3.cellEnds d .late, none)

/-! ### Receive cells and piers -/

/-- A guard of `fine` units with EXTRA_GUARD (R45), in whole µs rounded up once, limited to GMAX; with whether it was. -/
def State.capGuard (s : State) (b gmax fine : Nat) : State × Nat × Bool :=
  let g := ceilDiv (fine + s.extraGuardFine) guardUnit
  if gmax < g then (s.bump (Reg.SCH_CNT b 4), gmax, true) else (s, g, false)

/-- G of a receive cell in µs, rounded up once, with whether it was limited to GMAX (R190). A dedicated cell whose context fails is opened
with GMAX. -/
def State.guardOf (s : State) (b : Nat) (a : ActCell) (standby : Bool) : State × Nat × Bool :=
  let tm := s.cellTemplate a
  let gmax := min (s.regFld (Reg.SCH_GUARD b) 31 16) (tm.txOffset - 100)
  let shared := s.regFld (Reg.SCH_GUARD b) 15 0
  if standby then s.capGuard b gmax (shared * guardUnit)
  else if a.cell.rxGuard ≠ 0 then s.capGuard b gmax (a.cell.rxGuard * guardUnit)
  else if a.kind != .dedicated then s.capGuard b gmax (shared * guardUnit)
  else match s.fetchCtx a.cell.nidx with
    | (s1, none) => (s1, gmax, false)
    | (s1, some c) =>
      let dt := (s1.tick + 2 ^ 48 - c.resyncTick.toNat) % 2 ^ 48 * s1.tp.tickPeriod
      s1.capGuard b gmax (c.baseGuard.toNat * guardUnit + 2 * c.driftClass.toNat * dt * (guardUnit / 1000000))

/-- A member of a receive group: its rank, channel and window, and the claim whose acknowledgement it waits for. -/
structure RxMember where
  rank : Nat
  channel : Nat
  openAt : Nat
  closeAt : Nat
  tmpl : SlotTemplate
  parent : Bool := false
  beacon : Bool := false
  txCell : Bool := false
  wait : Option Nat := none
  deriving DecidableEq, Repr

/-- The window of a receive cell (R189). -/
def State.rxMember (s : State) (b : Nat) (a : ActCell) (standbyTx : Bool) : State × RxMember :=
  let tm := s.cellTemplate a
  let (s1, g, _) := s.guardOf b a standbyTx
  let t := s.edgeNs + tm.txOffset * 1000
  (s1, { rank := a.rank, channel := channelAt s.tp b (s.asn b) a.cell.chOffset, openAt := t - g * 1000, closeAt := t + g * 1000,
         tmpl := tm, parent := a.kind = .parentRx, beacon := standbyTx && a.kind = .beaconTx,
         txCell := standbyTx && a.kind != .beaconTx })

/-- The acknowledgement wait of a transmission (R189). -/
def State.waitMember (s : State) (b : Nat) (c : Claim) : RxMember :=
  let e := c.t0 + s.claimAir c + c.tmpl.txAckGap * 1000
  let g := s.regFld (Reg.SCH_ACK_WAIT b) 15 0 * 1000
  { rank := c.rank, channel := c.channel, openAt := e - g, closeAt := e + g, tmpl := c.tmpl, wait := some c.id }

/-- Insert a member by rank. -/
def memberInsert (x : RxMember) (l : List RxMember) : List RxMember :=
  match l with
  | [] => [x]
  | y :: r => if x.rank < y.rank then x :: y :: r else y :: memberInsert x r

/-- A channel group: its rank, its channel and its members. -/
abbrev RxGroup := Nat × Nat × List RxMember

/-- Put a member into its group (R194). -/
def groupAdd (l : List RxGroup) (x : RxMember) : List RxGroup :=
  match l with
  | [] => [(x.rank, x.channel, [x])]
  | (r, ch, ms) :: rest => if ch = x.channel then (min r x.rank, ch, ms ++ [x]) :: rest else (r, ch, ms) :: groupAdd rest x

/-- Insert a group by rank, then by channel. -/
def groupInsert (x : RxGroup) (l : List RxGroup) : List RxGroup :=
  match l with
  | [] => [x]
  | y :: r => if x.1 < y.1 ∨ (x.1 = y.1 ∧ x.2.1 < y.2.1) then x :: y :: r else y :: groupInsert x r

/-- A group's window, from its earliest opening to its latest closing: its slot's template is that of the member that opens
first. -/
def groupWindow (ch slotStart : Nat) (ms : List RxMember) : Window :=
  let first := ms.foldl (fun (m : RxMember) x => if x.openAt < m.openAt then x else m) (ms.headD
    { rank := 0, channel := 0, openAt := 0, closeAt := 0, tmpl := {} })
  Window.span { channel := ch, openAt := first.openAt, closeAt := 0, tmpl := first.tmpl,
                slotStart := slotStart, parent := ms.any RxMember.parent, beacon := ms.any RxMember.beacon,
                txCell := ms.any RxMember.txCell, parts := ms.map fun m => (m.wait, m.openAt, m.closeAt) }

/-- A transmission whose acknowledgement wait has no pier is withdrawn and completes LATE (R194). -/
def State.waitUnserved (s : State) (id : Nat) : State :=
  match s.claim id with
  | some c => s.claimLate c
  | none => s

/-- Members that are not opened: each is counted, and a wait's transmission is withdrawn (R192, R194). -/
def State.unopened (s : State) (b : Nat) (ms : List RxMember) : State :=
  ms.foldl (fun s m => (match m.wait with
    | some c => s.waitUnserved c
    | none => s).bump (Reg.SCH_CNT b 1)) s

/-- Give each group a pier (R194): the state, the members opened and the piers assigned. -/
def State.assignPiers (s : State) (b : Nat) (l : List RxGroup) : State × Nat × Nat :=
  let r := l.foldl (fun (acc : State × List Nat × Nat × Nat) g =>
    match acc.2.1 with
    | [] => (acc.1.unopened b g.2.2, [], acc.2.2.1, acc.2.2.2)
    | p :: rest =>
      let x := acc.1.pier p
      (acc.1.setPier p { x.idle with window := some (groupWindow g.2.1 s.edgeNs g.2.2) }, rest, acc.2.2.1 + g.2.2.length,
        acc.2.2.2 + 1))
    (s, (s.primaries b).filter fun p => !(s.pier p).receiving, 0, 0)
  (r.1, r.2.2.1, r.2.2.2)

/-- The slot of band `b` begins at the last tick edge (R28). -/
def State.slotBegins (s : State) (b : Nat) : Bool := decide (s.tp.k b ≠ 0) && s.tick % s.tp.k b = 0

/-- Cells are resolved: ACTIVE and STANDBY, and a CHILD's parent cells in STRUCTURED once it has acquired (R113, R40). -/
def State.resolves (s : State) : Bool :=
  s.inStates [.active, .standby] || (s.sys.state = .structured && s.tp.child && s.time.acquired)

/-- The receive cells of a slot after the transmit cells: its members, with their guards counted. -/
def State.rxCells (s : State) (b : Nat) (l : List ActCell) (sent : List ActCell) : State × List RxMember :=
  let want := l.filter fun a => (a.cell.rx || (s.standingBy && a.cell.tx)) && !sent.contains a &&
    (s.inStates [.active, .standby] || a.kind = .parentRx)
  want.foldl (fun (acc : State × List RxMember) a =>
    let r := acc.1.rxMember b a (s.standingBy && a.cell.tx && !a.cell.rx)
    (r.1, acc.2 ++ [r.2])) (s, [])

/-- The resolution of a slot once its transmissions have claimed: receive cells, acknowledgement waits and piers. -/
def State.resolveRx (s : State) (b : Nat) (l sent : List ActCell) (waits : List Claim) (tx : Nat) : State :=
  let (s1, ms) := s.rxCells b l sent
  let all := (ms ++ (waits.filter fun c => (s1.claim c.id).isSome).map fun c => s1.waitMember b c).foldl
    (fun m x => memberInsert x m) []
  let s2 := s1.unopened b (all.drop 64)
  let groups := ((all.take 64).foldl groupAdd []).foldl (fun m g => groupInsert g m) []
  let (s3, n, piers) := s2.assignPiers b groups
  (s3.bumpBy (Reg.SCH_CNT b 0) 31 n).setReg (Reg.SCH_LAST b) (fld n 16 ||| fld piers 8 ||| fld tx 0)

/-- The slot of band `b` that begins at the last tick edge is still to be resolved (R32, R33). -/
def State.unresolved (s : State) (b : Nat) : Bool :=
  s.resolves && s.slotBegins b && (s.tp.band b).present && (if b = 0 then s.sch.doneA else s.sch.doneB) != some s.tick

/-- It is resolved, or found late; acknowledgements granted in slots long past are forgotten. -/
def State.noteResolved (s : State) (b : Nat) : State :=
  ({ s with sch := if b = 0 then { s.sch with doneA := some s.tick } else { s.sch with doneB := some s.tick } }).setRf fun r =>
    { r with acks := r.acks.filter fun a => a.1 != b || decide (s.edgeNs ≤ a.2.2 + 2 * s.tp.k b * s.tickNs) }

/-- Steps 1 and 2 of R192: the active cells, and of the candidates those selected. -/
def State.resolveTx (s : State) (b : Nat) : State × List ActCell × List (ActCell × CellSend) :=
  let (l, inactive) := s.activeCells b
  let s1 := (s.noteResolved b).bumpBy (Reg.SCH_CNT b 9) 31 inactive
  let (s2, cands) := if s1.serving then s1.candidates b l else (s1, [])
  let (s3, sel, left) := s2.selectTwo b cands
  (s3.bumpBy (Reg.SCH_CNT b 3) 31 left, l, sel)

/-- CELL_RESOLUTION (R32, R192 to R196), between edge + 20 µs and edge + 100 µs. -/
def State.cellResolution (s0 : State) (t : U64) (b : Nat) : State :=
  let s := s0.airAt t
  if !s.unresolved b || decide (s.now < s.edgeNs + 20000) then s
  else
    let (s1, l, sel) := s.resolveTx b
    let (s2, waits) := sel.foldl (fun (acc : State × List Claim) e =>
      match acc.1.claimFor b e.1 e.2 with
      | (s', some c) => (s', acc.2 ++ [c])
      | (s', none) => (s', acc.2)) (s1.bumpBy (Reg.SCH_CNT b 2) 31 sel.length, [])
    ((s2.resolveRx b l (sel.map Prod.fst) waits sel.length).flushMac).settleAir

/-- The resolution of a slot is not complete by edge + 100 µs (Table 02-2 index 1): its transmit attempts complete LATE and
its receive cells are not opened. -/
def State.resolutionLate (s0 : State) (t : U64) (b : Nat) : State :=
  let s := s0.airAt t
  if !s.unresolved b || decide (s.now < s.edgeNs + 100000) then s
  else
    let (s1, l, sel) := s.resolveTx b
    let s2 := sel.foldl (fun s e => (match e.2 with
      | .beacon => s.beaconEnds b
      | .frame d _ _ => s.cellEnds d .late).countLate 1) s1
    let (s3, ms) := s2.rxCells b l (sel.map Prod.fst)
    (s3.bumpBy (Reg.SCH_CNT b 1) 31 ms.length).settleAir

/-- WORK_ITEM_LATE (R33, R35, R36): a work item is not complete at its due instant. -/
def State.workItemLate (s : State) (t : U64) (x : LateItem) : State :=
  match x with
  | .job id => s.jobLate t id
  | .resolution b => s.resolutionLate t b

/-! ### Reads that latch -/

/-- SCH_ASN_READ (R199): a read of SCH_ASN_LO(b) latches SCH_ASN_HI(b). -/
def State.schAsnRead (s : State) (b : Nat) : State :=
  let a := s.asn b
  (s.setReg (Reg.SCH_ASN_LO b) (pw a)).setReg (Reg.SCH_ASN_HI b) (pw (a / 2 ^ 32))

/-- The gate list of the slotframe selected by SCH_SF_SEL. -/
def State.selectedList (s : State) : Option GateList :=
  s.listInForce (s.regFld Reg.SCH_SF_SEL 8 8) (s.regFld Reg.SCH_SF_SEL 7 0)

/-- SCH_SF_START_READ (R199): a read of SCH_SF_START_LO latches SCH_SF_START_HI. -/
def State.schSfStartRead (s : State) : State :=
  let a := match s.selectedList with
    | some g => g.start
    | none => 0
  (s.setReg Reg.SCH_SF_START_LO (pw a)).setReg Reg.SCH_SF_START_HI (pw (a / 2 ^ 32))

end Sys2Proof.Machine
end

