-- ==== Sys2Proof/Machine/Hif.lean ====
section
/-! DEFINITION. The host interface: rings, fetches, completions, moderation and the link (R416 to R430). -/

namespace Sys2Proof.Machine

/-! ### The endpoint (R416) -/

/-- What the configuration header of the endpoint and its BARs show: identifiers, class code, BAR sizes and MSI-X vectors. -/
structure PcieEndpoint where
  vendor : BitVec 16 := 0x5A0E
  device : BitVec 16 := 0x9264
  revision : Byte := 0x20
  classCode : BitVec 24 := 0x0D8000
  bar0 : Nat := 0x2000000
  bar2 : Nat := 0x10000000
  vectors : Nat := 64
  deriving DecidableEq, Repr, Inhabited

/-- The endpoint of every part (R416): it has no state. -/
def pcieEndpoint : PcieEndpoint := {}

/-! ### Rings (R419, R420) -/

/-- Change the host interface's state. -/
def State.setHif (s : State) (f : HifSt → HifSt) : State := { s with hif := f s.hif }

/-- log2 of the entries of ring `k`. -/
def State.ringLog2 (s : State) (k : Nat) : Nat := s.regFld (Reg.HIF_RING_CFG k) 4 0

/-- Entries of ring `k`. -/
def State.ringSize (s : State) (k : Nat) : Nat := 2 ^ s.ringLog2 k

/-- Ring `k` is in use. -/
def State.ringEn (s : State) (k : Nat) : Bool := bit (s.reg (Reg.HIF_RING_CFG k)) 31

/-- PROD and CONS of ring `k`. -/
def State.ringProd (s : State) (k : Nat) : Nat := (s.reg (Reg.HIF_RING_PROD k)).toNat
def State.ringCons (s : State) (k : Nat) : Nat := (s.reg (Reg.HIF_RING_CONS k)).toNat

/-- Entries between two counts. -/
def countDiff (a b : Nat) : Nat := (a + 2 ^ 32 - b % 2 ^ 32) % 2 ^ 32

/-- Entries produced and not consumed. -/
def State.ringUsed (s : State) (k : Nat) : Nat := countDiff (s.ringProd k) (s.ringCons k)

/-- Host address of the entry of count `i`, of `n` octets. -/
def State.ringAddr (s : State) (k i n : Nat) : Nat :=
  (s.reg (Reg.HIF_RING_BASE_LO k)).toNat / 4096 * 4096 + 2 ^ 32 * (s.reg (Reg.HIF_RING_BASE_HI k)).toNat +
    i % s.ringSize k * n

/-- PHASE of the entry of count `i` (R420). -/
def State.ringPhase (s : State) (k i : Nat) : Nat := i / s.ringSize k % 2

/-- The producer of a ring is host software (Table 20-1). -/
def hostProduces (k : Nat) : Bool := k = 0 || decide (2 ≤ k ∧ k ≤ 9)

/-- BAR0 takes a write: not in RESET, and in FAULT only one to SYS_CTRL (Table 01-4). -/
def State.takesWrites (s : State) : Bool := s.sys.state != .reset && s.sys.state != .fault

/-- HOST_RING_PROD_WRITE (R420, R421). -/
def State.hostProdWrite (s : State) (k : Nat) (v : Word) : State :=
  if !s.takesWrites || 17 < k then s
  else if !s.ringEn k then s.setReg (Reg.HIF_RING_PROD k) v
  else if !hostProduces k then s
  else if s.ringSize k < countDiff v.toNat (s.ringCons k) then (s.bump (Reg.HIF_CNT 7)).raise 22
  else s.setReg (Reg.HIF_RING_PROD k) v

/-- HOST_RING_CONS_WRITE (R420, R422). -/
def State.hostConsWrite (s : State) (k : Nat) (v : Word) : State :=
  if !s.takesWrites || 17 < k then s
  else if s.ringEn k && hostProduces k then s
  else s.setReg (Reg.HIF_RING_CONS k) v

/-- A DMA read error on the fetch of a descriptor of ring `k` (R421). -/
def State.fetchError (s : State) (k : Nat) : State :=
  post ((s.setReg (Reg.HIF_RING_CFG k) (setBits (setBits (s.reg (Reg.HIF_RING_CFG k)) 31 31 0) 30 30 1)).raise 22)
    .error 0x15 none 0 []

/-- Advance CONS of ring `k`. -/
def State.advanceCons (s : State) (k : Nat) : State := s.setReg (Reg.HIF_RING_CONS k) (s.reg (Reg.HIF_RING_CONS k) + 1)

/-! ### The ring state block (R399, R400) -/

/-- PAIR of RED_CTRL. -/
def State.pair (s : State) : Bool := bit (s.reg Reg.RED_CTRL) 31

/-- Host address of the ring state block. -/
def State.rsbAddr (s : State) : Nat :=
  (s.reg Reg.RED_RSB_LO).toNat / 64 * 64 + 2 ^ 32 * (s.reg Reg.RED_RSB_HI).toNat

/-- The chip writes the ring state block: the chip of a pair that holds the interlock (R400). -/
def State.writesBlock (s : State) : Bool := s.pair && s.sys.state = .active && s.sys.ilkOut

/-- Write octets of the ring state block. -/
def State.rsbWrite (s : State) (o : Nat) (bs : List Byte) : State :=
  if s.writesBlock then s.emit (.hostWrite (s.rsbAddr + o) bs) else s

/-- DONE of submit ring `r`. -/
def State.doneOf (s : State) (r : Nat) : Nat := aget 0 s.red.doneCount r

/-- An octet of a DONE_MAP. -/
def mapByte (m : List Nat) (r j : Nat) : Byte :=
  BitVec.ofNat 8 ((List.range 8).foldl (fun n k => if m.contains (256 * r + 8 * j + k) then n + 2 ^ k else n) 0)

/-- Write the octet of DONE_MAP(r) that holds the bit of count `i`. -/
def State.rsbMapByte (s : State) (r i : Nat) : State :=
  s.rsbWrite (0x80 + 32 * r + i % 256 / 8) [mapByte s.red.doneMap r (i % 256 / 8)]

/-- DONE(r) past every completed count, from `d` (R400). -/
def doneFrom (m : List Nat) (r fetch d fuel : Nat) : Nat :=
  match fuel with
  | 0 => d
  | n + 1 => if d ≠ fetch ∧ m.contains (256 * r + d % 256) then doneFrom m r fetch ((d + 1) % 2 ^ 32) n else d

/-- A transmit descriptor of ring `r` with count `i` has completed: its bit, and then DONE(r) (R400). -/
def State.rsbDone (s : State) (r i : Nat) : State :=
  if !s.writesBlock then s
  else
    let m := 256 * r + i % 256
    let s1 := { s with red := { s.red with
      doneMap := if s.red.doneMap.contains m then s.red.doneMap else m :: s.red.doneMap } }.rsbMapByte r i
    let d := doneFrom s1.red.doneMap r (s1.ringCons (2 + r)) (s1.doneOf r) 256
    if d = s1.doneOf r then s1
    else ({ s1 with red := { s1.red with doneCount := aset 0 s1.red.doneCount r d } }).rsbWrite (0x24 + 8 * r) (leBytes d 4)

/-- A transmit descriptor of ring `r` with count `i` is fetched: its bit is cleared and FETCH(r) advances (R400). -/
def State.rsbFetch (s : State) (r i : Nat) : State :=
  if !s.writesBlock then s
  else
    ({ s with red := { s.red with doneMap := s.red.doneMap.filter fun x => x != 256 * r + i % 256 } }.rsbMapByte r i).rsbWrite
      (0x20 + 8 * r) (leBytes ((i + 1) % 2 ^ 32) 4)

/-- The whole ring state block. -/
def State.rsbBytes (s : State) : List Byte :=
  leBytes 0x7A525342 4 ++ leBytes s.red.seq.toNat 4 ++ leBytes s.key.uid.toNat 8 ++ leBytes s.tick 6 ++
    List.replicate 10 0 ++
    ((List.range 8).flatMap fun r => leBytes (s.ringCons (2 + r)) 4 ++ leBytes (s.doneOf r) 4) ++
    ((List.range 8).flatMap fun r => leBytes (s.ringProd (10 + r)) 4) ++
    (List.range 8).flatMap fun r => (List.range 32).map fun j => mapByte s.red.doneMap r j

/-- Entry to ACTIVE from STRUCTURED initialises the block from the ring positions (R400). -/
def State.rsbInit (s : State) : State :=
  let s1 := { s with red := { s.red with
    seq := s.red.seq + 1, doneMap := [],
    doneCount := (List.range 8).foldl (fun m r => aset 0 m r (s.ringCons (2 + r))) [] } }
  s1.rsbWrite 0 s1.rsbBytes

/-! ### Completions (R422, R424) -/

/-- The code of KIND (Table 20-2). -/
def CplKind.code (k : CplKind) : Nat :=
  match k with
  | .command => 0 | .transmit => 1 | .outcome => 2

/-- The 16 octets of a completion with its PHASE. -/
def Completion.bytes (c : Completion) (phase : Nat) : List Byte :=
  leBytes c.tag.toNat 2 ++ [BitVec.ofNat 8 c.status.code,
    BitVec.ofNat 8 (128 * phase + 32 * c.kind.code + (if c.kind = .transmit then c.ring.toNat else 0))] ++
    ofWords [c.b4, c.b8, c.b12]

/-- The completion ring is full. -/
def State.cplFull (s : State) : Bool := decide (s.ringSize 1 ≤ s.ringUsed 1)

/-- COMPLETION_WRITE (R422, R418): the oldest completion held is written, or lost when its ring is disabled or the link is
down; while the ring is full it is held. Nothing is written in FAULT (Table 01-4). -/
def State.completionWrite (s : State) : State :=
  match s.hif.held with
  | [] => s
  | c :: rest =>
    let s1 := s.setHif fun h => { h with held := rest }
    if s.sys.state = .fault then s
    else if !s.linkUp || !s.ringEn 1 then s1.bump (Reg.HIF_CNT 6)
    else if s.cplFull then s
    else
      let i := s.ringProd 1
      let s2 := (s1.emit (.hostWrite (s.ringAddr 1 i 16) (c.bytes (s.ringPhase 1 i)))).setReg (Reg.HIF_RING_PROD 1)
        (s.reg (Reg.HIF_RING_PROD 1) + 1)
      let s3 := (s2.bump (Reg.HIF_CNT 2)).raise 0
      if c.kind = .transmit then s3.rsbDone c.ring.toNat c.count else s3

/-- Write what is held as far as the ring has room: the completions of R17 before the rings go. -/
def State.writeHeld (s : State) (fuel : Nat) : State :=
  match fuel with
  | 0 => s
  | n + 1 => if s.hif.held = [] then s else s.completionWrite.writeHeld n

/-! ### Commands (R425, R426) -/

/-- A state of Table 20-3: B and R are BOOT without and with STAGE RECOVERY. -/
inductive CmdState where
  | boot | recovery | structured | active | standby | maintenance | alarm
  deriving DecidableEq, Repr

/-- The column of Table 20-3 the device is in; none in RESET, in FAULT and before the loader starts. -/
def State.cmdState (s : State) : Option CmdState :=
  match s.sys.state with
  | .boot => if s.boot.stage = .rom then none else if s.boot.stage = .recovery then some .recovery else some .boot
  | .structured => some .structured
  | .active => some .active
  | .standby => some .standby
  | .maintenance => some .maintenance
  | .alarm => some .alarm
  | _ => none

/-- The states in which an opcode is accepted (Table 20-3); none for an unknown opcode. -/
def opcodeStates (op : Nat) : Option (List CmdState) :=
  let say : List CmdState := [.structured, .active, .standby]
  let saym : List CmdState := say ++ [.maintenance]
  let sayml : List CmdState := saym ++ [.alarm]
  match op with
  | 0x0000 => some [.structured, .active]
  | 0x0100 => some [.structured, .maintenance]
  | 0x0200 => some say
  | 0x0201 => some sayml
  | 0x0300 | 0x0301 | 0x0302 => some say
  | 0x0303 => some saym
  | 0x0700 => some say
  | 0x0800 => some [.structured]
  | 0x0801 => some (.boot :: .recovery :: sayml)
  | 0x0900 => some sayml
  | 0x0A00 => some sayml
  | 0x0A01 => some say
  | 0x0B00 => some sayml
  | 0x0B01 => some say
  | 0x0C00 | 0x0C01 | 0x0C02 | 0x0C03 => some saym
  | 0x0E00 | 0x0E01 | 0x0E02 => some [.structured]
  | 0x0E03 => some [.structured, .alarm]
  | 0x0E04 => some [.alarm]
  | 0x0F00 | 0x0F01 => some saym
  | 0x1000 => some sayml
  | 0x1100 | 0x1101 | 0x1102 => some saym
  | 0x1200 => some say
  | 0x1201 => some saym
  | 0x1202 => some say
  | 0x1203 => some [.active, .standby]
  | 0x1204 => some (.recovery :: saym)
  | 0x1300 => some [.active]
  | 0x1400 | 0x1401 | 0x1402 => some sayml
  | 0x1500 => some (.boot :: .recovery :: sayml)
  | 0x1600 => some [.structured, .active, .maintenance, .alarm]
  | _ => none

/-- The opcodes whose byte 4 is not judged at step 2 of R425: the SPAN commands. -/
def spanOpcode (op : Nat) : Bool := decide (0x0300 ≤ op ∧ op ≤ 0x0303)

/-- Steps 1 to 3 of R425 on a descriptor fetched: a failure completes it, and otherwise it is a command started. -/
def State.judgeCommand (s : State) (d : Desc) : State :=
  match opcodeStates d.opcode with
  | none => s.complete d .unsupported
  | some l =>
    if !spanOpcode d.opcode && d.byte 4 ≠ 0xFF then s.complete d .unsupported
    else if (match s.cmdState with
      | some c => l.contains c
      | none => false) then s.setHif fun h => { h with started := h.started ++ [d] }
    else s.rejectState d

/-- The command ring is served: the link and the ring are up, and no completion waits for a full ring (R422). -/
def State.fetches (s : State) (k : Nat) : Bool :=
  s.linkUp && s.ringEn k && s.ringProd k != s.ringCons k && !(s.cplFull && s.hif.held != [])

/-- COMMAND_FETCH (R421, R425): the next descriptor of the command ring, as DMA brings it. -/
def State.commandFetch (s : State) (d : Dma Desc) : State :=
  if !s.fetches 0 || s.cmdState.isNone || 256 ≤ s.hif.started.length then s
  else match d with
    | .error => s.fetchError 0
    | .ok d => ((s.advanceCons 0).bump (Reg.HIF_CNT 0)).judgeCommand d

/-- A command that names the same span as an earlier SPAN_ARM that has not completed waits for it (R425). -/
def State.spanHeld (s : State) (d : Desc) : Bool :=
  (s.hif.started.takeWhile fun x => x != d).any fun x => x.opcode = 0x0302 && x.byte 4 = d.byte 4

/-- Run a SPAN command, unless it waits. -/
def State.unlessHeld (s : State) (d : Desc) (k : State → State) : State := if s.spanHeld d then s else k s

/-- HIF_NOP (R427). -/
def State.hifNop (s : State) (d : Desc) : State :=
  s.command d [.boot, .structured, .active, .standby, .maintenance, .alarm] fun s =>
    if !d.unlistedZero [] then s.complete d .unsupported
    else s.complete d .ok 0 (pw s.tick) (pw (s.tick / 2 ^ 32))

/-! ### Transmit descriptors (R421) -/

/-- The fetch of submit ring `r` may go on: ACTIVE and serving (R216, R400), within 256 of DONE in a pair. -/
def State.txFetches (s : State) (r : Nat) : Bool :=
  decide (r < 8) && s.serving && s.fetches (2 + r) &&
    (!s.pair || decide (countDiff (s.ringCons (2 + r)) (s.doneOf r) < 256))

/-- A descriptor copied whole: CONS and FETCH advance, and its own checks follow; the data at BUF is read now. -/
def State.txTaken (s : State) (r : Nat) (d : Desc) (buf : Dma (List Byte)) : State :=
  let i := s.ringCons (2 + r)
  let s1 := ((s.rsbFetch r i).advanceCons (2 + r)).bump (Reg.HIF_CNT 1)
  let s1 := s1.setHif fun h => { h with rereads := aerase h.rereads r }
  let len := d.half 0
  if len = 0 ∨ len = 0xFFFF ∨ !txFieldsOk s1 d then s1.txAccept r i d []
  else match buf with
    | .error => (s1.bump (Reg.HIF_CNT 5)).txRefuse r i d .integrity
    | .ok data => s1.txAccept r i d (slice data 0 len)

/-- PHASE of a transmit descriptor. -/
def Desc.phase (d : Desc) : Nat := d.byte 31 / 128

/-- TX_DESCRIPTOR_FETCH (R217, R421): a descriptor whose PHASE differs from that of its count is read again. -/
def State.txFetch (s : State) (r : Nat) (d : Dma Desc) (buf : Dma (List Byte)) : State :=
  if !s.txFetches r || (afind s.hif.rereads r).isSome then s
  else match d with
    | .error => s.fetchError (2 + r)
    | .ok d =>
      if d.phase = s.ringPhase (2 + r) (s.ringCons (2 + r)) then s.txTaken r d buf
      else s.setHif fun h => { h with rereads := aput h.rereads r 1 }

/-- PHASE_REREAD (R421): up to four reads in all, and then INTEGRITY. A chip that no longer fetches drops the reread. -/
def State.phaseReread (s : State) (r : Nat) (d : Dma Desc) (buf : Dma (List Byte)) : State :=
  match afind s.hif.rereads r with
  | none => s
  | some n =>
    if !s.txFetches r then s.setHif fun h => { h with rereads := aerase h.rereads r }
    else match d with
      | .error => (s.setHif fun h => { h with rereads := aerase h.rereads r }).fetchError (2 + r)
      | .ok d =>
        let i := s.ringCons (2 + r)
        if d.phase = s.ringPhase (2 + r) i then s.txTaken r d buf
        else if n + 1 < 4 then s.setHif fun h => { h with rereads := aput h.rereads r (n + 1) }
        else
          let s1 := ((s.rsbFetch r i).advanceCons (2 + r)).bump (Reg.HIF_CNT 1)
          ((s1.setHif fun h => { h with rereads := aerase h.rereads r }).bump (Reg.HIF_CNT 4)).txRefuse r i d .integrity

/-! ### Interrupts and the link -/

/-- INTERRUPT_MODERATION_EXPIRY (R430): TIME µs after the first pending event of a vector. -/
def State.moderationExpiry (s0 : State) (t : U64) (v : Nat) : State :=
  let s := s0.at_ t
  let p := aget (0, 0) s.hif.vectors v
  if p.1 = 0 ∨ s.sys.state = .fault ∨ s.time.elapsed < p.2 + s.regFld (Reg.HIF_INT_MOD v) 31 16 * 1000 then s
  else (s.setHif fun h => { h with vectors := aset (0, 0) h.vectors v (0, 0) }).sendMsi v

/-- HIF_CNT registers, which PE_PERST_N leaves alone (R418). -/
def isHifCnt (a : Nat) : Bool := decide (Reg.HIF_CNT 0 ≤ a ∧ a ≤ Reg.HIF_CNT 8)

/-- The HIF registers other than HIF_CNT take their reset values, and the link is down (R418). -/
def State.linkReset (s : State) : State :=
  { s with regs := s.regs.filter fun e => e.1 / 0x100000 != 0x15 || isHifCnt e.1 }.setHif fun h =>
    { h with vectors := [], rereads := [] }

/-- PE_PERST (R418): PE_PERST_N goes low or high. -/
def State.pePerst (s : State) (low : Bool) : State :=
  let s1 := s.setHif fun h => { h with perst := low }
  if low then s1.linkReset else s1

/-- PCIE_LINK_CHANGE (R416, R418): training ends at a speed (1 to 3) and width, or the link goes down. -/
def State.pcieLinkChange (s : State) (up : Bool) (speed width : Nat) : State :=
  if up && (s.hif.perst || s.sys.state = .reset) then s
  else if up then s.setReg Reg.HIF_STATUS (fld 1 16 ||| fld (speed % 16) 8 ||| fld (width % 64) 0)
  else s.setReg Reg.HIF_STATUS 0

end Sys2Proof.Machine
end

