-- ==== Sys2Proof/Machine/Red.lean ====
section
/-! DEFINITION. Active and standby pairs: heartbeats, the interlock, takeovers, planned switch-over and SYS_SERVE (R383 to
R403, R428). -/

namespace Sys2Proof.Machine

/-- Change the redundancy block's state. -/
def State.setRed (s : State) (f : RedSt → RedSt) : State := { s with red := f s.red }

/-- PRIO of RED_CTRL. -/
def State.prio (s : State) : Bool := bit (s.reg Reg.RED_CTRL) 30

/-! ### Management frames (R433) -/

/-- Octets of a MAC-48 held as MAC_LO and MAC_HI. -/
def macOctets (lo hi : Word) : List Byte := beBytes (bits hi 15 0) 2 ++ beBytes lo.toNat 4

/-- ETH_MAC(p). -/
def State.ethMac (s : State) (p : Nat) : List Byte := macOctets (s.reg (Reg.ETH_MAC_LO p)) (s.reg (Reg.ETH_MAC_HI p))

/-- A port. -/
def State.eth (s : State) (p : Nat) : EthPort := if p = 0 then s.ethA else s.ethB

/-- Set a port. -/
def State.setEth (s : State) (p : Nat) (x : EthPort) : State := if p = 0 then { s with ethA := x } else { s with ethB := x }

/-- A port can send: it is enabled and its link is up. -/
def State.ethUp (s : State) (p : Nat) : Bool := bit (s.reg (Reg.ETH_CTRL p)) 31 && (s.eth p).link

/-- Queue a frame on a port, behind those already queued (R434). -/
def State.ethQueueOut (s : State) (p : Nat) (x : EthOut) : State := s.setEth p { s.eth p with out := (s.eth p).out ++ [x] }

/-- A frame the device sends itself, tagged with VID at priority 0 when there is one (R431). -/
def State.ethOwn (s : State) (p : Nat) (dst : List Byte) (type : Nat) (body : List Byte) : List Byte :=
  let vid := s.regFld (Reg.ETH_CTRL p) 27 16
  dst ++ s.ethMac p ++ (if vid = 0 then [] else beBytes 0x8100 2 ++ beBytes vid 2) ++ beBytes type 2 ++ body

/-- Send a management message (Table 20-6); nothing leaves a port that cannot send. -/
def State.sendMgmt (s : State) (p : Nat) (dst : List Byte) (msg : Nat) (body : List Byte) : State :=
  if s.ethUp p then
    let hdr := [1, BitVec.ofNat 8 msg] ++ beBytes body.length 2 ++ beBytes s.truss.truss.domainId.toNat 2 ++
      [BitVec.ofNat 8 s.truss.truss.brId.toNat, 0]
    s.ethQueueOut p { bytes := s.ethOwn p dst 0x88B5 (hdr ++ body) }
  else s

/-! ### The interlock (R383 to R389) -/

/-- ILK_IN has been inactive for at least 1 µs (R386). -/
def State.ilkClear (s : State) : Bool := !s.sys.ilkIn && decide (s.red.inClear + 1000 ≤ s.time.elapsed)

/-- Assert ILK_OUT. -/
def State.assertIlk (s : State) (forced : Bool) : State :=
  { s with sys := { s.sys with ilkOut := true } }.setRed fun r => { r with outSince := s.time.elapsed, forced := forced }

/-- A normal assertion (R386): a chip in ACTIVE without ILK_OUT asserts it once ILK_IN has been inactive for 1 µs. -/
def State.normalAssert (s : State) : State :=
  if s.sys.state = .active && !s.sys.ilkOut && s.ilkClear then s.assertIlk false else s

/-- Release ILK_OUT (R14). -/
def State.releaseIlk (s : State) : State := { s with sys := { s.sys with ilkOut := false } }.setRed fun r => { r with forced := false }

/-- Descriptors of host rings end with no completion of their own: the new active chip completes them (R401). -/
def State.forgetDescs (s : State) : State := s.rf.descs.foldl (fun s x => s.txForget x) s

/-- The counters leap on first use from now on (R398). -/
def State.startLeap (s : State) : State := s.setRf fun r => { r with leap := true, leapt := [] }

/-- A decision (R394): cause 1 interlock release, 2 heartbeat loss. The rules give the decision and the assertion 1 µs
each after the change of ILK_IN; the model puts both at the event (DESIGN CHOICE, log 70). A takeover leaves no
initialisation of the ring state block waiting. -/
def State.takeover (s : State) (cause : Nat) : State :=
  let entered := s.sys.state != .active
  let s1 := ((s.enter .active).assertIlk (cause = 2)).setRed fun r =>
    { r with recover := true, initDue := false, released := if cause = 1 then some s.time.elapsed else none }
  let s2 := post s1.startLeap .warning 0x13 none 0 (pw cause :: pw2 s.tick)
  let s3 := ((s2.setReg Reg.RED_LAST (fld cause 24 ||| 0xFFFFFF)).setReg Reg.RED_LAST_TICK_LO (pw s.tick)).setReg
    Reg.RED_LAST_TICK_HI (pw (s.tick / 2 ^ 32 % 65536))
  let s4 := (s3.bump (Reg.RED_CNT 5)).raise 12
  if entered then s4.holdoverAtEntry else s4

/-- ILK_IN_RELEASE (R393, R388): ILK_IN becomes inactive; a chip in STANDBY, and a held-off chip, decides. A new active
that asserted by force observes the old active's release. -/
def State.ilkInRelease (s0 : State) (t : U64) : State :=
  let s := s0.at_ t
  if !s.sys.ilkIn then s
  else
    let s1 := ({ s with sys := { s.sys with ilkIn := false } }.setFld Reg.RED_STATUS 29 29 0).setRed fun r =>
      { r with inClear := s.time.elapsed }
    if s1.standingBy then s1.takeover 1
    else if s1.red.recover && s1.red.released.isNone then s1.setRed fun r => { r with released := some s.time.elapsed }
    else s1

/-- A chip is pre-empted (R387, R388): it releases ILK_OUT, and in a pair the new active completes its descriptors. -/
def State.preempted (s : State) : State :=
  let s1 := s.releaseIlk
  let s2 := (post s1 .error 0x13 none 0 []).bump (Reg.RED_CNT 6)
  let s3 := s2.raise 12
  (if s.pair then s3.forgetDescs else s3).setRed fun r => { r with recover := false, released := none }

/-- ILK_IN_ACTIVE (R385, R387): ILK_IN becomes active. The PA goes off at once; a chip that has held ILK_OUT for 1 µs, or
that has the lower priority, is pre-empted. In a pair a chip without ILK_OUT has lost its descriptors to its peer. -/
def State.ilkInActive (s0 : State) (t : U64) : State :=
  let s := s0.at_ t
  if s.sys.ilkIn then s
  else
    let s1 := { s with sys := { s.sys with ilkIn := true } }
    if s.sys.state = .active && s.sys.ilkOut then
      let s2 := s1.interlockLost
      if s.red.outSince + 1000 ≤ s.time.elapsed ∨ !s.prio then s2.preempted else s2
    else if s.pair then s1.forgetDescs else s1

/-- STUCK_CHECK (R387): one tick after a forced assertion ILK_IN is still active. -/
def State.stuckCheck (s0 : State) (t : U64) : State :=
  let s := s0.at_ t
  if s.sys.state = .active && s.sys.ilkOut && s.red.forced && s.sys.ilkIn &&
      decide (s.red.outSince + s.tickNs ≤ s.time.elapsed) && !bit (s.reg Reg.RED_STATUS) 29 then
    (post (s.setFld Reg.RED_STATUS 29 29 1) .error 0x13 none 0 []).raise 12
  else s

/-! ### Heartbeats (R390 to R393) -/

/-- The states in which heartbeats are sent. -/
def State.beats (s : State) : Bool := s.pair && s.inStates stSAYM

/-- A heartbeat body (Table 18-2). -/
def State.heartbeatBody (s : State) : List Byte :=
  let b := [s.red.alive, BitVec.ofNat 8 (b2n s.sys.ilkOut + 2 * b2n s.heldOff + 4 * b2n s.prio + 8 * b2n s.holdoverFlag),
    BitVec.ofNat 8 s.sys.state.code, BitVec.ofNat 8 s.truss.truss.brId.toNat] ++ leBytes s.tick 4 ++ leBytes s.now 8 ++
    leBytes s.key.uid.toNat 8 ++ leBytes s.truss.truss.trussId.toNat 4
  b ++ leBytes (crc 2 b).toNat 4

/-- HB_LINK_EN and HB_ETH_EN. -/
def State.hbEnabled (s : State) (p : Nat) : Bool := bit (s.reg Reg.RED_CTRL) (29 - p)

/-- HEARTBEAT_SEND (R390): at edge + 30 µs, when core 3 has written the body of the tick. -/
def State.heartbeatSend (s0 : State) (t : U64) (written : Bool) : State :=
  let s := s0.at_ t
  if !s.beats || !written || !(s.hbEnabled 0 || s.hbEnabled 1) then s
  else
    let b := s.heartbeatBody
    let s1 := if s.hbEnabled 0 then s.emit (.hbLink b) else s
    let s2 := if s.hbEnabled 1 then
        s1.sendMgmt 0 (macOctets (s.reg Reg.RED_PEER_MAC_LO) (s.reg Reg.RED_PEER_MAC_HI)) 0x10 b else s1
    (s2.setRed fun r => { r with alive := r.alive + 1 }).bump (Reg.RED_CNT 0)

/-- The ALIVE check of CHK4 for a path (R335): the state, and whether it passes. -/
def State.aliveCheck (s : State) (p : Nat) (alive : Byte) : State × Bool :=
  let c := s.chan 4
  let seen := if p = 0 then c.seen else s.chk.hb1Seen
  let last := if p = 0 then c.lastAlive else s.chk.hb1Last
  let ok := !seen || alive = last + 1
  let c1 := { c with lastStatus := if ok then .ok else .checkFail,
                     lastAlive := if p = 0 then alive else c.lastAlive, seen := c.seen || p = 0 }
  let s1 := s.setChan 4 c1
  let s2 := if p = 0 then s1 else { s1 with chk := { s1.chk with hb1Last := alive, hb1Seen := true } }
  let s3 := s2.bump (Reg.CHK_CNT 4 0)
  (if ok then s3 else s3.bump (Reg.CHK_CNT 4 1), ok)

/-- What a valid heartbeat does (R391). -/
def State.heartbeatValid (s : State) (p : Nat) (b : List Byte) : State :=
  let st := leAt b 2 1 % 16
  let uid := leAt b 0x10 8
  let diff := leAt b 0x18 4 ≠ s.truss.truss.trussId.toNat
  let clash := bit (b.getD 1 0) 2 = s.prio
  let w := s.reg Reg.RED_STATUS
  let s1 := ((s.setReg Reg.RED_PEER_UID_LO (pw uid)).setReg Reg.RED_PEER_UID_HI (pw (uid / 2 ^ 32))).setReg Reg.RED_STATUS
    (setBits (setBits (setBits w 28 28 (b2n diff)) 27 27 (b2n clash)) 19 16 st)
  let s2 := if diff ∧ !bit w 28 then post s1 .notice 0x13 none 0 [] else s1
  let s3 := if clash ∧ !bit w 27 then post s2 .error 0x13 none 0 [] else s2
  let s4 := if p = 0 then
      s3.setReg Reg.RED_PEER_PHASE (pw (unsigned (clampS ((leAt b 8 8 : Nat) - (s.now : Int)) 32) 32)) else s3
  s4.setRed fun r => { r with
    hb0 := r.hb0 || p = 0, hb1 := r.hb1 || p = 1, peerHeld := bit (b.getD 1 0) 0, peerTick := some s.time.tickno,
    standbyTick := if st = SysState.standby.code then some s.time.tickno else r.standbyTick }

/-- HEARTBEAT_RX (R391): a heartbeat body arrives on the HB link (path 0) or on ETH0 (path 1). -/
def State.heartbeatRx (s0 : State) (t : U64) (p : Nat) (b : List Byte) : State :=
  let s := s0.at_ t
  if !s.beats || 1 < p then s
  else if b.length ≠ 32 ∨ (crc 2 (b.take 28)).toNat ≠ leAt b 0x1C 4 ∨ leAt b 0x10 8 = s.key.uid.toNat ∨
      leAt b 3 1 ≠ s.truss.truss.brId.toNat ∨ leAt b 4 4 ≠ s.tick % 2 ^ 32 then s.bump (Reg.RED_CNT 3)
  else
    let r := s.aliveCheck p (b.getD 0 0)
    if r.2 then r.1.heartbeatValid p b else r.1.bump (Reg.RED_CNT 3)

/-- One more in an 8-bit run of RED_MISS, or the run's end. -/
def missRun (w : Word) (hi lo : Nat) (missed : Bool) : Word :=
  setBits w hi lo (if missed then min 255 (bits w hi lo + 1) else 0)

/-- HEARTBEAT_MISS (R391, R393): at edge + 250 µs the tick is judged on both paths. -/
def State.heartbeatMiss (s0 : State) (t : U64) : State :=
  let s := s0.at_ t
  if !s.beats then s
  else
    let m0 := !s.hbEnabled 0 || !s.red.hb0
    let m1 := !s.hbEnabled 1 || !s.red.hb1
    let both := m0 && m1
    let w := s.reg Reg.RED_MISS
    let s1 := s.setReg Reg.RED_MISS (missRun (missRun (missRun w 7 0 m0) 15 8 m1) 23 16 both)
    let s2 := if m0 then s1.bump (Reg.RED_CNT 1) else s1
    let s3 := if m1 then s2.bump (Reg.RED_CNT 2) else s2
    let run := if both then s.red.bothRun + 1 else 0
    let s4 := s3.setRed fun r => { r with
      bothRun := run,
      armRun := if s.sys.state = .standby && !both then min 16 (r.armRun + 1) else 0 }
    if s.sys.state = .standby && s.red.armed && s.red.peerHeld && decide (3 ≤ run) then s4.takeover 2
    else if s.sys.state = .active && !s.heldOff && run % 3 = 0 && both then post s4 .notice 0x13 none 0 []
    else s4

/-- STANDBY_ARMED (R392): 16 ticks in a row with a valid heartbeat. -/
def State.standbyArmed (s : State) : State :=
  if s.sys.state = .standby && 16 ≤ s.red.armRun then s.setRed fun r => { r with armed := true } else s

/-- A valid heartbeat arrived in the last tick: in this tick or the one before it. -/
def State.lately (s : State) (k : Option TickNo) : Bool :=
  match k with
  | some n => decide ((s.tick + 2 ^ 48 - n.toNat) % 2 ^ 48 ≤ 1)
  | none => false

/-! ### Taking over the rings (R401) -/

/-- The descriptors of a submit ring fetched and not marked done complete SWITCHOVER (R401). -/
def State.recoverRing (rsb : List Byte) (tags : List (Nat × Nat × BitVec 16)) (s : State) (r : Nat) : State :=
  let done := leAt rsb (0x24 + 8 * r) 4
  (List.range (min 256 (countDiff (leAt rsb (0x20 + 8 * r) 4) done))).foldl (fun s j =>
    let i := (done + j) % 2 ^ 32
    if bit (rsb.getD (0x80 + 32 * r + i % 256 / 8) 0) (i % 256 % 8) then s
    else
      let tag := match tags.find? fun e => e.1 = r && e.2.1 = i with
        | some e => e.2.2
        | none => 0
      (s.hold { tag := tag, status := .switchover, kind := .transmit, ring := BitVec.ofNat 3 r, count := i }).bump
        (Reg.RED_CNT 7)) s

/-- TAKEOVER_RING_RECOVERY (R401, R423): at the first edge after a decision the new active reads the ring state block and
claims it. `tags` gives the TAG of descriptors in host memory, by ring and count. -/
def State.ringRecovery (s : State) (rsb : List Byte) (tags : List (Nat × Nat × BitVec 16)) : State :=
  if !(s.red.recover && s.pair && s.sys.state = .active && s.sys.ilkOut) then s
  else
    let s1 := (List.range 8).foldl (fun s r =>
      (s.setReg (Reg.HIF_RING_CONS (2 + r)) (pw (leAt rsb (0x20 + 8 * r) 4))).setReg (Reg.HIF_RING_PROD (10 + r))
        (pw (leAt rsb (0x60 + 4 * r) 4))) s
    let s2 := s1.setRed fun x => { x with
      recover := false, seq := BitVec.ofNat 32 (leAt rsb 4 4) + 1,
      doneCount := (List.range 8).foldl (fun m r => aset 0 m r (leAt rsb (0x24 + 8 * r) 4)) [],
      doneMap := (List.range 2048).filter fun k => bit (rsb.getD (0x80 + k / 8) 0) (k % 8) }
    let s3 := s2.rsbWrite 4 (leBytes s2.red.seq.toNat 4 ++ leBytes s.key.uid.toNat 8 ++ leBytes s.tick 6)
    (List.range 8).foldl (State.recoverRing rsb tags) s3

/-- The silent interval is known at the first tick edge after a decision (R395). A chip of no pair has no block to read. -/
def State.redTick (s : State) : State :=
  let s0 := s.setRed fun r => { r with hb0 := false, hb1 := false }
  let s1 := if s0.red.recover then match s0.red.released with
    | some a => (s0.setFld Reg.RED_LAST 23 0 (min 0xFFFFFF ((s0.time.elapsed - a) / 1000))).setRed fun r =>
        { r with released := none }
    | none => s0 else s0
  let s2 := if s1.pair then s1 else s1.setRed fun r => { r with recover := false }
  let s3 := s2.normalAssert
  if s3.sys.ilkOut && s3.red.initDue then
    (s3.setRed fun r => { r with initDue := false }).rsbWrite 0 (s3.rsbBytes)
  else s3

/-! ### Planned switch-over and SYS_SERVE (R402, R428) -/

/-- Leave ACTIVE in a planned way (R402 step 1). -/
def State.startLeaving (s : State) (d : Desc) : State :=
  (s.setRed fun r => { r with leaving := r.leaving ++ [d] }).claimsForget.settleAir

/-- RED_SWITCH (R402). -/
def State.redSwitch (s : State) (d : Desc) : State :=
  s.command d [.active] fun s =>
    if !d.unlistedZero [] then s.complete d .unsupported
    else if s.heldOff || !s.lately s.red.standbyTick then s.complete d .busyLock
    else s.startLeaving d

/-- What entry to STANDBY restarts (R392). -/
def State.standbyAtEntry (s : State) : State :=
  ((s.setReg Reg.RED_MISS 0).setRed fun r => { r with armed := false, armRun := 0, bothRun := 0, recover := false }).holdoverAtEntry

/-- Nothing of a transmission is on the air or on the lines. -/
def State.airClear (s : State) : Bool :=
  s.rf.claims.all fun c => !c.fem && (c.ended || c.stage = .claimed || c.stage = .tuned)

/-- SWITCHOVER_RELEASE (R402): after the last ramp-down and FEM_LAG, and the end of a migration under way (R245), the chip
releases ILK_OUT and enters STANDBY. -/
def State.switchoverRelease (s0 : State) (t : U64) : State :=
  let s := s0.at_ t
  if s.red.leaving = [] ∨ s.sys.state ≠ .active ∨ !s.airClear ∨ s.tbl.migration.isSome then s
  else
    let l := s.red.leaving
    let s1 := (s.forgetDescs.releaseIlk.setRed fun r => { r with leaving := [] }).enter .standby
    l.foldl (fun s d => s.complete d .ok) s1.standbyAtEntry

/-- SYS_SERVE (R428, R384). -/
def State.sysServe (s : State) (d : Desc) : State :=
  let role := d.byte 8
  if d.byte 4 ≠ 0xFF then s.complete d .unsupported
  else if !(s.sys.state = .structured || (s.sys.state = .active && role = 1)) then s.rejectState d
  else if s.key.lc ≠ .provisioned ∧ s.key.lc ≠ .deployed then s.rejectState d
  else if 1 < role ∨ !d.unlistedZero [8] ∨ (role = 1 ∧ !s.pair) then s.complete d .unsupported
  else if role = 0 ∧ s.pair ∧ s.rsbAddr = 0 then s.complete d .unsupported
  else if role = 0 ∧ bit (s.reg Reg.RED_STATUS) 27 then s.complete d .conflict
  else if role = 0 ∧ s.sys.ilkIn then s.complete d .busyLock
  else if s.sys.state = .active then s.startLeaving d
  else { s with sys := { s.sys with serve := s.sys.serve ++ [(d, decide (role = 0))] } }

/-- Entry to ACTIVE from STRUCTURED (Table 01-5, R386, R398, R400). -/
def State.serveActive (s : State) : State :=
  let s1 := (s.enter .active).normalAssert
  let s2 := if s.pair then (s1.startLeap.rsbInit).setRed fun r => { r with initDue := !s1.sys.ilkOut } else s1
  s2.holdoverAtEntry

/-- One waiting SYS_SERVE at its tick edge: the first decides the state, a later one of the other role is too late. -/
def State.serveOne (s : State) (x : Desc × Bool) : State :=
  match s.sys.state, x.2 with
  | .structured, true => s.serveActive.complete x.1 .ok
  | .structured, false => (s.enter .standby).standbyAtEntry.complete x.1 .ok
  | .active, true => s.complete x.1 .ok
  | .standby, false => s.complete x.1 .ok
  | _, _ => s.rejectState x.1

/-- SERVE_ENTRY (R428): the tick edge at which the new state is entered, after the end of a migration under way (R245). -/
def State.serveEntry (s : State) : State :=
  if s.sys.state = .structured ∧ s.sys.serve ≠ [] ∧ s.tbl.migration.isNone then
    let l := s.sys.serve
    (l.foldl (fun (s : State) x => s.serveOne x) { s with sys := { s.sys with serve := [] } }).settleAir
  else s

end Sys2Proof.Machine
end

