-- ==== Sys2Proof/Machine/Attest.lean ====
section
/-! DEFINITION. Attestation requests, their reports and the public key (R356 to R360). -/

namespace Sys2Proof.Machine

/-- Change the boot block's state. -/
def State.setBoot (s : State) (f : BootSt → BootSt) : State := { s with boot := f s.boot }

/-- An attestation request joins the queue (R358). -/
def State.attestAdd (s : State) (r : AttReq) : State :=
  (s.setBoot fun b => { b with attest := b.attest ++ [r] }).attestNext

/-- Eight attestation requests are queued. -/
def State.attestFull (s : State) : Bool := decide (8 ≤ s.boot.attest.length)

/-- ATTEST (R356). -/
def State.attest (s : State) (d : Desc) : State :=
  s.command d stSAYM fun s =>
    let n := (d.word 2).toNat
    let o := (d.word 3).toNat
    if !d.unlistedZero [8, 9, 10, 11, 12, 13, 14, 15] then s.complete d .unsupported
    else if !s.inWindow n 32 || !s.inWindow o 416 || n % 4 ≠ 0 || o % 4 ≠ 0 then s.complete d .length
    else if s.key.attestKey.isNone then s.complete d .keyRevoked
    else if s.attestFull then s.complete d .noRoom
    else s.attestAdd { nonce := s.readWin n 32, cmd := some d }

/-- ATTEST_REQUEST_RX (R359): a request from `mac` on a port; it is dropped and counted when it cannot be queued. -/
def State.attestRequestRx (s : State) (p : Nat) (mac nonce : List Byte) : State :=
  if !s.inStates stSAYM then s
  else if nonce.length ≠ 32 then s.bump (Reg.ETH_CNT p 5)
  else if s.key.attestKey.isNone || s.attestFull then
    let v := s.regFld Reg.BOOT_ATTEST_CNT 31 16
    s.setFld Reg.BOOT_ATTEST_CNT 31 16 (if v = 0xFFFF then v else v + 1)
  else s.attestAdd { nonce := nonce, port := p, mac := mac }

/-- One request ends without a report: the area of a command that has its snapshot is zero-filled (R358, R328), but not at
FAULT or a reset. -/
def State.attestFail (s : State) (r : AttReq) (snap : Bool) (st : Status) : State :=
  match r.cmd with
  | none => s
  | some d => (if snap && st != .aborted then s.writeWin (d.word 3).toNat (List.replicate 416 0) else s).complete d st

/-- The signature of the oldest request ends: its report waits to be written, or the request ends with the status. -/
def State.attestEnd (s : State) (st : Status) (sig : List Byte) : State :=
  match s.boot.attest with
  | [] => s
  | r :: rest =>
    if st = .ok then s.setBoot fun b => { b with report := some (b.report.getD [] ++ slice sig 0 64) }
    else ((s.setBoot fun b => { b with attest := rest, report := none }).attestFail r true st).attestNext

/-- Every request ends with a status: an alarm, FAULT or a reset, or the end of the key (R358, Table 13-9). -/
def State.attestFlush (s : State) (st : Status) : State :=
  let l := s.boot.attest
  let snap := s.boot.report.isSome
  let s1 := s.setBoot fun b => { b with attest := [], report := none }
  let s2 := { s1 with cip := { s1.cip with queue := s1.cip.queue.filter fun j => j.owner != .attest } }
  match l with
  | [] => s2
  | r :: rest => rest.foldl (fun s r => s.attestFail r false st) (s2.attestFail r snap st)

/-- ATTEST_REPORT (R358): a signed report is written at its place, or returned in an attestation response. -/
def State.attestReportOut (s : State) : State :=
  match s.boot.attest, s.boot.report with
  | r :: rest, some rep =>
    if rep.length < 416 then s
    else
      let s1 := (s.setBoot fun b => { b with attest := rest, report := none }).bump16 Reg.BOOT_ATTEST_CNT
      let s2 := match r.cmd with
        | some d => (s1.writeWin (d.word 3).toNat rep).complete d .ok
        | none => s1.sendMgmt r.port r.mac 0x31 rep
      s2.attestNext
  | _, _ => s

/-- BOOT_ATTEST_PUB (R360). -/
def State.bootAttestPub (s : State) (d : Desc) : State :=
  s.command d stSAYM fun s =>
    let o := (d.word 2).toNat
    if !d.unlistedZero [8, 9, 10, 11] then s.complete d .unsupported
    else match s.attestPublic with
      | none => s.complete d .keyRevoked
      | some pk => if !s.inWindow o 64 || o % 4 ≠ 0 then s.complete d .length
        else (s.writeWin o (slice pk 0 64)).complete d .ok

end Sys2Proof.Machine
end

