-- ==== Sys2Proof/Machine/ExecAttest.lean ====
section
/-! DEFINITION. The meanings of the commands of measurement and attestation: one definition per command, over the shared operations.
The manual gives each an effect in every state, so each answers a next state. -/

namespace Sys2Proof.Machine

/-- ATTEST (R356). -/
def execAttest (d : Desc) (s : State) : Host.Outcome State Fault Refusal :=
  .next (s.attest d)

/-- ATTEST_REQUEST_RX (R359): a request from `mac` on a port; it is dropped and counted when it cannot be queued. -/
def execAttestRequestRx (p : Nat) (mac : List Byte) (nonce : List Byte)
    (s : State) : Host.Outcome State Fault Refusal :=
  .next (s.attestRequestRx p mac nonce)

/-- ATTEST_REPORT (R358): a signed report is written at its place, or returned in an attestation response. -/
def execAttestReport (s : State) : Host.Outcome State Fault Refusal :=
  .next s.attestReportOut

/-- BOOT_ATTEST_PUB (R360). -/
def execBootAttestPub (d : Desc) (s : State) : Host.Outcome State Fault Refusal :=
  .next (s.bootAttestPub d)

/-- BOOT_MR_EXTEND (R355). -/
def execBootMrExtend (d : Desc) (s : State) : Host.Outcome State Fault Refusal :=
  .next (s.bootMrExtend d)

end Sys2Proof.Machine
end

