-- ==== Sys2Proof/Machine/ExecCalib.lean ====
section
/-! DEFINITION. The meanings of the commands of calibration: one definition per command, over the shared operations.
The manual gives each an effect in every state, so each answers a next state. -/

namespace Sys2Proof.Machine

/-- CALIBRATION_SWEEP (R146): in STRUCTURED and MAINTENANCE a sweep job runs from edge + 100 µs to 10 µs before the
next edge, over EMPTY entries in ascending index. -/
def execCalibrationSweep (t : U64) (s : State) : Host.Outcome State Fault Refusal :=
  .next (s.calibrationSweep t)

/-- CAL_JOB_PLACEMENT (R151): at edge + 100 µs, in ACTIVE and STANDBY (Table 07-4). -/
def execCalJobPlacement (t : U64) (s : State) : Host.Outcome State Fault Refusal :=
  .next (s.calJobPlacement t)

/-- CAL_JOB_COMPLETE (R152, R148): the job of a chain reaches its end. -/
def execCalJobComplete (t : U64) (c : Nat) (s : State) : Host.Outcome State Fault Refusal :=
  .next (s.calJobComplete t c)

/-- MANDATORY_RECALIBRATION (R145): one EXPIRED entry, largest Δ first. -/
def execMandatoryRecalibration (t : U64) (c : Nat) (s : State) : Host.Outcome State Fault Refusal :=
  .next (s.mandatoryRecalibration t c)

/-- COMPACT_CALIBRATION (R148). -/
def execCompactCalibration (t : U64) (c : Nat) (s : State) : Host.Outcome State Fault Refusal :=
  .next (s.compactCalibration t c)

/-- CAL_SYNTH (R149). -/
def execCalSynth (d : Desc) (s : State) : Host.Outcome State Fault Refusal :=
  .next (s.calSynth d)

/-- CROWD_WINDOW_END (R156, R157). -/
def execCrowdWindowEnd (t : U64) (s : State) : Host.Outcome State Fault Refusal :=
  .next (s.crowdWindowEnd t)

/-- CAL_ENTRY_DATA_READ (R162): the four words of the selected entry are latched together. -/
def execCalEntryDataRead (s : State) : Host.Outcome State Fault Refusal :=
  .next s.calEntryDataRead

end Sys2Proof.Machine
end

