-- ==== Sys2Proof/Machine/ExecCells.lean ====
section
/-! DEFINITION. The meanings of the commands of the cells: one definition per command, over the shared operations.
The manual gives each an effect in every state, so each answers a next state. -/

namespace Sys2Proof.Machine

/-- WORK_ITEM_LATE (R33, R35, R36): a work item is not complete at its due instant. -/
def execWorkItemLate (t : U64) (x : LateItem) (s : State) : Host.Outcome State Fault Refusal :=
  .next (s.workItemLate t x)

/-- CELL_RESOLUTION (R192 to R196). -/
def execCellResolution (t : U64) (b : Nat) (s : State) : Host.Outcome State Fault Refusal :=
  .next (s.cellResolution t b)

/-- SCH_GL_READ (R187). -/
def execSchGlRead (d : Desc) (s : State) : Host.Outcome State Fault Refusal :=
  .next (s.schGlRead d)

/-- SCH_ASN_READ (R199): a read of SCH_ASN_LO(b) latches SCH_ASN_HI(b). -/
def execSchAsnRead (b : Nat) (s : State) : Host.Outcome State Fault Refusal :=
  .next (s.schAsnRead b)

/-- SCH_SF_START_READ (R199): a read of SCH_SF_START_LO latches SCH_SF_START_HI. -/
def execSchSfStartRead (s : State) : Host.Outcome State Fault Refusal :=
  .next s.schSfStartRead

end Sys2Proof.Machine
end

