-- ==== Sys2Proof/Machine/ExecCheck.lean ====
section
/-! DEFINITION. The meanings of the commands of the check channels: one definition per command, over the shared operations.
The manual gives each an effect in every state, so each answers a next state. -/

namespace Sys2Proof.Machine

/-- CHK_SCAN (R336, R337, R340): the job is queued on its channel, or the first failed check decides. -/
def execChkScan (d : Desc) (s : State) : Host.Outcome State Fault Refusal :=
  .next (s.chkScan d)

/-- CHK_SCAN_COMPLETE (R338): the running job of a channel ends. -/
def execChkScanComplete (ch : Nat) (s : State) : Host.Outcome State Fault Refusal :=
  .next (s.chkScanComplete ch)

/-- CHK_CFG_WRITE (R332, R344): a host write of CHK_CFG(n). -/
def execChkCfgWrite (n : Nat) (v : Word) (s : State) : Host.Outcome State Fault Refusal :=
  .next (s.chkCfgWrite n v)

end Sys2Proof.Machine
end

