-- ==== Sys2Proof/Machine/ExecCipher.lean ====
section
/-! DEFINITION. The meanings of the commands of the cipher engine: one definition per command, over the shared operations.
The manual gives each an effect in every state, so each answers a next state. -/

namespace Sys2Proof.Machine

/-- CIPHER_DISPATCH (R316, R318): an idle unit in service takes the next job, which reads its keys now. -/
def execCipherDispatch (t : U64) (u : Nat) (s : State) : Host.Outcome State Fault Refusal :=
  .next (s.cipherDispatch t u)

/-- CIPHER_JOB_COMPLETE (R323): the run on a unit ends with its result. `attestEnd` takes the end of an ATTEST
signature. -/
def execCipherJobComplete (t : U64) (u : Nat) (s : State) : Host.Outcome State Fault Refusal :=
  .next (s.cipherJobComplete State.attestEnd t u)

/-- SLOW_MARK (R327): a run's age reaches 4 × NOM. -/
def execSlowMark (t : U64) (u : Nat) (s : State) : Host.Outcome State Fault Refusal :=
  .next (s.slowMark t u)

/-- SLOW_STOP (R328): a run's age reaches 64 × NOM; it is stopped and its output zeroed. -/
def execSlowStop (t : U64) (u : Nat) (s : State) : Host.Outcome State Fault Refusal :=
  .next (s.slowStop State.attestEnd t u)

/-- CIP_SUBMIT (R324): the job is queued, or the command completes with the first failure. -/
def execCipSubmit (d : Desc) (s : State) : Host.Outcome State Fault Refusal :=
  .next (s.cipSubmit d)

/-- CIP_SELFTEST (R329). -/
def execCipSelftest (d : Desc) (s : State) : Host.Outcome State Fault Refusal :=
  .next (s.cipSelfTest State.attestEnd d)

/-- SELF_TEST_COMPLETE (R329): the known-answer tests of a unit end, as the hardware finds them. -/
def execSelfTestComplete (t : U64) (u : Nat) (pass : Bool) (s : State) : Host.Outcome State Fault Refusal :=
  .next (s.selfTestComplete t u pass)

end Sys2Proof.Machine
end

