-- ==== Sys2Proof/Machine/ExecContext.lean ====
section
/-! DEFINITION. The meanings of the commands of the node contexts: one definition per command, over the shared operations.
The manual gives each an effect in every state, so each answers a next state. -/

namespace Sys2Proof.Machine

/-- CONTEXT_SCRUB (R343): RATE lines from the position on, wrapping after the last node. -/
def execContextScrub (s : State) : Host.Outcome State Fault Refusal :=
  .next s.contextScrub

/-- CTX_READ (R20, R427). -/
def execCtxRead (d : Desc) (s : State) : Host.Outcome State Fault Refusal :=
  .next (s.ctxRead d)

/-- CTX_UPDATE (R20, R21): on a line that fails, only the repair mask is taken. -/
def execCtxUpdate (d : Desc) (s : State) : Host.Outcome State Fault Refusal :=
  .next (s.ctxUpdate d)

/-- CTX_REPAIR, a CTX_UPDATE whose mask is 0xFFFF_FFFF (R21): on a line that is not usable, all of its octets from the
image, a new CRC and a NOTICE record; on a usable line it completes UNSUPPORTED and changes nothing (R20). -/
def execCtxRepair (d : Desc) (s : State) : Host.Outcome State Fault Refusal :=
  .next (s.ctxUpdate d)

end Sys2Proof.Machine
end

