-- ==== Sys2Proof/Machine/Queues.lean ====
section
/-! DEFINITION. The queue commands, the pop consumer and the receive delivery rings (R274 to R279). -/

namespace Sys2Proof.Machine

/-- A QUE command ends: host software finds its outcome in the completion ring; firmware has none to write (R424). -/
def State.queEnd (s : State) (issuer : Issuer) (d : Desc) (st : Status) (q n : Nat) : State :=
  match issuer with
  | .firmware => s
  | .host => s.complete d st (b4 := if q < 1024 then pw (n % 65536 + 65536 * (s.queue q).headSeq.toNat) else 0)

/-- The issuer of a QUE command is the queue's consumer (R279). -/
def Queue.issuerOk (x : Queue) (issuer : Issuer) : Bool :=
  x.consumer = 0 && (x.ring = 0xFF) == (issuer = .firmware)

/-- What the QUE commands share (R279): the issuer, the queue, its type, and QRESET of a queue found with its pointers in
disagreement (R276). -/
def State.queCommand (s : State) (issuer : Issuer) (d : Desc) (rewind : Bool) (used : List Nat)
    (k : State → Nat → State × Status × Nat) : State :=
  let q := d.half 8
  let x := s.queue q
  if d.byte 4 ≠ 0xFF then s.queEnd issuer d .unsupported q 0
  else if !s.inStates stSAYM then (s.queEnd issuer d .state q 0).rejectNote d
  else if 1024 ≤ q || !d.unlistedZero used || x.type = .disabled || (rewind && x.type != .rewind) || !x.issuerOk issuer then
    s.queEnd issuer d .unsupported q 0
  else if x.pointersBad then (s.resetQueue post q).queEnd issuer d .qReset q 0
  else
    let (s1, st, n) := k s q
    s1.queEnd issuer d st q n

/-- The number of items that end the current packet: up to and including the one with EOP, or up to the next packet where
a gap marker stands for that one; none while it has not arrived. -/
def toEop (l : List QItem) : Option Nat :=
  match l with
  | [] => none
  | i :: r => if i.sop then some 0 else if i.eop then some 1 else (toEop r).map fun n => n + 1

/-- QUE_DROP_REST (R277). -/
def State.queDropRest (s : State) (issuer : Issuer) (d : Desc) : State :=
  s.queCommand issuer d false [8, 9] fun s q =>
    let x := s.queue q
    if !x.inPacket then (s, .ok, 0)
    else
      let gone := if x.type = .rewind then x.items.take x.read else x.items.filter fun i => i.taken
      let ahead := if x.type = .rewind then x.items.drop x.read else x.items.filter fun i => !i.taken
      let (n, dropping) := match toEop ahead with
        | some n => (n, false)
        | none => (ahead.length, true)
      ((s.bumpBy (Reg.QUE_CNT 4) 31 n).setQueue q
        { x with items := gone ++ ahead.drop n, inPacket := false, dropping := dropping }, .ok, n)

/-- QUE_MARK (R278). -/
def State.queMark (s : State) (issuer : Issuer) (d : Desc) : State :=
  s.queCommand issuer d true [8, 9] fun s q =>
    let x := s.queue q
    (s.setQueue q { x with mark := x.read }, .ok, 0)

/-- READ returns to MARK (R278). -/
def State.rewindQueue (s : State) (q : Nat) : State :=
  let x := s.queue q
  s.setQueue q { x with read := x.mark }

/-- QUE_REWIND (R278). -/
def State.queRewind (s : State) (issuer : Issuer) (d : Desc) : State :=
  s.queCommand issuer d true [8, 9] fun s q =>
    let x := s.queue q
    (s.rewindQueue q, .ok, x.read - x.mark)

/-- How many items of a rewind queue a release up to `sq` frees, among those already read; none outside them. A gap marker
that `sq` falls inside keeps what follows it. -/
def releaseCount (l : List QItem) (sq : BitVec 16) : Option (Nat × Option QItem) :=
  match l with
  | [] => none
  | i :: r =>
    let at_ := (sq - i.seq).toNat
    if at_ + 1 = i.span then some (1, none)
    else if at_ < i.span then some (0, some { i with seq := sq + 1, len := i.len - at_ - 1 })
    else (releaseCount r sq).map fun x => (x.1 + 1, x.2)

/-- Free the items of a rewind queue up to `sq` (R278): how many, or none when `sq` is outside RELEASE to READ − 1. -/
def State.releaseQueue (s : State) (q : Nat) (sq : BitVec 16) : Option (State × Nat) :=
  let x := s.queue q
  (releaseCount (x.items.take x.read) sq).map fun r =>
    let rest := match r.2 with
      | some g => g :: x.items.drop (r.1 + 1)
      | none => x.items.drop r.1
    ((s.bumpBy (Reg.QUE_CNT 6) 31 r.1).setQueue q
      { x with items := rest, read := x.read - r.1, mark := x.mark - r.1, readMax := x.readMax - r.1 }, r.1)

/-- QUE_RELEASE (R278). -/
def State.queRelease (s : State) (issuer : Issuer) (d : Desc) : State :=
  s.queCommand issuer d true [8, 9, 10, 11] fun s q =>
    match s.releaseQueue q (BitVec.ofNat 16 (d.half 10)) with
    | some (s1, n) => (s1.freeGaps q, .ok, n)
    | none => (s, .unsupported, 0)

/-! ### The pop consumer -/

/-- Free the data or control item a pop consumer holds (R274). -/
def State.popFree (s : State) (q : Nat) : State :=
  let x := s.queue q
  if x.popHeld then s.setQueue q { x with items := x.items.filter fun i => !i.taken, popHeld := false } else s

/-- Firmware is the consumer of a queue. -/
def Queue.popped (x : Queue) : Bool := x.type != .disabled && x.consumer = 0 && x.ring = 0xFF

/-- QUE_POP (R274, R275): a firmware read of QUE_POP_W0. -/
def State.quePop (s0 : State) (q : Nat) : State :=
  let s := s0.checkPointers post q
  if !(s.queue q).popped then s
  else
    let s1 := (s.popFree q).dropBroken q
    let rewind := (s1.queue q).type = .rewind
    match s1.takeHead q true with
    | (s2, none) => s2.setQueue q { s2.queue q with popWords := [0, 0, 0, 0] }
    | (s2, some i) => s2.setQueue q { s2.queue q with popWords := i.words, popHeld := !rewind }

/-- QUE_POP_FREE (R274): a firmware write to QUE_POP_W0. -/
def State.quePopFree (s0 : State) (q : Nat) : State :=
  let s := s0.checkPointers post q
  if (s.queue q).popped then s.popFree q else s

/-! ### Receive delivery -/

/-- Receive delivery rings carry items: in STRUCTURED, and in ACTIVE while the chip serves; in a pair only with the
interlock held (Table 01-4, R400). -/
def State.ringsCarry (s : State) : Bool := (s.sys.state = .structured && !s.pair) || s.serving

/-- The queues of a ring and type with an item to take, in ascending order. -/
def State.ringQueues (s : State) (r : Nat) (t : QType) : List Nat :=
  (s.que.queues.filter fun e => e.2.type = t && e.2.consumer = 0 && e.2.ring = r && e.2.headItem.isSome).map Prod.fst

/-- The key of the round-robin position of a ring and type. -/
def turnKey (r : Nat) (t : QType) : Nat :=
  4 * r + (match t with
    | .control => 0
    | .data => 1
    | .rewind => 2
    | .disabled => 3)

/-- The queue of a type whose turn it is on a ring: the next in ascending number after the last one served (R274). -/
def State.ringTurn (s : State) (r : Nat) (t : QType) : Option Nat :=
  let l := s.ringQueues r t
  let last := aget 0 s.que.lastServed (turnKey r t)
  (l.find? fun q => decide (last ≤ q)) <|> l.head?

/-- The queue a ring serves next: control queues first, then data, then rewind queues. -/
def State.ringNext (s : State) (r : Nat) : Option (Nat × QType) :=
  ((s.ringTurn r .control).map fun q => (q, QType.control)) <|> ((s.ringTurn r .data).map fun q => (q, QType.data)) <|>
    ((s.ringTurn r .rewind).map fun q => (q, QType.rewind))

/-- Free the gap markers at the head, which HIF delivers as no descriptor (R273). -/
def State.skipGaps (s : State) (q fuel : Nat) : State :=
  match fuel with
  | 0 => s
  | k + 1 => match (s.queue q).headItem with
    | some i => if i.gap then (s.takeHead q false).1.skipGaps q k else s
    | none => s

/-- The 32 octets of a receive delivery descriptor (Table 05-5). -/
def QItem.delivery (i : QItem) (phase : Nat) : List Byte :=
  ofWords [fld i.len 16 ||| i.rx.w0 ||| pw i.rx.status.code, i.rx.w1, i.rx.w2, i.rx.w3, i.rx.w4, i.rx.w5, i.addr,
    fld phase 31 ||| pw i.seq.toNat]

/-- RX_DELIVERY (R274, R422): ring `r` takes its next item. -/
def State.rxDelivery (s : State) (r : Nat) : State :=
  let k := 10 + r
  if 8 ≤ r || !s.ringsCarry || !s.linkUp || !s.ringEn k || s.ringSize k ≤ s.ringUsed k then s
  else match s.ringNext r with
    | none => s
    | some (q, t) =>
      if (s.queue q).pointersBad then s.resetQueue post q
      else
        let s1 := (s.dropBroken q).skipGaps q 65536
        match s1.takeHead q false with
        | (s2, none) => s2
        | (s2a, some i) =>
          let s2 := s2a.freeGaps q
          let n := s2.ringProd k
          let s3 := (s2.emit (.hostWrite (s2.ringAddr k n 32) (i.delivery (s2.ringPhase k n)))).setReg (Reg.HIF_RING_PROD k)
            (pw (n + 1))
          let s4 := (s3.bump (Reg.HIF_CNT 3)).rsbWrite (0x60 + 4 * r) (leBytes (n + 1) 4)
          { s4 with que := { s4.que with lastServed := aset 0 s4.que.lastServed (turnKey r t) (q + 1) } }.raise (1 + r)

end Sys2Proof.Machine
end

