-- ==== Sys2Proof/Machine/TableRows.lean ====
section
/-! DEFINITION. The table engine's own events: locks, waiting insertions, overflow moves and age-outs (R240 to R264). -/

namespace Sys2Proof.Machine

/-- LOCK_WAIT_APPLY (R262): the waiting insertions of a region of table `t` that is no longer locked. -/
def State.lockWaitApply (s : State) (t r : Nat) : State := if s.locked t r then s else s.applyWaits t (some r)

/-- LOCK_EXPIRY (R264): at a tick edge, a region locked for longer than TBL_LOCK_MAX ticks. -/
def State.lockExpiry (s : State) (t r : Nat) : State :=
  match afind s.tbl.lockedAt (64 * t + r) with
  | none => s
  | some k =>
    if s.regFld Reg.TBL_LOCK_MAX 15 0 < (s.tick + 2 ^ 48 - k.toNat) % 2 ^ 48 then
      (post ((s.unlock t r).bump (Reg.TBL_CNT 14)) .warning 0x0B none 0 [pw t, pw r]).raise 15
    else s

/-- TBL_LOCK_WRITE (R261): a write of TBL_LOCK(t, h). -/
def State.tblLockWrite (s : State) (t h : Nat) (v : Word) : State :=
  if s.takesWrites && decide (t < 3 ∧ h < 2) then s.writeLock t h v else s

/-- The seen-cache entries in force whose EXPIRY is the present tick (R253). -/
def State.agedOut (s : State) : List SeenEntry :=
  (s.tbl.seen.filter fun e => s.inForce e.2.mark e.2.span && e.2.expiry = BitVec.ofNat 32 s.tick).map Prod.snd

/-- A key of the seen-cache has aged out (R80, R253), which is held on the target of a span about to commit (R82). -/
def State.ageOut (s : State) (seed : U64) (seq : BitVec 16) : State :=
  let o : Obj := ⟨.seen, seenKey seed.toNat seq.toNat⟩
  if s.decidedOn o then s.holdChange (.ageOut seed seq) else s.changed o none 3 0

/-- SEEN_AGE_OUT (R253): at the edge of their EXPIRY entries age out, a change under R80. -/
def State.seenAgeOut (s : State) : State := s.agedOut.foldl (fun (s : State) e => s.ageOut e.seed e.seq) s

/-- Apply a change that was held (R82). -/
def State.applyHeld (s : State) (w : HeldChange) : State :=
  match w with
  | .insert x => s.applyWait x
  | .ageOut seed seq => s.ageOut seed seq
  | .write d => s.tblWriteNow d

/-- Apply the changes held, in the order they came (R82). -/
def State.applyHeldAll (s : State) : State :=
  s.spanc.held.foldl (fun (s : State) w => s.applyHeld w) { s with spanc := { s.spanc with held := [] } }

/-- OVERFLOW_DRAIN (R240). -/
def State.overflowDrain (s : State) : State := s.drainOverflow

end Sys2Proof.Machine
end

