-- ==== Sys2Proof/Machine/Eth.lean ====
section
/-! DEFINITION. The Ethernet ports (R431 to R436): ingress, egress, ETH_SEND, their settings and the PTP path. -/

namespace Sys2Proof.Machine

/-- The VLAN tag of a frame is as ETH_CTRL(p).VID asks (R431): the frame without its tag. -/
def vlanStrip (vid : Nat) (bs : List Byte) : Option (List Byte) :=
  let tagged := beNat (slice bs 12 2) = 0x8100
  if vid = 0 then (if tagged then none else some bs)
  else if tagged ∧ beNat (slice bs 14 2) % 4096 = vid then some (bs.take 12 ++ bs.drop 16) else none

/-- The address filter (R432 step 1): ETH_MAC(p), broadcast or multicast. -/
def State.addressOk (s : State) (p : Nat) (bs : List Byte) : Bool :=
  bs.take 6 = s.ethMac p || decide ((bs.headD 0).toNat % 2 = 1)

/-- A management frame is bad (R433): its version, its length, its message or port, or its domain. `bs` has no tag. -/
def State.mgmtBad (s : State) (p : Nat) (bs : List Byte) : Bool :=
  let h := bs.drop 14
  let msg := beNat (slice h 1 1)
  let listed := (msg = 0x10 && p = 0) || (0x20 ≤ msg && msg ≤ 0x25 && decide (p = s.regFld Reg.UPD_CTRL 30 30)) || msg = 0x30 ||
    msg = 0x31
  h.length < 8 || h.headD 0 != 1 || decide (h.length < 8 + beNat (slice h 2 2)) || !listed ||
    (msg != 0x30 && beNat (slice h 4 2) != s.truss.truss.domainId.toNat)

/-- An IPv6 destination outside fe80::/10 and ff00::/8 (R432 step 4). -/
def ipForwarded (d : List Byte) : Bool :=
  let a := (ipDst d).toNat
  a / 2 ^ 118 != 0x3FA && a / 2 ^ 120 != 0xFF

/-- The EUI-64 of a MAC-48 (R257). -/
def widen (mac : List Byte) : U64 := BitVec.ofNat 64 (beNat (mac.take 3 ++ [0xFF, 0xFE] ++ (mac.drop 3).take 3))

/-- The check of R257, made of each frame received once its address is accepted: a frame whose source a radio node was
learned with is dropped. R432 names the check at step 4 only, R257 for each frame on arrival (DEDUCED, log 77). -/
def State.ethConflict (s : State) (p : Nat) (bs : List Byte) : Option State :=
  let mac := slice bs 6 6
  if !bit (BitVec.ofNat 8 s.tp.learnEn) 2 then none
  else match s.emLookup (widen mac) with
    | none => none
    | some e =>
      if !e.learned then none
      else
        let s1 := s.bump (Reg.TBL_CNT 10)
        let sec := s.now / 1000000000
        let n := if s1.tbl.ethSecond = sec then s1.tbl.ethCount else 0
        if n < s.regFld Reg.TBL_EVT_LIMIT 7 0 then
          some (post { s1 with tbl := { s1.tbl with ethSecond := sec, ethCount := n + 1 } } .warning 0x0B none 0
            (pw2 (beNat mac) ++ [pw p]))
        else some s1

/-- A frame with no reception of its own: what an Ethernet frame carries as metadata (R432). -/
def ethFrame (t : U64) (d : List Byte) : RxFrame := { id := 0, sfd := t.toNat, plain := d }

/-- Uplink stage 9 and on for a datagram from Ethernet (R432 step 4). -/
def State.ethRoute (s : State) (t : U64) (bs : List Byte) : State :=
  let d := bs.drop 14
  let n := 40 + beNat (slice d 4 2)
  let f := ethFrame t (d.take n)
  s.routeUp (d.take n) [f] f

/-- A frame to HOST_Q (R432 step 5). -/
def State.toHost (s : State) (p : Nat) (t : U64) (bs : List Byte) : State :=
  let q := s.regFld (Reg.ETH_CTRL p) 9 0
  let x := s.queue q
  if x.consumer ≠ 0 ∨ x.ring = 0xFF ∨ x.type = .rewind ∨ x.type = .disabled then s.bump (Reg.ETH_CNT p 2)
  else ((s.bump (Reg.ETH_CNT p 3)).enqueue q
    { len := bs.length, bytes := bs, rx := { w1 := pw t.toNat, w2 := pw (t.toNat / 2 ^ 32) } }).1

/-- The chip takes Ethernet frames other than management: not as a standby chip (Table 18-5). -/
def State.ethTakes (s : State) : Bool := !s.standingBy

/-- A frame that is not a management frame: PTP, uplink stage 9 or HOST_Q (R432 steps 3 to 5). -/
def State.ethClassify (s : State) (p : Nat) (t : U64) (bs : List Byte) : State :=
  let type := beNat (slice bs 12 2)
  if !s.ethTakes then s
  else if type = 0x88F7 && bit (s.reg (Reg.ETH_PTP p)) 31 then s.bump (Reg.ETH_CNT p 6)
  else if type = 0x86DD && bs.take 6 = s.ethMac p && ipForwarded (bs.drop 14) then s.ethRoute t bs
  else s.toHost p t bs

/-- Quanta of a PAUSE frame, when a frame is one (IEEE 802.3, PRESUMED, log 79). -/
def pauseQuanta (bs : List Byte) : Option Nat :=
  if bs.take 6 = [0x01, 0x80, 0xC2, 0, 0, 1] ∧ beNat (slice bs 12 2) = 0x8808 ∧ beNat (slice bs 14 2) = 1 then
    some (beNat (slice bs 16 2))
  else none

/-- ETH_FRAME_RX (R431, R432): a frame arrives on port `p` at ingress time `t`; `bs` runs from its destination to the
end of its payload, and `fcsOk` is its FCS check. -/
def State.ethFrameRx (s0 : State) (t : U64) (p : Nat) (bs : List Byte) (fcsOk : Bool) : State :=
  let s := s0.at_ t
  if !s.inStates stSAYML || !s.ethUp p then s
  else if !fcsOk || decide (bs.length < 60 ∨ 8192 < bs.length) then s.bump (Reg.ETH_CNT p 1)
  else
    let s1 := s.bump (Reg.ETH_CNT p 0)
    match (if bit (s.reg (Reg.ETH_CTRL p)) 28 then pauseQuanta bs else none) with
    | some n => s1.setEth p { s1.eth p with paused := decide (0 < n) }
    | none =>
      match vlanStrip (s.regFld (Reg.ETH_CTRL p) 27 16) bs with
      | none => s1.bump (Reg.ETH_CNT p 2)
      | some f =>
        if !s.addressOk p f then s1.bump (Reg.ETH_CNT p 2)
        else match s1.ethConflict p f with
          | some s2 => s2
          | none =>
            if beNat (slice f 12 2) = 0x88B5 then
              (if s.mgmtBad p f then s1.bump (Reg.ETH_CNT p 5) else s1.bump (Reg.ETH_CNT p 4))
            else s1.ethClassify p t f

/-- PTP_MESSAGE (R435): a PTP frame of a domain on port `p`. A Sync message that the servo accepts gives the master's
time minus DTIME and the rate the servo then asks for. -/
def State.ptpMessage (s0 : State) (t : U64) (p domain : Nat) (sync : Option (Int × Int)) : State :=
  let s := s0.at_ t
  if !bit (s.reg (Reg.ETH_PTP p)) 31 || p ≠ s.tp.ptpPort || domain ≠ s.regFld (Reg.ETH_PTP p) 23 16 || !s.ethUp p ||
      !s.ethTakes then s
  else match sync with
    | none => s
    | some (err, adj) => s.ptpSync err adj

/-! ### Egress -/

/-- The egress queues of a port, in ascending order. -/
def State.portQueues (s : State) (p : Nat) : List Nat :=
  (s.que.queues.filter fun e => e.2.type != .disabled && e.2.consumer = p + 2).map Prod.fst

/-- Items waiting in the egress queues of a port. -/
def State.portItems (s : State) (p : Nat) : Nat :=
  (s.portQueues p).foldl (fun n q => n + ((s.queue q).items.filter fun i => !i.gap).length) 0

/-- ETH_SEND (R434). -/
def State.ethSend (s : State) (d : Desc) : State :=
  s.command d [.structured, .active, .maintenance, .alarm] fun s =>
    let p := d.byte 8
    let o := (d.word 3).toNat
    let n := (d.word 4).toNat
    if !d.unlistedZero [8, 12, 13, 14, 15, 16, 17, 18, 19] || 1 < p then s.complete d .unsupported
    else if n < 14 ∨ 8192 < n ∨ !s.inWindow o n then s.complete d .length
    else if !s.ethUp p then s.complete d .timeout
    else
      let bs := s.readWin o n
      s.ethQueueOut p { bytes := bs ++ List.replicate (60 - n) 0, cmd := some d, ahead := s.portItems p }

/-- Egress queues are served in STRUCTURED and while the chip serves (Table 18-5, R280). -/
def State.egressOn (s : State) : Bool := s.sys.state = .structured || s.serving

/-- The egress queue that sends next: the lowest-numbered with an item. -/
def State.egressNext (s : State) (p : Nat) : Option Nat :=
  (s.portQueues p).find? fun q => (s.queue q).headItem.isSome

/-- Take the head item of an egress queue: the frame it makes, none for a next hop that is not in use (Table 11-5). -/
def State.egressTake (s0 : State) (p q : Nat) : State × Option (List Byte) :=
  if (s0.queue q).pointersBad then (s0.resetQueue post q, none)
  else
    let s := (s0.dropBroken q).skipGaps q 65536
    match s.takeHead q false with
    | (s1, none) => (s1, none)
    | (s1, some i) =>
      let nh := i.aux.toNat % 256
      if !bit (s1.reg (Reg.TBL_NH_HI nh)) 31 then (s1, none)
      else (s1, some (s1.ethOwn p (macOctets (s1.reg (Reg.TBL_NH_LO nh)) (s1.reg (Reg.TBL_NH_HI nh))) 0x86DD i.bytes))

/-- A frame has left the MAC: no frame is shorter than 60 octets before its FCS (R431). -/
def State.ethLeaves (s : State) (p : Nat) (bs : List Byte) : State :=
  (s.emit (.ethFrame p (bs ++ List.replicate (60 - bs.length) 0))).bump (Reg.ETH_CNT p 7)

/-- One item fewer goes before the frames that wait behind the egress queues. -/
def EthPort.oneGone (x : EthPort) : EthPort := { x with out := x.out.map fun (o : EthOut) => { o with ahead := o.ahead - 1 } }

/-- ETHERNET_EGRESS (R274, R434): the port sends its next frame, one handed to it or the head of an egress queue. -/
def State.ethernetEgress (s : State) (p : Nat) : State :=
  if !s.ethUp p || (s.eth p).paused then s
  else
    let q := if s.egressOn then s.egressNext p else none
    match (s.eth p).out, q with
    | o :: rest, none =>
      let s1 := (s.setEth p { s.eth p with out := rest }).ethLeaves p o.bytes
      (match o.cmd with
        | some d => s1.complete d .ok
        | none => s1)
    | o :: rest, some q =>
      if o.ahead = 0 then
        let s1 := (s.setEth p { s.eth p with out := rest }).ethLeaves p o.bytes
        (match o.cmd with
          | some d => s1.complete d .ok
          | none => s1)
      else
        let s1 := s.setEth p (s.eth p).oneGone
        (match s1.egressTake p q with
          | (s2, some f) => s2.ethLeaves p f
          | (s2, none) => s2)
    | [], some q => match s.egressTake p q with
      | (s2, some f) => s2.ethLeaves p f
      | (s2, none) => s2
    | [], none => s

/-- PAUSE_QUANTA_EXPIRY (R431). -/
def State.pauseQuantaExpiry (s : State) (p : Nat) : State := s.setEth p { s.eth p with paused := false }

/-- ETH_LINK_CHANGE (R431): the link of port `p` comes up at a speed, or goes down. -/
def State.ethLinkChange (s : State) (p : Nat) (up : Bool) (speed : Nat) : State :=
  let on := up && bit (s.reg (Reg.ETH_CTRL p)) 31 && s.sys.state != .reset && s.sys.state != .fault
  let x := s.eth p
  let s1 := s.setEth p { x with link := on, speed := if on then speed % 4 else x.speed, paused := x.paused && on }
  if x.link = on then s1 else s1.raise (20 + p)

/-- ETH_CTRL_WRITE (R436): a write to ETH_CTRL(p), or to ETH_PTP(p) when `ptp`. A change of MODE or EN restarts the
link. -/
def State.ethCtrlWrite (s : State) (p : Nat) (ptp : Bool) (v : Word) : State :=
  if !s.takesWrites || 1 < p then s
  else if ptp then s.setReg (Reg.ETH_PTP p) (v &&& 0xC0FF0000)
  else if bits v 30 29 = 3 ∨ bits v 27 16 = 0xFFF then s.notice 0x16
  else
    let old := s.reg (Reg.ETH_CTRL p)
    let s1 := s.setReg (Reg.ETH_CTRL p) (v &&& 0xFFFF03FF)
    if bits old 31 29 = bits v 31 29 then s1 else s1.ethLinkChange p false 0

end Sys2Proof.Machine
end

