-- ==== Sys2Proof/Machine/ExecEth.lean ====
section
/-! DEFINITION. The meanings of the commands of the Ethernet ports: one definition per command, over the shared operations.
The manual gives each an effect in every state, so each answers a next state. -/

namespace Sys2Proof.Machine

/-- ETH_FRAME_RX (R431, R432): a frame arrives on port `p` at ingress time `t`; `bs` runs from its destination to the
end of its payload, and `fcsOk` is its FCS check. -/
def execEthFrameRx (t : U64) (p : Nat) (bs : List Byte) (fcsOk : Bool)
    (s : State) : Host.Outcome State Fault Refusal :=
  .next (s.ethFrameRx t p bs fcsOk)

/-- ETH_SEND (R434). -/
def execEthSend (d : Desc) (s : State) : Host.Outcome State Fault Refusal :=
  .next (s.ethSend d)

/-- ETH_LINK_CHANGE (R431): the link of port `p` comes up at a speed, or goes down. -/
def execEthLinkChange (p : Nat) (up : Bool) (speed : Nat) (s : State) : Host.Outcome State Fault Refusal :=
  .next (s.ethLinkChange p up speed)

/-- ETH_CTRL_WRITE (R436): a write to ETH_CTRL(p), or to ETH_PTP(p) when `ptp`. A change of MODE or EN restarts the
link. -/
def execEthCtrlWrite (p : Nat) (ptp : Bool) (v : Word) (s : State) : Host.Outcome State Fault Refusal :=
  .next (s.ethCtrlWrite p ptp v)

/-- ETHERNET_EGRESS (R274, R434): the port sends its next frame, one handed to it or the head of an egress queue. -/
def execEthernetEgress (p : Nat) (s : State) : Host.Outcome State Fault Refusal :=
  .next (s.ethernetEgress p)

/-- PAUSE_QUANTA_EXPIRY (R431). -/
def execPauseQuantaExpiry (p : Nat) (s : State) : Host.Outcome State Fault Refusal :=
  .next (s.pauseQuantaExpiry p)

end Sys2Proof.Machine
end

