-- ==== Sys2Proof/Machine/Image.lean ====
section
/-! DEFINITION. The boot flash and what it holds: loader and firmware images (R345, R346), the bank record (R374), the
settings copies (R375), and the blocks, manifest and stream of an update (R361 to R364, R373). -/

namespace Sys2Proof.Machine

/-! ### The flash -/

/-- `n` octets of the boot flash from an offset; an octet never programmed reads 0xFF, the erased value. -/
def State.flashRead (s : State) (o n : Nat) : List Byte := (List.range n).map fun i => aget 0xFF s.flash (o + i)

/-- Program octets of the flash. -/
def flashPut (f : List Host.Cell) (o : Nat) (bs : List Byte) : List Host.Cell :=
  match bs with
  | [] => f
  | b :: r => flashPut (aset 0xFF f o b) (o + 1) r

/-- Erase `n` octets of the flash. -/
def flashErase (f : List Host.Cell) (o n : Nat) : List Host.Cell := f.filter fun e => !(o ≤ e.1 && e.1 < o + n)

/-- The flash's canonical form: offsets rise strictly and no listed octet is 0xFF. -/
def Flash.wf (f : List Host.Cell) : Bool := canonical (0xFF : Byte) f

/-- Write octets of the flash. -/
def State.flashWrite (s : State) (o : Nat) (bs : List Byte) : State := { s with flash := flashPut s.flash o bs }

/-- Offset of a bank (Table 16-1). -/
def bankBase (b : Nat) : Nat := 0x400000 + 0x1E00000 * (b % 2)

/-- Offset of a bank's truss in it. -/
def bankTruss : Nat := 0x1C00000

/-- Offset of a loader copy. -/
def loaderBase (n : Nat) : Nat := 0x80000 * n

/-- Offset of a settings copy. -/
def settingsBase (n : Nat) : Nat := 0x200000 + 0x100000 * (n % 2)

/-! ### Images (R346) -/

/-- The header of an image (Table 16-2). -/
structure ImageHdr where
  version : Word := 0
  length : Nat := 0
  ccOff : Nat := 0
  ccLen : Nat := 0
  scOff : Nat := 0
  scLen : Nat := 0
  deriving DecidableEq, Repr, Inhabited

/-- Read an image's header. -/
def readHdr (bs : List Byte) : ImageHdr :=
  { version := BitVec.ofNat 32 (leAt bs 8 4), length := leAt bs 12 4, ccOff := leAt bs 16 4, ccLen := leAt bs 20 4,
    scOff := leAt bs 24 4, scLen := leAt bs 28 4 }

/-- A code section lies within octets 0x80 to LENGTH − 65; one of no octets lies anywhere. -/
def ImageHdr.holds (h : ImageHdr) (o n : Nat) : Bool := n = 0 || decide (0x80 ≤ o ∧ o + n + 64 ≤ h.length)

/-- Why an image is not valid, as BOOT_BANK_FAIL.REASON: 1 header, 2 length, 3 key, 4 signature. TYPE is 1 for a loader and
2 for firmware. -/
def imageFault (keyHash : List Byte) (type : Nat) (bs : List Byte) : Option Nat :=
  let h := readHdr bs
  if leAt bs 0 4 ≠ 0x7A496D67 ∨ leAt bs 4 1 ≠ type ∨ leAt bs 5 1 ≠ 1 ∨ leAt bs 6 2 ≠ 0 ∨ leAt bs 0x24 28 ≠ 0 then some 1
  else if (if type = 1 then 458752 else 29360128) < h.length ∨ h.length < 0xC0 ∨
      !(if type = 1 then h.scLen = 0 else decide (1 ≤ h.scLen ∧ h.scLen ≤ 262144)) ∨
      !h.holds h.ccOff h.ccLen ∨ !h.holds h.scOff h.scLen then some 2
  else if Config.sha256 (slice bs 0x40 64) ≠ keyHash then some 3
  else if !Config.p256Verify (slice bs 0x40 64) (bs.take (h.length - 64)) (slice bs (h.length - 64) 64) then some 4
  else none

/-- The octets of an image at a flash offset: its header first, which gives its length, up to a limit. -/
def State.flashImage (s : State) (o limit : Nat) : List Byte :=
  let h := s.flashRead o 0x40
  s.flashRead o (if leAt h 0 4 = 0x7A496D67 then max 0xC0 (min limit (readHdr h).length) else 0xC0)

/-- The firmware image of a bank. -/
def State.bankFw (s : State) (b : Nat) : List Byte := s.flashImage (bankBase b) 29360128

/-- The truss of a bank. -/
def State.bankTrussBytes (s : State) (b : Nat) : List Byte :=
  let o := bankBase b + bankTruss
  s.flashRead o (max 0xB8 (min 262144 (leAt (s.flashRead o 0x10) 8 4)))

/-! ### The bank record (R374) -/

/-- A bank record (Table 17-6). -/
structure BankRec where
  seq : Nat := 0
  preferred : Nat := 0
  trial : Bool := false
  resident : Bool := false
  fellBack : Bool := false
  fallback : Nat := 0
  settings : Nat := 0
  fbSettings : Nat := 0
  imageId : Word := 0
  deriving DecidableEq, Repr, Inhabited

/-- The 64 octets of a bank record. -/
def BankRec.bytes (r : BankRec) : List Byte :=
  let b := leBytes 0x7A426E6B 4 ++ leBytes r.seq 4 ++
    [BitVec.ofNat 8 r.preferred, BitVec.ofNat 8 (b2n r.trial + 2 * b2n r.resident + 4 * b2n r.fellBack),
     BitVec.ofNat 8 r.fallback, BitVec.ofNat 8 r.settings, BitVec.ofNat 8 r.fbSettings, 0, 0, 0] ++
    leBytes r.imageId.toNat 4 ++ List.replicate 40 0
  b ++ leBytes (crc 2 b).toNat 4

/-- Read a bank record, when it is valid. -/
def readBankRec (bs : List Byte) : Option BankRec :=
  if leAt bs 0 4 = 0x7A426E6B ∧ leAt bs 0x3C 4 = (crc 2 (slice bs 0 0x3C)).toNat then
    some { seq := leAt bs 4 4, preferred := leAt bs 8 1 % 2, trial := leAt bs 9 1 % 2 = 1, resident := leAt bs 9 1 / 2 % 2 = 1,
           fellBack := leAt bs 9 1 / 4 % 2 = 1, fallback := leAt bs 0x0A 1 % 2, settings := leAt bs 0x0B 1 % 2,
           fbSettings := leAt bs 0x0C 1 % 2, imageId := BitVec.ofNat 32 (leAt bs 0x10 4) }
  else none

/-- SEQ `a` is newer than SEQ `b`. -/
def seqNewer (a b : Nat) : Bool := let d := (a + 2 ^ 32 - b % 2 ^ 32) % 2 ^ 32; decide (1 ≤ d ∧ d < 2 ^ 31)

/-- The record in force and its place, 0 or 1 (R374). -/
def State.bankRecAt (s : State) : Option (BankRec × Nat) :=
  match readBankRec (s.flashRead 0x100000 64), readBankRec (s.flashRead 0x108000 64) with
  | some a, some b => if seqNewer b.seq a.seq then some (b, 1) else some (a, 0)
  | some a, none => some (a, 0)
  | none, some b => some (b, 1)
  | none, none => none

/-- The record in force; one of defaults when none is valid. -/
def State.bankRec (s : State) : BankRec :=
  match s.bankRecAt with
  | some r => r.1
  | none => {}

/-- Write a record to the place not in force, with SEQ + 1. -/
def State.writeBankRec (s : State) (r : BankRec) : State :=
  match s.bankRecAt with
  | some (old, n) =>
    s.flashWrite (0x100000 + 0x8000 * (1 - n)) { r with seq := (old.seq + 1) % 2 ^ 32 }.bytes
  | none => s.flashWrite 0x100000 { r with seq := 1 }.bytes

/-- The record that ends a trial on the previous bank (R378, R379). -/
def BankRec.fallBack (r : BankRec) : BankRec :=
  { r with preferred := r.fallback, settings := r.fbSettings, trial := false, fellBack := true }

/-! ### Settings (R375) -/

/-- The octets of a settings copy. -/
def State.settingsBytes (s : State) (n : Nat) : List Byte :=
  let o := settingsBase n
  let h := s.flashRead o 16
  s.flashRead o (if leAt h 0 4 = 0x7A536574 then max 16 (min 0x100000 (leAt h 8 4)) else 16)

/-- A settings copy passes its checks. -/
def settingsOk (bs : List Byte) : Bool :=
  let n := leAt bs 8 4
  leAt bs 0 4 = 0x7A536574 && leAt bs 6 2 = 0 && decide (16 ≤ n ∧ n ≤ 0x100000) &&
    leAt bs (n - 4) 4 = (crc 2 (slice bs 0 (n - 4))).toNat

/-! ### Blocks and manifest (R361, R362) -/

/-- MB for DB data blocks. -/
def manifestBlocks (db : Nat) : Nat := ceilDiv (384 + 32 * db) 4096

/-- The octets of a block from its fields (Table 17-1). -/
def blockBytes (imageId : Word) (index len : Nat) (payload : List Byte) : List Byte :=
  let b := leBytes 0x7A56426B 4 ++ leBytes imageId.toNat 4 ++ leBytes index 4 ++ leBytes len 2 ++ leBytes 0 2 ++
    slice payload 0 4096
  b ++ leBytes (crc 2 b).toNat 4

/-- A manifest (Table 17-2). -/
structure Manifest where
  encrypted : Bool := false
  full : Bool := false
  imageId : Word := 0
  newVersion : Word := 0
  db : Nat := 0
  streamLen : Nat := 0
  settingsMin : Nat := 0
  settingsMax : Nat := 0
  baseFw : List Byte := []
  baseTruss : List Byte := []
  targetFw : List Byte := []
  targetTruss : List Byte := []
  wrapped : List Byte := []
  deriving DecidableEq, Repr, Inhabited

/-- Read a manifest. -/
def readManifest (bs : List Byte) : Manifest :=
  { encrypted := leAt bs 6 1 % 2 = 1, full := leAt bs 6 1 / 2 % 2 = 1, imageId := BitVec.ofNat 32 (leAt bs 8 4),
    newVersion := BitVec.ofNat 32 (leAt bs 0x0C 4), db := leAt bs 0x10 4, streamLen := leAt bs 0x14 4,
    settingsMin := leAt bs 0x18 2, settingsMax := leAt bs 0x1A 2, baseFw := slice bs 0x20 32, baseTruss := slice bs 0x40 32,
    targetFw := slice bs 0x60 32, targetTruss := slice bs 0x80 32, wrapped := slice bs 0xA0 40 }

/-- Plain octets a full data block carries (R364). -/
def Manifest.perBlock (m : Manifest) : Nat := if m.encrypted then 4080 else 4096

/-- LEN of data block `i`. -/
def Manifest.dataLen (m : Manifest) (i : Nat) : Nat :=
  if i + 1 < m.db then 4096 else m.streamLen - (m.db - 1) * m.perBlock + (if m.encrypted then 16 else 0)

/-- LEN of block `i`. -/
def Manifest.blockLen (m : Manifest) (i : Nat) : Nat :=
  let mb := manifestBlocks m.db
  if i < mb then (if i + 1 < mb then 4096 else 384 + 32 * m.db - 4096 * (mb - 1)) else m.dataLen (i - mb)

/-- A manifest of `mb` blocks passes R362: its format, then its key and signature. -/
def manifestCheck (keyHash : List Byte) (mb : Nat) (bs : List Byte) : Except Status Manifest :=
  let m := readManifest bs
  let zero (l : List Byte) : Bool := l.all (· = 0)
  let sig := 0x140 + 32 * m.db
  if leAt bs 0 4 ≠ 0x7A4D6E66 ∨ leAt bs 4 2 ≠ 1 ∨ 4 ≤ leAt bs 6 1 ∨ leAt bs 7 1 ≠ 0 ∨ m.imageId = 0 ∨ leAt bs 0x1C 4 ≠ 0 ∨
      leAt bs 0xC8 56 ≠ 0 ∨ m.db < 1 ∨ 7936 < m.db ∨ manifestBlocks m.db ≠ mb ∨
      m.db * m.perBlock < m.streamLen ∨ m.streamLen ≤ (m.db - 1) * m.perBlock ∨
      (m.full ∧ !(zero m.baseFw && zero m.baseTruss)) ∨ (!m.encrypted ∧ !zero m.wrapped) then .error .unsupported
  else if Config.sha256 (slice bs 0x100 64) ≠ keyHash ∨
      !Config.p256Verify (slice bs 0x100 64) (slice bs 0 sig) (slice bs sig 64) then .error .authFail
  else .ok m

/-- The manifest as it is staged: its blocks lie one after another from the staging base (R366). -/
def State.stagedManifest (s : State) (base mb : Nat) : List Byte := s.readMem base (4096 * mb)

/-- The payload of a staged block. -/
def State.stagedPayload (s : State) (base mb i : Nat) : List Byte :=
  s.readMem (if i < mb then base + 4096 * i else base + 0x100000 + 4096 * (i - mb)) 4096

/-- HASH[i] of a staged manifest. -/
def manifestHash (bs : List Byte) (i : Nat) : List Byte := slice bs (0x140 + 32 * i) 32

/-! ### The stream (R363, R364) -/

/-- One data block's part of the stream, its tag checked when the image is encrypted. -/
def streamPart (m : Manifest) (key : List Byte) (i : Nat) (payload : List Byte) : Option (List Byte) :=
  let mb := manifestBlocks m.db
  let n := m.dataLen i
  if !m.encrypted then some (slice payload 0 n)
  else
    let hdr := slice (blockBytes m.imageId (mb + i) n payload) 0 16
    Config.gcmOpen key (beBytes m.imageId.toNat 4 ++ beBytes (mb + i) 4 ++ [0, 0, 0, 0]) hdr (slice payload 0 (n - 16))
      (slice payload (n - 16) 16)

/-- The plaintext stream of a staged session up to the first block whose tag fails, and whether none does. -/
def State.streamFrom (s : State) (base : Nat) (m : Manifest) (key : List Byte) (i fuel : Nat) : List Byte × Bool :=
  match fuel with
  | 0 => ([], true)
  | k + 1 =>
    let mb := manifestBlocks m.db
    match streamPart m key i (s.stagedPayload base mb (mb + i)) with
    | none => ([], false)
    | some p =>
      let r := s.streamFrom base m key (i + 1) k
      (p ++ r.1, r.2)

/-- The plaintext stream of a staged session. -/
def State.stagedStream (s : State) (base : Nat) (m : Manifest) (key : List Byte) : List Byte × Bool :=
  s.streamFrom base m key 0 m.db

/-- What a stream builds: the firmware and the truss. -/
structure Built where
  fw : List Byte := []
  truss : List Byte := []
  deriving DecidableEq, Repr, Inhabited

/-- Apply the records of a stream (Table 17-3): what it has built, and whether it kept R363 to its END. `phase` is 1 in
the firmware records, 2 in the truss records. -/
def applyStream (baseFw baseTruss : List Byte) (full : Bool) (fuel : Nat) (bs : List Byte) (phase : Nat) (b : Built) :
    Built × Bool :=
  match fuel with
  | 0 => (b, false)
  | k + 1 =>
    let op := leAt bs 0 1
    let part := leAt bs 1 1
    let len := leAt bs 4 4
    let src := leAt bs 8 4
    let base := if part = 1 then baseFw else baseTruss
    let put (d : List Byte) : Built := if part = 1 then { b with fw := b.fw ++ d } else { b with truss := b.truss ++ d }
    if bs.length < 12 ∨ leAt bs 2 2 ≠ 0 then (b, false)
    else if op = 3 then (b, decide (part = 0 ∧ len = 0 ∧ src = 0 ∧ bs.length = 12))
    else if (part ≠ 1 ∧ part ≠ 2) ∨ part < phase ∨ len < 1 ∨ 29360128 < len ∨
        (if part = 1 then 29360128 < b.fw.length + len else 262144 < b.truss.length + len) then (b, false)
    else if op = 1 then
      if full ∨ base.length < src + len then (b, false)
      else applyStream baseFw baseTruss full k (bs.drop 12) part (put (slice base src len))
    else if op = 2 then
      let pad := (4 - len % 4) % 4
      if src ≠ 0 ∨ bs.length < 12 + len + pad ∨ !((slice bs (12 + len) pad).all (· = 0)) then (b, false)
      else applyStream baseFw baseTruss full k (bs.drop (12 + len + pad)) part (put (slice bs 12 len))
    else (b, false)

/-- Build a stream. -/
def buildStream (baseFw baseTruss : List Byte) (full : Bool) (bs : List Byte) : Built × Bool :=
  applyStream baseFw baseTruss full (bs.length + 1) bs 1 {}

/-- The checks of R373 on what has been built: the statuses of Table 17-8. -/
def builtCheck (s : State) (m : Manifest) (fw truss : List Byte) : Except Status Truss :=
  if Config.sha256 (fw.take (readHdr fw).length) ≠ m.targetFw ∨ Config.sha256 (truss.take (leAt truss 8 4)) ≠ m.targetTruss then
    .error .integrity
  else if (imageFault s.key.oemKeyHash 2 fw).isSome then .error .authFail
  else match verifyTruss s truss with
    | .error r => .error r.reason.status
    | .ok t => .ok t

/-- The image key of an encrypted session (R364): WRAPPED_KEY unwrapped under a slot, under checks 1, 2 and 4 of R295. -/
def State.imageKey (s : State) (slot : Nat) (m : Manifest) : Except Status (List Byte) :=
  if !m.encrypted then .ok []
  else if !s.usable slot then .error .keyRevoked
  else if usage (s.slot slot).attr ≠ 2 then .error .keyAttr
  else match Config.aesKwUnwrap (s.slot slot).key m.wrapped with
    | none => .error .authFail
    | some k => .ok k

end Sys2Proof.Machine
end

