-- ==== Sys2Proof/Machine/Evr.lean ====
section
/-! DEFINITION. The commands of the event recorder (R409 to R413). -/

namespace Sys2Proof.Machine

/-- Merge two lists of records, each in SEQ order. -/
def mergeRecs (fuel : Nat) (a b : List Rec) : List Rec :=
  match fuel with
  | 0 => []
  | k + 1 => match a, b with
    | [], b => b
    | a, [] => a
    | x :: a', y :: b' => if seqNewer x.seq.toNat y.seq.toNat then y :: mergeRecs k (x :: a') b' else x :: mergeRecs k a' (y :: b')

/-- The records of both areas, in SEQ order. -/
def EvrSt.all (e : EvrSt) : List Rec := mergeRecs (e.general.length + e.reserved.length + 1) e.general e.reserved

/-- The records that fit whole in `n` octets, from the first on. -/
def fitRecs (l : List Rec) (n : Nat) : List Rec :=
  match l with
  | [] => []
  | r :: rest => if r.bytes ≤ n then r :: fitRecs rest (n - r.bytes) else []

/-- EVR_READ (R409). -/
def State.evrRead (s : State) (d : Desc) : State :=
  s.command d stSAYML fun s =>
    let from_ := (d.word 2).toNat
    let o := (d.word 3).toNat
    let n := (d.word 4).toNat
    let l := s.evr.all.filter fun r => r.seq.toNat = from_ || seqNewer r.seq.toNat from_
    let got := fitRecs l n
    let next := match l.drop got.length with
      | r :: _ => r.seq
      | [] => s.evr.next
    if !d.unlistedZero [8, 9, 10, 11, 12, 13, 14, 15, 16, 17, 18, 19] then s.complete d .unsupported
    else if !s.inWindow o n || o % 4 ≠ 0 || (got.isEmpty && !l.isEmpty) then
      s.complete d .length (b8 := match l.head? with
        | some r => r.seq
        | none => s.evr.next)
    else (s.writeWin o (got.flatMap fun r => ofWords r.words)).complete d .ok (b4 := pw got.length) (b8 := next)

/-- EVR_WRITE (R411). -/
def State.evrWrite (s : State) (d : Desc) : State :=
  s.command d stSAYML fun s =>
    let o := (d.word 3).toNat
    let n := d.half 16
    let sev : Option Sev := match d.byte 8 with
      | 0 => some .trace
      | 1 => some .info
      | 2 => some .notice
      | 3 => some .warning
      | 4 => some .error
      | _ => none
    match sev with
    | none => s.complete d .unsupported
    | some v =>
      if !d.unlistedZero [8, 9, 12, 13, 14, 15, 16, 17] then s.complete d .unsupported
      else if n % 4 ≠ 0 ∨ 1008 < n ∨ !s.inWindow o n then s.complete d .length
      else match s.postAsk v 0x7F none (d.byte 9) (toWords (s.readWin o n)) with
        | (s1, true) => s1.complete d .ok (b4 := s.evr.next)
        | (s1, false) => s1.complete d .noRoom

/-- A clear token (Table 19-3) that is valid (R412). -/
def State.clearTokenOk (s : State) (t : List Byte) : Bool :=
  leAt t 0 4 = 0x7A436C72 && leAt t 4 4 = 0 && leAt t 8 8 = s.key.uid.toNat && leAt t 0x10 4 = s.regFld Reg.EVR_STATUS 15 0 &&
    leAt t 0x14 12 = 0 && Config.sha256 (slice t 0x20 64) = s.key.oemKeyHash &&
    Config.p256Verify (slice t 0x20 64) (slice t 0 0x60) (slice t 0x60 64)

/-- EVR_CLEAR (R412, R413). When the log holds no record, the manual does not state the first and last SEQ removed. -/
def State.evrClear (s : State) (d : Desc) : State :=
  s.command d stSAYML fun s =>
    let o := (d.word 2).toNat
    if !d.unlistedZero [8, 9, 10, 11] then s.complete d .unsupported
    else if !s.inWindow o 160 || o % 4 ≠ 0 then s.complete d .length
    else if !s.clearTokenOk (s.readWin o 160) then s.complete d .authFail
    else
      let l := s.evr.all
      let (s0, first) := match l.head? with
        | some r => (s, r.seq)
        | none => (s.nextFree, Config.freeWord s.free)
      let last := if l.isEmpty then first else s.evr.newest
      let drops := (List.range 8).map fun v => s.reg (Reg.EVR_DROP v)
      let clears := s.regFld Reg.EVR_STATUS 15 0
      let s1 := { s0 with evr := { s0.evr with general := [], reserved := [], rsvFull := false } }
      let s2 := (s1.postAsk .audit 0x14 none 1 ([first, last, pw clears] ++ drops)).1
      let s3 := (List.range 8).foldl (fun (s : State) v => s.setReg (Reg.EVR_DROP v) 0) s2
      (s3.setFld Reg.EVR_STATUS 15 0 ((clears + 1) % 65536)).complete d .ok

end Sys2Proof.Machine
end

