-- ==== Sys2Proof/Machine/Viaduct.lean ====
section
/-! DEFINITION. The field update along the viaduct: sessions, blocks, the downstream feed, and the build of an image
(R361 to R373, R381). -/

namespace Sys2Proof.Machine

/-- Change the update engine's state. -/
def State.setUpd (s : State) (f : UpdSt → UpdSt) : State := { s with upd := f s.upd }

/-- The base of the update-staging partition (R366). -/
def State.stagingBase (s : State) : Nat := s.tp.staging.base

/-- The settings of UPD_CTRL and UPD_CHAIN_CFG as a session takes them (R382). -/
def State.updCfg (s : State) : UpdCfg :=
  { port := s.regFld Reg.UPD_CTRL 30 30, rq := s.regFld Reg.UPD_CTRL 21 12, wrapSlot := s.regFld Reg.UPD_CTRL 11 0,
    hopTimeout := s.regFld Reg.UPD_CHAIN_CFG 31 16, retx := s.regFld Reg.UPD_CHAIN_CFG 15 0 }

/-- Milliseconds of DTIME since an instant. -/
def State.msSince (s : State) (t : Nat) : Nat := (s.time.elapsed - t) / 1000000

/-- Send a viaduct message (Table 17-4). -/
def State.sendVia (s : State) (dst : List Byte) (msg : Nat) (fields : List (List Byte)) : State :=
  s.sendMgmt s.upd.cfg.port dst msg (Config.viaductBody msg (leBytes s.upd.imageId.toNat 4 :: fields))

/-- Report the status of the chain entry that has `left` entries from itself to the end of the chain (R369, R370): the
head notes it in UPD_HOP, and any other hop sends it a REPORT. -/
def State.reportHop (s : State) (left : Nat) (st : Status) : State :=
  if s.upd.head then
    let n := s.upd.chainAt - left
    if n < 64 then (s.setFld (Reg.UPD_HOP n) 31 24 st.code).setFld (Reg.UPD_HOP n) 23 23 1 else s
  else s.sendVia s.upd.headMac 0x25 [leBytes left 1, [BitVec.ofNat 8 st.code]]

/-! ### The downstream feed (R368, R369) -/

/-- Empty the rewind queue of the feed. -/
def State.clearFeed (s : State) : State :=
  let q := s.upd.cfg.rq
  let x := s.queue q
  if x.type = .rewind && x.consumer = 1 then s.setQueue q { x with items := [], read := 0, mark := 0, readMax := 0 } else s

/-- The octets of a chain entry. -/
def HopEntry.bytes (e : HopEntry) : List Byte := slice e.mac 0 6 ++ [BitVec.ofNat 8 e.brId, BitVec.ofNat 8 e.flags]

/-- Forwarding has ended: a session that waited for it goes on to its verification, or has failed already. -/
def State.endForward (s : State) : State :=
  (s.clearFeed).setUpd fun u => { u with
    down := .none,
    session := if u.session = .forwarding then (if u.buildDone then .verifying else .failed) else u.session }

/-- Offer the session to the next chain entry, or end the forwarding when none remains. -/
def State.offerNext (s : State) : State :=
  match s.upd.chain with
  | [] => s.endForward
  | e :: _ =>
    let u := s.upd
    (s.setUpd fun u => { u with down := .offered, nextDown := 0, sendNext := 0, sentTo := 0, downSince := s.time.elapsed }).sendVia
      e.mac 0x20 ([leBytes u.total 4, leBytes u.mb 4, slice u.headMac 0 6, leBytes u.chain.length 1] ++ u.chain.map HopEntry.bytes)

/-- Skip the downstream neighbour (R369). -/
def State.skipHop (s : State) (st : Status) : State :=
  match s.upd.chain with
  | [] => s
  | e :: rest =>
    let s1 := ((s.reportHop s.upd.chain.length st).bump (Reg.UPD_CNT 6)).clearFeed
    let s2 := post s1 .warning 0x12 none 0 [pw e.brId]
    (s2.setUpd fun u => { u with chain := rest }).offerNext

/-- A message comes from the downstream neighbour, about the session. -/
def State.fromDown (s : State) (mac : List Byte) (id : Word) : Bool :=
  match s.upd.chain with
  | [] => false
  | e :: _ => e.mac = mac && id = s.upd.imageId && s.upd.down != .none

/-- Blocks are outstanding: sent and not confirmed. -/
def UpdSt.outstanding (u : UpdSt) : Bool := u.down = .feeding && decide (u.nextDown < u.sentTo)

/-- ACCEPT (R368). -/
def State.viaAccept (s0 : State) (t : U64) (mac : List Byte) (id : Word) (next : Nat) : State :=
  let s := s0.at_ t
  if !s.fromDown mac id || s.upd.total < next then s
  else
    let s1 := s.clearFeed.setUpd fun u => { u with
      down := .feeding, nextDown := next, sendNext := next, sentTo := next, downSince := s.time.elapsed, retxAt := s.time.elapsed }
    if next = s.upd.total then s1.endForward else s1

/-- REFUSE (R369). -/
def State.viaRefuse (s0 : State) (t : U64) (mac : List Byte) (id : Word) (reason : Nat) : State :=
  let s := s0.at_ t
  if s.fromDown mac id && s.upd.down = .offered then
    (s.bump (Reg.UPD_CNT 7)).skipHop (if reason = 3 then .noRoom else .state)
  else s

/-- The octets of a staged block, its header and BLOCK_CRC rebuilt (R368). -/
def State.rebuildBlock (s : State) (i : Nat) : List Byte :=
  let m := readManifest s.upd.man
  blockBytes s.upd.imageId i (m.blockLen i) (s.stagedPayload s.stagingBase s.upd.mb i)

/-- VIADUCT_BLOCK_SEND (R368): the next block goes through the rewind queue to the neighbour. -/
def State.viaBlockSend (s0 : State) (t : U64) : State :=
  let s := s0.at_ t
  let u := s.upd
  let q := u.cfg.rq
  let i := u.sendNext
  let x := s.queue q
  if u.down ≠ .feeding ∨ u.next ≤ i ∨ u.nextDown + 64 ≤ i ∨ x.type ≠ .rewind ∨ x.consumer ≠ 1 ∨ !u.manifestOk then s
  else if x.pointersBad then (s.resetQueue post q).setUpd fun u => { u with sendNext := u.nextDown }
  else
    let bs := s.rebuildBlock i
    let k := i - u.nextDown
    let (s1, ok) :=
      if k < x.items.length then (s.setQueue q { x with read := k }, true)
      else if x.items.length < k then (s, false)
      else match s.enqueue q { len := bs.length, bytes := bs } with
        | (s1, some _) => (s1, true)
        | (s1, none) => (s1, false)
    if !ok then (if x.items.length < k then s1.setUpd fun u => { u with sendNext := u.nextDown } else s1)
    else
      let s2 := (s1.takeHead q false).1
      let fresh := !u.outstanding
      let s3 := s2.setUpd fun u => { u with
        sendNext := i + 1, sentTo := max u.sentTo (i + 1), downSince := if fresh then s.time.elapsed else u.downSince,
        retxAt := if fresh then s.time.elapsed else u.retxAt }
      match u.chain with
      | [] => s3
      | e :: _ => (s3.bump (Reg.UPD_CNT 4)).sendVia e.mac 0x23 [bs]

/-- ACK (R368). -/
def State.viaAck (s0 : State) (t : U64) (mac : List Byte) (id : Word) (next : Nat) : State :=
  let s := s0.at_ t
  let u := s.upd
  if !s.fromDown mac id || u.down ≠ .feeding || decide (next ≤ u.nextDown ∨ u.sentTo < next) then s
  else
    let q := u.cfg.rq
    let x := s.queue q
    let k := min (next - u.nextDown) x.items.length
    let s1 := (s.bumpBy (Reg.QUE_CNT 6) 31 k).setQueue q
      { x with items := x.items.drop k, read := x.read - k, mark := 0, readMax := x.readMax - k }
    let s2 := s1.setUpd fun u => { u with
      nextDown := next, sendNext := max u.sendNext next, downSince := s.time.elapsed, retxAt := s.time.elapsed }
    if next = u.total then s2.endForward else s2

/-- VIADUCT_RETRANSMIT (R368). -/
def State.viaRetransmit (s0 : State) (t : U64) : State :=
  let s := s0.at_ t
  let u := s.upd
  if !u.outstanding || decide (s.msSince u.retxAt < u.cfg.retx) then s
  else
    (((s.rewindQueue u.cfg.rq).bump (Reg.UPD_CNT 5))).setUpd fun u => { u with sendNext := u.nextDown, retxAt := s.time.elapsed }

/-- HOP_SKIP (R369): no answer to an OFFER, or no progress, for HOP_TIMEOUT. -/
def State.hopSkip (s0 : State) (t : U64) : State :=
  let s := s0.at_ t
  let u := s.upd
  if (u.down = .offered || u.outstanding) && decide (u.cfg.hopTimeout ≤ s.msSince u.downSince) then s.skipHop .timeout else s

/-! ### The session -/

/-- A session is in progress. -/
def Session.active (x : Session) : Bool :=
  match x with
  | .receiving | .building | .forwarding | .verifying => true
  | .idle | .built | .failed => false

/-- The session's outcome is known: the command of a head completes, and any other hop reports it when `tell` (R370,
R371). -/
def State.sessionOutcome (s : State) (st : Status) (tell : Bool) : State :=
  let s1 := s.setUpd fun u => { u with lastStatus := st, cmd := none }
  let s2 := match s.upd.cmd with
    | some d => s1.complete d st
    | none => if tell && !s.upd.head then s1.reportHop s.upd.chainAt st else s1
  s2.raise 19

/-- The session ends with a status: its feed ends with it. -/
def State.sessionEnd (s : State) (st : Status) (tell : Bool) (next : Session) : State :=
  (s.clearFeed.setUpd fun u => { u with down := .none, session := next, buildDone := false }).sessionOutcome st tell

/-- The build ends without an image (R372): the outcome is reported, and forwarding goes on to its end. -/
def State.buildFails (s : State) (st : Status) : State :=
  let s1 := s.sessionOutcome st true
  s1.setUpd fun u => { u with buildDone := false, session := if u.down = .none then .failed else .forwarding }

/-- Why an OFFER is refused (R366), as the REASON of a REFUSE. -/
def State.offerReason (s : State) (id : Word) (db : Nat) (hop : Bool) : Option Nat :=
  let u := s.upd
  if (u.session.active && id != u.imageId) || u.session = .built then some 1
  else if hop && !bit (s.reg Reg.UPD_CTRL) 31 then some 2
  else if s.tp.staging.size < 0x100000 + db * 4096 then some 3
  else if !s.inStates stSAYM then some 4
  else none

/-- OFFER (R366): `chain` begins with the receiver. A failed session that resumes has the head the OFFER names. -/
def State.viaOffer (s0 : State) (t : U64) (mac : List Byte) (id : Word) (total mb : Nat) (headMac : List Byte)
    (chain : List HopEntry) : State :=
  let s := s0.at_ t
  if !s.inStates stSAYML then s
  else match s.offerReason id (total - mb) true with
  | some r => s.sendMgmt (s.regFld Reg.UPD_CTRL 30 30) mac 0x22 (Config.viaductBody 0x22 [leBytes id.toNat 4, leBytes r 1])
  | none =>
    let u := s.upd
    let s1 :=
      if u.session != .idle && id = u.imageId then
        let s1 := s.setUpd fun u => { u with
          session := if u.session = .failed then (if u.next = u.total then .building else .receiving) else u.session,
          head := u.head && u.session != .failed,
          headMac := if u.session = .failed then headMac else u.headMac,
          upMac := mac, lastBlock := s.time.elapsed,
          chain := if u.down = .none then chain.drop 1 else u.chain,
          chainAt := if u.down = .none then chain.length else u.chainAt }
        if u.down = .none && u.manifestOk then s1.offerNext else s1
      else s.setUpd fun u => { u with
        session := .receiving, cmd := none, head := false, headMac := headMac, imageId := id, cfg := s.updCfg, mb := mb,
        total := total, manifestOk := false, next := 0, lastBlock := s.time.elapsed, upMac := mac, chain := chain.drop 1,
        chainAt := chain.length, man := [], down := .none, nextDown := 0, sendNext := 0, sentTo := 0, buildDone := false }
    s1.sendVia mac 0x21 [leBytes s1.upd.next 4]

/-- The manifest has been assembled (R367): it is verified, and the first neighbour is offered the session. -/
def State.manifestDone (s : State) : State × Option Status :=
  let bs := s.stagedManifest s.stagingBase s.upd.mb
  match manifestCheck s.key.oemKeyHash s.upd.mb bs with
  | .error e => (s, some e)
  | .ok m =>
    if m.imageId ≠ s.upd.imageId ∨ m.db + s.upd.mb ≠ s.upd.total then (s, some .unsupported)
    else ((s.setUpd fun u => { u with manifestOk := true, man := bs.take 0x140 }).offerNext, none)

/-- What the block check of R367 says. -/
inductive BlockJudge where
  | ok | order | crc | hash
  deriving DecidableEq, Repr

/-- Judge a block against NEXT and the manifest (R367). -/
def State.judgeBlock (s : State) (b : List Byte) : BlockJudge :=
  let u := s.upd
  let i := leAt b 8 4
  let want := if i < u.mb then (if i + 1 < u.mb then 4096 else 384 + 32 * (u.total - u.mb) - 4096 * (u.mb - 1))
    else (readManifest u.man).blockLen i
  if i ≠ u.next ∨ u.total ≤ i then .order
  else if b.length ≠ 4116 ∨ leAt b 0 4 ≠ 0x7A56426B ∨ leAt b 4 4 ≠ u.imageId.toNat ∨ leAt b 12 2 ≠ want ∨
      leAt b 0x1010 4 ≠ (crc 2 (slice b 0 0x1010)).toNat then .crc
  else if u.mb ≤ i ∧ Config.sha256 b ≠ manifestHash (s.stagedManifest s.stagingBase u.mb) (i - u.mb) then .hash
  else .ok

/-- Stage a verified block, and verify the manifest with its last block. -/
def State.stageBlock (s : State) (b : List Byte) : State × Option Status :=
  let u := s.upd
  let i := u.next
  let a := if i < u.mb then s.stagingBase + 4096 * i else s.stagingBase + 0x100000 + 4096 * (i - u.mb)
  let s1 := (s.writeMem a (slice b 16 4096)).bump (Reg.UPD_CNT 0)
  let s2 := if i + 1 = u.mb then s1.manifestDone else (s1, none)
  match s2 with
  | (s3, some e) => (s3, some e)
  | (s3, none) => (s3.setUpd fun u => { u with
      next := i + 1, lastBlock := s.time.elapsed, session := if i + 1 = u.total then .building else u.session }, none)

/-- A hop has a session in which it has received blocks: none is taken before a session and after its failure. -/
def UpdSt.received (u : UpdSt) : Bool := !u.head && u.session != .idle && u.session != .failed

/-- BLOCK (R367): a block arrives from the upstream hop. Once every block is verified no INDEX equals NEXT. -/
def State.viaBlock (s0 : State) (t : U64) (b : List Byte) : State :=
  let s := s0.at_ t
  if !s.upd.received then s
  else if s.upd.session ≠ .receiving then s.bump (Reg.UPD_CNT 3)
  else match s.judgeBlock b with
    | .order => s.bump (Reg.UPD_CNT 3)
    | .crc => s.bump (Reg.UPD_CNT 1)
    | .hash => s.bump (Reg.UPD_CNT 2)
    | .ok => match s.stageBlock b with
      | (s1, some e) => s1.sessionEnd e true .failed
      | (s1, none) => s1.sendVia s1.upd.upMac 0x24 [leBytes s1.upd.next 4]

/-- REPORT (R371): the head notes the status of chain entry `n`. A status above 0x17, which no device produces (R7), is
ignored (DESIGN CHOICE, log 67). -/
def State.viaReport (s0 : State) (t : U64) (id : Word) (n st : Nat) : State :=
  let s := s0.at_ t
  if s.upd.head && id = s.upd.imageId && decide (n < s.upd.chainAt ∧ n < 64 ∧ st ≤ 0x17) then
    (s.setFld (Reg.UPD_HOP n) 31 24 st).setFld (Reg.UPD_HOP n) 23 23 1
  else s

/-- SESSION_IDLE_TIMEOUT (R370). -/
def State.sessionIdleTimeout (s0 : State) (t : U64) : State :=
  let s := s0.at_ t
  if s.upd.session = .receiving && !s.upd.head && decide (4 * s.upd.cfg.hopTimeout ≤ s.msSince s.upd.lastBlock) then
    s.sessionEnd .timeout true .failed
  else s

/-- Octets of a block as UPD_START takes it: its header and 4,096 octets of data (Table 17-1). -/
def blockSize : Nat := 4116

/-- Take one block of UPD_START (R371): judged, then staged. -/
def State.takeBlock (s : State) (b : List Byte) : State × Option Status :=
  match s.judgeBlock b with
  | .order => (s.bump (Reg.UPD_CNT 3), some .integrity)
  | .crc => (s.bump (Reg.UPD_CNT 1), some .integrity)
  | .hash => (s.bump (Reg.UPD_CNT 2), some .integrity)
  | .ok => s.stageBlock b

/-- Take the blocks of UPD_START, of `size` octets each, one by one (R371): the state, and the status of the first that fails. -/
def State.takeBlocks (s : State) (size o i fuel : Nat) : State × Option Status :=
  match fuel with
  | 0 => (s, none)
  | k + 1 => match s.takeBlock (s.readWin (o + size * i) size) with
    | (s1, some e) => (s1, some e)
    | (s1, none) => s1.takeBlocks size o (i + 1) k

/-- Read chain entries of 8 octets. -/
def readHops (bs : List Byte) (n : Nat) : List HopEntry :=
  (List.range n).map fun i => { mac := slice bs (8 * i) 6, brId := leAt bs (8 * i + 6) 1 % 64, flags := leAt bs (8 * i + 7) 1 }

/-- UPD_HOP of a new session's chain. -/
def State.setHops (s : State) (l : List HopEntry) : State :=
  (List.range 64).foldl (fun (s : State) n => s.setReg (Reg.UPD_HOP n) (match l[n]? with
    | some e => pw e.brId
    | none => 0)) s

/-- UPD_START (R371). While a session is active or a BUILT image is held R371 names no status: the command is rejected with
STATE as R8 states (DESIGN CHOICE, log 67). -/
def State.updStart (s : State) (d : Desc) : State :=
  s.command d stSAY fun s =>
    let o := (d.word 2).toNat
    let total := (d.word 3).toNat
    let co := (d.word 4).toNat
    let n := d.byte 20
    let b0 := s.readWin o 4116
    let db := leAt b0 0x20 4
    if !d.unlistedZero [8, 9, 10, 11, 12, 13, 14, 15, 16, 17, 18, 19, 20] || 63 < n then s.complete d .unsupported
    else if !s.inWindow o (total * 4116) || !s.inWindow co (8 * n) then s.complete d .length
    else if db < 1 ∨ 7936 < db ∨ manifestBlocks db + db ≠ total then s.complete d .unsupported
    else if s.upd.session.active then s.rejectState d
    else match s.offerReason (BitVec.ofNat 32 (leAt b0 4 4)) db false with
      | some r => if r = 3 then s.complete d .noRoom else s.rejectState d
      | none =>
        let l := readHops (s.readWin co (8 * n)) n
        let cfg := s.updCfg
        let s1 := (s.setHops l).setUpd fun u => { u with
          session := .receiving, cmd := some d, head := true, headMac := s.ethMac cfg.port,
          imageId := BitVec.ofNat 32 (leAt b0 4 4), cfg := cfg, mb := manifestBlocks db, total := total, manifestOk := false,
          next := 0, lastBlock := s.time.elapsed, upMac := [], chain := l, chainAt := n, man := [], down := .none,
          nextDown := 0, sendNext := 0, sentTo := 0, buildDone := false }
        match s1.takeBlocks blockSize o 0 total with
        | (s2, some e) => s2.sessionEnd e false .failed
        | (s2, none) => s2

/-- UPD_ABORT (R381). -/
def State.updAbort (s : State) (d : Desc) : State :=
  s.command d stSAYM fun s =>
    if !d.unlistedZero [] then s.complete d .unsupported
    else
      let s1 := if s.upd.session = .built then s.sessionEnd .aborted false .idle
        else if s.upd.session.active then s.sessionEnd .aborted false .failed
        else s
      s1.complete d .ok

/-! ### Build and verification (R372, R373) -/

/-- The SHA-256 of an image over the LENGTH of its header. -/
def imageSha (bs : List Byte) : List Byte := Config.sha256 (bs.take (readHdr bs).length)

/-- The SHA-256 of a truss over its LENGTH. -/
def trussSha (bs : List Byte) : List Byte := Config.sha256 (bs.take (leAt bs 8 4))

/-- Write what a stream has built over a bank. -/
def State.writeBank (s : State) (b : Nat) (x : Built) : State :=
  (({ s with flash := flashErase s.flash (bankBase b) 0x1E00000 }).flashWrite (bankBase b) x.fw).flashWrite
    (bankBase b + bankTruss) x.truss

/-- DEVICE slot 15 holds the image key during an encrypted build and is erased when it ends (R364). -/
def State.eraseSlot15 (s : State) (m : Manifest) : State :=
  if m.encrypted then
    let k := s.slot 15
    s.setSlot 15 { invalSeen := k.invalSeen, invalGen := k.invalGen, lastUse := k.lastUse }
  else s

/-- IMAGE_BUILD (R372): `flashOk` says whether every erase and program of the flash succeeded. -/
def State.imageBuild (s0 : State) (t : U64) (flashOk : Bool) : State :=
  let s := s0.at_ t
  if s.upd.session ≠ .building then s
  else
    let m := readManifest s.upd.man
    let fw := s.bankFw s.boot.bank
    let tr := s.bankTrussBytes s.boot.bank
    if !m.full && (imageSha fw != m.baseFw || trussSha tr != m.baseTruss) then s.buildFails .conflict
    else match s.imageKey s.upd.cfg.wrapSlot m with
      | .error e => s.buildFails e
      | .ok key =>
        let (bs, tags) := s.stagedStream s.stagingBase m key
        let (x, ok) := buildStream fw tr m.full bs
        let s1 := (s.writeBank (1 - s.boot.bank) x).eraseSlot15 m
        if !flashOk then s1.buildFails .integrity
        else if !tags then s1.buildFails .authFail
        else if !ok then s1.buildFails .unsupported
        else s1.setUpd fun u => { u with
          buildDone := true, builtFw := x.fw.length, builtTruss := x.truss.length,
          session := if u.down = .none then .verifying else .forwarding }

/-- IMAGE_VERIFY (R373): the image is read back into the staging partition, over the stream, and checked. -/
def State.imageVerify (s0 : State) (t : U64) : State :=
  let s := s0.at_ t
  if s.upd.session ≠ .verifying then s
  else
    let m := readManifest s.upd.man
    let b := 1 - s.boot.bank
    let fw := s.flashRead (bankBase b) s.upd.builtFw
    let tr := s.flashRead (bankBase b + bankTruss) s.upd.builtTruss
    let s1 := ((s.writeMem s.stagingBase fw).writeMem (s.stagingBase + bankTruss) tr).setUpd fun u => { u with manifestOk := false }
    match builtCheck s1 m fw tr with
    | .error e => (s1.setUpd fun u => { u with next := 0 }).sessionEnd e true .failed
    | .ok _ => post (s1.sessionEnd .ok true .built) .notice 0x12 none 0 []

end Sys2Proof.Machine
end

