-- ==== Sys2Proof/Machine/Reload.lean ====
section
/-! DEFINITION. Entry to MAINTENANCE and the return from it, and the reload of a truss (R60 to R62, R66). -/

namespace Sys2Proof.Machine

/-- Change the truss loader's state. -/
def State.setTruss (s : State) (f : TrussSt → TrussSt) : State := { s with truss := f s.truss }

/-- Entry to MAINTENANCE (Table 01-5, Table 06-7, R14, R43, R89, R113, R389): a frame on the air runs to its end, with
ILK_OUT released and the FEM lines and coexistence requests inactive at once. -/
def State.enterMaintenance (s : State) : State :=
  let s1 := ({ s with sys := { s.sys with held := s.sys.state, served := s.delivers } }).enter .maintenance
  s1.undecideSpans.claimsLate.stopPiers.maintenanceTime.releaseIlk.settleAir

/-- The state held before MAINTENANCE is resumed (Table 01-5, R386, R389, R392). -/
def State.resumeService (s : State) : State :=
  if s.sys.state ≠ .maintenance then s
  else
    let s1 := s.enter s.sys.held
    (match s.sys.held with
      | .active => s1.normalAssert.holdoverAtEntry
      | .standby => s1.standbyAtEntry
      | _ => s1).settleAir

/-! ### A new truss (R61) -/

/-- Two trusses hold the same value in a section. -/
def sameSection (a b : Truss) (type : Nat) : Bool := sectionValue a.sections type = sectionValue b.sections type

/-- A record lies, in whole or in part, in the log extension (R404). -/
def Rec.inExtension (r : Rec) : Bool := decide (evrOnChip < r.off + r.bytes)

/-- Discard the records held in the log extension (R405): the first and last SEQ discarded, when there was one. -/
def State.dropExtension (s : State) : State × Option (Word × Word) :=
  let gone := s.evr.general.filter Rec.inExtension
  let kept := s.evr.general.filter fun r => !r.inExtension
  let wr := match kept.getLast? with
    | some r => r.off + r.bytes
    | none => 0
  match gone.head?, gone.getLast? with
  | some a, some b => ({ s with evr := { s.evr with general := kept, wr := wr } }, some (a.seq, b.seq))
  | _, _ => (s, none)

/-- Write the NOTICE record of a discard (R405). -/
def State.noteDiscard (s : State) (x : Option (Word × Word)) : State :=
  match x with
  | some (a, b) => post s .notice 0x14 none 2 [a, b]
  | none => s

/-- The partitions that change (R61): those to zero-fill. -/
def changedPartitions (a b : TrussParams) : List Partition :=
  ([(a.contexts, b.contexts), (a.deckOverflow, b.deckOverflow), (a.staging, b.staging), (a.logExt, b.logExt),
    (a.fwRuntime, b.fwRuntime), (a.hostWindow, b.hostWindow)].filter fun e => e.1 != e.2).map Prod.snd

/-- The type, depth, consumer, ring and flags a queue takes by default under a truss (R267, Table 12-3). -/
def TrussParams.defaultQueue (p : TrussParams) (q : Nat) : Queue :=
  match p.queueRanges.find? fun r => decide (r.first ≤ q ∧ q ≤ r.last) with
  | none => {}
  | some r =>
    let n := p.queueRanges.foldl (fun n r => if r.type = 0 then n else n + (r.last + 1 - r.first)) 0
    let base (t : QType) (c ring : Nat) (f : Byte) : Queue :=
      { type := t, depthLog2 := Nat.log2 r.depth, consumer := c, ring := ring, qflags := f,
        quota := 5242880 / (max 1 n) / 128 * 128, ovfQuota := p.deckOverflow.size / (max 1 n) / 128 * 128 }
    match r.type with
    | 1 => base .data 1 0xFF 0x04
    | 2 => base .control 0 0 0x00
    | 3 => if q = p.exportQueue then base .rewind 0 0xFF 0x00 else base .rewind 1 0xFF 0x04
    | _ => {}

/-- One queue at a reload that changes QUEUES or MEMMAP (R280). -/
def State.reloadQueue (s : State) (p : TrussParams) (q : Nat) : State :=
  let x := s.queue q
  let y := p.defaultQueue q
  if y.type = .disabled then
    let orphans := x.items.filterMap fun i => i.owner.map fun o => (o, i.taken)
    let s1 := s.setQueue q {}
    { s1 with que := { s1.que with orphans := s1.que.orphans ++ orphans } }
  else if x.type = .disabled then s.setQueue q y
  else
    let s1 := if x.items.isEmpty then s else s.resetQueue post q
    let z := s1.queue q
    s1.setQueue q { z with type := y.type, depthLog2 := y.depthLog2, consumer := y.consumer, ring := y.ring,
                           qflags := y.qflags, quota := y.quota, ovfQuota := y.ovfQuota }

/-- The queues after a reload (R280). -/
def State.reloadQueues (s : State) (old new : Truss) : State :=
  if sameSection old new 10 && sameSection old new 13 then s
  else (List.range 1024).foldl (fun s q => s.reloadQueue new.params q) s

/-- The tables after a reload (R61, R245). -/
def State.reloadTables (s : State) (old new : Truss) : State :=
  if sameSection old new 9 && sameSection old new 6 && sameSection old new 13 then s
  else { s with tbl := { s.tbl with em := [], lpm := [], filter := [], seen := [], migration := none, waits := [], drainDue := false,
                                    seed0 := new.params.emSeed0, seed1 := new.params.emSeed1 } }

/-- Zero-fill what R61 does not keep: partitions, and with them the contexts and the cell store. -/
def State.reloadMemory (s : State) (old new : TrussParams) : State :=
  { s with
    mem := (changedPartitions old new).foldl (fun m p => memZero m p.base p.size) s.mem,
    ctxs := if old.contexts = new.contexts then s.ctxs else [],
    sch := if old.fwRuntime = new.fwRuntime then s.sch else { s.sch with frames := [] } }

/-- A truss is accepted by a reload (R61, R147, R245, R280, R381, R405). -/
def State.applyTruss (s0 : State) (src : TrussSource) (new : Truss) : State :=
  let s := s0.abortSpans .aborted
  let old := s.truss.truss
  let extSame := old.params.logExt = new.params.logExt
  let (s1, gone) := if extSame then (s, none) else s.dropExtension
  let s2 := (((s1.reloadMemory old.params new.params).reloadTables old new).reloadQueues old new).setTruss fun t =>
    { t with loaded := true, source := src, truss := new, lastStatus := .ok }
  let s3 := { s2 with evr := { s2.evr with ext := new.params.logExt.size } }
  let s4 := (s3.setReg Reg.TRUSS_SEC_COMMITS 0).setTime fun t => { t with
    tickno := BitVec.ofNat 48 (tickOf s.now new.params.tickPeriod),
    edgeDue := decide (s.now % (max 1 (new.params.tickPeriod * 1000)) = 0) }
  let s4 := if old.params.timeRole = new.params.timeRole then s4 else s4.newRole
  let s5 := if sameSection old new 2 && sameSection old new 0x10 && sameSection old new 0x11 then s4 else s4.calEmpty
  let s6 := (s5.assignRoles.noteDiscard gone).mrExtend 2 new.digest
  let s7 := post s6 .audit 0x02 none 0 [old.trussId, new.trussId]
  if old.params.staging ≠ new.params.staging ∧ (s7.upd.session.active ∨ s7.upd.session = .built) then
    s7.sessionEnd .aborted false .failed
  else s7

/-- A truss is refused (R62): the refusal is shown in TRUSS_STATUS, TRUSS_REJECT and TRUSS_REJECT_OFS. -/
def State.refuseTruss (s : State) (r : Refused) : State :=
  ((s.setReg Reg.TRUSS_REJECT (fld r.reason.status.code 24 ||| fld r.reason.code 16 ||| pw r.section_)).setReg
    Reg.TRUSS_REJECT_OFS (pw (r.offset % 2 ^ 18))).setTruss fun t => { t with lastStatus := r.reason.status }

/-- A command waits for the end of the migration under way (R245). -/
def State.afterMigration (s : State) (d : Desc) (k : State → State) : State :=
  match s.tbl.migration with
  | some m => { s with tbl := { s.tbl with migration := some { m with deferred := m.deferred ++ [d] } } }
  | none => k s

/-- TRUSS_RELOAD (R60, R427): the truss is copied and MAINTENANCE entered, at the end of a migration under way (R245). -/
def State.trussReload (s : State) (d : Desc) : State :=
  s.command d stSAY fun s =>
    let o := (d.word 3).toNat
    let n := max 0xB8 (min 262144 (leAt (s.readWin o 16) 8 4))
    if !d.unlistedZero [8, 12, 13, 14, 15] || 1 < d.byte 8 then s.complete d .unsupported
    else if d.byte 8 = 1 ∧ (o % 4 ≠ 0 ∨ !s.inWindow o n) then s.complete d .length
    else s.afterMigration d fun s =>
      let (src, bs) : TrussSource × List Byte := if d.byte 8 = 1 then (.window, s.readWin o n)
        else (if s.boot.bank = 0 then .bankA else .bankB, s.bankTrussBytes s.boot.bank)
      (s.enterMaintenance).setTruss fun t => { t with reload := some (d, src, bs) }

/-- TRUSS_RELOAD_COMPLETE (R60 to R62): the reload ends; service resumes at the next tick edge. -/
def State.trussReloadComplete (s0 : State) (t : U64) : State :=
  let s := s0.at_ t
  match s.truss.reload with
  | none => s
  | some (d, src, bs) =>
    let s1 := s.setTruss fun t => { t with reload := none, resume := true }
    match verifyTruss s bs with
    | .error r => (s1.refuseTruss r).complete d r.reason.status
    | .ok new => (s1.applyTruss src new).complete d .ok

/-- TRUSS_READ (R66). -/
def State.trussRead (s : State) (d : Desc) : State :=
  s.command d stSAYML fun s =>
    let type := d.half 8
    let o := (d.word 3).toNat
    let n := (d.word 4).toNat
    let item : Option (List Byte) := if type = 0 then some s.truss.truss.header
      else (s.truss.truss.sections.find? fun x => x.type = type).map Section.raw
    if !d.unlistedZero [8, 9, 12, 13, 14, 15, 16, 17, 18, 19] then s.complete d .unsupported
    else match item with
      | none => s.complete d .unsupported
      | some bs =>
        if n < bs.length || !s.inWindow o n then s.complete d .length else (s.writeWin o bs).complete d .ok

end Sys2Proof.Machine
end

