-- ==== Sys2Proof/Machine/Activate.lean ====
section
/-! DEFINITION. The close of a commit window (R82), and the activation of an update, its trial and its confirmation (R376
to R378). -/

namespace Sys2Proof.Machine

/-- COMMIT_WINDOW_CLOSE (R82, R83): at edge + 20 µs the decided spans take effect together, and the changes held
meanwhile are applied to the new state. -/
def State.commitWindowClose (s0 : State) (t : U64) : State :=
  (((s0.at_ t).commitSpans State.endQueued).applyHeldAll.flushMac).calRepend.settleAir

/-! ### Activation (R376, R377) -/

/-- FORMAT and SERIAL of the settings copy in force, when it passes its checks. -/
def State.settingsInForce (s : State) : Option (Nat × Nat) :=
  let bs := s.settingsBytes s.bankRec.settings
  if settingsOk bs then some (leAt bs 4 2, leAt bs 12 4) else none

/-- The new firmware keeps the settings copy in force (R377). -/
def State.keepsSettings (s : State) (m : Manifest) : Bool :=
  match s.settingsInForce with
  | some (f, _) => decide (m.settingsMin ≤ f ∧ f ≤ m.settingsMax)
  | none => false

/-- The octets of a settings copy of a format, a serial and a body (R375). -/
def settingsCopy (format serial : Nat) (body : List Byte) : List Byte :=
  let b := leBytes 0x7A536574 4 ++ leBytes format 2 ++ leBytes 0 2 ++ leBytes (20 + body.length) 4 ++ leBytes serial 4 ++
    body
  b ++ leBytes (crc 2 b).toNat 4

/-- Write the default settings of a firmware into the copy not in force (R377). -/
def State.writeDefaults (s : State) (old : Nat) (m : Manifest) (ver : Word) : State :=
  let serial := match s.settingsInForce with
    | some (_, n) => (n + 1) % 2 ^ 32
    | none => 1
  let o := settingsBase (1 - old)
  let s1 := { s with flash := flashErase s.flash o 0x100000 }
  let s2 := (s1.flashWrite o (settingsCopy m.settingsMax serial ((Config.defaultSettings ver).take (0x100000 - 20)))).setUpd
    fun u => { u with defaulted := true }
  post s2 .notice 0x12 none 0 []

/-- The trial record of an activation (step 1 of Table 17-7). -/
def State.trialRec (s : State) (m : Manifest) : BankRec :=
  let r := s.bankRec
  { r with preferred := 1 - s.boot.bank, trial := true, resident := false, fallback := s.boot.bank, imageId := m.imageId,
           settings := if s.keepsSettings m then r.settings else 1 - r.settings, fbSettings := r.settings }

/-- The AUDIT record of a firmware restart (R376). -/
def State.restartAudit (s : State) (m : Manifest) (fw : List Byte) : State :=
  let h := readHdr fw
  post s .audit 0x12 none 2 (toWords m.targetFw ++ toWords (Config.sha256 (slice fw h.ccOff h.ccLen)) ++
    toWords (Config.sha256 (slice fw h.scOff h.scLen)) ++ [m.newVersion])

/-- The staged truss is in force and the staged firmware runs (step 3 of Table 17-7): the session is over. -/
def State.restartOn (s : State) (d : Desc) (m : Manifest) (new : Truss) (fw : List Byte) (keep : Bool) (old : Nat) : State :=
  let b := 1 - s.boot.bank
  let s1 := (s.setUpd fun u => { u with session := .idle, activation := some d, resumeDue := true }).applyTruss
    (if b = 0 then .bankA else .bankB) new
  let s2 := s1.setBoot fun x => { x with bank := b, fwVer := (readHdr fw).version }
  let s3 := if keep then s2.setUpd fun u => { u with defaulted := false } else s2.writeDefaults old m (readHdr fw).version
  s3.restartAudit m fw

/-- The reserved area has room for an AUDIT record of `n` payload words (R408). -/
def State.auditFits (s : State) (n : Nat) : Bool := decide (s.evr.rsvUsed + 16 + 4 * n ≤ evrReserved)

/-- UPD_ACTIVATE (R376, R408): Table 17-7 to the end of its step 3, at the end of a migration under way (R245). -/
def State.updActivate (s : State) (d : Desc) : State :=
  s.command d stSAY fun s =>
    if !d.unlistedZero [] then s.complete d .unsupported
    else if s.upd.session.active then s.complete d .busyLock
    else if s.upd.session ≠ .built then s.complete d .unsupported
    else if !s.auditFits 25 then s.complete d .noRoom
    else s.afterMigration d fun s =>
      let m := readManifest s.upd.man
      let fw := s.readMem s.stagingBase s.upd.builtFw
      let tr := s.readMem (s.stagingBase + bankTruss) s.upd.builtTruss
      let old := s.bankRec
      let keep := s.keepsSettings m
      let s1 := (s.writeBankRec (s.trialRec m)).enterMaintenance
      match verifyTruss s1 tr with
      | .error r =>
        (((s1.refuseTruss r).writeBankRec old).setTruss fun t => { t with resume := true }).setUpd
          (fun u => { u with lastStatus := r.reason.status }) |>.complete d r.reason.status
      | .ok new => s1.restartOn d m new fw keep old.settings

/-- MIGRATION_END (R244), and the commands that have waited for it (R245). -/
def State.migrationEnd (s0 : State) (t : U64) : State :=
  let s := s0.at_ t
  let l := match s.tbl.migration with
    | some m => m.deferred
    | none => []
  l.foldl (fun (s : State) d => if d.opcode / 256 = 0x12 then s.updActivate d else s.trussReload d) s.endMigration

/-- A trial of 30 s begins (R378). -/
def State.startTrial (s : State) : State :=
  (s.setUpd fun u => { u with trial := some 30000000000, trialAt := s.time.elapsed }).raise 19

/-- ACTIVATION_RESUME (step 4 of Table 17-7): the state held is resumed at a tick edge, the command completes and the
trial starts. -/
def State.activationResume (s0 : State) (t : U64) : State :=
  let s := s0.at_ t
  match s.upd.activation with
  | none => s
  | some d =>
    let s1 := (s.setUpd fun u => { u with activation := none, resumeDue := false, lastStatus := .ok }).resumeService
    (s1.complete d .ok).startTrial

/-- UPD_CONFIRM (R378). -/
def State.updConfirm (s : State) (d : Desc) : State :=
  s.command d [.active, .standby] fun s =>
    if !d.unlistedZero [] then s.complete d .unsupported
    else if s.upd.trial.isNone then s.complete d .unsupported
    else match s.postAsk .audit 0x12 none 3 [s.bankRec.imageId] with
      | (s1, false) => s1.complete d .noRoom
      | (s1, true) =>
        let r := s1.bankRec
        let s2 := (s1.writeBankRec { r with trial := false, fellBack := false }).setUpd fun u => { u with trial := none }
        ((s2.setFld Reg.UPD_BANK 4 4 0).complete d .ok).raise 19

/-- Nanoseconds of a trial still to run (R378): it pauses in ALARM. -/
def State.trialLeft (s : State) : Nat :=
  match s.upd.trial with
  | none => 0
  | some n => if s.sys.state = .alarm then n else n - (s.time.elapsed - s.upd.trialAt)

/-- The trial pauses at entry to ALARM (R378). -/
def State.pauseTrial (s : State) : State :=
  match s.upd.trial with
  | none => s
  | some _ => s.setUpd fun u => { u with trial := some s.trialLeft, trialAt := s.time.elapsed }

end Sys2Proof.Machine
end

