-- ==== Sys2Proof/Machine/Reset.lean ====
section
/-! DEFINITION. Entry to ALARM, FAULT and RESET (R14 to R17, R68, R280, R311 to R313, R381, R405, R418, R442, R443). -/

namespace Sys2Proof.Machine

/-! ### Work in flight (R17) -/

/-- A life-cycle burn stops part-way: its entry stays incomplete (R309). -/
def State.lcTear (s : State) : State :=
  match s.key.lcBurn with
  | none => s
  | some (_, target, _) =>
    { s with key := { s.key with lcBurn := none, lcLog := s.key.lcLog ++ [{ target := target, complete := false }] } }

/-- The fuse and parapet burns in progress stop and complete (R167, R309). -/
def State.endBurns (s : State) (st : Status) : State :=
  let s1 := match s.par.burn with
    | some (d, _, _) => (s.parTear false).parEnd d st
    | none => s
  match s1.key.lcBurn with
  | some (d, _, _) => s1.lcTear.lcEnd d st
  | none => s1

/-- The check jobs in progress and queued complete, with no partial result (R340). -/
def State.endChecks (s : State) (st : Status) : State :=
  (List.range 8).foldl (fun (s : State) n =>
    (s.chan n).jobs.foldl (fun (s : State) d => s.complete d st) (s.setChan n { s.chan n with jobs := [] })) s

/-- A session, an activation and a reload in progress end (R381, R17). -/
def State.endUpdates (s : State) (st : Status) : State :=
  let s1 := if s.upd.session.active then s.sessionEnd st false .failed else s
  let s2 := match s1.upd.activation with
    | some d => (s1.setUpd fun u => { u with activation := none, resumeDue := false, lastStatus := st }).complete d st
    | none => s1
  match s2.truss.reload with
  | some (d, _, _) => (s2.setTruss fun t => { t with reload := none }).complete d st
  | none => s2

/-- Commands started whose completion is not owed by a span's outcome. -/
def State.unowed (s : State) (l : List SpanOutcome) : List Desc :=
  l.foldl (fun l o => match o.armCmd with
    | some d => dropFirst l d
    | none => l) s.hif.started

/-- Frames of ETH_SEND commands not yet sent go, and every command still in progress completes; a SPAN_ARM completes with
the outcome of its span (R87). -/
def State.endCommands (s : State) (st : Status) : State :=
  let keep (p : EthPort) : EthPort := { p with out := p.out.filter fun x => x.cmd.isNone }
  let s1 := { s with sys := { s.sys with serve := [] }, red := { s.red with leaving := [] },
                     ethA := keep s.ethA, ethB := keep s.ethB }
  (s1.unowed s1.spanc.outcomes).foldl (fun (s : State) d => s.complete d st) s1

/-- Everything in flight completes with a status (R17): ALARM, or ABORTED for FAULT and a warm reset. -/
def State.endInFlight (s : State) (st : Status) : State :=
  let s1 := ((((s.endBurns st).endAllTx st).endAllJobs st).attestFlush st).endCalJobs st
  let s2 := (((s1.abortSpans st).endChecks st).endUpdates st).endCommands st
  { (s2.setRf fun r => { r with frames := [], reasm := [] }) with
    tbl := { s2.tbl with holds := [], migration := s2.tbl.migration.map fun m => { m with deferred := [] } },
    spanc := { s2.spanc with held := s2.spanc.held.filter fun w => match w with
      | .write _ => false
      | _ => true },
    truss := { s2.truss with resume := false } }

/-- Before FAULT or a reset: the outcomes of committed spans are not written, the others are (R87). -/
def State.dropOutcomes (s : State) : State :=
  let started := s.unowed (s.spanc.outcomes.filter fun o => o.status = .ok)
  { s with
    spanc := { s.spanc with outcomes := s.spanc.outcomes.filter fun o => o.status != .ok }
    hif := { s.hif with started := started } }

/-- Write every outcome held, and every completion the ring has room for. -/
def State.writeOut (s : State) : State :=
  let s1 := (s.spanc.outcomes.map fun o => o.span).foldl (fun (s : State) n => s.spanOutcome n) s
  s1.writeHeld s1.hif.held.length

/-- The queues and the deck are emptied (R280). -/
def State.emptyQueues (s : State) : State :=
  { s with que := { s.que with orphans := [], queues := s.que.queues.map fun e => (e.1, { e.2 with
      items := [], read := 0, mark := 0, readMax := 0, dropping := false, inPacket := false, popHeld := false,
      resetDrops := none }) } }

/-! ### Alarms (R311) -/

/-- The lines at entry to ALARM, FAULT or RESET: ILK_OUT released, receptions abandoned (R14, R113). -/
def State.silence (s : State) : State := s.releaseIlk.stopPiers

/-- The keystone is latched off, the sticky flag set, the cause recorded and the retention store erased (R311, R313). -/
def State.latchAlarm (s : State) (cause : Nat) : State :=
  { s with key := { s.key with latch := true, sticky := true, retention := [],
                               causes := s.key.causes ||| BitVec.ofNat 5 (2 ^ cause) } }

/-- A tick is counted: R16 speaks of events of one tick. -/
def State.thisTick (s : State) : Option TickNo := if s.truss.loaded then some s.time.tickno else none

/-- Table 13-9: `cause` is the bit of KEY_ALARM.CAUSE. In RESET the always-on monitor answers alone. In FAULT the alarm is
recorded in SYS_FAULT when it falls in the tick of the fault (R16). -/
def State.alarm (s : State) (cause : Nat) : State :=
  let s1 := s.latchAlarm cause
  match s.sys.state with
  | .reset | .alarm => s1
  | .fault =>
    let s2 := s1.eraseKeys
    if s.sys.faultTick = some s.time.tickno then s2.setFld Reg.SYS_FAULT 31 31 1 else s2
  | _ =>
    let s2 := post s1.eraseKeys .alarm 0x0E none 0 [pw s1.key.causes.toNat]
    let s3 := ((s2.pauseTrial.endInFlight .alarm).silence.enter .alarm).raise 11
    { s3 with sys := { s3.sys with alarmTick := s.thisTick } }

/-- An alarm source changes level: bit `n` of KEY_ALARM.LIVE. Its becoming active is an alarm. -/
def State.alarmLevel (s : State) (n : Nat) (active : Bool) : State :=
  let s1 := { s with key := { s.key with live :=
    if active then s.key.live ||| BitVec.ofNat 5 (2 ^ n) else s.key.live &&& ~~~ (BitVec.ofNat 5 (2 ^ n)) } }
  if active && !(s.key.live.getLsbD n) then s1.alarm n else s1

/-- TAMPER (R310): tamper input `n` has been high for 10 µs, or is low again. -/
def State.tamper (s0 : State) (t : U64) (n : Nat) (active : Bool) : State := (s0.at_ t).alarmLevel (n % 2) active

/-- OVER_TEMPERATURE (R310): the junction rises above 135 °C, or falls below 125 °C. -/
def State.overTemperature (s0 : State) (t : U64) (active : Bool) : State := (s0.at_ t).alarmLevel 4 active

/-- CLOCK_LOSS (R310): REFCLK_IN has been absent for 2 µs, or runs again. In RESET only its level is noted: REFCLK_IN need
not run before RESET_N rises (R441). -/
def State.clockLoss (s0 : State) (t : U64) (active : Bool) : State :=
  let s := s0.at_ t
  let s1 := s.alarmLevel 3 active
  if s.sys.state = .reset then { s with key := { s.key with live := s1.key.live } } else s1

/-- SUPPLY_GLITCH (R443): the monitor watches from BOOT on. -/
def State.supplyGlitch (s0 : State) (t : U64) (e : SupplyEvent) : State :=
  let s := s0.at_ t
  match e with
  | .highEnd => s.alarmLevel 2 false
  | .glitch => if s.sys.state = .reset then s else s.alarm 2
  | .high => if s.sys.state = .reset then s else s.alarmLevel 2 true

/-- KEY_ALARM_ACK (R312, R408): accepted in ALARM, in the life-cycle states of Table 13-7. While no recorder runs its record
is held for it. -/
def State.keyAlarmAck (s : State) (d : Desc) : State :=
  s.command d [.alarm] fun s =>
    if s.key.lc = .blank ∨ s.key.lc = .scrapped then s.rejectState d
    else if !d.unlistedZero [] then s.complete d .unsupported
    else
      let pl := [pw s.key.causes.toNat]
      let r : State × Bool := if s.evr.running then s.postAsk .audit 0x0E none 4 pl
        else ({ s with boot := { s.boot with held := s.boot.held ++ [(.audit, 0x0E, none, 4, pl)] } }, true)
      if r.2 then ({ r.1 with key := { r.1.key with sticky := false, causes := 0 } }).complete d .ok
      else r.1.complete d .noRoom

/-! ### Life-cycle changes (R308, R309) -/

/-- Attestation requests whose signature has not been dispatched end with a status. -/
def State.attestDrop (s : State) (st : Status) : State :=
  let n := if s.boot.report.isSome then 1 else 0
  let gone := s.boot.attest.drop n
  let s1 := s.setBoot fun b => { b with attest := b.attest.take n }
  let s2 := { s1 with cip := { s1.cip with queue := s1.cip.queue.filter fun j => j.owner != .attest } }
  gone.foldl (fun (s : State) r => s.attestFail r false st) s2

/-- Step 1 of R308: keys and retained keys are erased, queued jobs end, spans with a KEY item abort; the burn begins. -/
def State.lcStart (d : Desc) (s : State) (target : LifeCycle) (arg : List Byte) : State :=
  if s.key.lcBurn.isSome then s.rejectState d
  else if !s.auditFits 2 then s.lcEnd d .noRoom
  else
    let s1 := s.eraseKeys.attestDrop .keyRevoked
    let gone := s1.cip.queue
    let s2 := gone.foldl (fun (s : State) j => s.endQueued j .keyRevoked) { s1 with cip := { s1.cip with queue := [] } }
    let s3 := (List.range 16).foldl (fun (s : State) n =>
      if (s.span n).keeps && (s.span n).items.any SpanItem.isKey then s.abortSpan n .aborted (fun _ => (.aborted, 0)) 0
      else s) s2
    { s3 with key := { s3.key with retention := [], lcBurn := some (d, target, arg) } }

/-- KEY_LC_SET (R306 to R308). -/
def State.keyLcCommand (s : State) (d : Desc) : State := s.keyLcSet d (State.lcStart d)

/-- LIFE_CYCLE_BURN_COMPLETE (R308, R309): the burn ends, its read-back as the fuses gave it. -/
def State.lcBurnComplete (s : State) (readBack : Bool) : State :=
  match s.key.lcBurn with
  | none => s
  | some (d, target, arg) =>
    if !readBack then s.lcTear.lcEnd d .integrity
    else
      let old : LifeCycle := s.key.lc
      let s1 : State := { s with key := { s.key with
        lcBurn := none, lcLog := s.key.lcLog ++ [{ target := target, complete := true }],
        oemHash := if old = LifeCycle.blank ∧ target = LifeCycle.provisioned then arg else s.key.oemHash } }
      (post s1.deriveLevel2 .audit 0x0E none 3 [pw old.code, pw target.code]).lcEnd d .ok

/-! ### FAULT -/

/-- Entry to FAULT (Table 01-5, R17, R68, R280): SYS_FAULT, ABORTED completions, and one message of cause 9. -/
def State.fault (s : State) (block cause : Nat) : State :=
  let seen := s.thisTick.isSome && s.sys.alarmTick = s.thisTick
  let s1 := ((s.dropOutcomes.endInFlight .aborted).writeOut.silence.emptyQueues).setReg Reg.SYS_FAULT
    (fld (b2n seen) 31 ||| fld (block % 256) 16 ||| fld (cause % 65536) 0)
  let s2 := s1.enter .fault
  { s2 with sys := { s2.sys with faultTick := s.thisTick }, evr := { s2.evr with running := false } }

/-- UNCORRECTABLE_ERROR (Table 01-5): in BOOT it is none of the ROM and loader failures the table lists. -/
def State.uncorrectableError (s0 : State) (t : U64) (block cause : Nat) : State :=
  let s := s0.at_ t
  if s.inStates [.structured, .active, .standby, .maintenance, .alarm] then s.fault block cause else s

/-! ### RESET -/

/-- What a warm reset keeps of the value of a register: its RWS fields. -/
def keepRws (addr : Nat) (v : Word) : Word :=
  match findReg addr with
  | some r => r.fields.foldl (fun w f => if f.acc = .rws then setBits w f.hi f.lo (bits v f.hi f.lo) else w) r.resetWord
  | none => 0

/-- The registers after a reset (R418, Table 00-7). -/
def State.resetRegs (s : State) (cold : Bool) : List (Nat × Word) :=
  if cold then []
  else (s.regs.map fun e => (e.1, keepRws e.1 e.2)).filter fun e => e.2 != resetOf e.1

/-- The recorder after a reset (R405), with the SEQ range of the records discarded. -/
def State.resetEvr (s : State) (cold : Bool) : EvrSt × Option (Word × Word) :=
  if cold then ({}, none)
  else
    let (s1, gone) := s.dropExtension
    ({ general := s1.evr.general, reserved := s1.evr.reserved, next := s1.evr.next, newest := s1.evr.newest,
       wr := s1.evr.wr, rsvFull := s1.evr.rsvFull }, gone)

/-- The key block after a reset: the fuses, the always-on domain and the pins stay; the latch clears at a cold reset with
every source clear and the sticky flag 0 (R312). -/
def KeySt.afterReset (k : KeySt) (cold : Bool) : KeySt :=
  { keystone := k.keystone, uid := k.uid, oemHash := k.oemHash, lcLog := k.lcLog,
    latch := k.latch && !(cold && k.live = 0 && !k.sticky), sticky := k.sticky, causes := k.causes, live := k.live,
    retention := k.retention }

/-- The device in RESET: what survives is the fuses, the always-on domain, the flash, the levels of its inputs and, across
a warm reset, the RWS fields, the log but for its extension, and the memory die. -/
def State.toReset (s : State) (cold : Bool) : State :=
  let (evr, gone) := s.resetEvr cold
  let held : List (Sev × Nat × Option Status × Nat × List Word) := match gone with
    | some (a, b) => [(.notice, 0x14, none, 2, [a, b])]
    | none => []
  { pending := s.pending, sys := { ilkIn := s.sys.ilkIn }, evr := evr, hif := { perst := s.hif.perst },
    key := s.key.afterReset cold,
    par := { slot0 := s.par.slot0, slot1 := s.par.slot1, torn0 := s.par.torn0, torn1 := s.par.torn1 },
    boot := { held := held }, upd := { resident := if cold then none else s.upd.resident },
    flash := s.flash, regs := s.resetRegs cold, mem := if cold then [] else s.mem, outbox := s.outbox, free := s.free }

/-- Set SYS_RESET_CAUSE: WATCHDOG, WARM, PIN, POWER from bit 3 down. -/
def State.resetCause (s : State) (c : Nat) : State := s.setReg Reg.SYS_RESET_CAUSE (pw c)

/-- A warm reset (R15, R17): ABORTED completions are written while the link is still up. In FAULT there are none. -/
def State.warmBoot (s : State) (cause : Nat) : State :=
  if s.sys.state = .reset then s
  else
    let s1 := if s.sys.state = .fault then s else (s.dropOutcomes.endInFlight .aborted).writeOut
    (s1.toReset false).resetCause cause

/-- R16: a transition event of the tick in which ALARM was entered is discarded. -/
def State.alarmedNow (s : State) : Bool :=
  s.sys.state = .alarm && s.thisTick.isSome && s.sys.alarmTick = s.thisTick

/-- WARM_RESET: a write of SYS_CTRL. -/
def State.warmReset (s : State) (v : Word) : State :=
  if s.sys.state = .reset ∨ !bit v 0 then s
  else if bits v 31 16 ≠ 0xA5C3 then s.notice 0
  else if s.alarmedNow then s
  else s.warmBoot 4

/-- WATCHDOG_EXPIRY. -/
def State.watchdogExpiry (s0 : State) (t : U64) : State :=
  let s := s0.at_ t
  if s.alarmedNow then s else s.warmBoot 8

/-- A burn in progress ends with the supply or the reset: its slot is torn and its entry incomplete (R443). -/
def State.supplyLoss (s : State) : State := (s.parTear true).lcTear

/-- The slots that KEY_RETAIN names (R313). A span's commit is past: what it made is a slot like any other. -/
def State.retained (s : State) : List (Nat × KeySlot) :=
  (List.range 16).foldl (fun m i =>
    let w := s.reg (Reg.KEY_RETAIN i)
    let n := bits w 11 0
    if bit w 31 && s.slotLive n && (s.keyPart n = .domain || s.keyPart n = .host) then
      aput m n { s.slot n with pendingOf := none } else m) []

/-- The retention store is written when RESET_N falls (R442) with a key cache in use. -/
def State.writeRetention (s : State) : State :=
  if s.inStates [.structured, .active, .standby, .maintenance] && !s.key.sticky then
    { s with key := { s.key with retention := s.retained } }
  else s

/-- COLD_RESET (R442): a supply ramp, or RESET_N low for 10 µs. The link is down at once, so nothing is completed. -/
def State.coldReset (s : State) (ramp : Bool) : State :=
  let s1 := (if ramp then s else s.writeRetention).supplyLoss
  (s1.toReset true).resetCause (if ramp then 1 else 2)

/-- BROWN_OUT (R443): a cold reset with the retention store marked empty; in RESET the monitor does not watch. -/
def State.brownOut (s : State) : State :=
  if s.sys.state = .reset then s
  else
    let s1 := s.supplyLoss
    (({ s1 with key := { s1.key with retention := [] } }).toReset true).resetCause 1

/-- AON_RESET (R443): VBAT_AON is lost with the main rails off. -/
def State.aonReset (s : State) : State :=
  if s.sys.state = .reset then
    { s with key := { s.key with retention := [], sticky := false, causes := 0, latch := false } }
  else s

/-- TRIAL_EXPIRY (R378): the trial ends without its check: the record falls back and the device restarts. -/
def State.trialExpiry (s0 : State) (t : U64) : State :=
  let s := s0.at_ t
  if s.upd.trial.isNone || s.sys.state = .alarm || s.trialLeft ≠ 0 then s
  else
    let s1 := ((s.writeBankRec s.bankRec.fallBack).setFld Reg.UPD_BANK 4 4 1).raise 19
    (s1.warmBoot 0).setBoot fun b => { b with held := b.held ++ [(.warning, 0x12, none, 0, [])] }

end Sys2Proof.Machine
end

