-- ==== Sys2Proof/Machine/Boot.lean ====
section
/-! DEFINITION. The boot: ROM, loader, banks and entry to STRUCTURED, and the resident loader (R25, R168, R289, R313, R329,
R345 to R354, R379, R380, R448). -/

namespace Sys2Proof.Machine

/-! ### ROM (R347) -/

/-- The recorder starts, and the records held are written in order (R353, R405). -/
def State.startRecorder (s : State) : State :=
  let held := s.boot.held
  let s1 := { s with evr := { s.evr with running := true }, boot := { s.boot with held := [] } }
  held.foldl (fun (s : State) r => post s r.1 r.2.1 r.2.2.1 r.2.2.2.1 r.2.2.2.2) s1

/-- The loader copy the ROM starts: the first that is valid (R347 step 2). -/
def State.validLoader (s : State) : Option Nat :=
  let ok (n : Nat) : Bool := (imageFault s.key.oemKeyHash 1 (s.flashImage (loaderBase n) 458752)).isNone
  if ok 0 then some 0 else if ok 1 then some 1 else none

/-- An alarm source active or the sticky flag set at fuse sense (R347 step 1, R311): ALARM, with no recorder yet. -/
def State.alarmAtSense (s : State) : State :=
  ({ s with key := { s.key with latch := true, sticky := true, causes := s.key.causes ||| s.key.live,
                                retention := [] } }.enter .alarm).raise 11

/-- RESET_RELEASE (R347, R25): BOOT is entered and the ROM runs. `fuseOk` says whether the fuse sense succeeds. -/
def State.resetRelease (s0 : State) (fuseOk : Bool) : State :=
  if s0.sys.state ≠ .reset then s0
  else
    let s := { s0 with time := {} }.enter .boot
    if s.key.live ≠ 0 || s.key.sticky then s.alarmAtSense
    else if !fuseOk then s.fault 0x11 0x0001
    else match s.validLoader with
      | none => s.fault 0x11 0x0002
      | some n =>
        let bs := s.flashImage (loaderBase n) 458752
        let h := readHdr bs
        ((s.mrExtend 0 (Config.sha256 (bs.take h.length))).setBoot fun b =>
          { b with stage := .loader, loader := n, loaderVer := h.version }).startRecorder

/-! ### Entry to STRUCTURED -/

/-- The queues take the defaults of a truss (R267). -/
def TrussParams.queues (p : TrussParams) : List (Nat × Queue) :=
  (List.range 1024).filterMap fun q =>
    let x := p.defaultQueue q
    if x = {} then none else some (q, x)

/-- The retained slots are restored, and those without a whole PARENT chain discarded (R313). -/
def State.restoreRetained (s : State) : State :=
  if s.key.sticky then s
  else
    let fits (n : Nat) : Bool := s.keyPart n = .domain || s.keyPart n = .host
    let l := s.key.retention.filter fun e => fits e.1
    let s1 := l.foldl (fun (s : State) e => s.setSlot e.1 e.2) s
    l.foldl (fun (s : State) e => if s1.usable e.1 then s else s.setSlot e.1 {}) s1

/-- The offsets of the GPIO registers (R448). -/
def gpioRegs : List Nat := [Reg.PIN_GPIO_OE, Reg.PIN_GPIO_OUT, Reg.PIN_GPIO_PD, Reg.PIN_GPIO_PU]

/-- Entry to STRUCTURED with a truss from a bank (R25, R26, R245, R267, R289, R329, R448): `tests` are the results of the
self-tests of the ten units. -/
def State.enterStructured (s : State) (b : Nat) (t : Truss) (tests : List Bool) : State :=
  let us := s.now / 1000
  let p := t.params
  let s1 := { s with
    time := { elapsed := s.time.elapsed, edgeDue := true }
    truss := { loaded := true, source := if b = 0 then .bankA else .bankB, truss := t }
    tbl := { seed0 := p.emSeed0, seed1 := p.emSeed1 }
    evr := { s.evr with ext := p.logExt.size }
    que := { queues := p.queues }
    sch := {}
    ctxs := []
    cip := { s.cip with units := (List.range 10).map fun i =>
      { state := if tests.getD i true then .inService else .slow } } }
  let s1a := (List.range 10).foldl (fun (s : State) i => s.setFld (Reg.CIP_CORE_TEST i) 31 24
    (if tests.getD i true then 0 else Status.checkFail.code)) s1
  let s2 := (s1a.setReg Reg.BOOT_TIME (pw us)).setBoot fun x => { x with stage := .done, bank := b }
  let s3 := gpioRegs.foldl (fun (s : State) a => s.setReg a (resetOf a)) s2
  let dflt (s : State) (b : Nat) : State :=
    if (p.band b).present then s.setFld (Reg.TXC_PWR b) 11 0 (unsigned (p.band b).maxPower 12) else s
  let s4 := (dflt (dflt s3 0) 1).deriveLevel2.restoreRetained.parFill.tollAtStructured.assignRoles.calAtStructured
  (s4.enter .structured).searchRefresh

/-! ### Banks (R349, R350) -/

/-- The checks of a bank: its truss, or PART, REASON and SECTION of BOOT_BANK_FAIL. -/
def State.checkBank (s : State) (b : Nat) : Except (Nat ⊕ Refused) Truss :=
  match imageFault s.key.oemKeyHash 2 (s.bankFw b) with
  | some r => .error (.inl r)
  | none => match verifyTruss s (s.bankTrussBytes b) with
    | .error r => .error (.inr r)
    | .ok t => .ok t

/-- Record a bank's failure in BOOT_BANK_FAIL, and a refused truss as R62 does. -/
def State.bankFail (s : State) (b : Nat) (e : Nat ⊕ Refused) : State :=
  match e with
  | .inl r => s.setReg (Reg.BOOT_BANK_FAIL b) (fld 1 24 ||| fld r 16)
  | .inr r => (s.refuseTruss r).setReg (Reg.BOOT_BANK_FAIL b) (fld 2 24 ||| fld r.reason.code 16 ||| fld r.section_ 0)

/-- The ERROR record of a bank's failure (R350). -/
def State.bankError (s : State) (b : Nat) : State := post s .error 0x11 none 0 [pw b, s.reg (Reg.BOOT_BANK_FAIL b)]

/-- A bank is booted: MR1, MR5 and MR2, the ERROR records of the banks that failed, and STRUCTURED (R349 step 5). A record
with TRIAL set here is that of a bank the resident loader has written: its trial starts (R380). -/
def State.bootBank (s : State) (b : Nat) (t : Truss) (failed : List Nat) (tests : List Bool) : State :=
  let fw := s.bankFw b
  let h := readHdr fw
  let s1 := ((s.mrExtend 1 (Config.sha256 (slice fw h.ccOff h.ccLen))).mrExtend 5
    (Config.sha256 (slice fw h.scOff h.scLen))).mrExtend 2 t.digest
  let s2 := (failed.foldl (fun (s : State) b => s.bankError b) s1).setBoot fun x => { x with fwVer := h.version }
  let s3 := s2.enterStructured b t tests
  if s3.bankRec.trial && s3.bankRec.preferred = b then s3.startTrial else s3

/-- Steps 3 to 5 of R349: the preferred bank, then the other; RECOVERY when neither passes (R350). -/
def State.bootBanks (s : State) (tests : List Bool) : State :=
  let p := s.bankRec.preferred
  match s.checkBank p with
  | .ok t => s.bootBank p t [] tests
  | .error e =>
    let s1 := s.bankFail p e
    match s1.checkBank (1 - p) with
    | .ok t => s1.bootBank (1 - p) t [p] tests
    | .error e2 =>
      let s2 := ((s1.bankFail (1 - p) e2).bankError p).bankError (1 - p)
      s2.setBoot fun x => { x with stage := .recovery, fwVer := 0 }

/-! ### The resident loader (R380) -/

/-- The staged blocks of a FULL image at a base, verified under R367. -/
def State.residentManifest (s : State) (base : Nat) : Except Status Manifest :=
  let db := leAt (s.readMem base 0x20) 0x10 4
  if db < 1 ∨ 7936 < db then .error .unsupported
  else
    let mb := manifestBlocks db
    let bs := s.stagedManifest base mb
    match manifestCheck s.key.oemKeyHash mb bs with
    | .error e => .error e
    | .ok m =>
      if !m.full then .error .unsupported
      else if (List.range db).all fun i =>
          Config.sha256 (blockBytes m.imageId (mb + i) (m.dataLen i) (s.stagedPayload base mb (mb + i))) = manifestHash bs i
        then .ok m else .error .integrity

/-- Verify the staged blocks, write the image over a bank and check it. The state holds what has been written. -/
def State.residentWrite (s : State) (b base : Nat) : State × Except Status Manifest :=
  match s.residentManifest base with
  | .error e => (s, .error e)
  | .ok m => match s.imageKey (s.regFld Reg.UPD_CTRL 11 0) m with
    | .error e => (s, .error e)
    | .ok key =>
      let (stream, tags) := s.stagedStream base m key
      let (x, ok) := buildStream [] [] true stream
      if !tags then (s, .error .authFail)
      else if !ok then (s, .error .unsupported)
      else
        let s1 := s.writeBank b x
        let fw := s1.bankFw b
        match builtCheck s1 m fw (s1.bankTrussBytes b) with
        | .error e => (s1, .error e)
        | .ok _ => (s1, .ok m)

/-- The resident loader on a bank (R380): the record of a trial of that bank, or RESIDENT cleared. -/
def State.residentLoad (s : State) (b base : Nat) : State × Status :=
  match s.residentWrite b base with
  | (s1, .error e) =>
    let r := s1.bankRec
    ((if r.resident then s1.writeBankRec { r with resident := false } else s1), e)
  | (s1, .ok m) =>
    let r := s1.bankRec
    (s1.writeBankRec { r with preferred := b, trial := true, resident := false, fallback := 1 - b, imageId := m.imageId,
                              fbSettings := r.settings }, .ok)

/-- UPD_RESIDENT (R380): in service the running bank, through a warm reset; in RECOVERY either bank, at once, with `tests`
the self-tests of the entry to STRUCTURED that follows. -/
def State.updResident (s : State) (d : Desc) (tests : List Bool) : State :=
  let b := d.byte 8
  if d.byte 4 ≠ 0xFF then s.complete d .unsupported
  else if !(s.inStates stSAYM || (s.sys.state = .boot && s.boot.stage = .recovery)) then s.rejectState d
  else if 1 < b || !d.unlistedZero [8] then s.complete d .unsupported
  else if s.sys.state = .boot then
    let (s1, st) := s.residentLoad b 0
    (s1.complete d st).bootBanks tests
  else
    let u := s.upd
    if b ≠ s.boot.bank || !u.manifestOk || u.next ≠ u.total || !(readManifest u.man).full || u.down ≠ .none then
      s.complete d .unsupported
    else
      let s1 := (s.writeBankRec { s.bankRec with resident := true }).setUpd fun u => { u with
        resident := some (b, s.stagingBase) }
      s1.warmBoot 0

/-! ### The loader (R349) -/

/-- A boot with TRIAL set ends the trial on the bank it came from (R379). -/
def State.trialAtBoot (s : State) : State :=
  if s.bankRec.trial then
    post (((s.writeBankRec s.bankRec.fallBack).setFld Reg.UPD_BANK 4 4 1).raise 19) .warning 0x12 none 0 []
  else s

/-- The digest of the settings copy the bank record names, or 32 zero octets (R349 step 2). -/
def State.settingsDigest (s : State) : List Byte :=
  match s.bankRecAt with
  | none => List.replicate 32 0
  | some (r, _) =>
    let bs := s.settingsBytes r.settings
    if settingsOk bs then Config.sha256 (slice bs 0 (leAt bs 8 4)) else List.replicate 32 0

/-- A boot with RESIDENT set runs the resident loader (R380). -/
def State.residentAtBoot (s : State) : State :=
  if !s.bankRec.resident then s
  else
    let s1 := match s.upd.resident with
      | some (b, base) => (s.residentLoad b base).1
      | none => s.writeBankRec { s.bankRec with resident := false }
    s1.setUpd fun u => { u with resident := none }

/-- What the loader does before it chooses a bank (R349 steps 1 and 2, R379, R380). -/
def State.loaderStart (s : State) : State :=
  let s1 := s.parAtBoot.startRecorder.trialAtBoot
  (s1.mrExtend 3 s1.settingsDigest).residentAtBoot

/-- LOADER_BOOT (R349): `trained` says whether the memory die trains, `tests` the self-tests of the ten units. -/
def State.loaderBoot (s0 : State) (t : U64) (trained : Bool) (tests : List Bool) : State :=
  let s := s0.at_ t
  if s.sys.state ≠ .boot ∨ s.boot.stage ≠ .loader then s
  else if !trained then s.fault 0x11 0x0005
  else s.loaderStart.bootBanks tests

end Sys2Proof.Machine
end

