-- ==== Sys2Proof/Machine/Registers.lean ====
section
/-! DEFINITION. Register writes and BAR2 accesses (R4, R5, R23, R24, R95, R118, R140, R161, R162, R199, R233, R265, R286,
R315, R331, R344, R382, R403, R415, R420, R436, R448). -/

namespace Sys2Proof.Machine

/-- A field after a write of `v` to its register, whose value was `old` (Table 00-7). -/
def RegField.written (f : RegField) (old v : Word) : Nat :=
  let o := bits old f.hi f.lo
  let n := bits v f.hi f.lo
  match f.acc with
  | .rw | .rws => n
  | .w1f => (BitVec.ofNat 32 o &&& ~~~ (BitVec.ofNat 32 n)).toNat
  | .w1c => if n = 2 ^ (f.hi + 1 - f.lo) - 1 then 0 else o
  | .ro | .wo => o

/-- A register after a write: reserved bits stay 0. -/
def RegSpec.written (r : RegSpec) (old v : Word) : Word :=
  r.fields.foldl (fun w f => setBits w f.hi f.lo (f.written old v)) old

/-- The band whose registers hold an offset, when those of an absent band ignore accesses (RXF, TXC, SCH, TOL). -/
def bandOf (a : Nat) : Option Nat :=
  let o := a % 0x100000
  match a / 0x100000 with
  | 0x04 => if o < 0x200 then some (o / 0x100) else none
  | 0x06 => if o < 0x400 then some (o / 0x200) else if 0x800 ≤ o ∧ o < 0xA00 then some ((o - 0x800) / 0x100) else none
  | 0x09 => if 0x100 ≤ o ∧ o < 0x300 then some ((o - 0x100) / 0x100) else none
  | 0x0D => if 0x800 ≤ o ∧ o < 0xA00 then some ((o - 0x800) / 0x100) else none
  | _ => none

/-- The register belongs to a band absent from the truss in force. -/
def State.absentReg (s : State) (a : Nat) : Bool :=
  match bandOf a with
  | some b => s.truss.loaded && !(s.tp.band b).present
  | none => false

/-- `x` lies in one of the equally spaced registers from `base`. -/
def inFamily (x base step n : Nat) : Bool := decide (base ≤ x ∧ x < base + step * n ∧ (x - base) % step = 0)

/-- The register's new value is within the ranges its block states: a write that is not is discarded whole. For SIZE_LOG2 of
HIF_RING_CFG the range is stated and what a write outside it does is not: it is discarded like any other (DESIGN CHOICE,
log 77). -/
def State.writeInRange (s : State) (a : Nat) (v : Word) : Bool :=
  let f (hi lo l h : Nat) : Bool := decide (l ≤ bits v hi lo ∧ bits v hi lo ≤ h)
  let serving := s.inStates [.active, .standby]
  let old := s.reg a
  if inFamily a (Reg.RXF_HR_THR 0) 0x100 2 then
    decide (signed (bits v 15 8) 8 + 6 ≤ signed (bits v 7 0) 8)
  else if inFamily a (Reg.TXC_CTRL 0) 0x100 4 then f 13 8 2 63
  else if inFamily a (Reg.TXC_FEM 0) 0x100 2 then f 23 16 1 100 && f 15 8 0 50 && f 7 0 (bits v 15 8) 100
  else if inFamily a (Reg.TXC_COEX 0) 0x100 2 then f 27 24 1 10 && f 15 0 0 1000
  else if inFamily a (Reg.SCH_GUARD 0) 0x100 2 then f 31 16 100 5000 && f 15 0 0 (bits v 31 16)
  else if inFamily a (Reg.SCH_ACK_WAIT 0) 0x100 2 then f 15 0 50 2000
  else if a = Reg.MAC_CTRL then f 18 16 1 7
  else if a = Reg.MAC_BR_SHORT then f 15 0 0x1000 0xFFFD
  else if a = Reg.MAC_RETRY then f 31 16 1 65535
  else if a = Reg.MAC_CTRLQ then
    !s.truss.loaded || ([bits v 29 20, bits v 19 10, bits v 9 0].all fun q => (s.queue q).type = .control)
  else if a = Reg.MAC_FLOOD then
    f 23 20 1 15 && f 9 0 992 1023 && (!s.truss.loaded || (s.queue (bits v 19 10)).type = .data)
  else if a = Reg.MAC_REASM_MAX then f 10 0 1280 2047
  else if a = Reg.MAC_BC_KEY then f 30 28 (s.regFld Reg.MAC_CTRL 18 16) 7
  else if inFamily a (Reg.MAC_IPHC_CFG 0) 0x10 16 then f 6 0 1 64
  else if a = Reg.TBL_LOCK_MAX then f 15 0 1 65535
  else if a = Reg.TOL_CTRL then f 6 0 1 100
  else if inFamily a (Reg.TOL_SHAPE_RATE 0) 0x100 2 then f 19 0 1 1000000
  else if inFamily a (Reg.TOL_SHAPE_BURST 0) 0x100 2 then f 23 0 10000 10000000
  else if a = Reg.CIP_CTRL then f 31 16 1 65535
  else if a = Reg.CHK_SCRUB then f 14 0 1 16384
  else if a = Reg.UPD_CTRL then f 21 12 992 1023
  else if a = Reg.UPD_CHAIN_CFG then f 31 16 100 60000 && f 15 0 10 (bits v 31 16)
  else if inFamily a (Reg.KEY_RETAIN 0) 4 16 then
    !bit v 31 || s.keyPart (bits v 11 0) = .domain || s.keyPart (bits v 11 0) = .host
  else if a = Reg.RED_CTRL then !serving || bits v 31 30 = bits old 31 30
  else if a = Reg.RED_RSB_LO || a = Reg.RED_RSB_HI then !serving || v = old
  else if inFamily a (Reg.HIF_RING_BASE_LO 0) 0x20 18 then !s.ringEn ((a - Reg.HIF_RING_BASE_LO 0) / 0x20)
  else if inFamily a (Reg.HIF_RING_BASE_HI 0) 0x20 18 then !s.ringEn ((a - Reg.HIF_RING_BASE_HI 0) / 0x20)
  else if inFamily a (Reg.HIF_RING_CFG 0) 0x20 18 then f 4 0 4 16 && (!bit old 31 || bits v 4 0 = bits old 4 0)
  else if a = Reg.PIN_GPIO_PD then v &&& s.reg Reg.PIN_GPIO_PU = 0
  else if a = Reg.PIN_GPIO_PU then v &&& s.reg Reg.PIN_GPIO_PD = 0
  else true

/-- The registers whose writes take effect at the next tick edge. -/
def atEdge (a : Nat) : Bool :=
  match a / 0x100000 with
  | 0x04 => inFamily a (Reg.RXF_HR_THR 0) 0x100 2 || inFamily a (Reg.RXF_DET 0) 0x100 2
  | 0x06 => inFamily a (Reg.TXC_CTRL 0) 0x100 4 || inFamily a (Reg.TXC_PWR 0) 0x100 2 ||
      inFamily a (Reg.TXC_PRECORR 0) 0x100 2 || inFamily a (Reg.TXC_FEM 0) 0x100 2 || inFamily a (Reg.TXC_COEX 0) 0x100 2
  | 0x07 => a != Reg.CAL_CR_BASE && a != Reg.CAL_ENTRY_SEL
  | 0x09 => a != Reg.SCH_SF_SEL
  | 0x0A => true
  | 0x0B => a = Reg.TBL_LOCK_MAX || a = Reg.TBL_EVT_LIMIT || decide (Reg.TBL_NH_LO 0 ≤ a ∧ a < Reg.TBL_MESH_PFX_A 0 + 0x800)
  | 0x0D => a = Reg.TOL_CTRL || inFamily a (Reg.TOL_SHAPE_RATE 0) 0x100 2 || inFamily a (Reg.TOL_SHAPE_BURST 0) 0x100 2
  | 0x0F => a = Reg.CIP_CTRL
  | 0x10 => a = Reg.CHK_SCRUB
  | 0x12 => a = Reg.UPD_CTRL || a = Reg.UPD_CHAIN_CFG
  | 0x13 => a = Reg.RED_CTRL || a = Reg.RED_PEER_MAC_LO || a = Reg.RED_PEER_MAC_HI || a = Reg.RED_RSB_LO || a = Reg.RED_RSB_HI
  | 0x14 => a = Reg.EVR_CTRL
  | _ => false

/-- What a write that takes effect does beside its fields: a count or mark shown for a selected queue or policer is
cleared there (R286), EN = 1 of a ring clears its ERR (R421), unmasking a vector
sends the message it holds (R430), a RATE above LIMIT is applied as LIMIT (R285), CAL_CR_BASE waits for its window (R157), and TXC_CTRL.EN = 1 clears CAL_TXO.FAULT and restarts the
trim (R161). -/
def State.writeSide (s : State) (a : Nat) (v : Word) : State :=
  let q := s.regFld Reg.QUE_SEL 9 0
  let p := s.regFld Reg.TOL_SEL 11 0
  if a = Reg.QUE_HWM_DEPTH then
    (if bits v 16 0 = 0x1FFFF then s.setQueue q { s.queue q with hwmDepth := 0 } else s)
  else if a = Reg.QUE_HWM_SOJ then (if bits v 15 0 = 0xFFFF then s.setQueue q { s.queue q with hwmSoj := 0 } else s)
  else if a = Reg.QUE_GAPS then (if bits v 31 0 = 0xFFFFFFFF then s.setQueue q { s.queue q with gaps := 0 } else s)
  else if a = Reg.TOL_HWM_DEPTH then
    (if bits v 24 0 = 0x1FFFFFF then s.setPolicer p { s.policer p with hwmDepth := 0 } else s)
  else if a = Reg.TOL_HWM_SOJ then (if bits v 15 0 = 0xFFFF then s.setPolicer p { s.policer p with hwmSoj := 0 } else s)
  else if inFamily a (msixCtrl 0) 0x10 64 && !bit v 0 && bit (s.reg (msixPba ((a - msixCtrl 0) / 0x10))) ((a - msixCtrl 0) / 0x10 % 32) then
    (s.setFld (msixPba ((a - msixCtrl 0) / 0x10)) ((a - msixCtrl 0) / 0x10 % 32) ((a - msixCtrl 0) / 0x10 % 32) 0).sendMsi
      ((a - msixCtrl 0) / 0x10)
  else if inFamily a (Reg.HIF_RING_CFG 0) 0x20 18 && bit v 31 then s.setFld a 30 30 0
  else if inFamily a (Reg.TOL_SHAPE_RATE 0) 0x100 2 then s.setReg a (pw (s.shapeRate (a / 0x100 % 2)))
  else if inFamily a (Reg.RXF_GAIN 0) 0x100 2 then
    (if bit (s.reg (Reg.RXF_CTRL (a / 0x100 % 2))) 1 then s.askGain (a / 0x100 % 2) true else s)
  else if a = Reg.CAL_CR_BASE then s.setCalSt fun x => { x with baseDue := some v.toInt }
  else if inFamily a (Reg.TXC_CTRL 0) 0x100 4 && bit v 0 then
    s.setReg (Reg.CAL_TXO (a / 0x100 % 4)) (setBits (setBits (s.reg (Reg.CAL_TXO (a / 0x100 % 4))) 31 31 0) 7 0 0)
  else s

/-- A write takes effect. CAL_CR_BASE shows the base in force (R157), so its field waits with it; the airtime buckets are
credited at the old rate first (R285). -/
def State.applyWrite (s : State) (a : Nat) (v : Word) : State :=
  match findReg a with
  | none => s
  | some r =>
    let s1 := if inFamily a (Reg.TOL_SHAPE_RATE 0) 0x100 2 || inFamily a (Reg.TOL_SHAPE_BURST 0) 0x100 2 then s.shapeNow else s
    (if a = Reg.CAL_CR_BASE then s1 else s1.setReg a (r.written (s1.reg a) v)).writeSide a v

/-- The writes that were waiting for the tick edge take effect, in order. -/
def State.applyEdgeWrites (s : State) : State :=
  s.regWrites.foldl (fun (s : State) e => s.applyWrite e.1 e.2) { s with regWrites := [] }

/-- The registers with a command of their own, by the command's meaning. -/
def State.ownWrite (s : State) (a : Nat) (v : Word) : Option State :=
  if a = Reg.SYS_CTRL then some (s.warmReset v)
  else if inFamily a (Reg.HIF_RING_PROD 0) 0x20 18 then some (s.hostProdWrite ((a - Reg.HIF_RING_PROD 0) / 0x20) v)
  else if inFamily a (Reg.HIF_RING_CONS 0) 0x20 18 then some (s.hostConsWrite ((a - Reg.HIF_RING_CONS 0) / 0x20) v)
  else if inFamily a (Reg.TBL_LOCK 0 0) 4 6 then
    some (s.tblLockWrite ((a - Reg.TBL_LOCK 0 0) / 8) ((a - Reg.TBL_LOCK 0 0) / 4 % 2) v)
  else if inFamily a 0x1000000 0x20 8 then some (s.chkCfgWrite ((a - 0x1000000) / 0x20) v)
  else if inFamily a 0x1600000 0x100 2 then some (s.ethCtrlWrite ((a - 0x1600000) / 0x100) false v)
  else if inFamily a 0x1600010 0x100 2 then some (s.ethCtrlWrite ((a - 0x1600010) / 0x100) true v)
  else none

/-- The fields of a register as a write sets them, for the check of their ranges. -/
def RegSpec.asked (r : RegSpec) (v : Word) : Word :=
  r.fields.foldl (fun w f => if f.acc = .rw || f.acc = .rws then setBits w f.hi f.lo (bits v f.hi f.lo) else w) 0

/-- REGISTER_WRITE (R4, R5, R24): a BAR0 write of `width` octets. -/
def State.registerWrite (s : State) (a width : Nat) (v : Word) : State :=
  if width ≠ 4 ∨ a % 4 ≠ 0 then s
  else match s.ownWrite a v with
    | some s1 => s1
    | none =>
      if !s.takesWrites || s.absentReg a then s
      else match findReg a with
        | none => s
        | some r =>
          if !s.writeInRange a (r.asked v) then s.notice (a / 0x100000)
          else if atEdge a then { s with regWrites := s.regWrites ++ [(a, v)] }
          else s.applyWrite a v

/-! ### BAR2 (R23, R417) -/

/-- BAR2 answers: not in RESET, not in FAULT. -/
def State.bar2On (s : State) : Bool := s.sys.state != .reset && s.sys.state != .fault

/-- BAR2_ACCESS (R23): a write of the octets `bs`, or a read when `write` is false, at an offset of the window. An access
at or past its end counts and raises HOST_ERR; of one that runs over the end, the octets past it are discarded. -/
def State.bar2Access (s : State) (write : Bool) (o : Nat) (bs : List Byte) : State :=
  if !s.bar2On then s
  else if s.windowSize ≤ o then (s.bump Reg.HIF_BAR2_ERR).raise 22
  else if write then s.writeWin o (bs.take (s.windowSize - o)) else s

end Sys2Proof.Machine
end

