-- ==== Sys2Proof/Machine/ExecHost.lean ====
section
/-! DEFINITION. The meanings of the commands of the host interface and the registers: one definition per command, over the shared operations.
The manual gives each an effect in every state, so each answers a next state. -/

namespace Sys2Proof.Machine

/-- PE_PERST (R418): PE_PERST_N goes low or high. -/
def execPePerst (low : Bool) (s : State) : Host.Outcome State Fault Refusal :=
  .next (s.pePerst low)

/-- TX_DESCRIPTOR_FETCH (R217, R421): a descriptor whose PHASE differs from that of its count is read again. -/
def execTxDescriptorFetch (r : Nat) (d : Dma Desc) (buf : Dma (List Byte))
    (s : State) : Host.Outcome State Fault Refusal :=
  .next (s.txFetch r d buf)

/-- HOST_RING_PROD_WRITE (R420, R421). -/
def execHostRingProdWrite (k : Nat) (v : Word) (s : State) : Host.Outcome State Fault Refusal :=
  .next (s.hostProdWrite k v)

/-- HOST_RING_CONS_WRITE (R420, R422). -/
def execHostRingConsWrite (k : Nat) (v : Word) (s : State) : Host.Outcome State Fault Refusal :=
  .next (s.hostConsWrite k v)

/-- COMMAND_FETCH (R421, R425): the next descriptor of the command ring, as DMA brings it. -/
def execCommandFetch (d : Dma Desc) (s : State) : Host.Outcome State Fault Refusal :=
  .next (s.commandFetch d)

/-- PHASE_REREAD (R421): up to four reads in all, and then INTEGRITY. A chip that no longer fetches drops the reread.
-/
def execPhaseReread (r : Nat) (d : Dma Desc) (buf : Dma (List Byte)) (s : State) : Host.Outcome State Fault Refusal :=
  .next (s.phaseReread r d buf)

/-- COMPLETION_WRITE (R422, R418): the oldest completion held is written, or lost when its ring is disabled or the
link is down; while the ring is full it is held. Nothing is written in FAULT (Table 01-4). -/
def execCompletionWrite (s : State) : Host.Outcome State Fault Refusal :=
  .next s.completionWrite

/-- INTERRUPT_MODERATION_EXPIRY (R430): TIME µs after the first pending event of a vector. -/
def execInterruptModerationExpiry (t : U64) (v : Nat) (s : State) : Host.Outcome State Fault Refusal :=
  .next (s.moderationExpiry t v)

/-- HIF_NOP (R427). -/
def execHifNop (d : Desc) (s : State) : Host.Outcome State Fault Refusal :=
  .next (s.hifNop d)

/-- BAR2_ACCESS (R23): a write of the octets `bs`, or a read when `write` is false, at an offset of the window. An
access at or past its end counts and raises HOST_ERR; of one that runs over the end, the octets past it are discarded.
-/
def execBar2Access (write : Bool) (o : Nat) (bs : List Byte) (s : State) : Host.Outcome State Fault Refusal :=
  .next (s.bar2Access write o bs)

/-- REGISTER_WRITE (R4, R5, R24): a BAR0 write of `width` octets. -/
def execRegisterWrite (a : Nat) (width : Nat) (v : Word) (s : State) : Host.Outcome State Fault Refusal :=
  .next (s.registerWrite a width v)

/-- PCIE_LINK_CHANGE (R416, R418): training ends at a speed (1 to 3) and width, or the link goes down. -/
def execPcieLinkChange (up : Bool) (speed : Nat) (width : Nat) (s : State) : Host.Outcome State Fault Refusal :=
  .next (s.pcieLinkChange up speed width)

end Sys2Proof.Machine
end

