-- ==== Sys2Proof/Machine/ExecKey.lean ====
section
/-! DEFINITION. The meanings of the commands of keys and the life cycle: one definition per command, over the shared operations.
The manual gives each an effect in every state, so each answers a next state. -/

namespace Sys2Proof.Machine

/-- KEY_RESTORE (R296). -/
def execKeyRestore (d : Desc) (s : State) : Host.Outcome State Fault Refusal :=
  .next (s.keyRestore d)

/-- KEY_DERIVE, the command (R296). -/
def execKeyDerive (d : Desc) (s : State) : Host.Outcome State Fault Refusal :=
  .next (s.keyDeriveCmd d)

/-- KEY_IMPORT: a plain key returned as a blob under DEVICE slot 0 (R297). -/
def execKeyImport (d : Desc) (s : State) : Host.Outcome State Fault Refusal :=
  .next (s.keyImport d)

/-- KEY_LC_SET (R306 to R308). -/
def execKeyLcSet (d : Desc) (s : State) : Host.Outcome State Fault Refusal :=
  .next (s.keyLcCommand d)

/-- KEY_ALARM_ACK (R312, R408): accepted in ALARM, in the life-cycle states of Table 13-7. While no recorder runs its
record is held for it. -/
def execKeyAlarmAck (d : Desc) (s : State) : Host.Outcome State Fault Refusal :=
  .next (s.keyAlarmAck d)

/-- LIFE_CYCLE_BURN_COMPLETE (R308, R309): the burn ends, its read-back as the fuses gave it. -/
def execLifeCycleBurnComplete (readBack : Bool) (s : State) : Host.Outcome State Fault Refusal :=
  .next (s.lcBurnComplete readBack)

end Sys2Proof.Machine
end

