-- ==== Sys2Proof/Machine/ExecMac.lean ====
section
/-! DEFINITION. The meanings of the commands of the MAC: one definition per command, over the shared operations.
The manual gives each an effect in every state, so each answers a next state. -/

namespace Sys2Proof.Machine

/-- MAC_FRAME_RX (R200 to R203): a frame handed over by its pier passes stage 3. -/
def execMacFrameRx (id : Nat) (adj : Int) (s : State) : Host.Outcome State Fault Refusal :=
  .next (s.macFrameTaken id adj)

/-- LEARN_HOLD_CLOSE (R256): the hold of a sender closes at the LEARN_HOLD-th edge after the tick it opened in. -/
def execLearnHoldClose (eui : U64) (s : State) : Host.Outcome State Fault Refusal :=
  .next (s.learnHoldClose eui)

/-- REASSEMBLY_TIMEOUT (R229): REASM_TIMEOUT ticks since the first fragment of the datagram at a place in the list. -/
def execReassemblyTimeout (n : Nat) (s : State) : Host.Outcome State Fault Refusal :=
  .next (s.reassemblyTimeout n)

/-- ACK_CHECK_DEADLINE (R110, R111, R124, Table 02-2 index 3): the check deadline of the acknowledgement a received frame
may owe. -/
def execAckCheckDeadline (t : U64) (fid : Nat) (s : State) : Host.Outcome State Fault Refusal :=
  .next (s.ackCheckDeadline t fid)

/-- FLOOD_REPETITION (R230): the next repetition of a flood begins, once the previous one has been sent and the flood
is the oldest of its rewind queue. -/
def execFloodRepetition (n : Nat) (s : State) : Host.Outcome State Fault Refusal :=
  .next (s.floodRepetition n)

/-- LIFETIME_EXPIRY (R222): a frame still incomplete LIFETIME ticks after its fetch. -/
def execLifetimeExpiry (n : Nat) (s : State) : Host.Outcome State Fault Refusal :=
  .next (s.lifetimeExpiry n)

end Sys2Proof.Machine
end

