-- ==== Sys2Proof/Machine/ExecParapet.lean ====
section
/-! DEFINITION. The meanings of the commands of the parapet: one definition per command, over the shared operations.
The manual gives each an effect in every state, so each answers a next state. -/

namespace Sys2Proof.Machine

/-- DUTY_BUCKET_ADVANCE (R174): a new bucket opens at a whole second of DTIME at least 1 s of elapsed time after the
last one opened. -/
def execDutyBucketAdvance (t : U64) (s : State) : Host.Outcome State Fault Refusal :=
  .next (s.dutyAdvance t)

/-- PAR_PROGRAM (R166): the burn of an accepted image begins. -/
def execParProgram (d : Desc) (s : State) : Host.Outcome State Fault Refusal :=
  .next (s.parProgram d)

/-- PAR_BURN_COMPLETE (R167): the burn ends, its read-back as the fuses gave it. -/
def execParBurnComplete (read : List Byte) (s : State) : Host.Outcome State Fault Refusal :=
  .next (s.parBurnComplete read)

/-- PAR_READ (R170). Its state is that of a served command ring. -/
def execParRead (d : Desc) (s : State) : Host.Outcome State Fault Refusal :=
  .next (s.parRead d)

end Sys2Proof.Machine
end

