-- ==== Sys2Proof/Machine/ExecQueue.lean ====
section
/-! DEFINITION. The meanings of the commands of the queues: one definition per command, over the shared operations.
The manual gives each an effect in every state, so each answers a next state. -/

namespace Sys2Proof.Machine

/-- QUE_POP (R274, R275): a firmware read of QUE_POP_W0. -/
def execQuePop (q : Nat) (s : State) : Host.Outcome State Fault Refusal :=
  .next (s.quePop q)

/-- QUE_POP_FREE (R274): a firmware write to QUE_POP_W0. -/
def execQuePopFree (q : Nat) (s : State) : Host.Outcome State Fault Refusal :=
  .next (s.quePopFree q)

/-- QUE_DROP_REST (R277). -/
def execQueDropRest (issuer : Issuer) (d : Desc) (s : State) : Host.Outcome State Fault Refusal :=
  .next (s.queDropRest issuer d)

/-- QUE_MARK (R278). -/
def execQueMark (issuer : Issuer) (d : Desc) (s : State) : Host.Outcome State Fault Refusal :=
  .next (s.queMark issuer d)

/-- QUE_REWIND (R278). -/
def execQueRewind (issuer : Issuer) (d : Desc) (s : State) : Host.Outcome State Fault Refusal :=
  .next (s.queRewind issuer d)

/-- QUE_RELEASE (R278). -/
def execQueRelease (issuer : Issuer) (d : Desc) (s : State) : Host.Outcome State Fault Refusal :=
  .next (s.queRelease issuer d)

/-- RX_DELIVERY (R274, R422): ring `r` takes its next item. -/
def execRxDelivery (r : Nat) (s : State) : Host.Outcome State Fault Refusal :=
  .next (s.rxDelivery r)

end Sys2Proof.Machine
end

