-- ==== Sys2Proof/Machine/ExecReceive.lean ====
section
/-! DEFINITION. The meanings of the commands of the receive path: one definition per command, over the shared operations.
The manual gives each an effect in every state, so each answers a next state. -/

namespace Sys2Proof.Machine

/-- CLIPPING_STEP (R93, R94): 12 dB down at once; receptions of the band are flagged. -/
def execClippingStep (t : U64) (b : Nat) (s : State) : Host.Outcome State Fault Refusal :=
  .next (s.clippingStep t b)

/-- RX_WINDOW_OPEN (R194, Table 05-4): the window that resolution gave a primary pier opens. -/
def execRxWindowOpen (t : U64) (p : Nat) (s : State) : Host.Outcome State Fault Refusal :=
  .next (s.rxWindowOpen t p)

/-- RX_WINDOW_CLOSE (R107, R197, R397): no new detections; a beacon window left unheard is counted once nothing can
still bring its beacon. -/
def execRxWindowClose (t : U64) (p : Nat) (s : State) : Host.Outcome State Fault Refusal :=
  .next (s.rxWindowClose t p)

/-- PREAMBLE_DETECT (R100, R101, R108, R109). -/
def execPreambleDetect (t : U64) (p : Nat) (x : Preamble) (s : State) : Host.Outcome State Fault Refusal :=
  .next (s.preambleDetect t p x)

/-- SFD_FOUND (R101, R102, R46): `ts` is the SFD timestamp. -/
def execSfdFound (t : U64) (p : Nat) (ts : Nat) (s : State) : Host.Outcome State Fault Refusal :=
  .next (s.sfdFound t p ts)

/-- SFD_TIMEOUT (R103). -/
def execSfdTimeout (t : U64) (p : Nat) (s : State) : Host.Outcome State Fault Refusal :=
  .next (s.sfdTimeout t p)

/-- PHR_RECEIVED (R104, R105, R122): at the last symbol of the PHR. -/
def execPhrReceived (t : U64) (p : Nat) (h : Phr) (s : State) : Host.Outcome State Fault Refusal :=
  .next (s.phrReceived t p h)

/-- FRAME_END (R106): the last PSDU octet. `octets` are the PSDU as received, `air` its MAC frame as parsed, `cfo` the
final estimate of R115. -/
def execFrameEnd (t : U64) (p : Nat) (air : AirFrame) (octets : List Byte) (cfo : Int)
    (s : State) : Host.Outcome State Fault Refusal :=
  .next (s.frameEnd t p air octets cfo)

end Sys2Proof.Machine
end

