-- ==== Sys2Proof/Machine/ExecRecorder.lean ====
section
/-! DEFINITION. The meanings of the commands of the event recorder: one definition per command, over the shared operations.
The manual gives each an effect in every state, so each answers a next state. -/

namespace Sys2Proof.Machine

/-- EVR_READ (R409). -/
def execEvrRead (d : Desc) (s : State) : Host.Outcome State Fault Refusal :=
  .next (s.evrRead d)

/-- EVR_WRITE (R411). -/
def execEvrWrite (d : Desc) (s : State) : Host.Outcome State Fault Refusal :=
  .next (s.evrWrite d)

/-- EVR_CLEAR (R412, R413). When the log holds no record, the manual does not state the first and last SEQ removed. -/
def execEvrClear (d : Desc) (s : State) : Host.Outcome State Fault Refusal :=
  .next (s.evrClear d)

end Sys2Proof.Machine
end

