-- ==== Sys2Proof/Machine/ExecRed.lean ====
section
/-! DEFINITION. The meanings of the commands of active and standby pairs: one definition per command, over the shared operations.
The manual gives each an effect in every state, so each answers a next state. -/

namespace Sys2Proof.Machine

/-- HEARTBEAT_SEND (R390): at edge + 30 µs, when core 3 has written the body of the tick. -/
def execHeartbeatSend (t : U64) (written : Bool) (s : State) : Host.Outcome State Fault Refusal :=
  .next (s.heartbeatSend t written)

/-- HEARTBEAT_RX (R391): a heartbeat body arrives on the HB link (path 0) or on ETH0 (path 1). -/
def execHeartbeatRx (t : U64) (p : Nat) (b : List Byte) (s : State) : Host.Outcome State Fault Refusal :=
  .next (s.heartbeatRx t p b)

/-- HEARTBEAT_MISS (R391, R393): at edge + 250 µs the tick is judged on both paths. -/
def execHeartbeatMiss (t : U64) (s : State) : Host.Outcome State Fault Refusal :=
  .next (s.heartbeatMiss t)

/-- STANDBY_ARMED (R392): 16 ticks in a row with a valid heartbeat. -/
def execStandbyArmed (s : State) : Host.Outcome State Fault Refusal :=
  .next s.standbyArmed

/-- ILK_IN_RELEASE (R393, R388): ILK_IN becomes inactive; a chip in STANDBY, and a held-off chip, decides. A new
active that asserted by force observes the old active's release. -/
def execIlkInRelease (t : U64) (s : State) : Host.Outcome State Fault Refusal :=
  .next (s.ilkInRelease t)

/-- ILK_IN_ACTIVE (R385, R387): ILK_IN becomes active. The PA goes off at once; a chip that has held ILK_OUT for 1 µs,
or that has the lower priority, is pre-empted. In a pair a chip without ILK_OUT has lost its descriptors to its peer.
-/
def execIlkInActive (t : U64) (s : State) : Host.Outcome State Fault Refusal :=
  .next (s.ilkInActive t)

/-- STUCK_CHECK (R387): one tick after a forced assertion ILK_IN is still active. -/
def execStuckCheck (t : U64) (s : State) : Host.Outcome State Fault Refusal :=
  .next (s.stuckCheck t)

/-- TAKEOVER_RING_RECOVERY (R401, R423): at the first edge after a decision the new active reads the ring state block
and claims it. `tags` gives the TAG of descriptors in host memory, by ring and count. -/
def execTakeoverRingRecovery (rsb : List Byte) (tags : List (Nat × Nat × BitVec 16))
    (s : State) : Host.Outcome State Fault Refusal :=
  .next (s.ringRecovery rsb tags)

/-- RED_SWITCH (R402). -/
def execRedSwitch (d : Desc) (s : State) : Host.Outcome State Fault Refusal :=
  .next (s.redSwitch d)

/-- SWITCHOVER_RELEASE (R402): after the last ramp-down and FEM_LAG the chip releases ILK_OUT and enters STANDBY. -/
def execSwitchoverRelease (t : U64) (s : State) : Host.Outcome State Fault Refusal :=
  .next (s.switchoverRelease t)

/-- SYS_SERVE (R428, R384). -/
def execSysServe (d : Desc) (s : State) : Host.Outcome State Fault Refusal :=
  .next (s.sysServe d)

/-- SERVE_ENTRY (R428): the tick edge at which the new state is entered. -/
def execServeEntry (s : State) : Host.Outcome State Fault Refusal :=
  .next s.serveEntry

end Sys2Proof.Machine
end

