-- ==== Sys2Proof/Machine/ExecSpan.lean ====
section
/-! DEFINITION. The meanings of the commands of the spans: one definition per command, over the shared operations.
The manual gives each an effect in every state, so each answers a next state. -/

namespace Sys2Proof.Machine

/-- COMMIT_WINDOW_CLOSE (R82, R83): at edge + 20 µs the decided spans take effect together, and the learning inserts
held meanwhile are applied to the new state. -/
def execCommitWindowClose (t : U64) (s : State) : Host.Outcome State Fault Refusal :=
  .next (s.commitWindowClose t)

/-- SPAN_OUTCOME: write the results and the completion of span `n`'s outcome (R87, Tables 04-6 and 04-7). -/
def execSpanOutcome (n : Nat) (s : State) : Host.Outcome State Fault Refusal :=
  .next (s.spanOutcome n)

/-- SPAN_CLEANUP: cleanup of span `n` (R88). -/
def execSpanCleanup (n : Nat) (s : State) : Host.Outcome State Fault Refusal :=
  .next (s.spanCleanup n)

/-- SPAN_OPEN (R70). -/
def execSpanOpen (d : Desc) (s : State) : Host.Outcome State Fault Refusal :=
  .next (s.unlessHeld d fun (s : State) => s.spanOpen d)

/-- SPAN_STAGE (R71, R72). -/
def execSpanStage (d : Desc) (s : State) : Host.Outcome State Fault Refusal :=
  .next (s.unlessHeld d fun (s : State) => s.spanStage d)

/-- SPAN_ARM (R74, R84, R85). -/
def execSpanArm (d : Desc) (s : State) : Host.Outcome State Fault Refusal :=
  .next (s.unlessHeld d fun (s : State) => s.spanArm d)

/-- SPAN_ABORT (R75). -/
def execSpanAbort (d : Desc) (s : State) : Host.Outcome State Fault Refusal :=
  .next (s.spanAbort d)

end Sys2Proof.Machine
end

