-- ==== Sys2Proof/Machine/ExecSystem.lean ====
section
/-! DEFINITION. The meanings of the commands of resets, boot, alarms and faults: one definition per command, over the shared operations.
The manual gives each an effect in every state, so each answers a next state. -/

namespace Sys2Proof.Machine

/-- COLD_RESET (R442): a supply ramp, or RESET_N low for 10 µs. The link is down at once, so nothing is completed. -/
def execColdReset (ramp : Bool) (s : State) : Host.Outcome State Fault Refusal :=
  .next (s.coldReset ramp)

/-- RESET_RELEASE (R347, R25): BOOT is entered and the ROM runs. `fuseOk` says whether the fuse sense succeeds. -/
def execResetRelease (fuseOk : Bool) (s : State) : Host.Outcome State Fault Refusal :=
  .next (s.resetRelease fuseOk)

/-- WARM_RESET: a write of SYS_CTRL. -/
def execWarmReset (v : Word) (s : State) : Host.Outcome State Fault Refusal :=
  .next (s.warmReset v)

/-- WATCHDOG_EXPIRY. -/
def execWatchdogExpiry (t : U64) (s : State) : Host.Outcome State Fault Refusal :=
  .next (s.watchdogExpiry t)

/-- BROWN_OUT (R443): a cold reset with the retention store marked empty; in RESET the monitor does not watch. -/
def execBrownOut (s : State) : Host.Outcome State Fault Refusal :=
  .next s.brownOut

/-- SUPPLY_GLITCH (R443): the monitor watches from BOOT on. -/
def execSupplyGlitch (t : U64) (e : SupplyEvent) (s : State) : Host.Outcome State Fault Refusal :=
  .next (s.supplyGlitch t e)

/-- TAMPER (R310): tamper input `n` has been high for 10 µs, or is low again. -/
def execTamper (t : U64) (n : Nat) (active : Bool) (s : State) : Host.Outcome State Fault Refusal :=
  .next (s.tamper t n active)

/-- CLOCK_LOSS (R310): REFCLK_IN has been absent for 2 µs, or runs again. In RESET only its level is noted: REFCLK_IN
need not run before RESET_N rises (R441). -/
def execClockLoss (t : U64) (active : Bool) (s : State) : Host.Outcome State Fault Refusal :=
  .next (s.clockLoss t active)

/-- OVER_TEMPERATURE (R310): the junction rises above 135 °C, or falls below 125 °C. -/
def execOverTemperature (t : U64) (active : Bool) (s : State) : Host.Outcome State Fault Refusal :=
  .next (s.overTemperature t active)

/-- UNCORRECTABLE_ERROR (Table 01-5): in BOOT it is none of the ROM and loader failures the table lists. -/
def execUncorrectableError (t : U64) (blk : Nat) (cause : Nat) (s : State) : Host.Outcome State Fault Refusal :=
  .next (s.uncorrectableError t blk cause)

/-- AON_RESET (R443): VBAT_AON is lost with the main rails off. -/
def execAonReset (s : State) : Host.Outcome State Fault Refusal :=
  .next s.aonReset

/-- LOADER_BOOT (R349): `trained` says whether the memory die trains, `tests` the self-tests of the ten units. -/
def execLoaderBoot (t : U64) (trained : Bool) (tests : List Bool) (s : State) : Host.Outcome State Fault Refusal :=
  .next (s.loaderBoot t trained tests)

end Sys2Proof.Machine
end

