-- ==== Sys2Proof/Machine/ExecTable.lean ====
section
/-! DEFINITION. The meanings of the commands of the tables: one definition per command, over the shared operations.
The manual gives each an effect in every state, so each answers a next state. -/

namespace Sys2Proof.Machine

/-- TBL_READ (R259, R263). -/
def execTblRead (d : Desc) (s : State) : Host.Outcome State Fault Refusal :=
  .next (s.tblRead d)

/-- TBL_WRITE (R260): its whole range is checked before it writes anything. -/
def execTblWrite (d : Desc) (s : State) : Host.Outcome State Fault Refusal :=
  .next (s.tblWrite d)

/-- TBL_LOCK_WRITE (R261): a write of TBL_LOCK(t, h). -/
def execTblLockWrite (table : Nat) (half : Nat) (v : Word) (s : State) : Host.Outcome State Fault Refusal :=
  .next (s.tblLockWrite table half v)

/-- LOCK_WAIT_APPLY (R262): the waiting insertions of a region of table `t` that is no longer locked. -/
def execLockWaitApply (table : Nat) (region : Nat) (s : State) : Host.Outcome State Fault Refusal :=
  .next (s.lockWaitApply table region)

/-- LOCK_EXPIRY (R264): at a tick edge, a region locked for longer than TBL_LOCK_MAX ticks. -/
def execLockExpiry (table : Nat) (region : Nat) (s : State) : Host.Outcome State Fault Refusal :=
  .next (s.lockExpiry table region)

/-- OVERFLOW_DRAIN (R240). -/
def execOverflowDrain (s : State) : Host.Outcome State Fault Refusal :=
  .next s.overflowDrain

/-- MIGRATION_END (R244). -/
def execMigrationEnd (t : U64) (s : State) : Host.Outcome State Fault Refusal :=
  .next (s.migrationEnd t)

/-- SEEN_AGE_OUT (R253): at the edge of their EXPIRY entries age out, a change under R80 but for the targets of a span
about to commit (R82). -/
def execSeenAgeOut (s : State) : Host.Outcome State Fault Refusal :=
  .next s.seenAgeOut

end Sys2Proof.Machine
end

