-- ==== Sys2Proof/Machine/ReadReg.lean ====
section
/-! DEFINITION. Register reads: what every register of BAR0 shows. Registers that are views of other state are computed
here, block by block; all others are held as such (R4, R5, R24). -/

namespace Sys2Proof.Machine

/-- A signed value in `n` bits at bit `lo`. -/
def sfld (v : Int) (n lo : Nat) : Word := fld (unsigned v n) lo

/-- Octets 4i to 4i + 3 of a digest. -/
def digestWord (l : List Byte) (i : Nat) : Word := pw (leAt l (4 * i) 4)

/-- The index of a register in its family, when the offset lies in it. -/
def famIdx (x base step n : Nat) : Option Nat := if inFamily x base step n then some ((x - base) / step) else none

/-- The sum of a value over the bits of a word. -/
def maskOf (n : Nat) (p : Nat → Bool) : Nat := (List.range n).foldl (fun w i => if p i then w + 2 ^ i else w) 0

/-! ### System control, time and the truss -/

/-- SYS registers that are views. -/
def State.readSys (s : State) (a : Nat) : Option Word :=
  if a = Reg.SYS_STATUS then
    some (fld (b2n s.sys.ilkIn) 9 ||| fld (b2n s.sys.ilkOut) 8 ||| fld (b2n s.key.sticky) 5 ||| fld (b2n s.holdoverFlag) 4 |||
      fld s.sys.state.code 0)
  else none

/-- The code of a time source in TIME_SRC.SELECTED. -/
def TimeSource.code (x : TimeSource) : Nat :=
  match x with
  | .none => 0 | .pps => 1 | .ptp => 2 | .beacons => 3

/-- TIME registers that are views (R25 to R49). -/
def State.readTime (s : State) (a : Nat) : Option Word :=
  let t := s.time
  if a = Reg.TIME_TICK_PERIOD then some (fld s.tp.tickPeriod 0)
  else if a = Reg.TIME_SLOT_MULT then some (fld s.tp.kB 8 ||| fld s.tp.kA 0)
  else if a = Reg.TIME_DTIME_LO then some (pw s.now)
  else if a = Reg.TIME_SRC then
    some (fld (b2n t.locked) 12 ||| fld t.selected.code 8 ||| fld (b2n t.beaconOk) 6 ||| fld (b2n t.ptpOk) 5 |||
      fld (b2n t.ppsOk) 4 ||| fld s.role 0)
  else if a = Reg.TIME_PHASE_ERR then some (if t.selected = .none then 0 else sfld (clampS t.phaseErr 32) 32 0)
  else if a = Reg.TIME_FREQ_ADJ then
    some (sfld s.freqCorrection 32 0)
  else if a = Reg.TIME_HOLD then some (fld (b2n t.capped) 31 ||| fld (if s.holdoverFlag then s.extraGuard else 0) 0)
  else none

/-- The code of a truss source in TRUSS_STATUS.SOURCE. -/
def TrussSource.code (x : TrussSource) : Nat :=
  match x with
  | .none => 0 | .bankA => 1 | .bankB => 2 | .window => 3

/-- TRUSS registers that are views. -/
def State.readTruss (s : State) (a : Nat) : Option Word :=
  let u := s.truss.truss
  let sel := u.sections.find? fun x => x.type = s.regFld Reg.TRUSS_SEC_SEL 15 0
  if a = Reg.TRUSS_STATUS then
    some (fld s.truss.lastStatus.code 24 ||| fld s.truss.source.code 8 ||| fld (b2n u.params.calFull) 1 |||
      fld (b2n s.truss.loaded) 0)
  else if a = Reg.TRUSS_ID then some u.trussId
  else if a = Reg.TRUSS_LEN then some (fld u.length 0)
  else if a = Reg.TRUSS_DOMAIN then some (fld u.brId.toNat 16 ||| fld u.domainId.toNat 0)
  else if a = Reg.TRUSS_SEC_SERIAL then
    some (match sel with
      | some x => x.serial
      | none => 0)
  else if a = Reg.TRUSS_SEC_INFO then
    some (match sel with
      | some x => fld (b2n (mutableType x.type)) 31 ||| fld x.value.length 0
      | none => 0)
  else (famIdx a (Reg.TRUSS_DIGEST 0) 4 8).map fun i => digestWord u.digest i

/-! ### Spans -/

/-- The code of a span state (Table 04-1). -/
def SpanState.code (x : SpanState) : Nat :=
  match x with
  | .open_ => 0 | .staging => 1 | .armed => 2 | .committed => 3 | .aborted => 4

/-- SPAN registers that are views (Table 04-1). -/
def State.readSpan (s : State) (a : Nat) : Option Word :=
  if a = Reg.SPAN_VIS then some s.spanVisWord
  else if a = Reg.SPAN_FREE then
    some (fld (maskOf 16 fun n => !(s.span n).clean) 16 ||| fld (maskOf 16 fun n => (s.span n).free) 0)
  else if a = Reg.SPAN_ITEMS_USED then
    some (fld (s.spanc.spans.foldl (fun n x => if x.keeps then n + x.items.length else n) 0) 0)
  else if decide (Reg.SPAN_INFO 0 ≤ a ∧ a < Reg.SPAN_INFO 16) then
    let x := s.span ((a - Reg.SPAN_INFO 0) / 16)
    match a % 16 with
    | 0 => some (fld (b2n x.conflicted) 31 ||| fld (b2n x.alignForward) 30 ||| fld (b2n (Span.epochBound s x)) 29 |||
        fld (b2n x.clean) 28 ||| fld x.state.code 24 ||| fld x.items.length 0)
    | 4 => some (pw x.target.toNat)
    | 8 => some (pw (x.target.toNat / 2 ^ 32))
    | 12 => some (fld x.lastStatus.code 24 ||| fld x.lastFirstBad.toNat 0)
    | _ => none
  else none

/-! ### Front-ends, piers, chains and calibration -/

/-- RXF registers that are views. -/
def State.readRxf (s : State) (a : Nat) : Option Word :=
  let b := a / 0x100 % 0x1000
  let c := s.tp.band b
  if b < 2 then
    if a = Reg.RXF_CTRL b then some (setBits (s.reg a) 0 0 (b2n c.present))
    else if a = Reg.RXF_WINDOW b then some (fld c.windowCentre 0)
    else if a = Reg.RXF_RASTER b then some (fld c.raster 0)
    else if a = Reg.RXF_FIRST b then some (fld c.firstChannel 0)
    else if a = Reg.RXF_CHAN b then some (fld (if c.present then c.channelCount else 0) 0)
    else none
  else none

/-- The code of a pier state (Table 05-4). -/
def PierState.code (x : PierState) : Nat :=
  match x with
  | .off => 0 | .idle => 1 | .search => 2 | .sync => 3 | .header => 4 | .payload => 5 | .drain => 6 | .blanked => 7

/-- The code of a pier role in PIER_STATE. -/
def PierRole.code (x : PierRole) : Nat :=
  match x with
  | .off => 0 | .primaryA => 1 | .primaryB => 2 | .twin => 3

/-- PIER registers that are views (R97, R98, R112 to R115). -/
def State.readPier (s : State) (a : Nat) : Option Word :=
  if a = Reg.PIER_SPLIT then some (fld s.tp.twin 16 ||| fld s.tp.piersB 8 ||| fld s.tp.piersA 0)
  else if a = Reg.PIER_CAPTURE then some (fld s.tp.captureMargin 0)
  else if a = Reg.PIER_BUSY_LO then some (fld (maskOf 32 fun p => (s.pier p).midFrame) 0)
  else if a = Reg.PIER_BUSY_HI then some (fld (maskOf 32 fun p => (s.pier (p + 32)).midFrame) 0)
  else if a = Reg.PIER_TWIN_FREE then some (fld s.freeTwins.length 0)
  else if decide (Reg.PIER_STATE 0 ≤ a ∧ a < Reg.PIER_STATE 64) then
    let p := (a - Reg.PIER_STATE 0) / 16
    let x := s.pier p
    match a % 16 with
    | 0 => some (fld (s.pierRole p).code 30 ||| fld (if x.connected then x.band else 0) 29 |||
        fld (if x.connected then x.channel else 0) 16 ||| fld x.state.code 8 ||| fld (x.partner.getD p) 0)
    | 4 => some (sfld (if x.midFrame then x.power else x.lastPower) 12 16 ||| sfld x.floor 12 0)
    | 8 => some (sfld x.lastCfo 24 0)
    | _ => none
  else none

/-- STATE of TXC_STATUS for a chain: what its claims or its job make it; 7 OFF while it may not be claimed and no claim is
left on it (R140). -/
def State.chainState (s : State) (c : Nat) : Nat :=
  let cs := s.rf.claims.filter fun x => x.chain = c
  let on (p : Claim → Bool) := cs.any fun x => !x.ended && p x
  if !(s.tp.band (chainBand c)).present then 7
  else if cs.any fun x => x.ended && x.stage = .ramped && decide (s.now < x.downAt) then 5
  else if on fun x => x.stage = .on && decide (s.time.elapsed < x.upAt + x.ramp * 1000) then 3
  else if on fun x => x.stage = .on then 4
  else if s.cal.jobs.any fun j => j.chain = c && decide (j.start ≤ s.now) then 6
  else if on fun x => x.stage != .claimed && x.lock.isSome then 2
  else if on fun x => x.stage != .claimed then 1
  else if bit (s.reg (Reg.TXC_CTRL c)) 0 || on (fun _ => true) then 0 else 7

/-- TXC registers that are views (R122 to R133). -/
def State.readTxc (s : State) (a : Nat) : Option Word :=
  let o := a % 0x100000
  let c := o / 0x100
  if c < 4 ∧ a = Reg.TXC_STATUS c then
    some (fld (b2n (s.rf.claims.any fun x => x.chain = c && x.lock.isSome)) 31 ||| fld (b2n (s.calBlock c)) 30 |||
      fld (s.chainState c) 24 ||| fld (s.regFld a 9 0) 0)
  else if 8 ≤ c ∧ c < 10 ∧ a = Reg.TXC_PWR (c - 8) then
    some (setBits (s.reg a) 27 16 (unsigned (s.tp.band (c - 8)).maxPower 12))
  else if 8 ≤ c ∧ c < 10 ∧ a = Reg.TXC_LWT (c - 8) then
    let x := s.tp.band (c - 8)
    some (fld (b2n x.lwt) 16 ||| fld x.lwtExcl 8 ||| fld x.iso 0)
  else none

/-- CAL registers that are views (Table 07-2, R151, R158). -/
def State.readCal (s : State) (a : Nat) : Option Word :=
  let o := a % 0x100000
  let c := (o - 0x100) / 0x40
  if a = Reg.CAL_STATUS then
    some (fld (b2n s.tp.calFull) 31 ||| fld (maskOf 4 fun c => (s.tp.band (chainBand c)).present &&
      (if s.tp.calFull then (s.calIn c .empty).isEmpty else s.cal.compactDone.contains c)) 0)
  else if 0x100 ≤ o ∧ o < 0x200 then
    if a = Reg.CAL_STALE c then
      some (fld ((s.calIn c .expired).length + (s.calIn c .empty).length) 16 ||| fld (s.calIn c .stale).length 0)
    else if a = Reg.CAL_JOB c then
      some (match (s.calJob c).filter fun j => decide (j.start ≤ s.now) with
        | some j => setBits (setBits (setBits (s.reg a) 23 20 j.rank) 17 16 j.kind) 8 0
            (if j.kind = 2 then 0 else j.entries.getD ((s.now - j.start) / 200000) 0)
        | none => setBits (s.reg a) 23 0 0)
    else if a = Reg.CAL_WAIT c then
      some (fld ((s.calPending c).foldl (fun n e => max n (min (s.tick - e.2) 0xFFFF)) 0) 0)
    else none
  else match famIdx a (Reg.CAL_DC 0) 0x100 2 with
    | some b =>
      let x := aget (0, 0) s.cal.dc (32 * b + s.gain b)
      some (sfld x.2 16 16 ||| sfld x.1 16 0)
    | none => none

/-! ### Parapet, cells and MAC -/

/-- PAR registers that are views (R165, R168, R174, R176). -/
def State.readPar (s : State) (a : Nat) : Option Word :=
  let p := s.par
  let b := s.regFld Reg.PAR_SEL 4 4
  let i := s.regFld Reg.PAR_SEL 3 0
  let rs := readRanges s.parImage
  if a = Reg.PAR_STATUS then
    let st := match p.state with
      | .unwritten => 0
      | .sealed => 1
      | .invalid => 2
    some (setBits (s.reg a) 23 0 0 ||| fld (if p.state = .sealed then p.slot else 3) 8 ||| fld (b2n (p.torn 1)) 5 |||
      fld (b2n (p.torn 0)) 4 ||| fld st 0)
  else if a = Reg.PAR_ID then some (if p.state = .sealed then pw (leAt s.parImage 8 4) else 0)
  else if a = Reg.PAR_DUTY_USED ∨ a = Reg.PAR_DUTY_BUDGET then
    some (match (rs b)[i]? with
      | some r =>
        if p.state = .sealed && r.duty then
          (if a = Reg.PAR_DUTY_USED then pw (sumNat ((s.dutyBuckets b i).take r.dutyWindow) / 1000)
           else pw (r.dutyPpm * r.dutyWindow))
        else 0
      | none => 0)
  else match famIdx a (Reg.PAR_DIGEST 0) 4 8, famIdx a (Reg.PAR_BAND 0) 4 2, famIdx a (Reg.PAR_CONT 0) 4 2 with
    | some i, _, _ => some (digestWord p.digest i)
    | _, some b, _ =>
      some (if p.state = .sealed then sfld (extGain s.parImage b) 16 16 ||| fld (rs b).length 0 else 0)
    | _, _, some b =>
      some (pw (s.runNs b / 1000))
    | _, _, _ => none

/-- SCH registers that are views (R180, R199). -/
def State.readSch (s : State) (a : Nat) : Option Word :=
  let b := s.regFld Reg.SCH_SF_SEL 8 8
  let h := s.regFld Reg.SCH_SF_SEL 7 0
  let staged := s.spanc.spans.any fun x => x.keeps && x.items.any fun it =>
    it.obj.cls = .gateList && it.obj.key = frameKey b h || it.obj.cls = .cell && it.obj.key / 65536 = frameKey b h
  if a = Reg.SCH_CELLS then some (fld s.cellsUsed 0)
  else if a = Reg.SCH_SF_INFO then
    some (fld (b2n staged) 30 ||| match s.selectedList with
      | some g => fld 1 31 ||| fld g.family 16 ||| fld g.sfLen 0
      | none => 0)
  else if a = Reg.SCH_SF_CELLS then
    some (match s.selectedList with
      | some g => fld g.cells.length 0
      | none => 0)
  else if a = Reg.SCH_SF_START_LO then
    some (match s.selectedList with
      | some g => pw g.start
      | none => 0)
  else (famIdx a (Reg.SCH_ASN_LO 0) 0x100 2).map fun b => pw (s.asn b)

/-- MAC registers that are views. -/
def State.readMac (s : State) (a : Nat) : Option Word :=
  if a = Reg.MAC_REASM then some (setBits (s.reg a) 10 0 s.rf.reasm.length) else none

/-! ### Tables, queues and the tollgate -/

/-- TBL registers that are views. -/
def State.readTbl (s : State) (a : Nat) : Option Word :=
  let t := s.tbl
  if a = Reg.TBL_EM_SEED0 then some t.seed0
  else if a = Reg.TBL_EM_SEED1 then some t.seed1
  else if a = Reg.TBL_EM_STATUS then
    some (setBits (setBits (s.reg a) 30 30 (b2n t.migration.isSome)) 18 0 t.em.length)
  else if a = Reg.TBL_EM_OVF then some (fld (t.em.filter fun e => ovfBase ≤ e.1).length 0)
  else if a = Reg.TBL_LPM_STATUS then some (fld t.lpm.length 0)
  else if a = Reg.TBL_SEEN_STATUS then some (fld (t.seen.filter fun e => s.seenLive e.2).length 0)
  else if a = Reg.TBL_LEARN then some (fld s.tp.learnEn 16 ||| fld (s.tp.learnHold % 16) 12 ||| fld t.holds.length 0)
  else (famIdx a (Reg.TBL_LOCK_WAIT 0) 4 3).map fun k => fld (t.waits.filter fun w => w.table = k).length 0

/-- The code of a queue type. -/
def QType.code (t : QType) : Nat :=
  match t with
  | .disabled => 0 | .data => 1 | .control => 2 | .rewind => 3

/-- Units of one pool in use by all queues. -/
def State.poolUsed (s : State) (ovf : Bool) : Nat := s.que.queues.foldl (fun n e => n + e.2.unitsUsed ovf) 0

/-- QUE registers that are views (R266 to R286), for the queue of QUE_SEL. -/
def State.readQue (s : State) (a : Nat) : Option Word :=
  let x := s.queue (s.regFld Reg.QUE_SEL 9 0)
  let rew := x.type = .rewind
  if a = Reg.QUE_POOL then
    some (fld ((s.que.queues.foldl (fun n e => n + e.2.quota) 0) / 128) 16 ||| fld (s.poolUsed false) 0)
  else if a = Reg.QUE_OVF then some (fld (s.poolUsed true) 0)
  else if a = Reg.QUE_OVF_SUM then some (fld ((s.que.queues.foldl (fun n e => n + e.2.ovfQuota) 0) / 128) 0)
  else if a = Reg.QUE_INFO then
    some (fld x.type.code 30 ||| fld x.consumer 28 ||| fld x.ring 16 ||| fld x.qflags.toNat 8 ||| fld x.depthLog2 0)
  else if a = Reg.QUE_FILL then some (fld (b2n x.dropping) 31 ||| fld x.items.length 0)
  else if a = Reg.QUE_USE then some (fld (x.unitsUsed false) 0)
  else if a = Reg.QUE_USE_OVF then some (fld (x.unitsUsed true) 0)
  else if a = Reg.QUE_QUOTA then some (fld (x.quota / 128) 0)
  else if a = Reg.QUE_QUOTA_OVF then some (fld (x.ovfQuota / 128) 0)
  else if a = Reg.QUE_SEQ then some (fld x.headSeq.toNat 16 ||| fld x.next.toNat 0)
  else if a = Reg.QUE_REW then
    some (if rew then fld x.firstSeq.toNat 16 ||| fld ((match x.items[x.mark]? with
      | some i => i.seq
      | none => x.next).toNat) 0 else 0)
  else if a = Reg.QUE_HWM_DEPTH then some (fld x.hwmDepth 0)
  else if a = Reg.QUE_HWM_SOJ then some (fld x.hwmSoj 0)
  else if a = Reg.QUE_GAPS then some (fld x.gaps 0)
  else if a = Reg.QUE_LAST_RESET then some (fld x.lastFirst.toNat 16 ||| fld x.lastLast.toNat 0)
  else if decide (Reg.QUE_POP_W 0 0 ≤ a ∧ a < Reg.QUE_POP_W 1024 0) then
    some ((s.queue ((a - Reg.QUE_POP_W 0 0) / 16)).popWords.getD (a / 4 % 4) 0)
  else none

/-- TOL registers that are views (R282, R285, R286), for the policer of TOL_SEL. -/
def State.readTol (s : State) (a : Nat) : Option Word :=
  let x := (s.policer (s.regFld Reg.TOL_SEL 11 0)).fill s.time.elapsed
  if a = Reg.TOL_COUNT then some (fld s.tp.policers 0)
  else if a = Reg.TOL_CIR then some x.cir
  else if a = Reg.TOL_CBS then some x.cbs
  else if a = Reg.TOL_PIR then some x.pir
  else if a = Reg.TOL_PBS then some x.pbs
  else if a = Reg.TOL_TC then some (fld (x.tc / 1000000) 0)
  else if a = Reg.TOL_TP then some (fld (x.tp / 1000000) 0)
  else if a = Reg.TOL_HWM_DEPTH then some (fld x.hwmDepth 0)
  else if a = Reg.TOL_HWM_SOJ then some (fld x.hwmSoj 0)
  else match famIdx a (Reg.TOL_SHAPE_LEVEL 0) 0x100 2, famIdx a (Reg.TOL_SHAPE_LIMIT 0) 0x100 2 with
    | some b, _ => some (sfld (s.shapeLevel b / 1000000) 32 0)
    | _, some b => some (if s.truss.loaded then pw (s.shapeLimit b) else 0)
    | _, _ => none

/-! ### Keys, cipher, check channels -/

/-- KEY registers that are views (R287 to R315). -/
def State.readKey (s : State) (a : Nat) : Option Word :=
  let k := s.key
  let i := s.regFld Reg.KEY_SLOT_SEL 11 0
  let x := s.slot i
  if a = Reg.KEY_LC then
    some (fld k.lcStatus.code 24 ||| fld k.returns 8 ||| fld (b2n (!k.keystoneUsable)) 4 ||| fld k.lc.code 0)
  else if a = Reg.KEY_UID_LO then some (pw k.uid.toNat)
  else if a = Reg.KEY_UID_HI then some (pw (k.uid.toNat / 2 ^ 32))
  else if a = Reg.KEY_PART0 then some (fld s.tp.kcDomain 16 ||| fld (if s.truss.loaded then s.tp.kcDevice else 16) 0)
  else if a = Reg.KEY_PART1 then some (fld s.tp.kcHost 16 ||| fld s.tp.kcNode 0)
  else if a = Reg.KEY_SLOT_INFO then
    some (fld (b2n x.valid) 31 ||| fld (b2n (s.usable i)) 30 ||| fld (b2n (s.slotStaged i)) 29 ||| fld x.attr.toNat 16 |||
      fld x.gen.toNat 8 ||| fld x.parentGen.toNat 0)
  else if a = Reg.KEY_SLOT_PARENT then
    some (fld (b2n (x.valid && x.parent.isNone)) 31 ||| fld (b2n x.invalSeen) 30 ||| fld (x.parent.getD 0) 16 |||
      fld x.invalGen.toNat 8)
  else if a = Reg.KEY_SLOT_OWNER then some (fld (b2n x.owner.isSome) 31 ||| fld (x.owner.getD 0) 0)
  else if a = Reg.KEY_MASTER then
    some (match s.nodeMaster with
      | some m => fld 1 31 ||| fld (s.slot m).gen.toNat 16 ||| fld m 0
      | none => 0)
  else if a = Reg.KEY_NODE_USE then some (fld (s.nodePairs.filter fun e => (s.slot e).owner.isSome).length 0)
  else if a = Reg.KEY_ALARM then
    some (fld (b2n k.latch) 17 ||| fld (b2n k.sticky) 16 ||| fld k.causes.toNat 8 ||| fld k.live.toNat 0)
  else none

/-- CIP registers that are views (R316 to R331). -/
def State.readCip (s : State) (a : Nat) : Option Word :=
  if a = Reg.CIP_STATUS then
    some (fld (maskOf 8 fun i => (s.unit i).state = .slow) 16 ||| fld (maskOf 8 fun i => (s.unit i).run.isSome) 8 |||
      fld (b2n ((s.unit 9).state = .slow)) 5 ||| fld (b2n ((s.unit 8).state = .slow)) 4 |||
      fld (if s.sys.state = .reset then 0 else s.coresInService) 0)
  else if a = Reg.CIP_QUEUE then
    some (fld (s.queued .fwSec + s.queued .fwCore) 24 ||| fld (s.queued .host) 16 ||| fld (s.queued .mac) 0)
  else (famIdx a (Reg.CIP_CORE 0) 0x10 8).map fun i =>
    let u := s.unit i
    let st := match u.state with
      | .inService => 0
      | .slow => 1
      | .selfTest => 2
    match u.run with
    | some r => fld st 30 ||| fld (r.job.cls.code + 1) 28 ||| fld (min (s.time.elapsed - r.start) 0xFFFFFF) 0
    | none => fld st 30

/-- CHK registers that are views (R332 to R344). -/
def State.readChk (s : State) (a : Nat) : Option Word :=
  if a = Reg.CHK_HB1 then some (fld (b2n s.chk.hb1Seen) 8 ||| fld s.chk.hb1Last.toNat 0)
  else if a = Reg.CHK_SCRUB_POS then some (fld s.chk.scrubPos 0)
  else if decide (Reg.CHK_CFG 0 ≤ a ∧ a < Reg.CHK_CFG 8) then
    let n := (a - Reg.CHK_CFG 0) / 0x20
    let c := s.chan n
    match a % 0x20 with
    | 0 => some (fld (s.chanOwner n) 8 ||| fld c.mode 4 ||| fld c.poly 0)
    | 4 => some c.value
    | 8 => some (fld c.lastStatus.code 24 ||| fld (c.jobs.length - 1) 16 ||| fld (b2n (!c.jobs.isEmpty)) 15 |||
        fld (b2n c.seen) 8 ||| fld c.lastAlive.toNat 0)
    | _ => none
  else none

/-! ### Boot, update, redundancy, recorder, host interface, Ethernet and pins -/

/-- BOOT registers that are views (R345 to R352). -/
def State.readBoot (s : State) (a : Nat) : Option Word :=
  let st := match s.boot.stage with
    | .rom => 0
    | .loader => 1
    | .training => 2
    | .bankCheck => 3
    | .done => 4
    | .recovery => 5
  if a = Reg.BOOT_STATUS then some (fld s.boot.loader 9 ||| fld s.boot.bank 8 ||| fld st 0)
  else if a = Reg.BOOT_LOADER_VER then some s.boot.loaderVer
  else if a = Reg.BOOT_FW_VER then some s.boot.fwVer
  else (famIdx a (Reg.BOOT_MR 0 0) 4 64).map fun k => digestWord (s.boot.mr.getD (k / 8) []) (k % 8)

/-- The code of a session in UPD_STATUS. -/
def Session.code (x : Session) : Nat :=
  match x with
  | .idle => 0 | .receiving => 1 | .building => 2 | .forwarding => 3 | .verifying => 4 | .built => 5 | .failed => 6

/-- UPD registers that are views. -/
def State.readUpd (s : State) (a : Nat) : Option Word :=
  let u := s.upd
  let r := s.bankRec
  if a = Reg.UPD_STATUS then some (fld u.lastStatus.code 24 ||| fld (b2n u.head) 8 ||| fld u.session.code 0)
  else if a = Reg.UPD_IMAGE then some u.imageId
  else if a = Reg.UPD_PROGRESS then some (fld u.nextDown 16 ||| fld u.next 0)
  else if a = Reg.UPD_BANK then
    some (fld (b2n u.defaulted) 5 ||| fld (s.regFld a 4 4) 4 ||| fld (b2n u.trial.isSome) 3 ||| fld (r.settings % 2) 2 |||
      fld (r.preferred % 2) 1 ||| fld (s.boot.bank % 2) 0)
  else if a = Reg.UPD_TRIAL then some (fld (s.trialLeft / 1000000) 0)
  else none

/-- RED registers that are views (R388, R392). -/
def State.readRed (s : State) (a : Nat) : Option Word :=
  if a = Reg.RED_STATUS then some (setBits (setBits (s.reg a) 31 31 (b2n s.red.armed)) 30 30 (b2n s.heldOff)) else none

/-- EVR registers that are views (R404 to R415). -/
def State.readEvr (s : State) (a : Nat) : Option Word :=
  let e := s.evr
  if a = Reg.EVR_STATUS then
    some (fld (b2n e.rsvFull) 31 ||| fld (b2n (e.ext != 0)) 30 ||| fld (b2n e.auditGap) 29 ||| fld (s.regFld a 15 0) 0)
  else if a = Reg.EVR_OLDEST then
    some (match e.general with
      | r :: _ => r.seq
      | [] => e.next)
  else if a = Reg.EVR_NEWEST then some e.newest
  else if a = Reg.EVR_USED then some (fld (e.rsvUsed / 4) 16)
  else if a = Reg.EVR_GEN_USED then some (pw e.genUsed)
  else none

/-- HIF_WINDOW: the size BAR2 maps, in MiB (R417). -/
def State.readHif (s : State) (a : Nat) : Option Word :=
  if a = Reg.HIF_WINDOW then some (fld (s.windowSize / 0x100000) 0) else none

/-- ETH_STATUS. -/
def State.readEth (s : State) (a : Nat) : Option Word :=
  (famIdx a (Reg.ETH_STATUS 0) 0x100 2).map fun p => fld (b2n (s.eth p).link) 31 ||| fld (s.eth p).speed 29

/-- PIN registers that are views (R446 to R448). The levels at GPIO pins and at PPS_IN are the outside world's: free values. -/
def State.readPin (s : State) (a : Nat) : Option Word :=
  if a = Reg.PIN_FEM_LEVEL then
    some (fld (maskOf 12 fun i => (s.femLine (i / 6) (i % 6)).getD false) 0)
  else if a = Reg.PIN_STATUS then
    let sp (v : Nat) := if s.truss.loaded then v else 1
    some (fld (sp s.tp.i2c1Speed) 6 ||| fld (sp s.tp.i2c0Speed) 4 ||| fld (bits (Config.freeWord s.free) 2 2) 2 ||| fld (b2n (!s.hif.perst)) 1 |||
      fld (b2n (s.key.lc = .deployed || s.key.lc = .scrapped)) 0)
  else if a = Reg.PIN_GPIO_IN then some (fld (bits (Config.freeWord s.free) 23 0) 0)
  else match famIdx a (Reg.PIN_FN 0) 4 24, famIdx a (Reg.PIN_FEM_FN 0) 4 2 with
    | some n, _ => some (fld (s.tp.gpioFn.getD n 0) 0)
    | _, some b => some ((List.range 6).foldl (fun w i => setBits w (3 * i + 2) (3 * i) (s.tp.femFn.getD (6 * b + i) 0)) 0)
    | _, _ => none

/-- The registers that are views of other state. -/
def State.viewReg (s : State) (a : Nat) : Option Word :=
  match a / 0x100000 with
  | 0x00 => s.readSys a
  | 0x01 => s.readTime a
  | 0x02 => s.readTruss a
  | 0x03 => s.readSpan a
  | 0x04 => s.readRxf a
  | 0x05 => s.readPier a
  | 0x06 => s.readTxc a
  | 0x07 => s.readCal a
  | 0x08 => s.readPar a
  | 0x09 => s.readSch a
  | 0x0A => s.readMac a
  | 0x0B => s.readTbl a
  | 0x0C => s.readQue a
  | 0x0D => s.readTol a
  | 0x0E => s.readKey a
  | 0x0F => s.readCip a
  | 0x10 => s.readChk a
  | 0x11 => s.readBoot a
  | 0x12 => s.readUpd a
  | 0x13 => s.readRed a
  | 0x14 => s.readEvr a
  | 0x15 => s.readHif a
  | 0x16 => s.readEth a
  | 0x17 => s.readPin a
  | _ => none

/-- A write-only field reads 0 (Table 00-7). -/
def RegSpec.shown (r : RegSpec) (v : Word) : Word :=
  r.fields.foldl (fun w f => if f.acc = .wo then setBits w f.hi f.lo 0 else w) v

/-- What a 32-bit read at a BAR0 offset gives (R4, R5, R24): 0 where no register lies, in RESET, and for a register of an
absent band. -/
def State.readReg (s : State) (a : Nat) : Word :=
  if a % 4 ≠ 0 ∨ s.sys.state = .reset ∨ s.absentReg a then 0
  else match findReg a with
    | none => 0
    | some r => r.shown ((s.viewReg a).getD (s.reg a))

/-- What a BAR0 read of `width` octets gives: one of any other width than 4 reads 0 (R4). -/
def State.readAccess (s : State) (a width : Nat) : Word := if width ≠ 4 then 0 else s.readReg a

/-- What a BAR2 read of `n` octets gives (R23): octets at or past the end of the window read 0. -/
def State.readBar2 (s : State) (o n : Nat) : List Byte :=
  (List.range n).map fun i => if s.bar2On && decide (o + i < s.windowSize) then s.readByte (s.window.base + o + i) else 0

end Sys2Proof.Machine
end

