-- ==== Sys2Proof/Machine/Tick.lean ====
section
/-! DEFINITION. The tick edge: TICK_EDGE (R26, R28, R81, R85, R91, R92, R144, R158, R276). -/

namespace Sys2Proof.Machine

/-- SYS_STATE is one in which the tick runs (R26). -/
def State.ticks (s : State) : Bool :=
  s.inStates [.structured, .active, .standby, .maintenance, .alarm] && s.truss.loaded && decide (0 < s.tickNs)

/-- DTIME at the next tick edge: the present instant when that is an edge still due (R25, R42). -/
def State.nextEdge (s : State) : Nat := if s.time.edgeDue then s.now else (s.now / s.tickNs + 1) * s.tickNs

/-- DTIME reaches the next tick edge, and TICKNO follows by R26. -/
def State.toEdge (s : State) : State :=
  let e := s.nextEdge
  s.setTime fun t => { t with
    dtime := BitVec.ofNat 64 e, elapsed := t.elapsed + (e - s.now), edgeDue := false,
    tickno := BitVec.ofNat 48 (tickOf (e % 2 ^ 64) s.tp.tickPeriod) }

/-- A queue accepts items again from the edge after its reset: one gap marker stands for those that arrived before it
(R276). -/
def State.queueEdge (s : State) (q : Nat) : State :=
  let x := s.queue q
  match x.resetDrops with
  | none => s
  | some (first, n) =>
    if n = 0 then s.setQueue q { x with resetDrops := none }
    else ((s.bump (Reg.QUE_CNT 2)).setQueue q { x with
      resetDrops := none, hwmDepth := max x.hwmDepth 1,
      items := { gap := true, sop := false, eop := false, seq := first, len := min n 0xFFFF, overrun := decide (0xFFFF < n),
                 enqTick := s.time.tickno } :: x.items }).freeGaps q

/-- Every queue at the edge. -/
def State.queuesEdge (s : State) : State :=
  (s.que.queues.map fun e => e.1).foldl (fun (s : State) q => s.queueEdge q) s

/-- An upset makes the pointer copies of a queue disagree; the next access finds it (R276). -/
def State.upsetQueue (s : State) (q : Nat) : State :=
  if (s.queue q).type = .disabled then s else s.setQueue q { s.queue q with pointersBad := true }

/-- The noise floor of a pier that has been in SEARCH since the last edge (R114). -/
def State.setFloor (s : State) (p : Nat) (v : Int) : State :=
  if (s.pier p).searched then s.setPier p { s.pier p with floor := clampS v 12 } else s

/-- A tick begins: the piers now in SEARCH measure in it (R114). -/
def State.floorsAgain (s : State) : State :=
  s.setRf fun r => { r with piers := r.piers.map fun x => { x with searched := x.state = .search } }

/-- A reload has ended: the state held is resumed at this edge (R60, Table 01-5). -/
def State.resumeEdge (s : State) : State :=
  if s.truss.resume then ({ s with truss := { s.truss with resume := false } }).resumeService else s

/-- The crowd window counts the ticks that end in ACTIVE and STANDBY (R155, Table 07-4). -/
def State.crowdCount (s : State) : State :=
  if s.inStates [.active, .standby] then s.setCalSt fun x => { x with windowTick := x.windowTick + 1 } else s

/-- What the edge does to time, the settings and the queues, before the radio. -/
def State.edgeSettings (s : State) : State :=
  let s1 := s.resumeEdge.applyEdgeWrites
  let s2 := s1.lockTick.guardTick.queuesEdge
  s2.parTick.redTick

/-- What the edge does with what it samples of the front-ends, chains and piers: the DC means of the tick that ends belong
to the gain index it ran at, so they are stored before the gains move (R158, R91). -/
def State.edgeRadio (s : State) (x : TickSample) : State :=
  let s1 := (s.iqTick 0 x.iqA).iqTick 1 x.iqB
  let s2 := ((s1.headroomTick 0 x.peakA x.meanA).headroomTick 1 x.peakB x.meanB).calTick x.temps
  (x.floors.foldl (fun (s : State) f => s.setFloor f.1 f.2) s2.crowdTick).floorsAgain

/-- TICK_EDGE (R26): the next tick edge, with what it samples. -/
def State.tickEdge (s : State) (x : TickSample) : State :=
  if !s.ticks then s
  else
    let s1 := ((s.lateCalJobs s.nextEdge).toEdge.crowdCount.edgeSettings.edgeRadio x).decideSpans
    (x.upsets.foldl (fun (s : State) q => s.upsetQueue q) s1).settleAir.settleOrphans

end Sys2Proof.Machine
end

