-- ==== Sys2Proof/Machine/ExecTime.lean ====
section
/-! DEFINITION. The meanings of the commands of the tick and device time: one definition per command, over the shared operations.
The manual gives each an effect in every state, so each answers a next state. -/

namespace Sys2Proof.Machine

/-- TICK_EDGE (R26): the next tick edge, with what it samples. -/
def execTickEdge (x : TickSample) (s : State) : Host.Outcome State Fault Refusal :=
  .next (s.tickEdge x)

/-- PPS_EDGE (R38): a rising edge of PPS_IN at DTIME `t`; `adj` is the rate the servo then asks for. -/
def execPpsEdge (t : U64) (adj : Int) (s : State) : Host.Outcome State Fault Refusal :=
  .next (s.ppsEdge t adj)

/-- PPS_LOSS (R38). -/
def execPpsLoss (t : U64) (s : State) : Host.Outcome State Fault Refusal :=
  .next (s.ppsLoss t)

/-- PTP_MESSAGE (R435): a PTP frame of a domain on port `p`. A Sync message that the servo accepts gives the master's
time minus DTIME and the rate the servo then asks for. -/
def execPtpMessage (t : U64) (p : Nat) (domain : Nat) (sync : Option (Int × Int))
    (s : State) : Host.Outcome State Fault Refusal :=
  .next (s.ptpMessage t p domain sync)

/-- PTP_LOSS (R44, Table 02-3). -/
def execPtpLoss (t : U64) (s : State) : Host.Outcome State Fault Refusal :=
  .next (s.ptpLoss t)

/-- ACQUISITION_SEARCH_TIMEOUT (R40): 60 s without a parent beacon in STRUCTURED. -/
def execAcquisitionSearchTimeout (t : U64) (s : State) : Host.Outcome State Fault Refusal :=
  .next (s.searchTimeout t)

/-- LOCK_ACHIEVED (R41): 16 consecutive ticks within 1 µs. -/
def execLockAchieved (s : State) : Host.Outcome State Fault Refusal :=
  .next s.lockAchieved

/-- EXTRA_GUARD_CAPPED (R45): CAPPED sets with one WARNING record. -/
def execExtraGuardCapped (t : U64) (s : State) : Host.Outcome State Fault Refusal :=
  .next (s.guardCapped t)

/-- TIME_SET (R42, Table 20-4). -/
def execTimeSet (d : Desc) (s : State) : Host.Outcome State Fault Refusal :=
  .next (s.timeSet d)

/-- PPS_OUT_PULSE (R48). -/
def execPpsOutPulse (t : U64) (s : State) : Host.Outcome State Fault Refusal :=
  .next (s.ppsOut t)

/-- DTIME_SNAPSHOT (R49): a read of TIME_DTIME_LO latches the other three registers. -/
def execDtimeSnapshot (t : U64) (s : State) : Host.Outcome State Fault Refusal :=
  .next (s.dtimeSnapshot t)

end Sys2Proof.Machine
end

