-- ==== Sys2Proof/Machine/ExecTransmit.lean ====
section
/-! DEFINITION. The meanings of the commands of the transmit chains: one definition per command, over the shared operations.
The manual gives each an effect in every state, so each answers a next state. -/

namespace Sys2Proof.Machine

/-- TUNE_INSTANT (R125, R126, R128, R131, R132): the settings in force are taken, a preemptible calibration job stops,
and the synthesiser retunes; a channel without a stored entry is calibrated first. -/
def execTuneInstant (t : U64) (id : Nat) (s : State) : Host.Outcome State Fault Refusal :=
  .next (s.tuneInstant t id)

/-- COEX_REQUEST (R137): REQ, and with it PRI by rank, from T0 − RAMP − REQ_LEAD. -/
def execCoexRequest (t : U64) (id : Nat) (s : State) : Host.Outcome State Fault Refusal :=
  .next (s.coexRequest t id)

/-- SYNTH_LOCK (R130, R131, R133): lock is confirmed, but not while a calibration of rank 1 is due or running on the
chain. -/
def execSynthLock (t : U64) (id : Nat) (s : State) : Host.Outcome State Fault Refusal :=
  .next (s.synthLock t id)

/-- DECISION_INSTANT (R129, R135, R136, R177): `gnt` is the level of COEXx_GNT, `energy` what the channeliser measured on
the channel, by instant in ns of DTIME and level in 0.25 dB. -/
def execDecisionInstant (t : U64) (id : Nat) (gnt : Bool) (energy : List (Nat × Int))
    (s : State) : Host.Outcome State Fault Refusal :=
  .next (s.decisionInstant t id gnt energy)

/-- RAMP_UP_START (R130): the ramp starts on a locked synthesiser, at T0 − RAMP or later by at most TX_SLIP; without a
lock by then the attempt completes LATE. `x` is what the observation receiver finds of the transmission (R160). -/
def execRampUpStart (t : U64) (id : Nat) (x : Observed) (s : State) : Host.Outcome State Fault Refusal :=
  .next (s.rampUpStart t id x.carrier x.power x.dev)

/-- TX_END (R127, R160, R220): the last PSDU symbol ends and the PA ramps down. `obs` (0.25 dB) and `dev` (0.1 %) are what
the observation receiver measured over the preamble. -/
def execTxEnd (t : U64) (id : Nat) (obs dev : Int) (s : State) : Host.Outcome State Fault Refusal :=
  .next (s.txEnd t id obs dev)

/-- FEM_RETURN (R134, R135, R137): FEM_LAG after the ramp-down the lines return to receive and REQ is released. -/
def execFemReturn (t : U64) (id : Nat) (s : State) : Host.Outcome State Fault Refusal :=
  .next (s.femReturn t id)

/-- BLANKING_END (R136): BLANK_TAIL after the ramp-down, the piers that nothing else blanks search again. -/
def execBlankingEnd (t : U64) (id : Nat) (s : State) : Host.Outcome State Fault Refusal :=
  .next (s.blankingEnd t id)

/-- COEX_GRANT_WITHDRAWN (R138): transmissions of the band past their decision instant ramp down and complete LATE. -/
def execCoexGrantWithdrawn (t : U64) (b : Nat) (s : State) : Host.Outcome State Fault Refusal :=
  .next (s.coexGrantWithdrawn t b)

/-- PARAPET_BACKSTOP (R178): emission past the checked run of continuous transmission ends PARAPET. -/
def execParapetBackstop (t : U64) (id : Nat) (s : State) : Host.Outcome State Fault Refusal :=
  .next (s.parapetBackstop t id)

/-- ACK_WAIT_CLOSE (R220): the wait of a sent frame ends; a frame still being judged in it may yet answer. -/
def execAckWaitClose (t : U64) (id : Nat) (s : State) : Host.Outcome State Fault Refusal :=
  .next (s.ackWaitClose t id)

end Sys2Proof.Machine
end

