-- ==== Sys2Proof/Machine/ExecTruss.lean ====
section
/-! DEFINITION. The meanings of the commands of the truss: one definition per command, over the shared operations.
The manual gives each an effect in every state, so each answers a next state. -/

namespace Sys2Proof.Machine

/-- TRUSS_RELOAD (R60, R427): the truss is copied and MAINTENANCE entered. -/
def execTrussReload (d : Desc) (s : State) : Host.Outcome State Fault Refusal :=
  .next (s.trussReload d)

/-- TRUSS_RELOAD_COMPLETE (R60 to R62): the reload ends; service resumes at the next tick edge. -/
def execTrussReloadComplete (t : U64) (s : State) : Host.Outcome State Fault Refusal :=
  .next (s.trussReloadComplete t)

/-- TRUSS_READ (R66). -/
def execTrussRead (d : Desc) (s : State) : Host.Outcome State Fault Refusal :=
  .next (s.trussRead d)

end Sys2Proof.Machine
end

