-- ==== Sys2Proof/Machine/ExecUpdate.lean ====
section
/-! DEFINITION. The meanings of the commands of the field update: one definition per command, over the shared operations.
The manual gives each an effect in every state, so each answers a next state. -/

namespace Sys2Proof.Machine

/-- OFFER (R366): `chain` begins with the receiver. -/
def execOffer (t : U64) (mac : List Byte) (id : Word) (total : Nat) (mb : Nat) (headMac : List Byte)
    (chain : List HopEntry) (s : State) : Host.Outcome State Fault Refusal :=
  .next (s.viaOffer t mac id total mb headMac chain)

/-- ACCEPT (R368). -/
def execAccept (t : U64) (mac : List Byte) (id : Word) (next : Nat) (s : State) : Host.Outcome State Fault Refusal :=
  .next (s.viaAccept t mac id next)

/-- REFUSE (R369). -/
def execRefuse (t : U64) (mac : List Byte) (id : Word) (reason : Nat)
    (s : State) : Host.Outcome State Fault Refusal :=
  .next (s.viaRefuse t mac id reason)

/-- BLOCK (R367): a block arrives from the upstream hop. -/
def execBlock (t : U64) (b : List Byte) (s : State) : Host.Outcome State Fault Refusal :=
  .next (s.viaBlock t b)

/-- ACK (R368). -/
def execAck (t : U64) (mac : List Byte) (id : Word) (next : Nat) (s : State) : Host.Outcome State Fault Refusal :=
  .next (s.viaAck t mac id next)

/-- REPORT (R371): the head notes the status of chain entry `n`. -/
def execReport (t : U64) (id : Word) (n : Nat) (st : Nat) (s : State) : Host.Outcome State Fault Refusal :=
  .next (s.viaReport t id n st)

/-- VIADUCT_BLOCK_SEND (R368): the next block goes through the rewind queue to the neighbour. -/
def execViaductBlockSend (t : U64) (s : State) : Host.Outcome State Fault Refusal :=
  .next (s.viaBlockSend t)

/-- VIADUCT_RETRANSMIT (R368). -/
def execViaductRetransmit (t : U64) (s : State) : Host.Outcome State Fault Refusal :=
  .next (s.viaRetransmit t)

/-- HOP_SKIP (R369): no answer to an OFFER, or no progress, for HOP_TIMEOUT. -/
def execHopSkip (t : U64) (s : State) : Host.Outcome State Fault Refusal :=
  .next (s.hopSkip t)

/-- SESSION_IDLE_TIMEOUT (R370). -/
def execSessionIdleTimeout (t : U64) (s : State) : Host.Outcome State Fault Refusal :=
  .next (s.sessionIdleTimeout t)

/-- IMAGE_BUILD (R372): `flashOk` says whether every erase and program of the flash succeeded. -/
def execImageBuild (t : U64) (flashOk : Bool) (s : State) : Host.Outcome State Fault Refusal :=
  .next (s.imageBuild t flashOk)

/-- IMAGE_VERIFY (R373): the image is read back into the staging partition, over the stream, and checked. -/
def execImageVerify (t : U64) (s : State) : Host.Outcome State Fault Refusal :=
  .next (s.imageVerify t)

/-- UPD_START (R371). -/
def execUpdStart (d : Desc) (s : State) : Host.Outcome State Fault Refusal :=
  .next (s.updStart d)

/-- UPD_ABORT (R381). -/
def execUpdAbort (d : Desc) (s : State) : Host.Outcome State Fault Refusal :=
  .next (s.updAbort d)

/-- UPD_ACTIVATE (R376, R408): Table 17-7 to the end of its step 3. -/
def execUpdActivate (d : Desc) (s : State) : Host.Outcome State Fault Refusal :=
  .next (s.updActivate d)

/-- ACTIVATION_RESUME (step 4 of Table 17-7): the state held is resumed at a tick edge, the command completes and the
trial starts. -/
def execActivationResume (t : U64) (s : State) : Host.Outcome State Fault Refusal :=
  .next (s.activationResume t)

/-- UPD_CONFIRM (R378). -/
def execUpdConfirm (d : Desc) (s : State) : Host.Outcome State Fault Refusal :=
  .next (s.updConfirm d)

/-- TRIAL_EXPIRY (R378): the trial ends without its check: the record falls back and the device restarts. -/
def execTrialExpiry (t : U64) (s : State) : Host.Outcome State Fault Refusal :=
  .next (s.trialExpiry t)

/-- UPD_RESIDENT (R380): in service the running bank, through a warm reset; in RECOVERY either bank, at once, with
`tests` the self-tests of the entry to STRUCTURED that follows. -/
def execUpdResident (d : Desc) (tests : List Bool) (s : State) : Host.Outcome State Fault Refusal :=
  .next (s.updResident d tests)

end Sys2Proof.Machine
end

