-- ==== Sys2Proof/Machine/Dispatch.lean ====
section
/-! DEFINITION. The meaning of every command of the opcode table, by its constructor. -/

namespace Sys2Proof.Machine

open Sys2Proof (Instr)

/-- The effect of a command on everything but the queue of waiting commands. -/
def exec (i : Instr) (s : State) : Host.Outcome State Fault Refusal :=
  match i with
  | .coldReset ramp => Sys2Proof.Machine.execColdReset ramp s
  | .resetRelease fuseOk => Sys2Proof.Machine.execResetRelease fuseOk s
  | .warmReset v => Sys2Proof.Machine.execWarmReset v s
  | .watchdogExpiry t => Sys2Proof.Machine.execWatchdogExpiry t s
  | .brownOut => Sys2Proof.Machine.execBrownOut s
  | .supplyGlitch t e => Sys2Proof.Machine.execSupplyGlitch t e s
  | .tamper t n active => Sys2Proof.Machine.execTamper t n active s
  | .clockLoss t active => Sys2Proof.Machine.execClockLoss t active s
  | .overTemperature t active => Sys2Proof.Machine.execOverTemperature t active s
  | .uncorrectableError t blk cause => Sys2Proof.Machine.execUncorrectableError t blk cause s
  | .aonReset => Sys2Proof.Machine.execAonReset s
  | .pePerst low => Sys2Proof.Machine.execPePerst low s
  | .loaderBoot t trained tests => Sys2Proof.Machine.execLoaderBoot t trained tests s
  | .calibrationSweep t => Sys2Proof.Machine.execCalibrationSweep t s
  | .tickEdge x => Sys2Proof.Machine.execTickEdge x s
  | .workItemLate t x => Sys2Proof.Machine.execWorkItemLate t x s
  | .clippingStep t b => Sys2Proof.Machine.execClippingStep t b s
  | .commitWindowClose t => Sys2Proof.Machine.execCommitWindowClose t s
  | .spanOutcome n => Sys2Proof.Machine.execSpanOutcome n s
  | .spanCleanup n => Sys2Proof.Machine.execSpanCleanup n s
  | .cellResolution t b => Sys2Proof.Machine.execCellResolution t b s
  | .calJobPlacement t => Sys2Proof.Machine.execCalJobPlacement t s
  | .calJobComplete t c => Sys2Proof.Machine.execCalJobComplete t c s
  | .mandatoryRecalibration t c => Sys2Proof.Machine.execMandatoryRecalibration t c s
  | .compactCalibration t c => Sys2Proof.Machine.execCompactCalibration t c s
  | .calSynth d => Sys2Proof.Machine.execCalSynth d s
  | .crowdWindowEnd t => Sys2Proof.Machine.execCrowdWindowEnd t s
  | .ppsEdge t adj => Sys2Proof.Machine.execPpsEdge t adj s
  | .ppsLoss t => Sys2Proof.Machine.execPpsLoss t s
  | .ptpMessage t p domain sync => Sys2Proof.Machine.execPtpMessage t p domain sync s
  | .ptpLoss t => Sys2Proof.Machine.execPtpLoss t s
  | .acquisitionSearchTimeout t => Sys2Proof.Machine.execAcquisitionSearchTimeout t s
  | .lockAchieved => Sys2Proof.Machine.execLockAchieved s
  | .extraGuardCapped t => Sys2Proof.Machine.execExtraGuardCapped t s
  | .timeSet d => Sys2Proof.Machine.execTimeSet d s
  | .ppsOutPulse t => Sys2Proof.Machine.execPpsOutPulse t s
  | .dtimeSnapshot t => Sys2Proof.Machine.execDtimeSnapshot t s
  | .trussReload d => Sys2Proof.Machine.execTrussReload d s
  | .trussReloadComplete t => Sys2Proof.Machine.execTrussReloadComplete t s
  | .trussRead d => Sys2Proof.Machine.execTrussRead d s
  | .spanOpen d => Sys2Proof.Machine.execSpanOpen d s
  | .spanStage d => Sys2Proof.Machine.execSpanStage d s
  | .spanArm d => Sys2Proof.Machine.execSpanArm d s
  | .spanAbort d => Sys2Proof.Machine.execSpanAbort d s
  | .rxWindowOpen t p => Sys2Proof.Machine.execRxWindowOpen t p s
  | .rxWindowClose t p => Sys2Proof.Machine.execRxWindowClose t p s
  | .preambleDetect t p x => Sys2Proof.Machine.execPreambleDetect t p x s
  | .sfdFound t p ts => Sys2Proof.Machine.execSfdFound t p ts s
  | .sfdTimeout t p => Sys2Proof.Machine.execSfdTimeout t p s
  | .phrReceived t p h => Sys2Proof.Machine.execPhrReceived t p h s
  | .frameEnd t p air octets cfo => Sys2Proof.Machine.execFrameEnd t p air octets cfo s
  | .macFrameRx id adj => Sys2Proof.Machine.execMacFrameRx id adj s
  | .cipherDispatch t u => Sys2Proof.Machine.execCipherDispatch t u s
  | .cipherJobComplete t u => Sys2Proof.Machine.execCipherJobComplete t u s
  | .learnHoldClose eui => Sys2Proof.Machine.execLearnHoldClose eui s
  | .reassemblyTimeout n => Sys2Proof.Machine.execReassemblyTimeout n s
  | .ackCheckDeadline t fid => Sys2Proof.Machine.execAckCheckDeadline t fid s
  | .txDescriptorFetch r d buf => Sys2Proof.Machine.execTxDescriptorFetch r d buf s
  | .floodRepetition n => Sys2Proof.Machine.execFloodRepetition n s
  | .slowMark t u => Sys2Proof.Machine.execSlowMark t u s
  | .slowStop t u => Sys2Proof.Machine.execSlowStop t u s
  | .tuneInstant t id => Sys2Proof.Machine.execTuneInstant t id s
  | .coexRequest t id => Sys2Proof.Machine.execCoexRequest t id s
  | .synthLock t id => Sys2Proof.Machine.execSynthLock t id s
  | .decisionInstant t id gnt energy => Sys2Proof.Machine.execDecisionInstant t id gnt energy s
  | .rampUpStart t id x => Sys2Proof.Machine.execRampUpStart t id x s
  | .txEnd t id obs dev => Sys2Proof.Machine.execTxEnd t id obs dev s
  | .femReturn t id => Sys2Proof.Machine.execFemReturn t id s
  | .blankingEnd t id => Sys2Proof.Machine.execBlankingEnd t id s
  | .coexGrantWithdrawn t b => Sys2Proof.Machine.execCoexGrantWithdrawn t b s
  | .parapetBackstop t id => Sys2Proof.Machine.execParapetBackstop t id s
  | .ackWaitClose t id => Sys2Proof.Machine.execAckWaitClose t id s
  | .lifetimeExpiry n => Sys2Proof.Machine.execLifetimeExpiry n s
  | .dutyBucketAdvance t => Sys2Proof.Machine.execDutyBucketAdvance t s
  | .parProgram d => Sys2Proof.Machine.execParProgram d s
  | .parBurnComplete read => Sys2Proof.Machine.execParBurnComplete read s
  | .parRead d => Sys2Proof.Machine.execParRead d s
  | .schGlRead d => Sys2Proof.Machine.execSchGlRead d s
  | .cipSubmit d => Sys2Proof.Machine.execCipSubmit d s
  | .cipSelftest d => Sys2Proof.Machine.execCipSelftest d s
  | .keyRestore d => Sys2Proof.Machine.execKeyRestore d s
  | .keyDerive d => Sys2Proof.Machine.execKeyDerive d s
  | .keyImport d => Sys2Proof.Machine.execKeyImport d s
  | .keyLcSet d => Sys2Proof.Machine.execKeyLcSet d s
  | .keyAlarmAck d => Sys2Proof.Machine.execKeyAlarmAck d s
  | .tblRead d => Sys2Proof.Machine.execTblRead d s
  | .tblWrite d => Sys2Proof.Machine.execTblWrite d s
  | .tblLockWrite table half v => Sys2Proof.Machine.execTblLockWrite table half v s
  | .lockWaitApply table region => Sys2Proof.Machine.execLockWaitApply table region s
  | .lockExpiry table region => Sys2Proof.Machine.execLockExpiry table region s
  | .overflowDrain => Sys2Proof.Machine.execOverflowDrain s
  | .migrationEnd t => Sys2Proof.Machine.execMigrationEnd t s
  | .seenAgeOut => Sys2Proof.Machine.execSeenAgeOut s
  | .quePop q => Sys2Proof.Machine.execQuePop q s
  | .quePopFree q => Sys2Proof.Machine.execQuePopFree q s
  | .queDropRest issuer d => Sys2Proof.Machine.execQueDropRest issuer d s
  | .queMark issuer d => Sys2Proof.Machine.execQueMark issuer d s
  | .queRewind issuer d => Sys2Proof.Machine.execQueRewind issuer d s
  | .queRelease issuer d => Sys2Proof.Machine.execQueRelease issuer d s
  | .rxDelivery r => Sys2Proof.Machine.execRxDelivery r s
  | .chkScan d => Sys2Proof.Machine.execChkScan d s
  | .chkScanComplete ch => Sys2Proof.Machine.execChkScanComplete ch s
  | .chkCfgWrite n v => Sys2Proof.Machine.execChkCfgWrite n v s
  | .contextScrub => Sys2Proof.Machine.execContextScrub s
  | .attest d => Sys2Proof.Machine.execAttest d s
  | .attestRequestRx p mac nonce => Sys2Proof.Machine.execAttestRequestRx p mac nonce s
  | .attestReport => Sys2Proof.Machine.execAttestReport s
  | .bootAttestPub d => Sys2Proof.Machine.execBootAttestPub d s
  | .bootMrExtend d => Sys2Proof.Machine.execBootMrExtend d s
  | .offer t mac id total mb headMac chain => Sys2Proof.Machine.execOffer t mac id total mb headMac chain s
  | .accept t mac id next => Sys2Proof.Machine.execAccept t mac id next s
  | .refuse t mac id reason => Sys2Proof.Machine.execRefuse t mac id reason s
  | .block t b => Sys2Proof.Machine.execBlock t b s
  | .ack t mac id next => Sys2Proof.Machine.execAck t mac id next s
  | .report t id n st => Sys2Proof.Machine.execReport t id n st s
  | .viaductBlockSend t => Sys2Proof.Machine.execViaductBlockSend t s
  | .viaductRetransmit t => Sys2Proof.Machine.execViaductRetransmit t s
  | .hopSkip t => Sys2Proof.Machine.execHopSkip t s
  | .sessionIdleTimeout t => Sys2Proof.Machine.execSessionIdleTimeout t s
  | .imageBuild t flashOk => Sys2Proof.Machine.execImageBuild t flashOk s
  | .imageVerify t => Sys2Proof.Machine.execImageVerify t s
  | .updStart d => Sys2Proof.Machine.execUpdStart d s
  | .updAbort d => Sys2Proof.Machine.execUpdAbort d s
  | .updActivate d => Sys2Proof.Machine.execUpdActivate d s
  | .activationResume t => Sys2Proof.Machine.execActivationResume t s
  | .updConfirm d => Sys2Proof.Machine.execUpdConfirm d s
  | .trialExpiry t => Sys2Proof.Machine.execTrialExpiry t s
  | .updResident d tests => Sys2Proof.Machine.execUpdResident d tests s
  | .heartbeatSend t written => Sys2Proof.Machine.execHeartbeatSend t written s
  | .heartbeatRx t p b => Sys2Proof.Machine.execHeartbeatRx t p b s
  | .heartbeatMiss t => Sys2Proof.Machine.execHeartbeatMiss t s
  | .standbyArmed => Sys2Proof.Machine.execStandbyArmed s
  | .ilkInRelease t => Sys2Proof.Machine.execIlkInRelease t s
  | .ilkInActive t => Sys2Proof.Machine.execIlkInActive t s
  | .stuckCheck t => Sys2Proof.Machine.execStuckCheck t s
  | .takeoverRingRecovery rsb tags => Sys2Proof.Machine.execTakeoverRingRecovery rsb tags s
  | .redSwitch d => Sys2Proof.Machine.execRedSwitch d s
  | .switchoverRelease t => Sys2Proof.Machine.execSwitchoverRelease t s
  | .sysServe d => Sys2Proof.Machine.execSysServe d s
  | .serveEntry => Sys2Proof.Machine.execServeEntry s
  | .evrRead d => Sys2Proof.Machine.execEvrRead d s
  | .evrWrite d => Sys2Proof.Machine.execEvrWrite d s
  | .evrClear d => Sys2Proof.Machine.execEvrClear d s
  | .hostRingProdWrite k v => Sys2Proof.Machine.execHostRingProdWrite k v s
  | .hostRingConsWrite k v => Sys2Proof.Machine.execHostRingConsWrite k v s
  | .commandFetch d => Sys2Proof.Machine.execCommandFetch d s
  | .phaseReread r d buf => Sys2Proof.Machine.execPhaseReread r d buf s
  | .completionWrite => Sys2Proof.Machine.execCompletionWrite s
  | .interruptModerationExpiry t v => Sys2Proof.Machine.execInterruptModerationExpiry t v s
  | .hifNop d => Sys2Proof.Machine.execHifNop d s
  | .ctxRead d => Sys2Proof.Machine.execCtxRead d s
  | .ctxUpdate d => Sys2Proof.Machine.execCtxUpdate d s
  | .ctxRepair d => Sys2Proof.Machine.execCtxRepair d s
  | .bar2Access write o bs => Sys2Proof.Machine.execBar2Access write o bs s
  | .ethFrameRx t p bs fcsOk => Sys2Proof.Machine.execEthFrameRx t p bs fcsOk s
  | .ethSend d => Sys2Proof.Machine.execEthSend d s
  | .ethLinkChange p up speed => Sys2Proof.Machine.execEthLinkChange p up speed s
  | .ethCtrlWrite p ptp v => Sys2Proof.Machine.execEthCtrlWrite p ptp v s
  | .calEntryDataRead => Sys2Proof.Machine.execCalEntryDataRead s
  | .schAsnRead b => Sys2Proof.Machine.execSchAsnRead b s
  | .schSfStartRead => Sys2Proof.Machine.execSchSfStartRead s
  | .registerWrite a width v => Sys2Proof.Machine.execRegisterWrite a width v s
  | .selfTestComplete t u pass => Sys2Proof.Machine.execSelfTestComplete t u pass s
  | .lifeCycleBurnComplete readBack => Sys2Proof.Machine.execLifeCycleBurnComplete readBack s
  | .ethernetEgress p => Sys2Proof.Machine.execEthernetEgress p s
  | .pauseQuantaExpiry p => Sys2Proof.Machine.execPauseQuantaExpiry p s
  | .pcieLinkChange up speed width => Sys2Proof.Machine.execPcieLinkChange up speed width s

end Sys2Proof.Machine
end

