-- ==== Sys2Proof/Machine/Pins.lean ====
section
/-! DEFINITION. The states of the pins that Table 21-7 gives (R444, R446, R447, R448), as views of State. The FEM lines and
the coexistence lines are in Transmit.lean, ILK_OUT and ILK_IN are fields of State. -/

namespace Sys2Proof.Machine

/-- RESET and BOOT, in which most pins are at rest (Table 21-7). -/
def State.pinsRest (s : State) : Bool := s.sys.state = .reset || s.sys.state = .boot

/-- ALARM_N is pulled low: while the sticky flag is 1, and outside RESET while SYS_STATE is ALARM (Table 21-7). -/
def State.alarmNLow (s : State) : Bool := s.key.sticky || s.sys.state = .alarm

/-- HB_TX is driven: from STRUCTURED on, in a pair with its heartbeat link enabled; else it is high-impedance. -/
def State.hbTxDriven (s : State) : Bool := !s.pinsRest && s.pair && s.hbEnabled 0

/-- JTAG_TCK, JTAG_TMS and JTAG_TDI are ignored: in DEPLOYED and SCRAPPED, from STRUCTURED on. -/
def State.jtagIgnored (s : State) : Bool := !s.pinsRest && (s.key.lc = .deployed || s.key.lc = .scrapped)

/-- XSPI_RESET_N is driven high: in every state but RESET (the 10 µs at entry to BOOT are timing, log 70). -/
def State.xspiResetN (s : State) : Bool := s.sys.state != .reset

/-- The pulls of GPIO `n`: its pull-down and its pull-up (R444, R448). -/
def State.gpioPulls (s : State) (n : Nat) : Bool × Bool :=
  if s.pinsRest then (true, false) else (bit (s.reg Reg.PIN_GPIO_PD) n, bit (s.reg Reg.PIN_GPIO_PU) n)

/-- The level the device drives on GPIO `n`; none while it does not drive the pin, as in RESET and BOOT (R444, R447). -/
def State.gpioLevel (s : State) (n : Nat) : Option Bool :=
  if s.pinsRest then none
  else
    let pulse (ns : Nat) : Bool := s.ticks && decide (s.now % (max 1 ns) < 1000)
    match s.tp.gpioFn.getD n 0 with
    | 0 => if bit (s.reg Reg.PIN_GPIO_OE) n then some (bit (s.reg Reg.PIN_GPIO_OUT) n) else none
    | 1 => some s.holdoverFlag
    | 2 => some (s.sys.state = .active && s.sys.ilkOut)
    | 3 => some (pulse s.tickNs)
    | 4 => some (s.tp.bandA.present && pulse (s.tickNs * s.tp.kA))
    | 5 => some (s.tp.bandB.present && pulse (s.tickNs * s.tp.kB))
    | _ => none

end Sys2Proof.Machine
end

