-- ==== Sys2Proof/Safety.lean ====
section
/-! DEFINITION. The terms claims about runs are stated in: completion of a command, and the properties a state keeps. -/

namespace Sys2Proof.Machine

/-- Command `c` runs in `s` and leaves `t`. -/
def Runs (c : Sys2Proof.Instr) (s t : State) : Prop := exec c s = .next t

/-- A property every step keeps, in every state. -/
def Kept (inv : State → Prop) : Prop := ∀ s t : State, inv s → step s = .next t → inv t

/-- The register file's canonical form: offsets rise strictly and no register is listed at its reset value. -/
def Regs.wf (m : List (Nat × Word)) : Bool := risingKeys m && m.all fun e => decide (e.2 ≠ resetOf e.1)

/-- The sparse stores of a state are in their canonical forms, so that equal contents are equal data: the memory die, the
boot flash, the registers, the node contexts, the key slots and the policers. -/
def State.tidy (s : State) : Prop :=
  Memory.wf s.mem = true ∧ Flash.wf s.flash = true ∧ Regs.wf s.regs = true ∧ canonical {} s.ctxs = true ∧
    canonical {} s.key.slots = true ∧ canonical {} s.tol.policers = true

/-- The parts of a state: its fields but for the waiting commands. -/
inductive Part where
  | sys | time | truss | evr | hif | spanc | sch | tbl | que | tol | key | cip | par | cal | rf | red | chk | boot | upd | flash | ethA | ethB | regs | regWrites | ctxs | mem | outbox | free
  deriving DecidableEq, Repr

/-- Part `p` is the same in two states. -/
def State.same (p : Part) (s t : State) : Prop :=
  match p with
  | .sys => t.sys = s.sys
  | .time => t.time = s.time
  | .truss => t.truss = s.truss
  | .evr => t.evr = s.evr
  | .hif => t.hif = s.hif
  | .spanc => t.spanc = s.spanc
  | .sch => t.sch = s.sch
  | .tbl => t.tbl = s.tbl
  | .que => t.que = s.que
  | .tol => t.tol = s.tol
  | .key => t.key = s.key
  | .cip => t.cip = s.cip
  | .par => t.par = s.par
  | .cal => t.cal = s.cal
  | .rf => t.rf = s.rf
  | .red => t.red = s.red
  | .chk => t.chk = s.chk
  | .boot => t.boot = s.boot
  | .upd => t.upd = s.upd
  | .flash => t.flash = s.flash
  | .ethA => t.ethA = s.ethA
  | .ethB => t.ethB = s.ethB
  | .regs => t.regs = s.regs
  | .regWrites => t.regWrites = s.regWrites
  | .ctxs => t.ctxs = s.ctxs
  | .mem => t.mem = s.mem
  | .outbox => t.outbox = s.outbox
  | .free => t.free = s.free

/-- `t` differs from `s` in no part but those listed. -/
def OnlyIn (w : List Part) (s t : State) : Prop := ∀ p : Part, p ∈ w ∨ State.same p s t

/-- A step is safe when it neither faults nor refuses. -/
def SafeStep (s : State) : Prop := ∃ t : State, step s = .next t

/-- A queue command is answered: one of the host completes OK, and one of the firmware completes nothing (R277). -/
def State.answered (t : State) (w : Issuer) (d : Desc) (s : State) : Prop :=
  match w with
  | .host => ∃ c : Completion, t.hif.held = s.hif.held ++ [c] ∧ c.tag = d.tag ∧ c.status = .ok
  | .firmware => t.hif = s.hif

/-- The entries of a table after the cleanup of a span (R88): those that carry none of its marks stay; of its own, the
pending adds of a committed span and the pending deletes of an aborted one are plain, and the others are gone. -/
def Settled {α : Type} (mark : α → Mark) (mine : α → Prop) (plain : α → α) (commit : Prop) (old new : List (Nat × α)) :
    Prop :=
  ∀ e : Nat × α, e ∈ new ↔ (e ∈ old ∧ (¬ mine e.2 ∨ mark e.2 = .plain)) ∨
    ∃ o ∈ old, mine o.2 ∧ e = (o.1, plain o.2) ∧
      (commit ∧ mark o.2 = .pendingAdd ∨ ¬ commit ∧ mark o.2 = .pendingDelete)

/-- The commands that may change the boot flash: the loader, the building of an image, activation, confirmation, the end of a
trial, a load of the resident image, and the end of a migration that an activation waited for (R245). -/
def Instr.changesFlash (c : Sys2Proof.Instr) : Bool :=
  match c with
  | .loaderBoot .. | .imageBuild .. | .updActivate .. | .updConfirm .. | .trialExpiry .. | .updResident .. |
    .migrationEnd .. => true
  | _ => false

/-- The commands that may change the cells and gate lists or what is noted of a slot's resolution: the commit window, what
loads or drops a truss (a reload that waited for a migration's end among them, R245), and a resolution, done or late. -/
def Instr.changesSchedule (c : Sys2Proof.Instr) : Bool :=
  match c with
  | .coldReset .. | .warmReset .. | .watchdogExpiry .. | .brownOut .. | .loaderBoot .. | .commitWindowClose .. |
    .trussReloadComplete .. | .updActivate .. | .trialExpiry .. | .updResident .. | .registerWrite .. | .migrationEnd .. |
    .cellResolution .. | .workItemLate .. => true
  | _ => false

/-- The commands that may change the truss in force or its loading. -/
def Instr.changesTruss (c : Sys2Proof.Instr) : Bool :=
  match c with
  | .coldReset .. | .resetRelease .. | .warmReset .. | .watchdogExpiry .. | .brownOut .. | .supplyGlitch .. |
    .tamper .. | .clockLoss .. | .overTemperature .. | .uncorrectableError .. | .loaderBoot .. | .tickEdge .. |
    .commitWindowClose .. | .trussReload .. | .trussReloadComplete .. | .updActivate .. | .trialExpiry .. |
    .updResident .. | .registerWrite .. | .migrationEnd .. => true
  | _ => false

/-- The commands that may change an update session. -/
def Instr.changesSessions (c : Sys2Proof.Instr) : Bool :=
  match c with
  | .coldReset .. | .resetRelease .. | .warmReset .. | .watchdogExpiry .. | .brownOut .. | .supplyGlitch .. |
    .tamper .. | .clockLoss .. | .overTemperature .. | .uncorrectableError .. | .loaderBoot .. |
    .trussReloadComplete .. | .offer .. | .accept .. | .refuse .. | .block .. | .ack .. | .viaductBlockSend .. |
    .viaductRetransmit .. | .hopSkip .. | .sessionIdleTimeout .. | .imageBuild .. | .imageVerify .. | .updStart .. |
    .updAbort .. | .updActivate .. | .activationResume .. | .updConfirm .. | .trialExpiry .. | .updResident .. |
    .registerWrite .. | .migrationEnd .. => true
  | _ => false

/-- The commands that may change the check units. -/
def Instr.changesScans (c : Sys2Proof.Instr) : Bool :=
  match c with
  | .coldReset .. | .resetRelease .. | .warmReset .. | .watchdogExpiry .. | .brownOut .. | .supplyGlitch .. |
    .tamper .. | .clockLoss .. | .overTemperature .. | .uncorrectableError .. | .loaderBoot .. | .chkScan .. |
    .chkScanComplete .. | .chkCfgWrite .. | .contextScrub .. | .trialExpiry .. | .updResident .. | .heartbeatRx .. |
    .registerWrite .. => true
  | _ => false

end Sys2Proof.Machine
end

