-- ==== Sys2Proof/Certificates/Slice0/Obligations.lean ====
section
/-! DEFINITION. The statements for the provers: what the commands of the block do, what they leave as it is, and what every
step keeps. A command that completes is stated to answer a next state, with what that state holds and the parts of the state
that may differ. -/

open Sys2Proof Sys2Proof.Machine

/-- COLD_RESET, BROWN_OUT and AON_RESET (R15, R442, R443): the device is in RESET with nothing waiting, the memory die and
the key cache empty, the flash as it was, and the cause set; the loss of VBAT_AON empties the always-on domain. That the
memory die reads as zeros then is the model's choice (log entries 2 and 8). WARM_RESET and WATCHDOG_EXPIRY (R15, R16):
from every state but RESET, and but for the tick of an alarm, the device is in RESET with its cause set; the flash and the
contents of the fuses stay. -/
def Obligations.resetsEnterReset : Prop :=
  ((∀ (s : State) (ramp : Bool), ∃ t, exec (.coldReset ramp) s = .next t ∧ t.sys.state = .reset ∧ t.hif.held = [] ∧
     t.hif.started = [] ∧ t.key.slots = [] ∧ t.mem = [] ∧ t.flash = s.flash ∧
     t.reg Reg.SYS_RESET_CAUSE = if ramp then 1 else 2) ∧
   (∀ s : State, s.sys.state ≠ .reset → ∃ t, exec .brownOut s = .next t ∧ t.sys.state = .reset ∧
     t.key.slots = [] ∧ t.key.retention = [] ∧ t.flash = s.flash ∧ t.reg Reg.SYS_RESET_CAUSE = 1) ∧
   (∀ s : State, s.sys.state = .reset → ∃ t, exec .aonReset s = .next t ∧ t.sys.state = .reset ∧
     t.key.retention = [] ∧ t.key.sticky = false ∧ t.key.causes = 0 ∧ t.key.latch = false ∧ t.regs = s.regs)) ∧
  ((∀ (s : State) (v : Word), s.tidy → s.sys.state ≠ .reset → s.alarmedNow = false → bit v 0 = true →
     bits v 31 16 = 0xA5C3 → ∃ t, exec (.warmReset v) s = .next t ∧ t.sys.state = .reset ∧ t.flash = s.flash ∧
       t.key.keystone = s.key.keystone ∧ t.key.slots = [] ∧ t.reg Reg.SYS_RESET_CAUSE = 4) ∧
   (∀ (s : State) (i : U64), s.tidy → s.sys.state ≠ .reset → (s.at_ i).alarmedNow = false →
     ∃ t, exec (.watchdogExpiry i) s = .next t ∧ t.sys.state = .reset ∧ t.flash = s.flash ∧
       t.key.keystone = s.key.keystone ∧ t.key.slots = [] ∧ t.reg Reg.SYS_RESET_CAUSE = 8))

/-- An alarm (R310, R311, R313) in STRUCTURED, ACTIVE, STANDBY or MAINTENANCE enters ALARM: the keystone is latched off,
the sticky flag set, no key slot is valid and nothing is retained. TAMPER, CLOCK_LOSS, OVER_TEMPERATURE and SUPPLY_GLITCH.
KEY_ALARM_ACK (R312): with room for its record, or before the recorder runs, the sticky flag and the causes clear. -/
def Obligations.alarmsEraseAndClear : Prop :=
  (∀ (s : State) (i : U64), s.inStates stSAYM = true →
     (∀ n : Nat, s.key.live.getLsbD (n % 2) = false → ∃ t, exec (.tamper i n true) s = .next t ∧
       t.sys.state = .alarm ∧ t.key.latch = true ∧ t.key.sticky = true ∧ t.key.retention = [] ∧
       ∀ e ∈ t.key.slots, e.2.valid = false) ∧
     (s.key.live.getLsbD 3 = false → ∃ t, exec (.clockLoss i true) s = .next t ∧
       t.sys.state = .alarm ∧ t.key.latch = true ∧ t.key.sticky = true ∧ t.key.retention = [] ∧
       ∀ e ∈ t.key.slots, e.2.valid = false) ∧
     (s.key.live.getLsbD 4 = false → ∃ t, exec (.overTemperature i true) s = .next t ∧
       t.sys.state = .alarm ∧ t.key.latch = true ∧ t.key.sticky = true ∧ t.key.retention = [] ∧
       ∀ e ∈ t.key.slots, e.2.valid = false) ∧
     (∃ t, exec (.supplyGlitch i .glitch) s = .next t ∧
       t.sys.state = .alarm ∧ t.key.latch = true ∧ t.key.sticky = true ∧ t.key.retention = [] ∧
       ∀ e ∈ t.key.slots, e.2.valid = false)) ∧
  (∀ (s : State) (d : Desc), d.byte 4 = 0xFF → s.sys.state = .alarm → s.key.lc ≠ .blank → s.key.lc ≠ .scrapped →
     d.unlistedZero [] = true →
     (s.evr.running = true → s.evr.rsvUsed + 20 ≤ evrReserved) → ∃ t,
       exec (.keyAlarmAck d) s = .next t ∧ t.key.sticky = false ∧ t.key.causes = 0 ∧ t.key.latch = s.key.latch ∧
         t.hif.held = s.hif.held ++ [{ tag := d.tag, status := .ok }])

/-- UNCORRECTABLE_ERROR (Table 01-5, R17): the device enters FAULT, its recorder stops, and SYS_FAULT names the block and
the cause, with bit 31 set when an alarm of the same tick came first. -/
def Obligations.errorEntersFault : Prop :=
  ∀ (s : State) (i : U64) (blk cause : Nat), s.tidy → s.inStates stSAYML = true → ∃ t,
    exec (.uncorrectableError i blk cause) s = .next t ∧ t.sys.state = .fault ∧ t.evr.running = false ∧
      (∀ e ∈ t.que.queues, e.2.items = []) ∧ t.flash = s.flash ∧
      t.reg Reg.SYS_FAULT =
        fld (b2n ((s.at_ i).thisTick.isSome && s.sys.alarmTick = (s.at_ i).thisTick)) 31 ||| fld (blk % 256) 16 |||
          fld (cause % 65536) 0

/-- RESET_RELEASE (R347, R25): with no alarm source active, no sticky flag and the fuses sensed, the ROM runs the first
valid loader in BOOT with the recorder started, and without one the device is in FAULT. DTIME starts from 0. -/
def Obligations.releaseRunsLoader : Prop :=
  ∀ s : State, s.sys.state = .reset → s.key.live = 0 → s.key.sticky = false → ∃ t,
    exec (.resetRelease true) s = .next t ∧ t.time.dtime = 0 ∧
      match s.validLoader with
      | some n => t.sys.state = .boot ∧ t.boot.stage = .loader ∧ t.boot.loader = n ∧ t.evr.running = true
      | none => t.sys.state = .fault

/-- LOADER_BOOT (R349, R350): with the memory die trained, the loader tries the preferred bank and then the other one: the
first whose images and truss pass gives STRUCTURED, with that bank's truss in force and no table, session or item in
service yet; where both fail the device stays in BOOT with STAGE RECOVERY. With the memory die not trained it is in FAULT.
-/
def Obligations.loaderBoots : Prop :=
  (∀ (s u : State) (i : U64) (tests : List Bool) (p : Nat), s.sys.state = .boot → s.boot.stage = .loader →
    u = (s.at_ i).loaderStart → p = u.bankRec.preferred →
    (∀ tr : Truss, u.checkBank p = .ok tr → ∃ t, exec (.loaderBoot i true tests) s = .next t ∧
      t.sys.state = .structured ∧ t.boot.stage = .done ∧ t.boot.bank = p ∧ t.truss.loaded = true ∧ t.truss.truss = tr) ∧
    (∀ (e : Nat ⊕ Refused) (tr : Truss), u.checkBank p = .error e → (u.bankFail p e).checkBank (1 - p) = .ok tr →
      ∃ t, exec (.loaderBoot i true tests) s = .next t ∧
      t.sys.state = .structured ∧ t.boot.stage = .done ∧ t.boot.bank = 1 - p ∧ t.truss.loaded = true ∧ t.truss.truss = tr) ∧
    (∀ e f : Nat ⊕ Refused, u.checkBank p = .error e → (u.bankFail p e).checkBank (1 - p) = .error f →
      ∃ t, exec (.loaderBoot i true tests) s = .next t ∧ t.sys.state = .boot ∧ t.boot.stage = .recovery ∧
      t.boot.fwVer = 0)) ∧
  ∀ (s : State) (i : U64) (tests : List Bool), s.sys.state = .boot → s.boot.stage = .loader → ∃ t,
    exec (.loaderBoot i false tests) s = .next t ∧ t.sys.state = .fault

/-- BOOT_MR_EXTEND (R355) with room for its record, and BOOT_ATTEST_PUB (R360) with an attestation key. ATTEST and
ATTEST_REQUEST_RX (R356, R358, R359): a request that can be queued joins the queue, its signature a firmware job when none
is under way; ATTEST_REPORT writes the finished report and the queue moves on. -/
def Obligations.measuredAndAttested : Prop :=
  ((∀ (s : State) (d : Desc), d.byte 4 = 0xFF → s.inStates stSAYM = true → d.byte 8 = 6 ∨ d.byte 8 = 7 →
     d.unlistedZero [8, 12, 13, 14, 15] = true → s.inWindow (d.word 3).toNat 32 = true → (d.word 3).toNat % 4 = 0 →
     s.evr.running = true → s.evr.rsvUsed + 52 ≤ evrReserved → ∃ t,
       exec (.bootMrExtend d) s = .next t ∧
         t.boot.mr = lset s.boot.mr (d.byte 8)
           (Config.sha256 (s.boot.mr.getD (d.byte 8) [] ++ s.readWin (d.word 3).toNat 32)) ∧
         t.hif.held = s.hif.held ++ [{ tag := d.tag, status := .ok }] ∧ t.mem = s.mem ∧ t.key = s.key) ∧
   (∀ (s : State) (d : Desc) (k : List Byte), d.byte 4 = 0xFF → s.inStates stSAYM = true →
     d.unlistedZero [8, 9, 10, 11] = true → s.key.attestKey = some k → s.inWindow (d.word 2).toNat 64 = true →
     (d.word 2).toNat % 4 = 0 → ∃ t, exec (.bootAttestPub d) s = .next t ∧
         t.mem = (s.writeWin (d.word 2).toNat (slice (Config.p256Public k) 0 64)).mem ∧
         t.hif.held = s.hif.held ++ [{ tag := d.tag, status := .ok }] ∧ t.regs = s.regs ∧ t.key = s.key)) ∧
  ((∀ (s : State) (d : Desc), d.byte 4 = 0xFF → s.inStates stSAYM = true →
     d.unlistedZero [8, 9, 10, 11, 12, 13, 14, 15] = true → s.inWindow (d.word 2).toNat 32 = true →
     s.inWindow (d.word 3).toNat 416 = true → (d.word 2).toNat % 4 = 0 → (d.word 3).toNat % 4 = 0 →
     s.key.attestKey.isSome = true → s.boot.attest.length < 8 → ∃ t, exec (.attest d) s = .next t ∧
       t.boot.attest = s.boot.attest ++ [{ nonce := s.readWin (d.word 2).toNat 32, cmd := some d }] ∧ t.regs = s.regs ∧
       t.hif = s.hif ∧ t.mem = s.mem) ∧
   (∀ (s : State) (p : Nat) (mac nonce : List Byte), s.inStates stSAYM = true → nonce.length = 32 →
     s.key.attestKey.isSome = true → s.boot.attest.length < 8 → ∃ t,
       exec (.attestRequestRx p mac nonce) s = .next t ∧
       t.boot.attest = s.boot.attest ++ [{ nonce := nonce, port := p, mac := mac }] ∧ t.regs = s.regs ∧ t.hif = s.hif) ∧
   (∀ (s : State) (d : Desc) (r : AttReq) (rest : List AttReq) (rep : List Byte), s.boot.attest = r :: rest →
     r.cmd = some d → s.boot.report = some rep → 416 ≤ rep.length → ∃ t, exec .attestReport s = .next t ∧
       t.boot.attest = rest ∧ t.boot.report = none ∧ t.mem = (s.writeWin (d.word 3).toNat rep).mem ∧
       t.hif.held = s.hif.held ++ [{ tag := d.tag, status := .ok }]))

/-- HOST_RING_PROD_WRITE and HOST_RING_CONS_WRITE (R420 to R422) outside RESET and FAULT: on a disabled ring the count is
taken as written; on one in use, the host's own count is, PROD when it runs no more than the ring's size ahead of CONS. -/
def Obligations.ringWrites : Prop :=
  ∀ (s : State) (k : Nat) (v : Word), s.tidy → s.takesWrites = true → k ≤ 17 →
    (s.ringEn k = false ∨ (hostProduces k = true ∧ countDiff v.toNat (s.ringCons k) ≤ s.ringSize k) → ∃ t,
      exec (.hostRingProdWrite k v) s = .next t ∧ t.reg (Reg.HIF_RING_PROD k) = v ∧
        (∀ a : Nat, a ≠ Reg.HIF_RING_PROD k → t.reg a = s.reg a) ∧ OnlyIn [.regs] s t) ∧
    (s.ringEn k = false ∨ hostProduces k = false → ∃ t,
      exec (.hostRingConsWrite k v) s = .next t ∧ t.reg (Reg.HIF_RING_CONS k) = v ∧
        (∀ a : Nat, a ≠ Reg.HIF_RING_CONS k → t.reg a = s.reg a) ∧ OnlyIn [.regs] s t)

/-- COMMAND_FETCH and HIF_NOP (R421, R425, R427): a descriptor with a known opcode, byte 4 as its opcode has it and in a
state that accepts it is a command started, and CONS of ring 0 advances; a NOP completes OK with TICKNO. -/
def Obligations.commandsStart : Prop :=
  (∀ (s : State) (d : Desc) (l : List CmdState) (c : CmdState), s.tidy → s.fetches 0 = true → s.cmdState = some c →
    s.hif.started.length < 256 → opcodeStates d.opcode = some l → l.contains c = true →
    spanOpcode d.opcode = true ∨ d.byte 4 = 0xFF → ∃ t, exec (.commandFetch (.ok d)) s = .next t ∧
      t.hif.started = s.hif.started ++ [d] ∧ t.hif.held = s.hif.held ∧
      t.reg (Reg.HIF_RING_CONS 0) = s.reg (Reg.HIF_RING_CONS 0) + 1 ∧ OnlyIn [.regs, .hif] s t) ∧
  (∀ (s : State) (d : Desc), d.byte 4 = 0xFF →
    s.inStates [.boot, .structured, .active, .standby, .maintenance, .alarm] = true → d.unlistedZero [] = true → ∃ t,
      exec (.hifNop d) s = .next t ∧
      t.hif.held = s.hif.held ++
        [{ tag := d.tag, status := .ok, b8 := pw s.tick, b12 := pw (s.tick / 2 ^ 32) }] ∧ OnlyIn [.hif] s t)

/-- TX_DESCRIPTOR_FETCH and PHASE_REREAD (R217, R421): a descriptor whose PHASE is that of its count, with fields the
manual allows and data that a MAC payload to a node can be, is taken: CONS of its ring advances, it has its number in the
MAC, and no reread of the ring is under way; one whose PHASE differs starts a reread and is not taken. -/
def Obligations.descriptorsTaken : Prop :=
  ∀ (s : State) (r : Nat) (d : Desc) (data : List Byte), s.tidy → s.txFetches r = true →
    (d.phase = s.ringPhase (2 + r) (s.ringCons (2 + r)) → d.byte 4 = 1 → txFieldsOk s d = true →
      s.neverFits d (slice data 0 (d.half 0)) = false →
      (afind s.hif.rereads r = none → ∃ t, exec (.txDescriptorFetch r (.ok d) (.ok data)) s = .next t ∧
        t.rf.nextDesc = s.rf.nextDesc + 1 ∧ afind t.hif.rereads r = none ∧
        t.reg (Reg.HIF_RING_CONS (2 + r)) = s.reg (Reg.HIF_RING_CONS (2 + r)) + 1) ∧
      (∀ n : Nat, afind s.hif.rereads r = some n → ∃ t, exec (.phaseReread r (.ok d) (.ok data)) s = .next t ∧
        t.rf.nextDesc = s.rf.nextDesc + 1 ∧ afind t.hif.rereads r = none ∧
        t.reg (Reg.HIF_RING_CONS (2 + r)) = s.reg (Reg.HIF_RING_CONS (2 + r)) + 1)) ∧
    (d.phase ≠ s.ringPhase (2 + r) (s.ringCons (2 + r)) → afind s.hif.rereads r = none → ∃ t,
      exec (.txDescriptorFetch r (.ok d) (.ok data)) s = .next t ∧ t.hif.rereads = aput s.hif.rereads r 1 ∧
        OnlyIn [.hif] s t)

/-- COMPLETION_WRITE (R422, R424, R430): the oldest completion held is written at PROD of ring 1 with the PHASE of its
count, and PROD advances. -/
def Obligations.completionIsWritten : Prop :=
  ∀ (s : State) (c : Completion) (rest : List Completion), s.tidy → s.hif.held = c :: rest → c.kind ≠ .transmit →
    s.sys.state ≠ .fault → s.linkUp = true → s.ringEn 1 = true → s.cplFull = false → ∃ t,
      exec .completionWrite s = .next t ∧ t.hif.held = rest ∧
        .hostWrite (s.ringAddr 1 (s.ringProd 1) 16) (c.bytes (s.ringPhase 1 (s.ringProd 1))) ∈ t.outbox ∧
        t.reg (Reg.HIF_RING_PROD 1) = s.reg (Reg.HIF_RING_PROD 1) + 1

/-- PE_PERST, PCIE_LINK_CHANGE and INTERRUPT_MODERATION_EXPIRY (R416, R418, R430): the pin's level is noted; training ends
with the speed and width shown; a vector whose time has come sends its message, when it is not masked. -/
def Obligations.linkAndVectors : Prop :=
  (∀ (s : State) (low : Bool), ∃ t, exec (.pePerst low) s = .next t ∧ t.hif.perst = low ∧
    (low = true → t.linkUp = false ∧ t.hif.vectors = []) ∧ (low = false → t.regs = s.regs) ∧ OnlyIn [.hif, .regs] s t) ∧
  (∀ (s : State) (speed width : Nat), s.tidy → s.hif.perst = false → s.sys.state ≠ .reset → ∃ t,
    exec (.pcieLinkChange true speed width) s = .next t ∧ t.linkUp = true ∧
      t.regFld Reg.HIF_STATUS 11 8 = speed % 16 ∧ t.regFld Reg.HIF_STATUS 5 0 = width % 64 ∧ OnlyIn [.regs] s t) ∧
  (∀ (s : State) (i : U64) (v n first : Nat), aget (0, 0) s.hif.vectors v = (n + 1, first) →
    s.sys.state ≠ .fault → first + s.regFld (Reg.HIF_INT_MOD v) 31 16 * 1000 ≤ (s.at_ i).time.elapsed →
    s.linkUp = true → bit (s.reg (msixCtrl v)) 0 = false → ∃ t,
      exec (.interruptModerationExpiry i v) s = .next t ∧ t.outbox = s.outbox ++ [.msix v] ∧
        t.hif.vectors = aset (0, 0) s.hif.vectors v (0, 0))

/-- BAR2_ACCESS (R23, R417): the octets of a write that lie in the window are stored in the memory die, and no octet
outside them changes; a read changes nothing. -/
def Obligations.windowAccess : Prop :=
  ∀ (s : State) (o : Nat) (bs : List Byte), s.bar2On = true → o < s.windowSize →
    (∃ t, exec (.bar2Access true o bs) s = .next t ∧
      (∀ j : Nat, j < bs.length → o + j < s.windowSize → s.window.base + o + j < memSize → s.tidy →
        t.readByte (s.window.base + o + j) = bs.getD j 0) ∧
      (∀ a : Nat, a < s.window.base + o ∨ s.window.base + o + bs.length ≤ a ∨ s.window.base + s.windowSize ≤ a →
        t.readByte a = s.readByte a) ∧ OnlyIn [.mem] s t) ∧
    exec (.bar2Access false o bs) s = .next s

/-- REGISTER_WRITE (R4, R5, R24): a 32-bit write to a register that has no command of its own. One whose value is within
range either waits for the next tick edge (R26), when its register is of those that change there, or takes effect at once;
the registers of the blocks named then hold what their fields make of it. -/
def Obligations.registerWrites : Prop :=
  ∀ (s : State) (a : Nat) (v : Word) (r : RegSpec), s.tidy → a % 4 = 0 → s.ownWrite a v = none → s.takesWrites = true →
    s.absentReg a = false → findReg a = some r → s.writeInRange a (r.asked v) = true →
    ((atEdge a = true → ∃ t, exec (.registerWrite a 4 v) s = .next t ∧ t.regWrites = s.regWrites ++ [(a, v)] ∧
        OnlyIn [.regWrites] s t) ∧
      (atEdge a = false → a / 0x100000 ∈ [0x00, 0x01, 0x02, 0x03, 0x08, 0x0E, 0x11, 0x12, 0x13, 0x14, 0x17] → ∃ t,
        exec (.registerWrite a 4 v) s = .next t ∧ t.reg a = r.written (s.reg a) v ∧
          (∀ b : Nat, b ≠ a → t.reg b = s.reg b) ∧ OnlyIn [.regs] s t))

/-- TICK_EDGE (R26): where the tick runs, DTIME reaches the next whole number of ticks, TICKNO follows from it, and no
register write is left waiting for an edge; nothing happens elsewhere. -/
def Obligations.tickEdges : Prop :=
  ∀ (s : State) (x : TickSample),
    (s.ticks = true → ∃ t, exec (.tickEdge x) s = .next t ∧ t.time.dtime = BitVec.ofNat 64 s.nextEdge ∧
      t.time.tickno = BitVec.ofNat 48 (tickOf (s.nextEdge % 2 ^ 64) s.tp.tickPeriod) ∧ t.regWrites = [] ∧
      OnlyIn [.sys, .time, .truss, .evr, .hif, .spanc, .que, .tol, .cip, .par, .cal, .rf, .red, .regs, .regWrites, .ctxs,
        .outbox, .free] s t) ∧
    (s.ticks = false → exec (.tickEdge x) s = .next s)

/-- PPS_EDGE, PPS_LOSS, PTP_MESSAGE and PTP_LOSS of a device whose role uses them (R37, R38, R43, Table 02-3): in ACTIVE
and STANDBY an edge within 1 ms of the second is taken as PPS's measurement, at its instant; two seconds without an edge
are a loss, which falls back to PTP, or to no source and no lock; a Sync keeps PTP in service beside PPS, and four
intervals without one lose it. ACQUISITION_SEARCH_TIMEOUT, LOCK_ACHIEVED and EXTRA_GUARD_CAPPED (R40, R41, R45): after 60
s of search the span begins anew; 16 ticks lock and end a holdover; a guard at its maximum is marked capped. -/
def Obligations.sourcesAndLock : Prop :=
  ((∀ (s : State) (i : U64) (adj e : Int), (s.at_ i).inStates [.active, .standby] = true → s.role = 1 →
     e = ((((s.at_ i).now + 500000000) / 1000000000 * 1000000000 : Nat) : Int) - ((s.at_ i).now : Int) →
     -1000000 ≤ e → e ≤ 1000000 → ∃ t, exec (.ppsEdge i adj) s = .next t ∧ t.time.ppsOk = true ∧
       t.time.selected = .pps ∧ t.time.acquired = true ∧ t.time.phaseErr = clampS e 32 ∧
       t.time.freqAdj = clampS (clampRate s.tp.slewMax adj) 32 ∧ t.time.dtime = (s.at_ i).time.dtime ∧
       OnlyIn [.time] s t) ∧
   (∀ (s : State) (i : U64), s.role = 1 → s.time.ppsOk = true →
     s.time.lastPps + 2000000000 ≤ (s.at_ i).time.elapsed → ∃ t, exec (.ppsLoss i) s = .next t ∧
     t.time.ppsOk = false ∧ t.time.selected = (if s.time.ptpOk then .ptp else .none) ∧
     t.time.locked = (s.time.ptpOk && s.time.locked) ∧ OnlyIn [.time, .evr, .free, .hif, .outbox, .que, .regs] s t) ∧
   (∀ (s : State) (i : U64) (p : Nat) (err adj : Int), s.timed = true → s.role = 1 → bit (s.reg (Reg.ETH_PTP p)) 31 = true →
     p = s.tp.ptpPort → s.ethUp p = true → s.ethTakes = true → s.time.ppsOk = true →
     s.inStates [.active, .standby] = true → ∃ t,
       exec (.ptpMessage i p (s.regFld (Reg.ETH_PTP p) 23 16) (some (err, adj))) s = .next t ∧ t.time.ptpOk = true ∧
         t.time.selected = s.time.selected ∧ t.time.dtime = (s.at_ i).time.dtime ∧
         t.time.lastSync = (s.at_ i).time.elapsed ∧ OnlyIn [.time] s t) ∧
   (∀ (s : State) (i : U64), s.role = 1 → s.time.ptpOk = true →
     s.time.lastSync + 4 * s.time.syncEvery ≤ (s.at_ i).time.elapsed → ∃ t, exec (.ptpLoss i) s = .next t ∧
     t.time.ptpOk = false ∧ t.time.selected = (if s.time.selected = .ptp then .none else s.time.selected) ∧
     OnlyIn [.time, .evr, .free, .hif, .outbox, .que, .regs] s t)) ∧
  ((∀ (s : State) (i : U64) (b : Nat), s.time.searching = some b → s.sys.state = .structured → s.role = 2 →
     b + 60000000000 ≤ (s.at_ i).time.elapsed → ∃ t, exec (.acquisitionSearchTimeout i) s = .next t ∧
       t.time.searching = some (s.at_ i).time.elapsed ∧ OnlyIn [.time, .evr, .free, .hif, .outbox, .que, .regs] s t) ∧
   (∀ s : State, 16 ≤ s.time.lockRun → ∃ t, exec .lockAchieved s = .next t ∧ t.time.locked = true ∧
     (s.inStates [.active, .standby] = true → t.time.holdover = none) ∧ t.time.dtime = s.time.dtime ∧
     OnlyIn [.time, .evr, .free, .hif, .outbox, .que, .regs] s t) ∧
   (∀ (s : State) (i e : U64), s.time.holdover = some e → s.time.capped = false →
     s.tp.holdoverGuardMax ≤ (s.at_ i).extraGuard → ∃ t, exec (.extraGuardCapped i) s = .next t ∧ t.time.capped = true ∧
       t.time.holdover = some e ∧ OnlyIn [.time, .evr, .free, .hif, .outbox, .que, .regs] s t))

/-- TIME_SET, PPS_OUT_PULSE and DTIME_SNAPSHOT (R26, R42, R48, R49): DTIME is what the command gives and TICKNO follows; a
pulse leaves the pin at a whole second; a read of TIME_DTIME_LO latches the other three registers. -/
def Obligations.timeRegisters : Prop :=
  (∀ (s : State) (d : Desc), d.byte 4 = 0xFF → s.inStates [.structured, .maintenance] = true →
    d.unlistedZero [8, 9, 10, 11, 12, 13, 14, 15] = true → ∃ t, exec (.timeSet d) s = .next t ∧
      t.time.dtime = BitVec.ofNat 64 ((d.word 2).toNat + 2 ^ 32 * (d.word 3).toNat) ∧
      t.time.tickno = BitVec.ofNat 48 (tickOf ((d.word 2).toNat + 2 ^ 32 * (d.word 3).toNat) s.tp.tickPeriod) ∧
      t.time.elapsed = s.time.elapsed ∧ t.hif.held = s.hif.held ++ [{ tag := d.tag, status := .ok }] ∧
      OnlyIn [.time, .evr, .free, .hif, .outbox, .que, .regs] s t) ∧
  (∀ (s : State) (i : U64), s.inStates [.structured, .active, .standby, .maintenance, .alarm] = true →
    (s.at_ i).now % 1000000000 = 0 → bit (s.reg Reg.TIME_PPS_CTRL) 0 = true → ∃ t, exec (.ppsOutPulse i) s = .next t ∧
      t.outbox = s.outbox ++ [.ppsOut i (if s.regFld Reg.TIME_PPS_CTRL 8 1 = 0 ∨ 200 < s.regFld Reg.TIME_PPS_CTRL 8 1
        then 100 else s.regFld Reg.TIME_PPS_CTRL 8 1)] ∧ OnlyIn [.time, .outbox] s t) ∧
  (∀ (s : State) (i : U64), s.tidy → ∃ t, exec (.dtimeSnapshot i) s = .next t ∧
    t.reg Reg.TIME_DTIME_LO = pw (s.at_ i).now ∧ t.reg Reg.TIME_DTIME_HI = pw ((s.at_ i).now / 2 ^ 32) ∧
    t.reg Reg.TIME_TICKNO_LO = pw s.tick ∧ t.reg Reg.TIME_TICKNO_HI = pw (s.tick / 2 ^ 32) ∧ OnlyIn [.time, .regs] s t)

/-- CALIBRATION_SWEEP (R146), CAL_JOB_PLACEMENT (R151, R153), MANDATORY_RECALIBRATION (R145) and COMPACT_CALIBRATION
(R148): where each runs, and the jobs it leaves on its chains: the sweep's job over EMPTY entries, the background job over
the pending entries in their order, the one EXPIRED entry of the largest change of temperature, and the compact
calibration. -/
def Obligations.calibrationStarts : Prop :=
  (∀ (s : State) (i : U64) (c : Nat), s.inStates [.structured, .maintenance] = true → s.tp.calFull = true →
    (s.at_ i).placementDue = true → c ∈ s.calChains → s.calIn c .empty ≠ [] → 110000 + 200000 ≤ s.tickNs →
    s.calJob c = none → s.calBlock c = false → ∃ t, exec (.calibrationSweep i) s = .next t ∧
      t.calJob c = some { chain := c, kind := 1, rank := 10, entries := (s.calIn c .empty).take ((s.tickNs - 110000) / 200000),
                          start := s.edgeNs + 100000, due := s.edgeNs + s.tickNs } ∧
      t.cal.placed = some s.tick ∧ OnlyIn [.time, .cal] s t) ∧
  (∀ (s : State) (i : U64) (c : Nat), s.inStates [.active, .standby] = true → s.tp.calFull = true →
    bit (s.reg Reg.CAL_CTRL) 0 = true → (s.at_ i).placementDue = true → c ∈ s.calChains → s.calJob c = none →
    s.calBlock c = false → s.cal.starved = [] → s.calOrder c ≠ [] → 100000 + 200000 ≤ s.tickNs → 200 ≤ s.tp.calBudget →
    (∀ x ∈ s.rf.claims, x.chain ≠ c) → ∃ t, exec (.calJobPlacement i) s = .next t ∧
      t.calJob c = some { chain := c, kind := 1, rank := 10, start := s.edgeNs + 100000, due := s.edgeNs + s.tickNs,
                          entries := (s.calOrder c).take (min (s.calOrder c).length
                            (min ((s.tickNs - 100000) / 200000) (s.tp.calBudget / 200))) } ∧
      t.cal.placed = some s.tick ∧ t.rf = s.rf ∧ OnlyIn [.time, .cal] s t) ∧
  (∀ (s : State) (i : U64), s.inStates [.active, .standby] = true → s.tp.calFull = true → bit (s.reg Reg.CAL_CTRL) 0 = true →
    ∃ t, exec (.calJobPlacement i) s = .next t ∧ (∀ j ∈ t.cal.jobs, j ∈ s.cal.jobs ∨
      (j.kind = 1 ∧ (j.rank = 7 ∨ j.rank = 10) ∧ j.entries.length ≤ s.tp.calBudget / 200 ∧ s.edgeNs + 100000 ≤ j.start ∧
        j.due = s.edgeNs + s.tickNs)) ∧ (∀ j ∈ s.cal.jobs, j ∈ t.cal.jobs) ∧
      OnlyIn [.time, .cal, .cip, .hif, .que, .regs, .rf] s t) ∧
  (∀ (s : State) (i : U64) (c : Nat), s.calRank1 = true → s.tp.calFull = true → s.calChains.contains c = true →
    s.chainOnAir c = false → s.calJob c = none → s.calIn c .expired ≠ [] → ∃ t,
      exec (.mandatoryRecalibration i c) s = .next t ∧ (∃ e ∈ s.calIn c .expired,
        t.calJob c = some { chain := c, kind := 1, rank := 1, entries := [e], start := (s.at_ i).now } ∧
        ∀ x ∈ s.calIn c .expired, s.calDelta c x ≤ s.calDelta c e) ∧
      OnlyIn [.time, .cal, .rf, .free, .regs] s t) ∧
  (∀ (s : State) (i : U64) (c : Nat), s.calRank1 = true → s.tp.calFull = false → s.cal.compactDue.contains c = true →
    s.calChains.contains c = true → s.chainOnAir c = false → s.calJob c = none → ∃ t,
      exec (.compactCalibration i c) s = .next t ∧
        t.calJob c = some { chain := c, kind := 2, rank := 1, start := (s.at_ i).now } ∧
        t.cal.compactDue = s.cal.compactDue.filter (· != c) ∧ OnlyIn [.time, .cal, .rf, .free, .regs] s t)

/-- CAL_JOB_COMPLETE and CAL_SYNTH (R149, R152): a job at its end leaves its chain with status OK; in full calibration
CAL_SYNTH marks its entries, and completes, and on the compact chains it waits. CROWD_WINDOW_END (R156, R157) and
CAL_ENTRY_DATA_READ (R162): a window at its end leaves no samples and shows how many it had; the four words of the
selected entry are latched together. -/
def Obligations.calibrationEndsAndShows : Prop :=
  ((∀ (s : State) (i : U64) (c : Nat) (j : CalJob), s.calJob c = some j → j.start + s.calJobNs j ≤ (s.at_ i).now → ∃ t,
     exec (.calJobComplete i c) s = .next t ∧ t.calJob c = none ∧ OnlyIn [.time, .cal, .free, .hif, .regs] s t) ∧
   (∀ (s : State) (d : Desc), d.byte 4 = 0xFF → s.inStates stSAY = true → d.unlistedZero [8, 10, 11] = true →
     s.calChains.contains (d.byte 8) = true → s.tp.calFull = true → d.byte 8 ≠ 0xFF →
     d.half 10 < s.tp.calCount (d.byte 8) → d.half 10 ≠ 0xFFFF → ∃ t, exec (.calSynth d) s = .next t ∧
       t.cal.marked.contains (calKey (d.byte 8) (d.half 10)) = true ∧
       t.hif.held = s.hif.held ++ [{ tag := d.tag, status := .ok }] ∧ OnlyIn [.cal, .hif] s t) ∧
   (∀ (s : State) (d : Desc), d.byte 4 = 0xFF → s.inStates stSAY = true → d.unlistedZero [8, 10, 11] = true →
     s.calChains.contains (d.byte 8) = true → s.tp.calFull = false → d.byte 8 ≠ 0xFF → d.half 10 = 0xFFFF → ∃ t,
       exec (.calSynth d) s = .next t ∧ t.cal.compactDue.contains (d.byte 8) = true ∧
       t.cal.cmds = s.cal.cmds ++ [{ cmd := d, chains := [(d.byte 8, false)] }] ∧ OnlyIn [.cal] s t)) ∧
  ((∀ (s : State) (i : U64), s.tidy → s.inStates [.active, .standby] = true → s.crWindow ≤ s.cal.windowTick → ∃ t,
     exec (.crowdWindowEnd i) s = .next t ∧ t.cal.samples = [] ∧ t.cal.windowTick = 0 ∧ t.cal.entries = s.cal.entries ∧
       t.reg Reg.CAL_CR_COUNT = (fld (b2n (decide (max 1 (s.regFld Reg.CAL_CR_CTRL 31 16) ≤ s.cal.samples.length))) 31 |||
         fld (min s.cal.samples.length 0x3FFFF) 0) ∧ OnlyIn [.time, .cal, .regs] s t) ∧
   (∀ (s : State) (k : Nat), s.tidy → k < 4 → ∃ t, exec .calEntryDataRead s = .next t ∧
     t.reg (Reg.CAL_ENTRY_DATA k) =
       (if s.tp.calFull = true ∧ s.regFld Reg.CAL_ENTRY_SEL 8 0 < s.tp.calCount (s.regFld Reg.CAL_ENTRY_SEL 17 16) then
         pw (leAt (s.calEntry (s.regFld Reg.CAL_ENTRY_SEL 17 16) (s.regFld Reg.CAL_ENTRY_SEL 8 0)).bytes (4 * k) 4) else 0) ∧
     OnlyIn [.regs] s t))

/-- CELL_RESOLUTION and WORK_ITEM_LATE (R32 to R36, R190 to R194, R196): from edge + 20 µs a slot of a band that begins at
the tick is resolved once, with at most two transmissions, and SCH_LAST shows their number; a single receive cell gets a
pier, whose window is that of R189 and R190; a resolution not complete by edge + 100 µs opens no window and counts its
transmissions late; a submission that is late completes LATE. SCH_GL_READ, SCH_ASN_READ and SCH_SF_START_READ (R187,
R199): the list in force is written into the host window; a read of the low half of ASN, or of the slotframe's start,
latches the high half. -/
def Obligations.cellsResolveAndRead : Prop :=
  ((∀ (s u : State) (i : U64) (b : Nat), s.tidy → u = s.airAt i → u.unresolved b = true → u.edgeNs + 20000 ≤ u.now →
     ∃ t v : State, exec (.cellResolution i b) s = .next t ∧ t = v.flushMac.settleAir ∧
       (if b = 0 then t.sch.doneA else t.sch.doneB) = some s.tick ∧ (u.resolveTx b).2.2.length ≤ 2 ∧
       (∃ n p : Nat, v.reg (Reg.SCH_LAST b) = fld n 16 ||| fld p 8 ||| fld (u.resolveTx b).2.2.length 0) ∧
       t.tick = s.tick ∧ t.now = u.now ∧
       OnlyIn [.time, .cip, .ctxs, .evr, .free, .hif, .key, .outbox, .que, .red, .regs, .rf, .sch, .spanc, .tbl, .tol] s t) ∧
   (∀ (s u : State) (i : U64) (b p : Nat) (a : ActCell) (rest : List Nat) (m : RxMember), s.tidy → u = s.airAt i →
     u.unresolved b = true → u.edgeNs + 20000 ≤ u.now → u.activeCells b = ([a], 0) → a.cell.tx = false → a.cell.rx = true →
     u.inStates [.active, .standby] = true → p < u.rf.piers.length →
     ((u.primaries b).filter fun p => !(u.pier p).receiving) = p :: rest → m = (u.rxMember b a false).2 →
     ∃ t v : State, exec (.cellResolution i b) s = .next t ∧ t = v.flushMac.settleAir ∧
       v.reg (Reg.SCH_LAST b) = fld 1 16 ||| fld 1 8 ∧ (∃ w, (v.pier p).window = some w ∧ (v.pier p).state = .idle ∧
         w.channel = channelAt u.tp b (u.asn b) a.cell.chOffset ∧ w.openAt = m.openAt ∧ w.closeAt = m.closeAt ∧
         w.tmpl = u.cellTemplate a ∧ w.slotStart = u.edgeNs)) ∧
   (∀ (s u : State) (i : U64) (b : Nat), s.tidy → u = s.airAt i → u.unresolved b = true → u.edgeNs + 100000 ≤ u.now →
     u.inStates [.maintenance, .alarm] = false → ∃ t v : State, exec (.workItemLate i (.resolution b)) s = .next t ∧
       t = v.settleAir ∧ (if b = 0 then t.sch.doneA else t.sch.doneB) = some s.tick ∧ v.rf.piers = u.rf.piers ∧
       v.regFld (Reg.TIME_LATE 1) 15 0 = min 65535 (s.regFld (Reg.TIME_LATE 1) 15 0 + (u.resolveTx b).2.2.length) ∧
       t.tick = s.tick ∧
       OnlyIn [.time, .cip, .ctxs, .evr, .free, .hif, .key, .mem, .outbox, .que, .red, .regs, .rf, .sch, .spanc, .tbl, .tol]
         s t) ∧
   (∀ (s : State) (i : U64) (id due : Nat) (j : CipJob) (d : Desc), s.jobOf id = some j → j.due = some due →
     due ≤ (s.at_ i).now → j.owner = .host d → ∃ t, exec (.workItemLate i (.job id)) s = .next t ∧
       (∀ k ∈ t.cip.queue, k.id ≠ id) ∧ (∃ c : Completion, t.hif.held = s.hif.held ++ [c] ∧ c.tag = d.tag ∧ c.status = .late) ∧
       OnlyIn [.time, .cip, .hif, .regs] s t)) ∧
  ((∀ (s : State) (d : Desc), d.byte 4 = 0xFF → s.inStates stSAYML = true →
     d.unlistedZero [8, 9, 12, 13, 14, 15, 16, 17, 18, 19] = true → d.byte 8 ≤ 1 → (s.tp.band (d.byte 8)).present = true →
     (d.word 3).toNat % 16 = 0 → s.inWindow (d.word 3).toNat (d.word 4).toNat = true →
     ((s.listInForce (d.byte 8) (d.byte 9)).getD {}).bytes.length ≤ (d.word 4).toNat → ∃ t,
       exec (.schGlRead d) s = .next t ∧
         t.mem = (s.writeWin (d.word 3).toNat ((s.listInForce (d.byte 8) (d.byte 9)).getD {}).bytes).mem ∧
         t.hif.held = s.hif.held ++ [{ tag := d.tag, status := .ok }] ∧ OnlyIn [.mem, .hif] s t) ∧
   (∀ (s : State) (b : Nat), s.tidy → ∃ t, exec (.schAsnRead b) s = .next t ∧ t.reg (Reg.SCH_ASN_LO b) = pw (s.asn b) ∧
     t.reg (Reg.SCH_ASN_HI b) = pw (s.asn b / 2 ^ 32) ∧ OnlyIn [.regs] s t) ∧
   (∀ (s : State) (g : GateList), s.tidy → s.selectedList = some g → ∃ t, exec .schSfStartRead s = .next t ∧
     t.reg Reg.SCH_SF_START_LO = pw g.start ∧ t.reg Reg.SCH_SF_START_HI = pw (g.start / 2 ^ 32) ∧ OnlyIn [.regs] s t))

/-- CHK_SCAN, CHK_SCAN_COMPLETE and CHK_CFG_WRITE (R336, R338, R340): a scan joins its channel's queue; the one at the
head ends with the CRC over its range as its output; a free channel takes its new configuration at once. -/
def Obligations.scans : Prop :=
  (∀ (s : State) (d : Desc), d.byte 4 = 0xFF → s.inStates stSAYML = true → d.byte 8 ≤ 7 → d.byte 9 < 16 → d.byte 10 = 0 →
    d.unlistedZero ((List.range 24).map fun i => i + 8) = true → s.chanOwner (d.byte 8) = 0 ∨ s.chanOwner (d.byte 8) = 1 →
    (d.word 4).toNat ≤ 0x10000000 → s.inWindow (d.word 3).toNat (d.word 4).toNat = true →
    (s.chan (d.byte 8)).jobs.length < 17 → scanLoad d = false → scanSave d = false → ∃ t, exec (.chkScan d) s = .next t ∧
      t.chk.chans = lset s.chk.chans (d.byte 8) { s.chan (d.byte 8) with jobs := (s.chan (d.byte 8)).jobs ++ [d] } ∧
      OnlyIn [.chk] s t) ∧
  (∀ (s : State) (ch : Nat) (d : Desc) (rest : List Desc), (s.chan ch).jobs = d :: rest → (s.chan ch).mode ≠ 1 →
    (s.chan ch).cfgDue = none → scanLoad d = false → scanSave d = false → scanStart d = true → scanCompare d = false → ∃ t,
      exec (.chkScanComplete ch) s = .next t ∧ (∃ c : Completion, t.hif.held = s.hif.held ++ [c] ∧ c.tag = d.tag ∧
        c.status = .ok ∧ c.b8 = crcFold (s.chan ch).poly (crcFold (s.chan ch).poly (crcInit (s.chan ch).poly)
          (scanGuard (s.chan ch) d)) (s.readWin (d.word 3).toNat (d.word 4).toNat) ^^^ crcXor (s.chan ch).poly) ∧
      (ch < s.chk.chans.length → (t.chan ch).jobs = rest) ∧ OnlyIn [.chk, .hif, .regs] s t) ∧
  (∀ (s : State) (n : Nat) (v : Word), n < 8 → s.sys.state ≠ .fault → s.chanOwner n = 0 ∨ s.chanOwner n = 1 →
    (s.chan n).jobs = [] → ∃ t, exec (.chkCfgWrite n v) s = .next t ∧
      t.chk.chans = lset s.chk.chans n ((s.chan n).config (bits v 1 0) (bits v 4 4)) ∧ OnlyIn [.chk] s t)

/-- CIP_SUBMIT and CIPHER_DISPATCH (R316, R319 to R323): a submission whose descriptor is in order joins the queue with
the next number and its instant; the unit whose turn it is takes the job, with the keys of that instant. -/
def Obligations.cipherJobsStart : Prop :=
  (∀ (s : State) (d : Desc) (j : CipJob), d.byte 4 = 0xFF → s.inStates stSAYM = true → d.unlistedZero [8, 9, 10, 11] = true →
    s.inWindow (d.word 2).toNat 64 = true → (d.word 2).toNat % 64 = 0 → parseJob s d (s.readWin (d.word 2).toNat 64) = .ok j →
    j.mode.unit ≠ 0 ∨ s.coresInService ≠ 0 → s.queued .host < 128 → ∃ t, exec (.cipSubmit d) s = .next t ∧
      t.cip.queue = s.cip.queue ++ [{ j with id := s.cip.nextId, arrived := s.time.elapsed }] ∧
      t.cip.nextId = s.cip.nextId + 1 ∧ OnlyIn [.cip] s t) ∧
  (∀ (s : State) (i : U64) (u : Nat) (j : CipJob) (aged : Bool) (d : Desc), u < s.cip.units.length →
    (s.at_ i).unitReady u = true → (s.at_ i).nextJob u = some (j, aged) → j.owner = .host d → ∃ t,
      exec (.cipherDispatch i u) s = .next t ∧ (∃ r, (t.unit u).run = some r ∧ r.job = j ∧ r.start = (s.at_ i).time.elapsed ∧
        r.key = (s.slot j.slot).key) ∧ (∀ k ∈ t.cip.queue, k.id = j.id → k.again ≠ j.again) ∧ OnlyIn [.time, .cip, .regs] s t)

/-- CIPHER_JOB_COMPLETE (R319, R324): a submitted job completes with its result, and the unit is free. CIP_SELFTEST and
SELF_TEST_COMPLETE (R329): a free unit starts its test at once, a busy one notes it, and one that passes is in service. -/
def Obligations.cipherJobsEnd : Prop :=
  (∀ (s : State) (i : U64) (u : Nat) (r : CipRun) (d : Desc), u < s.cip.units.length → (s.unit u).run = some r →
    r.job.void = false → r.job.owner = .host d → (s.unit u).test = none → ∃ t,
      exec (.cipherJobComplete i u) s = .next t ∧ t.unit u = { s.unit u with run := none } ∧
      (∃ c : Completion, t.hif.held = s.hif.held ++ [c] ∧ c.tag = d.tag ∧ c.status = r.result.1) ∧
      OnlyIn [.time, .cip, .hif, .mem, .regs] s t) ∧
  (∀ (s : State) (d : Desc), d.byte 4 = 0xFF → s.inStates stSAYM = true → d.unlistedZero [8] = true → d.byte 8 ≤ 9 →
    d.byte 8 < s.cip.units.length → (s.unit (d.byte 8)).test = none → ∃ t, exec (.cipSelftest d) s = .next t ∧
      ((s.unit (d.byte 8)).run = none → (8 ≤ d.byte 8 ∨ (s.unit (d.byte 8)).state ≠ .inService) →
        t.unit (d.byte 8) = { state := .selfTest, run := none, test := some d } ∧ OnlyIn [.cip] s t) ∧
      ((s.unit (d.byte 8)).run = none → (∃ v < 8, v ≠ d.byte 8 ∧ v < s.cip.units.length ∧ (s.unit v).state = .inService) →
        (t.unit (d.byte 8)).state = .selfTest ∧ (t.unit (d.byte 8)).run = none ∧ (t.unit (d.byte 8)).test = some d) ∧
      ((s.unit (d.byte 8)).run ≠ none → (s.unit (d.byte 8)).state ≠ .slow →
        t.unit (d.byte 8) = { s.unit (d.byte 8) with test := some d } ∧ OnlyIn [.cip] s t)) ∧
  (∀ (s : State) (i : U64) (u : Nat) (d : Desc), u < s.cip.units.length → (s.unit u).state = .selfTest →
    (s.unit u).test = some d → ∃ t, exec (.selfTestComplete i u true) s = .next t ∧
      t.unit u = { state := .inService, run := none, test := none } ∧
      t.hif.held = s.hif.held ++ [{ tag := d.tag, status := .ok }] ∧ OnlyIn [.time, .cip, .hif, .regs] s t)

/-- SLOW_MARK and SLOW_STOP (R327, R328): a unit at four times its job's nominal time is marked slow, while another core
is in service or it is none of the cores; at 64 times it is stopped with its output zeroed, and a submission completes
SLOW_UNIT. -/
def Obligations.slowUnits : Prop :=
  (∀ (s : State) (i : U64) (u : Nat) (r : CipRun), u < s.cip.units.length → (s.unit u).run = some r →
    (s.unit u).state = .inService → r.start + 4 * r.job.nominal ≤ (s.at_ i).time.elapsed →
    8 ≤ u ∨ (∃ v, v < 8 ∧ v ≠ u ∧ v < s.cip.units.length ∧ (s.unit v).state = .inService) → ∃ t,
      exec (.slowMark i u) s = .next t ∧ (t.unit u).state = .slow ∧ (t.unit u).run.isSome = true ∧ t.now = (s.at_ i).now ∧
      OnlyIn [.time, .cip, .ctxs, .evr, .free, .hif, .key, .mem, .outbox, .que, .red, .regs, .rf, .spanc, .tbl, .tol] s t) ∧
  (∀ (s : State) (i : U64) (u : Nat) (r : CipRun) (d : Desc), u < s.cip.units.length → (s.unit u).run = some r →
    r.start + 64 * r.job.nominal ≤ (s.at_ i).time.elapsed → r.job.void = false → r.job.owner = .host d → ∃ t,
      exec (.slowStop i u) s = .next t ∧ (t.unit u).run = none ∧
      (t.unit u).state = (if (s.unit u).test.isSome then .selfTest else .slow) ∧
      t.mem = (if r.job.mode.hasOutput then s.writeWin r.job.outOfs r.job.zeroed else s).mem ∧
      (∃ c : Completion, t.hif.held = s.hif.held ++ [c] ∧ c.tag = d.tag ∧ c.status = .slowUnit) ∧
      OnlyIn [.time, .cip, .hif, .mem, .regs] s t)

/-- CTX_READ, CTX_UPDATE, CTX_REPAIR and CONTEXT_SCRUB (R19 to R21, R343, R427): a line is written to the host window,
with INTEGRITY where it fails its check; the words of the mask are updated in a sound line; a failing line is repaired
from the image given, and a sound one is not; a scrub step moves on by RATE lines. -/
def Obligations.contextCommands : Prop :=
  (∀ (s : State) (d : Desc), d.byte 4 = 0xFF → s.inStates stSAYML = true →
    d.unlistedZero [8, 9, 10, 11, 12, 13, 14, 15] = true → s.ctxNidxOk (d.word 2).toNat = true → (d.word 3).toNat % 4 = 0 →
    s.inWindow (d.word 3).toNat 128 = true → s.lineUsable (d.word 2).toNat = true → ∃ t, exec (.ctxRead d) s = .next t ∧
      t.mem = (s.writeWin (d.word 3).toNat (s.line (d.word 2).toNat).ctx.bytes).mem ∧
      t.hif.held = s.hif.held ++ [{ tag := d.tag, status := .ok }] ∧ OnlyIn [.mem, .hif] s t) ∧
  (∀ (s : State) (d : Desc), s.tidy → d.byte 4 = 0xFF → s.inStates stSAYML = true →
    d.unlistedZero [8, 9, 10, 11, 12, 13, 14, 15] = true → s.ctxNidxOk (d.word 2).toNat = true → (d.word 3).toNat % 4 = 0 →
    s.inWindow (d.word 3).toNat 128 = true → s.lineUsable (d.word 2).toNat = false → ∃ t, exec (.ctxRead d) s = .next t ∧
      t.mem = (s.writeWin (d.word 3).toNat (s.line (d.word 2).toNat).ctx.bytes).mem ∧
      (t.line (d.word 2).toNat).found = true ∧
      t.hif.held = s.hif.held ++ [{ tag := d.tag, status := .integrity }] ∧
      OnlyIn [.ctxs, .evr, .free, .hif, .mem, .outbox, .que, .regs] s t) ∧
  (∀ (s : State) (d : Desc), s.tidy → d.byte 4 = 0xFF → s.inStates stSAY = true →
    d.unlistedZero [8, 9, 10, 11, 12, 13, 14, 15, 16, 17, 18, 19] = true → s.ctxNidxOk (d.word 2).toNat = true →
    (d.word 4).toNat % 4 = 0 → s.inWindow (d.word 4).toNat 128 = true → s.lineUsable (d.word 2).toNat = true →
    bit (d.word 3) 31 = false → ∃ t, exec (.ctxUpdate d) s = .next t ∧
      (t.line (d.word 2).toNat).ctx.body = (applyUpdate (s.line (d.word 2).toNat).ctx
        (s.readWin (d.word 4).toNat 128) (d.word 3)).body ∧
      (∀ n : Nat, n ≠ (d.word 2).toNat → t.line n = s.line n) ∧
      t.hif.held = s.hif.held ++ [{ tag := d.tag, status := .ok }] ∧ OnlyIn [.ctxs, .hif] s t) ∧
  (∀ (s : State) (d : Desc), s.tidy → d.byte 4 = 0xFF → s.inStates stSAY = true →
    d.unlistedZero [8, 9, 10, 11, 12, 13, 14, 15, 16, 17, 18, 19] = true → s.ctxNidxOk (d.word 2).toNat = true →
    (d.word 4).toNat % 4 = 0 → s.inWindow (d.word 4).toNat 128 = true → s.lineUsable (d.word 2).toNat = false →
    d.word 3 = 0xFFFFFFFF → ∃ t, exec (.ctxRepair d) s = .next t ∧
      (t.line (d.word 2).toNat).ctx.body = (readCtx (s.readWin (d.word 4).toNat 128)).body ∧
      (t.line (d.word 2).toNat).found = false ∧ (∀ n : Nat, n ≠ (d.word 2).toNat → t.line n = s.line n) ∧
      t.hif.held = s.hif.held ++ [{ tag := d.tag, status := .ok }] ∧
      OnlyIn [.ctxs, .hif, .evr, .free, .outbox, .que, .regs] s t) ∧
  (∀ (s : State) (d : Desc), d.byte 4 = 0xFF → s.inStates stSAY = true →
    d.unlistedZero [8, 9, 10, 11, 12, 13, 14, 15, 16, 17, 18, 19] = true → s.ctxNidxOk (d.word 2).toNat = true →
    (d.word 4).toNat % 4 = 0 → s.inWindow (d.word 4).toNat 128 = true → s.lineUsable (d.word 2).toNat = true →
    bit (d.word 3) 31 = true → ∃ t, exec (.ctxRepair d) s = .next t ∧
      t.hif.held = s.hif.held ++ [{ tag := d.tag, status := .unsupported }] ∧ OnlyIn [.hif] s t) ∧
  (∀ s : State, s.inStates stSAYM = true → s.tp.scrubTop ≠ 0 → bit (s.reg Reg.CHK_SCRUB) 31 = true → ∃ t,
    exec .contextScrub s = .next t ∧ t.chk.scrubPos = (s.chk.scrubPos + s.regFld Reg.CHK_SCRUB 14 0) % s.tp.scrubTop ∧
      t.chk.chans = s.chk.chans ∧ t.key = s.key ∧ OnlyIn [.chk, .ctxs, .evr, .free, .hif, .outbox, .que, .regs] s t)

/-- ETH_FRAME_RX (R257, R431, R432): a bad frame, or one of a length out of range, is counted and nothing else happens; a
PAUSE frame stops or restarts the port where the port obeys them; a frame of another VLAN or another address is counted
dropped; one whose source a radio node was learned with is dropped as a conflict; a management frame is counted, and one
that is bad. -/
def Obligations.framesReceived : Prop :=
  ∀ (s : State) (i : U64) (p : Nat) (bs : List Byte), s.inStates stSAYML = true → s.ethUp p = true →
    (∀ ok : Bool, ok = false ∨ bs.length < 60 ∨ 8192 < bs.length →
      exec (.ethFrameRx i p bs ok) s = .next ((s.at_ i).bump (Reg.ETH_CNT p 1))) ∧
    (60 ≤ bs.length → bs.length ≤ 8192 →
      (∀ n : Nat, bit (s.reg (Reg.ETH_CTRL p)) 28 = true → pauseQuanta bs = some n → ∃ t,
        exec (.ethFrameRx i p bs true) s = .next t ∧ (t.eth p).paused = decide (0 < n) ∧
          (t.eth p).out = (s.eth p).out ∧ OnlyIn [.time, .ethA, .ethB, .regs] s t) ∧
      (bit (s.reg (Reg.ETH_CTRL p)) 28 = false ∨ pauseQuanta bs = none →
        (vlanStrip (s.regFld (Reg.ETH_CTRL p) 27 16) bs = none ∨
          (∃ f, vlanStrip (s.regFld (Reg.ETH_CTRL p) 27 16) bs = some f ∧ s.addressOk p f = false) →
          exec (.ethFrameRx i p bs true) s = .next (((s.at_ i).bump (Reg.ETH_CNT p 0)).bump (Reg.ETH_CNT p 2))) ∧
        (∀ f : List Byte, vlanStrip (s.regFld (Reg.ETH_CTRL p) 27 16) bs = some f → s.addressOk p f = true →
          (∀ e : EmEntry, s.tidy → bit (BitVec.ofNat 8 s.tp.learnEn) 2 = true → s.emLookup (widen (slice f 6 6)) = some e →
            e.learned = true → ∃ t, exec (.ethFrameRx i p bs true) s = .next t ∧
              t.reg (Reg.TBL_CNT 10) = (s.bump (Reg.TBL_CNT 10)).reg (Reg.TBL_CNT 10) ∧ t.eth p = s.eth p ∧
              OnlyIn [.time, .evr, .free, .hif, .outbox, .que, .regs, .tbl] s t) ∧
          (bit (BitVec.ofNat 8 s.tp.learnEn) 2 = false ∨ s.emLookup (widen (slice f 6 6)) = none →
            beNat (slice f 12 2) = 0x88B5 → exec (.ethFrameRx i p bs true) s =
              .next (((s.at_ i).bump (Reg.ETH_CNT p 0)).bump (Reg.ETH_CNT p (if s.mgmtBad p f then 5 else 4)))))))

/-- ETH_LINK_CHANGE, ETH_CTRL_WRITE and PAUSE_QUANTA_EXPIRY (R431, R433): the port's link follows, with an interrupt when
it changes; a register in range is written; a stopped port goes on. -/
def Obligations.portsChange : Prop :=
  (∀ (s : State) (p sp : Nat) (up : Bool), p ≤ 1 → s.takesWrites = true → bit (s.reg (Reg.ETH_CTRL p)) 31 = true → ∃ t,
    exec (.ethLinkChange p up sp) s = .next t ∧ (t.eth p).link = up ∧ (up = true → (t.eth p).speed = sp % 4) ∧
      (t.eth (1 - p) = s.eth (1 - p)) ∧ ((s.eth p).link = up → t.outbox = s.outbox) ∧
      OnlyIn [.ethA, .ethB, .hif, .outbox, .regs] s t) ∧
  (∀ (s : State) (p : Nat) (v : Word), s.tidy → p ≤ 1 → s.takesWrites = true →
    (∃ t, exec (.ethCtrlWrite p true v) s = .next t ∧ t.reg (Reg.ETH_PTP p) = v &&& 0xC0FF0000 ∧ OnlyIn [.regs] s t) ∧
    (bits v 30 29 ≠ 3 → bits v 27 16 ≠ 0xFFF → bits (s.reg (Reg.ETH_CTRL p)) 31 29 = bits v 31 29 → ∃ t,
      exec (.ethCtrlWrite p false v) s = .next t ∧ t.reg (Reg.ETH_CTRL p) = v &&& 0xFFFF03FF ∧ OnlyIn [.regs] s t)) ∧
  (∀ (s : State) (p : Nat), p ≤ 1 → ∃ t, exec (.pauseQuantaExpiry p) s = .next t ∧
    t.eth p = { s.eth p with paused := false } ∧ t.eth (1 - p) = s.eth (1 - p) ∧ OnlyIn [.ethA, .ethB] s t)

/-- ETH_SEND and ETHERNET_EGRESS (R274, R434, R435): a frame of the host window, padded to 60 octets, waits at its port;
the oldest that waits leaves when no queued frame goes before it, and its command completes OK. -/
def Obligations.framesSent : Prop :=
  (∀ (s : State) (d : Desc), d.byte 4 = 0xFF → s.inStates [.structured, .active, .maintenance, .alarm] = true →
    d.unlistedZero [8, 12, 13, 14, 15, 16, 17, 18, 19] = true → d.byte 8 ≤ 1 → 14 ≤ (d.word 4).toNat →
    (d.word 4).toNat ≤ 8192 → s.inWindow (d.word 3).toNat (d.word 4).toNat = true → s.ethUp (d.byte 8) = true → ∃ t,
      exec (.ethSend d) s = .next t ∧ (t.eth (d.byte 8)).out = (s.eth (d.byte 8)).out ++
        [{ bytes := s.readWin (d.word 3).toNat (d.word 4).toNat ++ List.replicate (60 - (d.word 4).toNat) 0, cmd := some d,
           ahead := s.portItems (d.byte 8) }] ∧ t.hif = s.hif ∧ OnlyIn [.ethA, .ethB] s t) ∧
  (∀ (s : State) (p : Nat) (o : EthOut) (rest : List EthOut) (d : Desc), p ≤ 1 → s.ethUp p = true →
    (s.eth p).paused = false → (s.eth p).out = o :: rest → o.cmd = some d → s.egressOn = false ∨ s.egressNext p = none →
    ∃ t, exec (.ethernetEgress p) s = .next t ∧ (t.eth p).out = rest ∧
      t.outbox = s.outbox ++ [.ethFrame p (o.bytes ++ List.replicate (60 - o.bytes.length) 0)] ∧
      t.hif.held = s.hif.held ++ [{ tag := d.tag, status := .ok }] ∧ OnlyIn [.ethA, .ethB, .hif, .outbox, .regs] s t)

/-- KEY_RESTORE and KEY_DERIVE (R291, R295, R304): in STRUCTURED, with its item read and the slot neither valid nor
staged, the slot holds the key the blob or the parent gives, or the command completes with what is wrong and no slot
changes. KEY_IMPORT (R303): in PROVISIONED and STRUCTURED, with its fields in order and slot 0 usable, the wrapped blob is
written to the host window, and no slot changes. -/
def Obligations.keysArrive : Prop :=
  ((∀ (s : State) (d : Desc) (item : List Byte), d.byte 4 = 0xFF → s.sys.state = .structured →
     s.key.acceptsItems = true → keyCommandItem s d 0x20 = .ok item → (s.slot (d.half 8)).valid = false →
     s.slotStaged (d.half 8) = false → leAt item 0x10 16 = 0 → leAt item 0x0E 2 < 4096 →
     s.inWindow (leAt item 8 4) (blobSize (BitVec.ofNat 8 (leAt item 0x0C 1))) = true → s.tidy → ∃ t,
       exec (.keyRestore d) s = .next t ∧ OnlyIn [.key, .hif, .regs] s t ∧
       match keyLoad s (d.half 8) (BitVec.ofNat 8 (leAt item 0x0C 1)) (BitVec.ofNat 8 (leAt item 0x0D 1)) (leAt item 0x0E 2)
           (s.readWin (leAt item 8 4) (blobSize (BitVec.ofNat 8 (leAt item 0x0C 1)))) with
       | .ok k => t.slot (d.half 8) = { k with pendingOf := none } ∧
           t.hif.held = s.hif.held ++ [{ tag := d.tag, status := .ok }]
       | .error e => t.key = s.key ∧ t.hif.held = s.hif.held ++ [{ tag := d.tag, status := e }]) ∧
   (∀ (s : State) (d : Desc) (item : List Byte) (k : KeySlot), d.byte 4 = 0xFF → s.sys.state = .structured →
     s.key.acceptsItems = true → keyCommandItem s d 0x21 = .ok item → (s.slot (d.half 8)).valid = false →
     s.slotStaged (d.half 8) = false → leAt item 0x0E 2 = 0 → leAt item 8 2 < 4096 → s.tidy →
     keyDerive s (d.half 8) (BitVec.ofNat 8 (leAt item 0x0C 1)) (BitVec.ofNat 8 (leAt item 0x0D 1)) (leAt item 8 2)
       (leAt item 0x0A 2) (slice item 0x10 16) = .ok k → ∃ t, exec (.keyDerive d) s = .next t ∧
         t.slot (d.half 8) = { k with pendingOf := none } ∧ (∀ n : Nat, n ≠ d.half 8 → t.slot n = s.slot n) ∧
         t.hif.held = s.hif.held ++ [{ tag := d.tag, status := .ok }] ∧ OnlyIn [.key, .hif] s t)) ∧
  (∀ (s : State) (d : Desc) (a : List Byte) (attr : Byte), d.byte 4 = 0xFF → s.sys.state = .structured →
     s.key.lc = .provisioned → d.unlistedZero [8, 9, 10, 11, 12, 13, 14, 15] = true → s.inWindow (d.word 2).toNat 48 = true →
     (d.word 2).toNat % 4 = 0 → (d.word 3).toNat % 4 = 0 → a = s.readWin (d.word 2).toNat 48 →
     attr = BitVec.ofNat 8 (leAt a 0 1) → leAt a 4 12 = 0 → leAt a 3 1 = (if attr256 attr then 32 else 16) →
     leAt a 2 1 = 1 ∨ leAt a 2 1 = 3 → attrOk attr (if leAt a 2 1 = 1 then .domain else .host) = true →
     (leAt a 3 1 = 16 → leAt a 0x20 16 = 0) → s.inWindow (d.word 3).toNat (blobSize attr) = true → s.usable 0 = true → ∃ t,
       exec (.keyImport d) s = .next t ∧ t.key = s.key ∧ (∃ blob : List Byte, blob.take 4 = leBytes 0x7A4B6C62 4 ∧
         t.mem = (s.writeWin (d.word 3).toNat (slice blob 0 (blobSize attr))).mem) ∧
       t.hif.held = s.hif.held ++ [{ tag := d.tag, status := .ok }] ∧ OnlyIn [.mem, .hif] s t)

/-- KEY_LC_SET and LIFE_CYCLE_BURN_COMPLETE (R307 to R309): a change that Table 13-8 lists, with its argument in order,
erases the keys and begins its burn; a burn that reads back makes the new state the present one. -/
def Obligations.lifeCycleChanges : Prop :=
  (∀ (s : State) (d : Desc) (target : LifeCycle) (n : Nat), d.byte 4 = 0xFF →
    s.sys.state = .structured ∨ (s.sys.state = .alarm ∧ target = .scrapped) →
    lifeCycleOf (d.byte 8) = some target → lcArgument s.key target = some n → d.unlistedZero [8, 12, 13, 14, 15] = true →
    (s.key.lc = .returned → target = .deployed → s.key.returns < 3) →
    (target = .deployed → s.par.state = .sealed) →
    (n ≠ 0 → s.inWindow (d.word 3).toNat n = true ∧ (d.word 3).toNat % 4 = 0) →
    (n = 144 → tokenOk s.key (s.readWin (d.word 3).toNat n) target = true) → s.key.lcLog.length < 16 →
    s.key.lcBurn = none → s.auditFits 2 = true → ∃ t, exec (.keyLcSet d) s = .next t ∧
      t.key.lcBurn = some (d, target, s.readWin (d.word 3).toNat n) ∧ t.key.retention = [] ∧
      OnlyIn [.boot, .cip, .ctxs, .evr, .free, .hif, .key, .mem, .outbox, .que, .regs, .rf, .spanc, .tbl, .tol] s t) ∧
  (∀ (s : State) (d : Desc) (target : LifeCycle) (arg : List Byte), s.key.lcBurn = some (d, target, arg) → ∃ t,
    exec (.lifeCycleBurnComplete true) s = .next t ∧ t.key.lcBurn = none ∧ t.key.lcStatus = .ok ∧
      t.key.lcLog = s.key.lcLog ++ [{ target := target, complete := true }] ∧
      t.hif.held = s.hif.held ++ [{ tag := d.tag, status := .ok }] ∧
      OnlyIn [.evr, .free, .hif, .key, .outbox, .que, .regs] s t)

/-- MAC_FRAME_RX (R201 to R206): outside ACTIVE and STANDBY a frame other than a beacon is dropped and counted; in them a
data or command frame for another device, a secured one from an unknown source, one from a blocked node, one below the
least level and one with a key not taken are dropped and counted, each in its counter; any other secured one is taken
further as its node's. -/
def Obligations.framesChecked : Prop :=
  ∀ (s u : State) (id : Nat) (f g : RxFrame) (adj : Int), u = s.handedOver id → u.rxFrame id = some f → f.stage = .arrived →
    f.known = false → f.air.version = 2 → f.air.type = .data ∨ f.air.type = .command →
    g = { f with owes := s.owesAck f.air } →
    (s.inStates [.active, .standby] = false → ∃ t, exec (.macFrameRx id adj) s = .next t ∧
      t = (u.failFrame g 4).settleAir ∧ t.rxFrame id = none) ∧
    (s.inStates [.active, .standby] = true → u.overheardData g = none →
      (s.addressed f.air = false → ∃ t, exec (.macFrameRx id adj) s = .next t ∧
        t = (u.failFrame g 1).settleAir ∧ t.rxFrame id = none) ∧
      (s.addressed f.air = true → f.air.level ≠ 0 →
        (∀ s1 : State, u.resolve f.air = (s1, .unknown) → ∃ t, exec (.macFrameRx id adj) s = .next t ∧
          t = (s1.failFrame g 2).settleAir ∧ t.rxFrame id = none ∧ t.tick = s.tick ∧ t.now = s.now) ∧
        (∀ (s1 : State) (n : Nat) (c : Ctx), u.resolve f.air = (s1, .known n c) → ∃ t,
          exec (.macFrameRx id adj) s = .next t ∧ t.tick = s.tick ∧ t.now = s.now ∧
          (c.blocked = true → t = (s1.failFrame g 3).settleAir ∧ t.rxFrame id = none) ∧
          (c.blocked = false → f.air.level < s1.minSec → t = (s1.failFrame g 5).settleAir ∧ t.rxFrame id = none) ∧
          (c.blocked = false → s1.minSec ≤ f.air.level → f.air.keyMode = 1 →
            t = (s1.stage4InOrder { g with node := some n, known := true }).settleAir) ∧
          OnlyIn [.cip, .ctxs, .evr, .free, .hif, .key, .outbox, .que, .red, .regs, .rf, .spanc, .tbl, .time, .tol] s t)))

/-- ACK_CHECK_DEADLINE (R109 to R111, R208): 60 µs before an acknowledgement, a frame that has passed, with no later
reception on its channel, no rival and none given, has its acknowledgement given to the chain; one still in its checks is
late, its chain given up and counted; one that another frame has taken the place of is delivered without, and counted. -/
def Obligations.acknowledgementGoes : Prop :=
  ∀ (s : State) (i : U64) (fid : Nat) (f : RxFrame), (s.at_ i).rxFrame fid = some f → f.ackDue ≤ (s.at_ i).now →
    f.owes = true →
    (∀ (cid : Nat) (c : Claim), f.stage = .passed → f.ackClaim = some cid → (s.at_ i).claim cid = some c →
      (s.at_ i).laterReception f f.ackAt = false → (s.at_ i).rivalHolds f = false → (s.at_ i).ackGiven f = false → ∃ t,
        exec (.ackCheckDeadline i fid) s = .next t ∧
          t.rf.claims = s.rf.claims.map (fun x => if x.id = c.id then
            { c with psdu := some f.ackPsdu, len := f.ackPsdu.length } else x) ∧
          t.rf.frames = s.rf.frames.map (fun x => if x.id = f.id then { f with stage := .acking } else x) ∧
          t.rf.acks = s.rf.acks ++ [(f.band, f.channel, f.slotStart)] ∧ OnlyIn [.time, .rf] s t) ∧
    (∀ cid : Nat, s.tidy → s.inStates [.maintenance, .alarm] = false → f.stage = .arrived ∨ f.stage = .checking →
      f.late = false → f.ackClaim = some cid → ∃ t,
      exec (.ackCheckDeadline i fid) s = .next t ∧
        t.rf.claims = s.rf.claims.filter (fun c => c.id != cid) ∧
        t.rxFrame fid = some { f with late := true, ackClaim := none } ∧
        t.reg (Reg.TIME_LATE 3) = (s.bump16 (Reg.TIME_LATE 3)).reg (Reg.TIME_LATE 3) ∧ OnlyIn [.time, .cip, .rf, .regs] s t) ∧
    (s.tidy → f.stage = .passed → f.ackClaim = none → f.settled = false → f.dup = false → f.inHold = true →
      (s.at_ i).laterReception f f.ackAt = true ∨ (s.at_ i).rivalHolds f = true ∨ (s.at_ i).ackGiven f = true → ∃ t,
      exec (.ackCheckDeadline i fid) s = .next t ∧
        t.rxFrame fid = some
          { f with settled := true, acked := false, noack := !f.late, capture := true, stage := .done, ackClaim := none } ∧
        t.reg (Reg.PIER_CNT f.band 10) = (s.bump (Reg.PIER_CNT f.band 10)).reg (Reg.PIER_CNT f.band 10) ∧
        OnlyIn [.time, .rf, .regs] s t)

/-- LEARN_HOLD_CLOSE, REASSEMBLY_TIMEOUT, LIFETIME_EXPIRY and FLOOD_REPETITION (R211, R212, R227, R230, R257): an expired
hold with no frame left is forgotten; an expired reassembly is dropped and counted; an expired descriptor ends with its
last outcome, or TIMEOUT; a closed hold with one frame learns the key with that frame's band and pier, and the frame goes
on; the next repetition of a flood sends its fragments again and has them all to send, or the flood has ended, with
UNSUPPORTED where its queue sends none. -/
def Obligations.timersOfTheMac : Prop :=
  (∀ (s : State) (eui : U64) (h : Hold), s.tbl.holds.find? (fun h => h.eui = eui) = some h →
    h.openTick.toNat + s.tp.learnHold ≤ s.tick → (s.rf.frames.filter fun f => h.frames.contains f.id) = [] → ∃ t,
      exec (.learnHoldClose eui) s = .next t ∧ t.tbl.holds = s.tbl.holds.filter (fun x => x.eui != eui) ∧ OnlyIn [.tbl] s t) ∧
  (∀ (s : State) (eui : U64) (h : Hold) (f : RxFrame), s.tbl.holds.find? (fun h => h.eui = eui) = some h →
    h.openTick.toNat + s.tp.learnHold ≤ s.tick → (s.rf.frames.filter fun f => h.frames.contains f.id) = [f] →
    s.rxFrame f.id = some f → f.settled = false → ∃ t, exec (.learnHoldClose eui) s = .next t ∧
      t = (({ s with tbl := { s.tbl with holds := s.tbl.holds.filter fun x => x.eui != eui } }).learnKey eui
        (BitVec.ofNat 18 (f.node.getD 0)) (f.band = 1) (BitVec.ofNat 6 f.pier)).setFrame { f with inHold := false } ∧
      t.rxFrame f.id = some { f with inHold := false } ∧ OnlyIn [.evr, .free, .hif, .outbox, .que, .regs, .rf, .spanc,
        .tbl] s t) ∧
  (∀ (s : State) (n : Nat) (x : Reasm), s.rf.reasm[n]? = some x → x.firstTick + s.tp.reasmTimeout ≤ s.tick → ∃ t,
    exec (.reassemblyTimeout n) s = .next t ∧ t.rf.reasm = s.rf.reasm.filter (fun y => y != x) ∧
      t.rf.frames = s.rf.frames ∧ OnlyIn [.rf, .regs] s t) ∧
  (∀ (s : State) (n : Nat) (x : TxDesc), s.txDesc n = some x → x.fetchTick + x.lifetime ≤ s.tick → x.lifetime ≠ 0 → ∃ t,
    exec (.lifetimeExpiry n) s = .next t ∧ t.txDesc n = none ∧ (x.ring = none → t.hif = s.hif) ∧
      (∀ k : Nat, x.ring = some k → t.hif.held = s.hif.held ++ [x.completion (x.last.getD .timeout) k]) ∧
      OnlyIn [.cip, .ctxs, .hif, .que, .regs, .rf, .tol] s t) ∧
  (∀ (s : State) (n : Nat) (x : TxDesc) (i : QItem) (rest : List QItem), s.txDesc n = some x →
    x.form = .flood → x.left = 0 → x.reps ≠ 0 → (s.queue x.rq).items = i :: rest → i.ownedBy n = true →
    (s.queue x.rq).consumer = 1 → s.serving = true → x.queue ≠ x.rq → ∃ t, exec (.floodRepetition n) s = .next t ∧
      (t.txDesc n = none ∨ ∃ y, t.txDesc n = some y ∧ y.left = x.frags.length) ∧
      ((s.queue x.queue).downlink = false → t.txDesc n = none ∧ (∀ k : Nat, x.ring = some k →
        t.hif.held = s.hif.held ++ [x.completion .unsupported k])) ∧
      (∀ (b : List Byte) (q : Queue) (u v : State) (m : BitVec 16), x.frags = [b] → (s.queue x.queue).downlink = true →
        q = { s.queue x.rq with mark := 0, read := 1, readMax := max (s.queue x.rq).readMax 1 } →
        u = (if 1 ≤ (s.queue x.rq).readMax then (s.setQueue x.rq q).bumpBy (Reg.QUE_CNT 5) 31 1 else s.setQueue x.rq q) →
        ((u.setDesc { x with left := 1 }).enqueue x.queue { len := b.length, bytes := b, owner := some ⟨n, 0⟩ }) = (v, some m) →
        t = v ∧ t.txDesc n = some { x with left := 1 }) ∧
      OnlyIn [.cip, .evr, .free, .hif, .outbox, .que, .regs, .rf] s t)

/-- PAR_PROGRAM, PAR_BURN_COMPLETE and PAR_READ (R166, R167, R169, R354): an image of the right form is burned when its
signature holds and the truss is within it, and is refused by name otherwise; a burn that reads back seals its slot from
the next reset, and one that does not ends INTEGRITY; the fused region is read out. DUTY_BUCKET_ADVANCE (R174, R177): at a
whole second of elapsed time each duty and dwell window moves by one bucket, the newest empty. -/
def Obligations.parapetAndDuty : Prop :=
  ((∀ (s : State) (d : Desc), d.byte 4 = 0xFF → s.sys.state = .structured → s.key.lc = .provisioned →
     s.par.state = .unwritten → s.par.burn = none → s.par.sealDue = none → d.unlistedZero [8, 9, 10, 11] = true →
     (d.word 2).toNat % 4 = 0 → s.inWindow (d.word 2).toNat 2048 = true → s.par.burned 0 = false ∨ s.par.burned 1 = false →
     parImageOk (s.readWin (d.word 2).toNat 2048) = true → ∃ t, exec (.parProgram d) s = .next t ∧
       OnlyIn [.par, .hif, .regs] s t ∧
       (s.parSigOk (s.readWin (d.word 2).toNat 2048) = true → parapetOk s.tp (s.readWin (d.word 2).toNat 2048) = true →
         t.par.burn = some (d, s.readWin (d.word 2).toNat 2048, if s.par.burned 0 then 1 else 0) ∧ t.hif = s.hif) ∧
       (s.parSigOk (s.readWin (d.word 2).toNat 2048) = true → parapetOk s.tp (s.readWin (d.word 2).toNat 2048) = false →
         t.par = s.par ∧ t.hif.held = s.hif.held ++ [{ tag := d.tag, status := .parapet }]) ∧
       (s.parSigOk (s.readWin (d.word 2).toNat 2048) = false →
         t.par = s.par ∧ t.hif.held = s.hif.held ++ [{ tag := d.tag, status := .authFail }])) ∧
   (∀ (s : State) (d : Desc) (img : List Byte) (n : Nat), s.par.burn = some (d, img, n) → n ≤ 1 → ∃ t,
     exec (.parBurnComplete (slice img 0 2044 ++ leBytes 0x5EA10C0D 4)) s = .next t ∧ t.par.burn = none ∧
       t.par.sealDue = some n ∧
       (n = 0 → t.par.slot0 = slice img 0 2044 ++ leBytes 0x5EA10C0D 4 ∧ t.par.slot1 = s.par.slot1) ∧
       (n = 1 → t.par.slot1 = slice img 0 2044 ++ leBytes 0x5EA10C0D 4 ∧ t.par.slot0 = s.par.slot0) ∧
       t.hif.held = s.hif.held ++ [{ tag := d.tag, status := .ok }] ∧
       OnlyIn [.boot, .evr, .free, .hif, .outbox, .par, .que, .regs] s t) ∧
   (∀ (s : State) (d : Desc) (img read : List Byte) (n : Nat), s.par.burn = some (d, img, n) →
     read ≠ slice img 0 2044 ++ leBytes 0x5EA10C0D 4 → ∃ t, exec (.parBurnComplete read) s = .next t ∧ t.par.burn = none ∧
       t.hif.held = s.hif.held ++ [{ tag := d.tag, status := .integrity }] ∧
       OnlyIn [.boot, .evr, .free, .hif, .outbox, .par, .que, .regs] s t) ∧
   (∀ (s : State) (d : Desc), d.byte 4 = 0xFF →
     s.inStates [.boot, .structured, .active, .standby, .maintenance, .alarm] = true → d.unlistedZero [8, 9, 10, 11] = true →
     (d.word 2).toNat % 4 = 0 → s.inWindow (d.word 2).toNat 4096 = true → ∃ t, exec (.parRead d) s = .next t ∧
       t.mem = (s.writeWin (d.word 2).toNat s.par.region).mem ∧
       t.hif.held = s.hif.held ++ [{ tag := d.tag, status := .ok }] ∧ OnlyIn [.mem, .hif] s t)) ∧
  (∀ (s : State) (i : U64), (s.at_ i).now % 1000000000 = 0 → s.par.bucketAt + 1000000000 ≤ (s.at_ i).time.elapsed → ∃ t,
     exec (.dutyBucketAdvance i) s = .next t ∧ t.par.bucketAt = (s.at_ i).time.elapsed ∧
       t.par.duty = s.par.duty.map (fun e => (e.1,
         (0 :: e.2).take ((readRanges s.parImage (e.1 / 16)).getD (e.1 % 16) {}).dutyWindow)) ∧
       t.par.dwell = s.par.dwell.map (fun e => (e.1,
         (0 :: e.2).take ((readRanges s.parImage (e.1 / 1024 / 16)).getD (e.1 / 1024 % 16) {}).dwellPeriod)) ∧
       t.par.slot0 = s.par.slot0 ∧ t.par.slot1 = s.par.slot1 ∧ OnlyIn [.time, .par] s t)

/-- QUE_POP and QUE_POP_FREE (R274, R275): a pop shows the head item, past whatever broken packet was there, and holds it;
a free removes what was held. No other queue changes. -/
def Obligations.queuesPopped : Prop :=
  (∀ (s : State) (q : Nat) (i : QItem), (s.queue q).popped = true → (s.queue q).pointersBad = false →
    (((s.popFree q).dropBroken q).queue q).headItem = some i → ∃ t, exec (.quePop q) s = .next t ∧
      (∃ (m : List (Nat × Queue)) (y : Queue) (j : QItem), t.que.queues = aset {} m q y ∧ y.popWords = j.words ∧
        j.seq = i.seq ∧ j.bytes = i.bytes ∧
        y.popHeld = !decide ((((s.popFree q).dropBroken q).queue q).type = .rewind)) ∧
      (∀ p : Nat, p ≠ q → t.queue p = s.queue p) ∧ OnlyIn [.que, .regs] s t) ∧
  (∀ (s : State) (q : Nat), (s.queue q).popped = true → (s.queue q).pointersBad = false → (s.queue q).popHeld = true → ∃ t,
    exec (.quePopFree q) s = .next t ∧ t.que.queues = aset {} s.que.queues q
      { s.queue q with items := (s.queue q).items.filter fun i => !i.taken, popHeld := false } ∧ OnlyIn [.que] s t)

/-- QUE_MARK, QUE_REWIND, QUE_RELEASE and QUE_DROP_REST (R277, R278): MARK becomes READ, READ becomes MARK, the items up
to the one named leave, and the rest of a packet leaves up to its EOP or the next packet, or goes on to be dropped, each
for a queue its issuer may command; a host command completes OK. -/
def Obligations.queuesCommanded : Prop :=
  ∀ (s : State) (w : Issuer) (d : Desc) (x : Queue), d.byte 4 = 0xFF → s.inStates stSAYM = true →
    d.half 8 < 1024 → x = s.queue (d.half 8) → x.issuerOk w = true → x.pointersBad = false →
    (x.type = .rewind → d.unlistedZero [8, 9] = true → ∃ t, exec (.queMark w d) s = .next t ∧
      t.que.queues = aset {} s.que.queues (d.half 8) { x with mark := x.read } ∧ t.answered w d s ∧
      OnlyIn [.que, .hif] s t) ∧
    (x.type = .rewind → d.unlistedZero [8, 9] = true → ∃ t, exec (.queRewind w d) s = .next t ∧
      t.que.queues = aset {} s.que.queues (d.half 8) { x with read := x.mark } ∧ t.answered w d s ∧
      OnlyIn [.que, .hif] s t) ∧
    (∀ (n : Nat) (g : Option QItem), x.type = .rewind → d.unlistedZero [8, 9, 10, 11] = true →
      releaseCount (x.items.take x.read) (BitVec.ofNat 16 (d.half 10)) = some (n, g) → ∃ t,
        exec (.queRelease w d) s = .next t ∧ t.que = ((s.setQueue (d.half 8) { x with
          items := (match g with
            | some i => i :: x.items.drop (n + 1)
            | none => x.items.drop n)
          read := x.read - n
          mark := x.mark - n
          readMax := x.readMax - n }).freeGaps (d.half 8)).que ∧ t.answered w d s ∧ OnlyIn [.que, .hif, .regs] s t) ∧
    (∀ (gone ahead : List QItem) (n : Nat) (drop : Bool), x.type ≠ .disabled → x.inPacket = true →
      d.unlistedZero [8, 9] = true → gone = (if x.type = .rewind then x.items.take x.read else x.items.filter fun i => i.taken) →
      ahead = (if x.type = .rewind then x.items.drop x.read else x.items.filter fun i => !i.taken) →
      (toEop ahead = some n ∧ drop = false) ∨ (toEop ahead = none ∧ n = ahead.length ∧ drop = true) → ∃ t,
        exec (.queDropRest w d) s = .next t ∧ t.que.queues = aset {} s.que.queues (d.half 8) { x with
          items := gone ++ ahead.drop n
          inPacket := false
          dropping := drop } ∧ t.answered w d s ∧ OnlyIn [.que, .hif, .regs] s t) ∧
    (x.type ≠ .disabled → x.inPacket = false → d.unlistedZero [8, 9] = true → ∃ t,
      exec (.queDropRest w d) s = .next t ∧ t.que = s.que ∧ t.answered w d s ∧ OnlyIn [.hif] s t)

/-- RX_DELIVERY (R274, R422): with room on a ring in use, the next item of the ring's turn is written at PROD with the
PHASE of its count, and PROD advances. -/
def Obligations.deliveries : Prop :=
  ∀ (s : State) (r q : Nat) (ty : QType) (i : QItem), s.tidy → r < 8 → s.ringsCarry = true → s.linkUp = true →
    s.ringEn (10 + r) = true → s.ringUsed (10 + r) < s.ringSize (10 + r) → s.ringNext r = some (q, ty) →
    (s.queue q).pointersBad = false → (((s.dropBroken q).skipGaps q 65536).queue q).headItem = some i → ∃ t,
      exec (.rxDelivery r) s = .next t ∧ t.reg (Reg.HIF_RING_PROD (10 + r)) = pw (s.ringProd (10 + r) + 1) ∧
        (∃ j : QItem, j.seq = i.seq ∧ j.bytes = i.bytes ∧
          .hostWrite (s.ringAddr (10 + r) (s.ringProd (10 + r)) 32)
            (j.delivery (s.ringPhase (10 + r) (s.ringProd (10 + r)))) ∈ t.outbox) ∧
        OnlyIn [.evr, .free, .hif, .outbox, .que, .regs] s t

/-- EVR_READ, EVR_WRITE and EVR_CLEAR (R408, R409, R411 to R413): whole records from FROM on are copied; a record the log
has room for has the next SEQ, one it has not completes NO_ROOM; a clear under a valid token leaves an AUDIT record alone
in the log, with what was removed, and one under any other leaves the log as it was. -/
def Obligations.recordsCommanded : Prop :=
  ∀ (s : State) (d : Desc), s.tidy → d.byte 4 = 0xFF → s.inStates stSAYML = true →
    (∀ l got : List Rec, d.unlistedZero [8, 9, 10, 11, 12, 13, 14, 15, 16, 17, 18, 19] = true →
      s.inWindow (d.word 3).toNat (d.word 4).toNat = true → (d.word 3).toNat % 4 = 0 →
      l = (s.evr.all.filter fun r => r.seq.toNat = (d.word 2).toNat || seqNewer r.seq.toNat (d.word 2).toNat) →
      got = fitRecs l (d.word 4).toNat → (got = [] → l = []) → ∃ t, exec (.evrRead d) s = .next t ∧
        t.mem = (s.writeWin (d.word 3).toNat (got.flatMap fun r => ofWords r.words)).mem ∧
        t.hif.held = s.hif.held ++ [{ tag := d.tag, status := .ok, b4 := pw got.length, b8 :=
          ((l.drop got.length).head?.map fun r => r.seq).getD s.evr.next }] ∧ OnlyIn [.hif, .mem] s t) ∧
    (∀ v : Sev, v.code = d.byte 8 → v.code ≤ 4 → d.unlistedZero [8, 9, 12, 13, 14, 15, 16, 17] = true →
      d.half 16 % 4 = 0 → d.half 16 ≤ 1008 → s.inWindow (d.word 3).toNat (d.half 16) = true → s.evr.running = true →
      bit (s.reg Reg.EVR_CTRL) 3 = false → ∃ t, exec (.evrWrite d) s = .next t ∧
        (match makeRoom (evrOnChip + s.evr.ext) s.evr.wr (16 + 4 * (toWords (s.readWin (d.word 3).toNat (d.half 16))).length)
            v s.evr.general with
          | (g, true) => t.hif.held = s.hif.held ++ [{ tag := d.tag, status := .ok, b4 := s.evr.next }] ∧
              t.evr.next = s.evr.next + 1 ∧ t.evr.newest = s.evr.next ∧ t.evr.general.length = g.length + 1 ∧
              ∃ r ∈ t.evr.general, r.seq = s.evr.next ∧ r.sev = v ∧ r.source = 0x7F ∧
                r.event = BitVec.ofNat 8 (d.byte 9) ∧ r.payload = toWords (s.readWin (d.word 3).toNat (d.half 16))
          | (g, false) => t.hif.held = s.hif.held ++ [{ tag := d.tag, status := .noRoom }] ∧
              t.evr = { s.evr with general := g }) ∧
        t.evr.reserved = s.evr.reserved ∧ OnlyIn [.evr, .free, .hif, .outbox, .que, .regs] s t) ∧
    (d.unlistedZero [8, 9, 10, 11] = true → s.inWindow (d.word 2).toNat 160 = true → (d.word 2).toNat % 4 = 0 →
      s.evr.running = true → bit (s.reg Reg.EVR_CTRL) 3 = false → ∃ t, exec (.evrClear d) s = .next t ∧
        (if s.clearTokenOk (s.readWin (d.word 2).toNat 160) then
          t.evr.general = [] ∧ t.evr.rsvFull = false ∧ t.evr.next = s.evr.next + 1 ∧
            (∃ r : Rec, t.evr.reserved = [r] ∧ r.seq = s.evr.next ∧ r.sev = .audit ∧ r.payload.length = 11 ∧
              (∀ a ∈ s.evr.all.head?, r.payload.take 2 = [a.seq, s.evr.newest]) ∧
              r.payload.drop 2 = pw (s.regFld Reg.EVR_STATUS 15 0) :: (List.range 8).map fun v => s.reg (Reg.EVR_DROP v)) ∧
            (∀ v : Nat, v < 8 → t.reg (Reg.EVR_DROP v) = 0) ∧
            t.regFld Reg.EVR_STATUS 15 0 = (s.regFld Reg.EVR_STATUS 15 0 + 1) % 65536 ∧
            t.hif.held = s.hif.held ++ [{ tag := d.tag, status := .ok }]
        else t.evr = s.evr ∧ t.regs = s.regs ∧ t.hif.held = s.hif.held ++ [{ tag := d.tag, status := .authFail }]) ∧
        OnlyIn [.evr, .free, .hif, .outbox, .que, .regs] s t)

/-- TRUSS_RELOAD, TRUSS_RELOAD_COMPLETE and TRUSS_READ (R60 to R62, R66, R245): the truss named is copied on entry to
MAINTENANCE, once a migration has ended; it is then in force when it verifies, and shown as refused, with the old one in
force, when it does not; the header or a section in force is copied to the window. -/
def Obligations.trussCommands : Prop :=
  (∀ (s : State) (d : Desc) (n : Nat), d.byte 4 = 0xFF → s.inStates stSAY = true → s.tbl.migration = none →
    d.unlistedZero [8, 12, 13, 14, 15] = true → n = max 0xB8 (min 262144 (leAt (s.readWin (d.word 3).toNat 16) 8 4)) →
    (d.byte 8 = 0 ∨ d.byte 8 = 1 ∧ (d.word 3).toNat % 4 = 0 ∧ s.inWindow (d.word 3).toNat n = true) → ∃ t,
      exec (.trussReload d) s = .next t ∧ t.sys.state = .maintenance ∧ t.sys.held = s.sys.state ∧
        (∃ (src : TrussSource) (bs : List Byte), t.truss = { s.truss with reload := some (d, src, bs) } ∧
          (d.byte 8 = 0 → bs = s.bankTrussBytes s.boot.bank) ∧
          (d.byte 8 = 1 → bs = s.readWin (d.word 3).toNat n)) ∧
        OnlyIn [.cal, .cip, .ctxs, .evr, .free, .hif, .outbox, .que, .red, .regs, .rf, .spanc, .sys, .tbl, .time, .tol,
          .truss] s t) ∧
  (∀ (s : State) (d : Desc) (m : Migration) (n : Nat), d.byte 4 = 0xFF → s.inStates stSAY = true → s.tbl.migration = some m →
    d.unlistedZero [8, 12, 13, 14, 15] = true → n = max 0xB8 (min 262144 (leAt (s.readWin (d.word 3).toNat 16) 8 4)) →
    (d.byte 8 = 0 ∨ d.byte 8 = 1 ∧ (d.word 3).toNat % 4 = 0 ∧ s.inWindow (d.word 3).toNat n = true) → ∃ t,
      exec (.trussReload d) s = .next t ∧ t.tbl.migration = some { m with deferred := m.deferred ++ [d] } ∧
        OnlyIn [.tbl] s t) ∧
  (∀ (s : State) (i : U64) (d : Desc) (src : TrussSource) (bs : List Byte), s.truss.reload = some (d, src, bs) → ∃ t,
    exec (.trussReloadComplete i) s = .next t ∧ t.truss.reload = none ∧ t.truss.resume = true ∧
      (match verifyTruss (s.at_ i) bs with
        | .error r => t.truss.truss = s.truss.truss ∧ t.truss.loaded = s.truss.loaded ∧ t.truss.source = s.truss.source ∧
            t.truss.lastStatus = r.reason.status ∧
            t.hif.held = s.hif.held ++ [{ tag := d.tag, status := r.reason.status }] ∧
            OnlyIn [.hif, .regs, .time, .truss] s t
        | .ok new => t.truss.truss = new ∧ t.truss.loaded = true ∧ t.truss.source = src ∧ t.truss.lastStatus = .ok ∧
            (∃ l, t.hif.held = l ++ [{ tag := d.tag, status := .ok }])) ∧
      OnlyIn [.boot, .cal, .ctxs, .ethA, .ethB, .evr, .free, .hif, .mem, .outbox, .que, .regs, .rf, .sch, .spanc, .tbl,
        .time, .truss, .upd] s t) ∧
  (∀ (s : State) (d : Desc) (bs : List Byte), d.byte 4 = 0xFF → s.inStates stSAYML = true →
    d.unlistedZero [8, 9, 12, 13, 14, 15, 16, 17, 18, 19] = true →
    (d.half 8 = 0 ∧ bs = s.truss.truss.header ∨ d.half 8 ≠ 0 ∧ ∃ x, s.truss.truss.sections.find?
      (fun x => x.type = d.half 8) = some x ∧ bs = x.raw) →
    s.inWindow (d.word 3).toNat (d.word 4).toNat = true → ∃ t, exec (.trussRead d) s = .next t ∧
      (if (d.word 4).toNat < bs.length then t.mem = s.mem ∧
          t.hif.held = s.hif.held ++ [{ tag := d.tag, status := .length }]
        else t.mem = (s.writeWin (d.word 3).toNat bs).mem ∧
          t.hif.held = s.hif.held ++ [{ tag := d.tag, status := .ok }]) ∧
      OnlyIn [.hif, .mem] s t)

/-- CLIPPING_STEP, RX_WINDOW_OPEN and RX_WINDOW_CLOSE (R93, R94, R107, R194, R197): a band that clips loses 12 dB of gain
and its receptions are flagged; a window given to an idle primary pier opens on its channel; at its end the pier detects
nothing more, goes on with a frame it is in, and a beacon window left unheard is watched until nothing can bring its
beacon. -/
def Obligations.windowsOpenAndClose : Prop :=
  (∀ (s : State) (i : U64) (b : Nat), s.tidy → b < 2 → s.sampling = true → (s.tp.band b).present = true → s.gain b ≠ 0 →
    ∃ t, exec (.clippingStep i b) s = .next t ∧ t.gain b = s.gain b - 4 ∧
      t.rf.piers = s.rf.piers.map (fun x => if x.midFrame && x.band = b then { x with clipped := true } else x) ∧
      OnlyIn [.regs, .rf, .time] s t) ∧
  (∀ (s r : State) (i : U64) (p : Nat) (w : Window), r = s.airAt i → p < r.rf.piers.length → r.isPrimary p = true →
    (r.pier p).window = some w → r.opensWindow w = true → (r.pier p).windowOpen = false → (r.pier p).state = .idle → ∃ t,
      exec (.rxWindowOpen i p) s = .next t ∧
        t.pier p = { r.pier p with
          state := .search
          agc := .running
          searched := true
          channel := w.channel
          connected := true
          windowOpen := true
          band := if r.pierRole p = .primaryA then 0 else 1 } ∧
        (∀ q : Nat, q ≠ p → t.pier q = r.pier q) ∧ OnlyIn [.rf, .time] s t) ∧
  (∀ (s r : State) (i : U64) (p : Nat) (w : Window), r = s.airAt i → p < r.rf.piers.length →
    (r.pier p).window = some w → (r.pier p).windowOpen = true → w.search = false → ∃ u,
      exec (.rxWindowClose i p) s = .next u.settleAir ∧
      u.pier p = (if (r.pier p).receiving || (r.pier p).state = .blanked then { r.pier p with windowOpen := false }
        else { r.pier p with windowOpen := false }.idle) ∧
      (∀ q : Nat, q ≠ p → u.pier q = r.pier q) ∧
      u.rf.watches = r.rf.watches ++ (if (w.parent || w.beacon) && !w.heard then
        [{ band := (r.pier p).band, channel := w.channel, slotStart := w.slotStart, parent := w.parent }] else []) ∧
      OnlyIn [.red, .rf, .time] s u)

/-- PREAMBLE_DETECT, SFD_FOUND, SFD_TIMEOUT, PHR_RECEIVED and FRAME_END (R98 to R106, R108, R115): a preamble over the
thresholds and within the pull-in range brings a searching pier to SYNC, and one strong enough is taken by a free twin
when the pier is in a frame; the SFD brings HEADER, its absence the end of the attempt; a PHR with a length the band
allows brings PAYLOAD, one with another length, with reserved bits or with a switch the band does not allow ends the
attempt in its own counter, and a mode switch brings SYNC again; a whole frame with a good FCS is handed over and its pier
drains, and any other is not. -/
def Obligations.framesHeard : Prop :=
  ∀ (s r : State) (i : U64) (p b : Nat) (x : Pier), r = s.airAt i → x = r.pier p → b = x.band → p < r.rf.piers.length →
    (∀ d : Preamble, r.isPrimary p = true → x.windowOpen = true → r.blankedBy b x.channel = false →
      bits (r.reg (Reg.RXF_DET b)) 7 0 ≤ d.corr → signed (bits (r.reg (Reg.RXF_DET b)) 23 16) 8 * 4 ≤ d.power →
      (r.tp.band b).pullsIn d.cfo = true →
      ((r.receptions b x.channel (some p)).any fun q => withinSymbol ((r.tp.band b).symbolNs 1) q.timing d.start) = false →
      (x.state = .search → ∃ t, exec (.preambleDetect i p d) s = .next t ∧ (t.pier p).state = .sync ∧
        (t.pier p).agc = .frozen ∧ (t.pier p).timing = d.start ∧ (t.pier p).power = clampS d.power 12 ∧
        (t.pier p).cfo = d.cfo ∧ (t.pier p).sfdBy = r.now + (r.tp.band b).sfdDeadline ∧
        (∀ q : Nat, q ≠ p → t.pier q = r.pier q) ∧ OnlyIn [.regs, .rf, .time] s t) ∧
      (∀ (v : Int) (w : Nat) (l : List Nat), x.midFrame = true → withinSymbol ((r.tp.band b).symbolNs 1) x.timing d.start =
        false → strongest (r.receptions b x.channel none) = some v → v + 2 * r.tp.captureMargin ≤ d.power →
        r.freeTwins = w :: l → w < r.rf.piers.length → ∃ t, exec (.preambleDetect i p d) s = .next t ∧
          (t.pier w).state = .sync ∧ (t.pier w).channel = x.channel ∧ (t.pier w).partner = some p ∧
          (w ≠ p → t.pier p = x) ∧ OnlyIn [.regs, .rf, .time] s t)) ∧
    (∀ ts : Nat, x.state = .sync → r.now ≤ x.sfdBy → ((r.receptions b x.channel (some p)).any fun q =>
      withinSymbol ((r.tp.band b).symbolNs 1) (if q.sfd = 0 then q.timing + (r.tp.band b).sfdNs else q.sfd) ts) = false →
      ∃ t, exec (.sfdFound i p ts) s = .next t ∧
        t.pier p = { x with
          state := .header
          agc := .frozen
          sfd := ts } ∧ (∀ q : Nat, q ≠ p → t.pier q = r.pier q) ∧ OnlyIn [.regs, .rf, .time] s t) ∧
    (x.state = .sync → x.sfdBy ≤ r.now → ∃ u, exec (.sfdTimeout i p) s = .next u.settleAir ∧
      (u.pier p).state = (if r.isPrimary p && x.windowOpen then .search else .idle) ∧ OnlyIn [.cip, .regs, .rf, .time] s u) ∧
    (∀ h : Phr, x.state = .header →
      ((r.tp.band b).phy = 3 ∨ h.ms = false → h.len < h.fcsOctets (r.tp.band b) ∨ (r.tp.band b).maxPsdu < h.len →
        exec (.phrReceived i p h) s = .next (r.abandon p 4).settleAir) ∧
      ((r.tp.band b).phy = 3 ∨ h.ms = false → h.fcsOctets (r.tp.band b) ≤ h.len → h.len ≤ (r.tp.band b).maxPsdu →
        h.reserved = true → exec (.phrReceived i p h) s = .next (r.abandon p 3).settleAir) ∧
      ((r.tp.band b).phy ≠ 3 → h.ms = true → h.reserved = true ∨ h.switchOk (r.tp.band b) = false →
        exec (.phrReceived i p h) s = .next (r.abandon p 3).settleAir) ∧
      (∀ m : BandCfg, (r.tp.band b).phy ≠ 3 → h.ms = true → h.reserved = false → h.switchOk (r.tp.band b) = true →
        m = { r.tp.band b with phy := h.phy, modIndex := h.modIndex, symbolRate := h.symbolRate } → ∃ t,
        exec (.phrReceived i p h) s = .next t ∧
          t.pier p = { x with
            state := .sync
            agc := .frozen
            ms := true
            sfd := 0
            octetNs := m.octetsNs 1
            sfdBy := r.now + 1000000 + m.octetsNs m.preambleLen + m.symbolNs 2 } ∧ OnlyIn [.regs, .rf, .time] s t) ∧
      (∀ (u : State) (cl : Option Nat) (e : Nat), h.reserved = false → (r.tp.band b).phy = 3 ∨ h.ms = false →
        h.fcsOctets (r.tp.band b) ≤ h.len → h.len ≤ (r.tp.band b).maxPsdu → e = r.now + h.len * x.octetNs →
        r.claimAck x e = (u, cl) → exec (.phrReceived i p h) s = .next (u.setPier p { u.pier p with
          state := .payload
          agc := .frozen
          ends := some e
          len := h.len
          fcs4 := h.fcsOctets (r.tp.band b) = 4
          whitened := h.whitened && (r.tp.band b).phy != 3
          ackClaim := cl }))) ∧
    (∀ (air : AirFrame) (octets psdu mpdu : List Byte) (cfo : Int), x.state = .payload →
      mpdu = air.header ++ air.payload ++ air.mic → psdu = (if x.whitened then Config.whiten octets else octets) →
      ∃ u, exec (.frameEnd i p air octets cfo) s = .next u.settleAir ∧ (u.pier p).lastCfo = clampS cfo 24 ∧
        (if psdu = mpdu ++ fcsOf x.fcs4 mpdu ∧ psdu.length = x.len then
          (u.pier p).state = .drain ∧ (u.pier p).ends = some r.now ∧
          ∃ f : RxFrame, u.rf.frames = r.rf.frames ++ [f] ∧ f.id = r.rf.nextFrame ∧ f.band = b ∧ f.channel = x.channel ∧
            f.pier = p ∧ f.sfd = x.sfd ∧ f.ends = r.now ∧ f.mpdu = mpdu ∧ f.air = air ∧ f.cfo = clampS cfo 24
        else (u.pier p).state = (if r.isPrimary p && x.windowOpen then .search else .idle) ∧ u.rf.frames = r.rf.frames) ∧
        OnlyIn [.cal, .cip, .regs, .rf, .time] s u)

/-- SPAN_OPEN, SPAN_STAGE and SPAN_ARM (R70, R71, R74, R85): a free span opens with its result area; items are staged in
order up to the first that fails; a span with items is armed for a tick that lies ahead and its command completes later.
-/
def Obligations.spansCommanded : Prop :=
  ∀ (s : State) (d : Desc), s.spanc.spans.length = 16 → s.inStates stSAY = true → s.spanHeld d = false →
    (∀ n : Nat, (d.byte 4 = 0xFF ∧ (List.range 12).find? (fun n => (s.span n).free) = some n ∨
        d.byte 4 = n ∧ n < 12 ∧ (s.span n).free = true) → d.unlistedZero [8, 9, 10, 11] = true →
      (d.word 2).toNat % 8 = 0 → s.inWindow (d.word 2).toNat 65536 = true → ∃ t, exec (.spanOpen d) s = .next t ∧
        (t.span n).state = .open_ ∧ (t.span n).vis = false ∧ (t.span n).items = [] ∧
        (t.span n).resultOffset = (d.word 2).toNat ∧ (t.span n).openTag = d.tag ∧ (∀ m, m ≠ n → t.span m = s.span m) ∧
        t.hif.held = s.hif.held ++ [{ tag := d.tag, status := .ok, b4 := pw n }] ∧ OnlyIn [.hif, .spanc] s t) ∧
    (d.byte 4 < 12 → d.unlistedZero [8, 9, 10, 11, 12, 13] = true →
      (s.span (d.byte 4)).state = .open_ ∨ (s.span (d.byte 4)).state = .staging → (d.word 2).toNat % 32 = 0 →
      1 ≤ d.half 12 → d.half 12 ≤ 8192 → s.inWindow (d.word 2).toNat (32 * d.half 12) = true → ∃ (t u : State) (k : Nat)
        (e : Option Status), exec (.spanStage d) s = .next t ∧ k ≤ d.half 12 ∧ (k = d.half 12 ↔ e = none) ∧
        (t.span (d.byte 4)).items.length = (s.span (d.byte 4)).items.length + k ∧
        (∀ m, m ≠ d.byte 4 → t.span m = s.span m) ∧ OnlyIn [.evr, .free, .key, .outbox, .que, .regs, .spanc, .tbl, .hif] s u ∧
        t.hif.held = u.hif.held ++
          [{ tag := d.tag, status := e.getD .ok, b4 := fld k 0 ||| fld ((e.map fun _ => k).getD 0xFFFF) 16 }] ∧
        OnlyIn [.hif] u t) ∧
    (∀ (x : Span) (t0 target : Nat) (align : Bool), d.byte 4 < 12 → d.unlistedZero [8, 9, 10, 11, 12, 13, 14] = true →
      d.byte 14 ≤ 1 → align = decide (d.byte 14 = 1) → x = s.span (d.byte 4) → x.state = .staging →
      t0 = (d.word 2).toNat + 2 ^ 32 * d.half 12 →
      target = (if Span.epochBound s x && align then epochAt t0 else t0) →
      (Span.epochBound s x && !align && decide (t0 % 65536 ≠ 0)) = false →
      liesAhead target s.tick = true → tickAhead target s.tick ≤ 2 ^ 32 → ∃ t, exec (.spanArm d) s = .next t ∧
        t.span (d.byte 4) = { x with
          state := .armed
          armCmd := some d
          target := BitVec.ofNat 48 target
          alignForward := align } ∧
        (∀ m, m ≠ d.byte 4 → t.span m = s.span m) ∧ OnlyIn [.spanc] s t)

/-- COMMIT_WINDOW_CLOSE, SPAN_OUTCOME and SPAN_CLEANUP (R82, R87, R88): the bits of the decided spans are set together,
before any of their items takes effect; an outcome writes one result an item and one completion; cleanup makes plain or
removes what the span marked, and frees it. -/
def Obligations.spansEnd : Prop :=
  (∀ (s : State) (i : U64), s.spanc.spans.length = 16 → ∃ u v : State,
    (∀ n, n < 16 → (s.span n).decided = true → (u.span n).state = .committed ∧ (u.span n).vis = true ∧
      (u.span n).clean = false ∧ (u.span n).items = (s.span n).items ∧
      ∃ o ∈ u.spanc.outcomes, o.span = n ∧ o.status = .ok ∧ o.armCmd = (s.span n).armCmd) ∧
    (∀ n, n < 16 → (s.span n).decided = false → u.span n = s.span n) ∧ OnlyIn [.spanc, .time] s u ∧
    v = ((List.range 16).filter fun n => (s.span n).decided).foldl (fun s n =>
      (List.range (s.span n).items.length).foldl (fun z k => match (s.span n).items[k]? with
        | some it => z.commitItem State.endQueued n k it
        | none => z) s) u ∧
    exec (.commitWindowClose i) s = .next (v.spanc.held.foldl (fun (s : State) w => s.applyHeld w)
      { v with spanc := { v.spanc with held := [] } }).flushMac.calRepend.settleAir) ∧
  (∀ (s : State) (n : Nat) (o : SpanOutcome), s.spanc.outcomes.find? (fun o => o.span = n) = some o → ∃ t,
    exec (.spanOutcome n) s = .next t ∧ t.spanc.outcomes = dropFirst s.spanc.outcomes o ∧
      t.mem = (s.writeWin o.resultOffset (o.results.flatMap fun r => leBytes (r.1.code + r.2 * 65536) 8)).mem ∧
      (∃ c : Completion, t.hif.held = s.hif.held ++ [c] ∧ c.status = o.status ∧
        c.tag = ((o.armCmd.map fun d => d.tag).getD o.tag) ∧ c.b4 = (fld n 0 ||| fld (o.tick.toNat % 65536) 16) ∧
        c.b8 = pw (o.tick.toNat / 65536) ∧ c.b12 = (fld (o.results.length % 65536) 0 ||| fld o.firstBad 16)) ∧
      OnlyIn [.hif, .mem, .regs, .spanc] s t) ∧
  (∀ (s : State) (n : Nat), n < s.spanc.spans.length → (s.span n).clean = false → ∃ t,
    exec (.spanCleanup n) s = .next t ∧ (t.span n).clean = true ∧ (t.span n).vis = false ∧ (t.span n).items = [] ∧
      (t.span n).state = (s.span n).state ∧ (∀ m, m ≠ n → t.span m = s.span m) ∧
      Settled (·.mark) (fun e : EmEntry => e.span.toNat = n) (fun e => { e with
        mark := .plain
        span := 0 }) ((s.span n).state = .committed) s.tbl.em t.tbl.em ∧
      Settled (·.mark) (fun e : LpmEntry => e.span.toNat = n) (fun e => { e with
        mark := .plain
        span := 0 }) ((s.span n).state = .committed) s.tbl.lpm t.tbl.lpm ∧
      Settled (·.mark) (fun e : SeenEntry => e.span.toNat = n) (fun e => { e with
        mark := .plain
        span := 0 }) ((s.span n).state = .committed) s.tbl.seen t.tbl.seen ∧
      OnlyIn [.key, .spanc, .tbl] s t)

/-- TBL_READ, TBL_WRITE and TBL_LOCK_WRITE (R259 to R261): the units asked for are written to the window as they are
stored; a write of seen-cache units whose regions are locked, with no marked entry in them and every written entry in
order, replaces the slots of its units and no other, and completes OK with the units transferred, as a read does; where an
entry of it is a target of a span decided in this tick, the write is held until that span's window closes (R82). A write
of TBL_LOCK(t, h) shows at once, and notes the tick of each region it locks. -/
def Obligations.tablesCommanded : Prop :=
  (∀ (s : State) (d : Desc), d.byte 4 = 0xFF → s.inStates stSAYML = true → tblArgs s d = none → ∃ t,
    exec (.tblRead d) s = .next t ∧
      t.mem = (s.writeWin (d.word 5).toNat ((List.range (d.word 4).toNat).flatMap fun i =>
        s.tblUnit (d.byte 8) ((d.word 3).toNat + i))).mem ∧
      t.hif.held = s.hif.held ++ [{ tag := d.tag, status := .ok, b4 := d.word 4, b8 := 0, b12 := 0 }] ∧
      OnlyIn [.mem, .hif] s t) ∧
  (∀ (s : State) (d : Desc) (f n : Nat) (data : List Byte) (new : Nat → Option SeenEntry), d.byte 4 = 0xFF →
    s.inStates stSAY = true → tblArgs s d = none → d.byte 8 = 3 → f = (d.word 3).toNat → n = (d.word 4).toNat →
    data = s.readWin (d.word 5).toNat (n * 64) → (∀ i : Nat, new i = (readSeen (slice data (16 * i) 16)).1) →
    (∀ i : Nat, i < n → s.locked 2 (regionOf 2 (4 * (f + i))) = true) →
    (∀ i : Nat, i < 4 * n → (readSeen (slice data (16 * i) 16)).2 = 0 ∧
      (∀ e : SeenEntry, afind s.tbl.seen (4 * f + i) = some e → e.mark = .plain) ∧
      (∀ e : SeenEntry, new i = some e → 4 * f + i ∈ seenSlots e.seed e.seq)) →
    distinct (((List.range (4 * n)).filterMap fun i => (new i).map fun e => seenKey e.seed.toNat e.seq.toNat) ++
      (s.tbl.seen.filter fun e => !decide (4 * f ≤ e.1 ∧ e.1 < 4 * (f + n)) && s.inForce e.2.mark e.2.span && s.seenLive e.2).map
        fun e => seenKey e.2.seed.toNat e.2.seq.toNat) = true →
    ∃ t, exec (.tblWrite d) s = .next t ∧ if (s.writeObjects 3 f n data).any (fun o => s.decidedOn o) = true then
      t.spanc.held = s.spanc.held ++ [.write d] ∧ t.spanc.spans = s.spanc.spans ∧ OnlyIn [.spanc] s t
    else (∀ i : Nat, i < 4 * n → afind t.tbl.seen (4 * f + i) = new i) ∧
      (∀ p : Nat, p < 4 * f ∨ 4 * (f + n) ≤ p → afind t.tbl.seen p = afind s.tbl.seen p) ∧
      t.hif.held = s.hif.held ++ [{ tag := d.tag, status := .ok, b4 := d.word 4, b8 := 0, b12 := 0 }] ∧
      OnlyIn [.tbl, .spanc, .hif] s t) ∧
  (∀ (s : State) (t h : Nat) (v : Word), s.tidy → s.takesWrites = true → t < 3 → h < 2 → ∃ u,
    exec (.tblLockWrite t h v) s = .next u ∧ u.reg (Reg.TBL_LOCK t h) = v ∧
      (∀ a : Nat, a ≠ Reg.TBL_LOCK t h → u.reg a = s.reg a) ∧
      (∀ k : Nat, k < 32 → afind u.tbl.lockedAt (64 * t + 32 * h + k) =
        if bit v k then some ((afind s.tbl.lockedAt (64 * t + 32 * h + k)).getD s.time.tickno) else none) ∧
      u.tbl.em = s.tbl.em ∧ u.tbl.lpm = s.tbl.lpm ∧ u.tbl.seen = s.tbl.seen ∧ OnlyIn [.tbl, .regs] s u)

/-- LOCK_WAIT_APPLY, LOCK_EXPIRY, OVERFLOW_DRAIN, MIGRATION_END and SEEN_AGE_OUT (R240, R244, R253, R262, R264): the
insertion waiting for an unlocked region is applied; a region locked for too long is unlocked; an overflow entry with a
free slot in a candidate bucket moves there; the end of a migration leaves the image in force; and aged-out entries are no
longer live, each changed under R80, or held where a span decided in this tick targets it. -/
def Obligations.tablesAdvance : Prop :=
  (∀ (s : State) (r p : Nat) (w : WaitInsert) (o : Obj), s.locked 2 r = false → s.tbl.waits = [w] → w.table = 2 →
    w.region = some r → (∀ q ∈ seenSlots w.eui w.seq, s.locked 2 (regionOf 2 q) = false) →
    s.seenFree w.eui w.seq = some p → o = ⟨.seen, seenKey w.eui.toNat w.seq.toNat⟩ → s.decidedOn o = false →
    risingKeys s.spanc.versions = true → ∃ t,
      exec (.lockWaitApply 2 r) s = .next t ∧ t.tbl.waits = [] ∧ t.tbl.em = s.tbl.em ∧
        t.tbl.seen = aput s.tbl.seen p { seed := w.eui, seq := w.seq, expiry := s.expiryOf w.age } ∧
        t.version o = (s.version o + 1) % 65536 ∧ OnlyIn [.spanc, .tbl] s t) ∧
  (∀ (s : State) (t r : Nat) (k : TickNo), s.tidy → t < 3 → r < 64 → afind s.tbl.lockedAt (64 * t + r) = some k →
    s.regFld Reg.TBL_LOCK_MAX 15 0 < (s.tick + 2 ^ 48 - k.toNat) % 2 ^ 48 → ∃ u,
      exec (.lockExpiry t r) s = .next u ∧ u.locked t r = false ∧
        (∀ t' r' : Nat, t' < 3 → r' < 64 → (t', r') ≠ (t, r) → u.locked t' r' = s.locked t' r') ∧
        u.tbl.lockedAt = aerase s.tbl.lockedAt (64 * t + r) ∧ u.tbl.em = s.tbl.em ∧ u.tbl.lpm = s.tbl.lpm ∧
        u.tbl.seen = s.tbl.seen ∧ OnlyIn [.evr, .free, .hif, .outbox, .que, .regs, .tbl] s u) ∧
  (∀ (s : State) (p q : Nat) (e : EmEntry), s.tbl.migration = none → s.tbl.drainDue = true →
    (s.tbl.em.filter fun e => decide (ovfBase ≤ e.1)) = [(p, e)] → afind s.tbl.em p = some e →
    s.locked 0 (regionOf 0 p) = false → s.freeSlot (emBucket s.tbl.seed0 e.eui) = some q →
    s.locked 0 (regionOf 0 q) = false → ∃ t, exec .overflowDrain s = .next t ∧
      t.tbl = { s.tbl with drainDue := t.drainable, em := aerase (aput s.tbl.em q e) p } ∧ OnlyIn [.tbl, .regs] s t) ∧
  (∀ (s : State) (i : U64) (m : Migration), s.tbl.migration = some m → m.deferred = [] →
    (∀ w ∈ s.tbl.waits, w.region ≠ none) → ∃ t,
    exec (.migrationEnd i) s = .next t ∧ t.tbl.migration = none ∧
      t.tbl.em = m.image.map (fun e => (e.1, ((s.tbl.em.find? fun x => x.2.eui = e.2.eui).map Prod.snd).getD e.2)) ∧
      t.tbl.waits = s.tbl.waits ∧ t.tbl.seed0 = s.tbl.seed0 ∧ t.tbl.seed1 = s.tbl.seed1 ∧
      OnlyIn [.evr, .free, .hif, .outbox, .que, .regs, .spanc, .tbl, .time] s t) ∧
  (∀ s : State, ∃ t, exec .seenAgeOut s = .next t ∧ (∀ e ∈ s.agedOut, t.seenLive e = false) ∧
    (∀ (e : SeenEntry) (o : Obj), s.agedOut = [e] → o = ⟨.seen, seenKey e.seed.toNat e.seq.toNat⟩ → s.decidedOn o = false →
      risingKeys s.spanc.versions = true → t.version o = (s.version o + 1) % 65536) ∧
    (∀ (e : SeenEntry), s.agedOut = [e] → s.decidedOn ⟨.seen, seenKey e.seed.toNat e.seq.toNat⟩ = true →
      t.spanc.held = s.spanc.held ++ [.ageOut e.seed e.seq] ∧ t.spanc.versions = s.spanc.versions) ∧ OnlyIn [.spanc] s t)

/-- TUNE_INSTANT, COEX_REQUEST, SYNTH_LOCK, DECISION_INSTANT and RAMP_UP_START (R125, R126, R129 to R131, R137): a claim
with no calibration in its way is tuned to f_tx, with the settings that govern it; from its request instant it asks for
coexistence; lock is confirmed where no calibration of rank 1 stands in the way; at its decision instant it is decided
when the device may emit, the parapet lets it through, its grant is there, its frame is ready and no decision is put
before it; and its ramp starts on a locked synthesiser, later than due by at most its slip, which is shown. -/
def Obligations.transmissionsStart : Prop :=
  (∀ (s r : State) (i : U64) (id : Nat) (c0 c : Claim) (pre : Int) (f : Nat), r = s.at_ i → s.tidy → s.claim id = some c0 →
    c0.stage = .claimed → c0.ended = false → s.calJob c0.chain = none → c = r.onChain c0 c0.chain →
    (s.tp.calFull = false ∨ (s.calEntry c.chain (s.tp.calIndex c.chain c.channel)).valid = true) →
    pre = clampTo (r.preFor c) (s.regFld (Reg.TXC_PRECORR c.band) 19 0) →
    f = (((s.tp.band c.band).centre c.channel : Int) + pre).toNat → ∃ t : State,
      exec (.tuneInstant i id) s = .next t ∧ t.claim id = some { c with
        stage := .tuned
        fTx := f
        lock := none
        blocked := r.calBlock c.chain
        power := r.txPower c.band (r.namedPower c) } ∧
        t.rf.synths = lset s.rf.synths c.chain { word := (f * 2 ^ 25 + 20000000) / 40000000 } ∧
        t.reg (Reg.TXC_FREQ c.chain) = pw f ∧ t.reg (Reg.TXC_PRE c.chain) = pw (unsigned pre 24) ∧
        t.regFld (Reg.TXC_STATUS c.chain) 9 0 = c.channel % 1024 ∧ OnlyIn [.time, .regs, .rf] s t) ∧
  (∀ (s r : State) (i : U64) (id : Nat) (c0 c : Claim), r = s.at_ i → s.claim id = some c0 →
    c = (if c0.stage = .claimed then r.onChain c0 c0.chain else c0) → c.ended = false → c.coex = true → c.reqAt ≤ r.now → ∃ t,
      exec (.coexRequest i id) s = .next t ∧ t.claim id = some { c with req := true } ∧
      (s.sys.state = .active → t.coexReq c.band = true ∧ (c.rank ≤ c.priRank → t.coexPri c.band = true)) ∧
      OnlyIn [.time, .rf] s t) ∧
  (∀ (s r : State) (i : U64) (id : Nat) (c : Claim), r = s.at_ i → s.claim id = some c → c.ended = false →
    c.stage = .tuned ∨ c.stage = .decided → c.lock = none → s.rank1Runs c.chain = false →
    (c.blocked = true → r.calBlock c.chain = false) →
    (s.tp.calFull = false ∨ (s.calEntry c.chain (s.tp.calIndex c.chain c.channel)).valid = true) → ∃ t,
      exec (.synthLock i id) s = .next t ∧ t.claim id = some { c with lock := some r.now } ∧ OnlyIn [.time, .rf] s t) ∧
  (∀ (s z s1 s2 : State) (i : U64) (id : Nat) (gnt : Bool) (energy : List (Nat × Int)) (x c : Claim) (p : Int) (e : Nat)
      (a : ParAsk), s.claim id = some x → x.stage = .tuned → x.ended = false → x.ask = none → x.decisionAt ≤ (s.at_ i).now →
    (∀ q : Nat, (s.pier q).ackClaim ≠ some id) → z = ((s.at_ i).setFld (Reg.TXC_COEX x.band) 30 30 (b2n gnt)).blankPiers
      x.band x.channel → (∀ y ∈ z.rf.claims, y.decidesFirst x = false ∧ (y.ask = none ∨ y.band ≠ x.band)) →
    s.mayEmit = true → (x.coex = true → gnt = true) → s1 = z.setClaim { x with ask := some (gnt, energy) } →
    c = z.ackSecured x → c.psdu ≠ none →
    a = { band := c.band, channel := c.channel, fTx := c.fTx, power := c.power, from_ := c.t0 - c.ramp * 1000,
          to_ := c.t0 + s1.claimAir c + c.ramp * 1000, ack := c.isAck, energy := energy,
          listenTo := if c.isAck then c.decisionAt else c.slotStart + (c.tmpl.ccaOffset + c.tmpl.ccaLen) * 1000,
          earliest := c.t0 - c.tmpl.txAckGap * 1000,
          runs := (s1.rf.claims.filter fun y => decide (y.band = c.band) && y.id != c.id && y.onAir).map s1.emission } →
    s1.parCheck a = (s2, some (p, e)) → ∃ u, exec (.decisionInstant i id gnt energy) s = .next u.settleAir ∧
      u.claim id = some { c with
        stage := .decided
        power := p
        charged := s2.airtime c
        runEnd := e
        fem := true
        blanking := true } ∧ OnlyIn [.time, .regs, .rf, .par, .tol, .cip] s u) ∧
  (∀ (s r : State) (i : U64) (id : Nat) (x : Observed) (c : Claim) (n d : Nat), r = s.at_ i → s.tidy →
    s.claim id = some c → c.stage = .decided → c.ended = false → c.ask = none → c.lock ≠ none → n = r.now →
    d = c.t0 - c.ramp * 1000 → d ≤ n → n ≤ d + c.slip * 1000 → ∃ t, exec (.rampUpStart i id x) s = .next t ∧
      t.claim id = some { c with
        stage := .on
        upAt := r.time.elapsed
        slipped := n - d
        t0 := c.t0 + (n - d)
        seen := some (x.power, x.dev) } ∧
      t.reg (Reg.TXC_SLIP c.chain) = fld (n - d) 0 ∧ t.reg (Reg.TXC_LASTPWR c.chain) = fld (unsigned c.power 12) 0 ∧
      OnlyIn [.time, .regs, .rf, .cal] s t)

/-- TX_END, FEM_RETURN, BLANKING_END, COEX_GRANT_WITHDRAWN, PARAPET_BACKSTOP and ACK_WAIT_CLOSE (R122, R127, R134 to R138,
R172, R176, R178, R220): at its last symbol the frame has gone out on its channel and the claim ramps down; FEM_LAG after
it the lines return and a transmission sent whole is counted and told to its owner; the blanking returns, and a claim of
which nothing is left goes; a transmission cut off ramps down, what it did not emit falls due for refund, and its attempt
ends LATE or PARAPET; a wait that nothing may still answer fails, for a new attempt while one is left. -/
def Obligations.transmissionsEnd : Prop :=
  (∀ (s r : State) (i : U64) (id : Nat) (obs dev : Int) (c y : Claim), r = s.at_ i → s.claim id = some c →
    c.stage = .on → c.ended = false → y = { c with seen := c.seen.map fun _ => (obs, dev) } →
    ∃ u v : State, exec (.txEnd i id obs dev) s = .next (v.frameSent c).settleAir ∧
      u.outbox = s.outbox ++ [.rfFrame c.chain c.channel (BitVec.ofNat 64 c.t0) (c.psdu.getD [])] ∧ OnlyIn [.time,
        .outbox] s u ∧
      v.par.cont c.band = some (joinRun (s.par.cont c.band) c.upAt (r.time.elapsed + c.ramp * 1000)) ∧
      v.claim id = some { c with
        stage := .ramped
        ended := true
        sent := true
        seen := none
        charged := 0
        downAt := r.now + c.ramp * 1000 } ∧
      v.outbox = (u.observeDue y).outbox ∧ (c.seen = none → v.outbox = u.outbox) ∧
      OnlyIn [.cal, .evr, .free, .hif, .outbox, .par, .que, .regs, .rf] u v) ∧
  (∀ (s r : State) (i : U64) (id : Nat) (c : Claim), r = s.at_ i → s.claim id = some c → c.ended = true →
    (c.fem = true → ∃ v, exec (.femReturn i id) s = .next
        ((if c.sent then (v.bump (Reg.TXC_CNT c.chain 0)).sentNormally c else v).purgeClaims).settleAir ∧
      v.claim id = some { c with
        fem := false
        req := false
        refund := 0 } ∧
      (c.refund = 0 → v.par = s.par ∧ v.tol = s.tol) ∧
      (∀ y : Claim, y ∈ v.purgeClaims.rf.claims ↔ y ∈ v.rf.claims ∧
        ¬(y.ended = true ∧ y.fem = false ∧ y.blanking = false ∧ r.occupiedTo y ≤ r.now)) ∧
      OnlyIn [.time, .rf, .par, .tol] s v) ∧
    (∃ u, exec (.blankingEnd i id) s = .next (u.unblankPiers c.band) ∧
      u.claim id = (if c.fem = true ∨ r.now < r.occupiedTo c then some { c with blanking := false } else none) ∧
      OnlyIn [.time, .rf] s u)) ∧
  (∀ (s r : State) (i : U64) (b : Nat) (c x : Claim) (n e : Nat), r = s.at_ i → s.tidy → s.claim c.id = some c → c.seen = none →
    (s.rf.claims.filter fun c => c.coex && decide (c.band = b) && c.onAir) = [c] → c.band = b →
    n = (if c.stage = .on then c.ramp * 1000 else 0) → e = (if c.stage = .on then r.time.elapsed + n - c.upAt else 0) →
    x = { c with
      ended := true
      stage := .ramped
      sent := false
      downAt := r.now + n
      charged := 0
      refund := if n = 0 then 0 else c.charged - e } → ∃ u,
      exec (.coexGrantWithdrawn i b) s = .next ((u.bump (Reg.TXC_CNT c.chain 4)).attemptEnds c .late).settleAir ∧
        u.claim c.id = some x ∧ bit (u.reg (Reg.TXC_COEX b)) 30 = false ∧ OnlyIn [.time, .regs, .rf, .par, .tol] s u) ∧
  (∀ (s r : State) (i : U64) (id : Nat) (c x : Claim) (n : Nat), r = s.at_ i → s.claim id = some c → c.stage = .on →
    c.ended = false → c.seen = none → c.runEnd ≠ 0 → c.runEnd < r.time.elapsed → n = c.ramp * 1000 →
    x = { c with
      ended := true
      stage := .ramped
      sent := false
      downAt := r.now + n
      charged := 0
      refund := if n = 0 then 0 else c.charged - (r.time.elapsed + n - c.upAt) } → ∃ u,
      exec (.parapetBackstop i id) s = .next (u.attemptEnds c .parapet).settleAir ∧ u.claim id = some x ∧
      OnlyIn [.time, .evr, .free, .hif, .outbox, .par, .que, .regs, .rf, .tol] s u) ∧
  (∀ (s r : State) (i : U64) (w : AckWait) (x : TxDesc), r = s.at_ i → s.rf.waits = [w] → s.txDesc w.desc = some x →
    (s.mayAnswer w.claim = true → ∃ u, exec (.ackWaitClose i w.claim) s = .next u.settleWatches.searchRefresh ∧
      u.rf.waits = [{ w with closed := true }] ∧ u.rf.claims = s.rf.claims ∧ OnlyIn [.time, .rf] s u) ∧
    (s.mayAnswer w.claim = false → ∃ u, exec (.ackWaitClose i w.claim) s = .next u.settleWatches.searchRefresh ∧
      u.rf.waits = [] ∧
      (s.orphaned w.desc = false → x.tries + 1 ≤ x.retries → u.txDesc w.desc = some { x with
        tries := x.tries + 1
        last := some .noAck } ∧ u.rf.claims = s.rf.claims ∧ OnlyIn [.time, .que, .regs, .rf] s u)))

/-- HEARTBEAT_SEND, HEARTBEAT_RX, HEARTBEAT_MISS and STANDBY_ARMED (R390 to R394): a heartbeat leaves on the paths enabled
and advances ALIVE; a valid one from the peer is noted with what it says of the peer; a tick judged missed on both paths
lengthens the run, and the third in a row makes an armed standby whose peer held the interlock active; 16 ticks in a row
with a valid heartbeat arm it. -/
def Obligations.pairBeats : Prop :=
  (∀ (s : State) (i : U64) (b : List Byte), s.beats = true → s.hbEnabled 0 = true ∨ s.hbEnabled 1 = true →
    b = (s.at_ i).heartbeatBody → ∃ t, exec (.heartbeatSend i true) s = .next t ∧
      t.red = { s.red with alive := s.red.alive + 1 } ∧
      t.outbox = (if s.hbEnabled 0 then s.outbox ++ [.hbLink b] else s.outbox) ∧
      (s.hbEnabled 1 = true → s.ethUp 0 = true → ∃ f, t.ethA.out = s.ethA.out ++ [f] ∧ ∃ h, f.bytes = h ++ b) ∧
      OnlyIn [.time, .red, .outbox, .ethA, .regs] s t) ∧
  (∀ (s : State) (i : U64) (p : Nat) (b : List Byte), s.tidy → s.beats = true → p < 2 → b.length = 32 →
    (crc 2 (b.take 28)).toNat = leAt b 0x1C 4 → leAt b 0x10 8 ≠ s.key.uid.toNat → leAt b 3 1 = s.truss.truss.brId.toNat →
    leAt b 4 4 = s.tick % 2 ^ 32 → ((s.at_ i).aliveCheck p (b.getD 0 0)).2 = true → ∃ t,
      exec (.heartbeatRx i p b) s = .next t ∧ t.red.hb0 = (s.red.hb0 || decide (p = 0)) ∧
        t.red.hb1 = (s.red.hb1 || decide (p = 1)) ∧ t.red.peerHeld = bit (b.getD 1 0) 0 ∧
        t.red.peerTick = some s.time.tickno ∧
        (leAt b 2 1 % 16 = SysState.standby.code → t.red.standbyTick = some s.time.tickno) ∧
        t.reg Reg.RED_PEER_UID_LO = pw (leAt b 0x10 8) ∧ t.reg Reg.RED_PEER_UID_HI = pw (leAt b 0x10 8 / 2 ^ 32) ∧
        OnlyIn [.time, .chk, .red, .regs, .evr, .free, .hif, .outbox, .que] s t) ∧
  (∀ (s : State) (i : U64) (m0 m1 : Bool) (run : Nat), s.beats = true → m0 = (!s.hbEnabled 0 || !s.red.hb0) →
    m1 = (!s.hbEnabled 1 || !s.red.hb1) → run = (if m0 && m1 then s.red.bothRun + 1 else 0) → ∃ t,
      exec (.heartbeatMiss i) s = .next t ∧ t.red.bothRun = run ∧
        (s.sys.state = .standby ∧ s.red.armed = true ∧ s.red.peerHeld = true ∧ 3 ≤ run → t.sys.state = .active ∧
          t.sys.ilkOut = true ∧ t.red.forced = true ∧ t.red.recover = true ∧ t.rf.leap = true) ∧
        (¬ (s.sys.state = .standby ∧ s.red.armed = true ∧ s.red.peerHeld = true ∧ 3 ≤ run) → t.sys = s.sys ∧ t.rf = s.rf ∧
          t.red.armRun = (if s.sys.state = .standby ∧ ¬ (m0 = true ∧ m1 = true) then min 16 (s.red.armRun + 1) else 0)) ∧
        OnlyIn [.time, .sys, .red, .rf, .regs, .evr, .free, .hif, .outbox, .que] s t) ∧
  (∀ s : State, s.sys.state = .standby → 16 ≤ s.red.armRun →
    exec .standbyArmed s = .next { s with red := { s.red with armed := true } })

/-- ILK_IN_RELEASE, ILK_IN_ACTIVE, STUCK_CHECK and TAKEOVER_RING_RECOVERY (R385 to R388, R393, R394, R401): when ILK_IN
falls a chip in STANDBY takes over; when it rises a chip that has held ILK_OUT for 1 µs, or has the lower priority,
releases it; an interlock still held one tick after a forced assertion is marked stuck; and a new active takes the counts
of its rings from the ring state block. -/
def Obligations.interlockMoves : Prop :=
  (∀ (s : State) (i : U64), s.sys.ilkIn = true → ∃ t, exec (.ilkInRelease i) s = .next t ∧ t.sys.ilkIn = false ∧
    t.red.inClear = (s.at_ i).time.elapsed ∧
    (s.standingBy = true → t.sys.state = .active ∧ t.sys.ilkOut = true ∧ t.red.recover = true ∧
      t.red.released = some (s.at_ i).time.elapsed) ∧
    (s.standingBy = false → t.sys = { s.sys with ilkIn := false }) ∧
    OnlyIn [.time, .sys, .red, .rf, .regs, .evr, .free, .hif, .outbox, .que] s t) ∧
  (∀ (s : State) (i : U64), s.sys.ilkIn = false → ∃ t, exec (.ilkInActive i) s = .next t ∧
    (s.sys.state = .active → s.sys.ilkOut = true → s.red.outSince + 1000 ≤ (s.at_ i).time.elapsed ∨ s.prio = false →
      t.sys = { s.sys with ilkIn := true, ilkOut := false }) ∧
    (s.sys.state ≠ .active ∨ s.sys.ilkOut = false → t.sys = { s.sys with ilkIn := true } ∧ t.red = s.red ∧
      (s.pair = false → OnlyIn [.time, .sys] s t)) ∧
    OnlyIn [.cal, .cip, .ctxs, .evr, .free, .hif, .outbox, .par, .que, .red, .regs, .rf, .spanc, .sys, .tbl, .time, .tol] s t) ∧
  (∀ (s : State) (i : U64), s.tidy → s.sys.state = .active → s.sys.ilkOut = true → s.sys.ilkIn = true → s.red.forced = true →
    s.red.outSince + s.tickNs ≤ (s.at_ i).time.elapsed → bit (s.reg Reg.RED_STATUS) 29 = false → ∃ t,
      exec (.stuckCheck i) s = .next t ∧ t.regFld Reg.RED_STATUS 29 29 = 1 ∧
        OnlyIn [.time, .regs, .evr, .free, .hif, .outbox, .que] s t) ∧
  (∀ (s : State) (rsb : List Byte) (tags : List (Nat × Nat × BitVec 16)), s.tidy → s.red.recover = true → s.pair = true →
    s.sys.state = .active → s.sys.ilkOut = true → ∃ t, exec (.takeoverRingRecovery rsb tags) s = .next t ∧
      t.red.recover = false ∧ t.red.seq = BitVec.ofNat 32 (leAt rsb 4 4) + 1 ∧
      (∀ r : Nat, r < 8 → t.reg (Reg.HIF_RING_CONS (2 + r)) = pw (leAt rsb (0x20 + 8 * r) 4) ∧
        t.reg (Reg.HIF_RING_PROD (10 + r)) = pw (leAt rsb (0x60 + 4 * r) 4)) ∧
      OnlyIn [.red, .regs, .hif, .outbox] s t)

/-- RED_SWITCH, SWITCHOVER_RELEASE, SYS_SERVE and SERVE_ENTRY (R402, R428): a planned switch-over ends the attempts not
yet decided and waits for the rest; then ILK_OUT is released and the chip is in STANDBY, its commands completed OK. An
accepted SYS_SERVE waits for the tick edge, at which the state it names is entered and it completes OK. -/
def Obligations.rolesChange : Prop :=
  (∀ (s : State) (d : Desc), d.byte 4 = 0xFF → s.sys.state = .active → d.unlistedZero [] = true → s.heldOff = false →
    s.lately s.red.standbyTick = true → ∃ u, exec (.redSwitch d) s = .next u.claimsForget.settleAir ∧
      u.red = { s.red with leaving := s.red.leaving ++ [d] } ∧ OnlyIn [.red] s u) ∧
  (∀ (s : State) (i : U64), s.red.leaving ≠ [] → s.sys.state = .active → s.airClear = true →
    s.tbl.migration = none → ∃ t,
    exec (.switchoverRelease i) s = .next t ∧ t.sys.state = .standby ∧ t.sys.ilkOut = false ∧ t.red.leaving = [] ∧
      t.red.armed = false ∧ (∃ h : List Completion, t.hif.held = h ++ s.red.leaving.map fun d =>
        { tag := d.tag, status := .ok, b4 := 0, b8 := 0, b12 := 0 }) ∧
      OnlyIn [.time, .sys, .cip, .red, .rf, .regs, .evr, .free, .hif, .outbox, .que] s t) ∧
  (∀ (s : State) (d : Desc), d.byte 4 = 0xFF → s.sys.state = .structured → s.key.lc = .provisioned ∨ s.key.lc = .deployed →
    d.unlistedZero [8] = true → (d.byte 8 = 1 ∧ s.pair = true) ∨ (d.byte 8 = 0 ∧ (s.pair = true → s.rsbAddr ≠ 0) ∧
      bit (s.reg Reg.RED_STATUS) 27 = false ∧ s.sys.ilkIn = false) → ∃ t, exec (.sysServe d) s = .next t ∧
      t.sys = { s.sys with serve := s.sys.serve ++ [(d, decide (d.byte 8 = 0))] } ∧ OnlyIn [.sys] s t) ∧
  (∀ (s : State) (d : Desc) (active : Bool), s.sys.state = .structured → s.tbl.migration = none →
    s.sys.serve = [(d, active)] → ∃ u,
    exec .serveEntry s = .next u.settleAir ∧ u.sys.state = (if active then .active else .standby) ∧ u.sys.serve = [] ∧
      (active = true → s.sys.ilkOut = false → s.ilkClear = true → u.sys.ilkOut = true) ∧
      (∃ h : List Completion, u.hif.held = h ++ [{ tag := d.tag, status := .ok, b4 := 0, b8 := 0, b12 := 0 }]) ∧
      OnlyIn [.time, .sys, .red, .rf, .regs, .evr, .free, .hif, .outbox, .que] s u)

/-- OFFER, ACCEPT, REFUSE, BLOCK, ACK, REPORT, VIADUCT_BLOCK_SEND, VIADUCT_RETRANSMIT, HOP_SKIP and SESSION_IDLE_TIMEOUT
(R366 to R371): an offer taken starts a session at NEXT = 0; an ACCEPT feeds the neighbour from its NEXT, and an ACK
advances it; a neighbour that refuses, or makes no progress, is skipped and the next entry offered the session; a block in
order is staged and NEXT advances; blocks not confirmed are sent again; a head notes each REPORT; and a session without a
block for too long fails TIMEOUT. -/
def Obligations.sessionsMove : Prop :=
  (∀ (s : State) (i : U64) (mac : List Byte) (id : Word) (total mb : Nat) (hd : List Byte) (chain : List HopEntry),
    s.inStates stSAYML = true → (∀ r : Nat, (s.at_ i).offerReason id (total - mb) true = some r → ∃ t,
      exec (.offer i mac id total mb hd chain) s = .next t ∧ t.upd = s.upd ∧ OnlyIn [.time, .ethA, .ethB] s t) ∧
    ((s.at_ i).offerReason id (total - mb) true = none → s.upd.session = .idle ∨ id ≠ s.upd.imageId → ∃ t,
      exec (.offer i mac id total mb hd chain) s = .next t ∧ t.upd.session = .receiving ∧ t.upd.imageId = id ∧
        t.upd.total = total ∧ t.upd.mb = mb ∧ t.upd.next = 0 ∧ t.upd.head = false ∧ t.upd.upMac = mac ∧
        t.upd.chain = chain.drop 1 ∧ t.upd.down = .none ∧ OnlyIn [.time, .upd, .ethA, .ethB] s t)) ∧
  (∀ (s : State) (i : U64) (mac : List Byte) (id : Word) (n : Nat), s.fromDown mac id = true →
    (n < s.upd.total → ∃ t, exec (.accept i mac id n) s = .next t ∧ t.upd.down = .feeding ∧ t.upd.nextDown = n ∧
      t.upd.sendNext = n ∧ t.upd.sentTo = n ∧ t.upd.chain = s.upd.chain ∧ OnlyIn [.time, .que, .upd] s t) ∧
    (s.upd.down = .feeding → s.upd.nextDown < n → n ≤ s.upd.sentTo → n ≠ s.upd.total → ∃ t,
      exec (.ack i mac id n) s = .next t ∧ t.upd.nextDown = n ∧ t.upd.sendNext = max s.upd.sendNext n ∧
        (∃ x : Queue, t.que.queues = aset {} s.que.queues s.upd.cfg.rq x ∧
          x.items = (s.queue s.upd.cfg.rq).items.drop (n - s.upd.nextDown)) ∧
        OnlyIn [.time, .que, .upd, .regs] s t)) ∧
  (∀ (s : State) (i : U64) (mac : List Byte) (id : Word) (reason : Nat) (e : HopEntry) (rest : List HopEntry),
    s.upd.chain = e :: rest →
    (s.fromDown mac id = true → s.upd.down = .offered → ∃ t, exec (.refuse i mac id reason) s = .next t ∧
      t.upd.chain = rest ∧ t.upd.down = (if rest = [] then .none else .offered) ∧
      OnlyIn [.time, .upd, .que, .regs, .ethA, .ethB, .evr, .free, .hif, .outbox] s t) ∧
    (s.upd.down = .offered ∨ s.upd.outstanding = true → s.upd.cfg.hopTimeout ≤ (s.at_ i).msSince s.upd.downSince → ∃ t,
      exec (.hopSkip i) s = .next t ∧ t.upd.chain = rest ∧ t.upd.down = (if rest = [] then .none else .offered) ∧
        OnlyIn [.time, .upd, .que, .regs, .ethA, .ethB, .evr, .free, .hif, .outbox] s t)) ∧
  (∀ (s : State) (i : U64) (b : List Byte), s.upd.session = .receiving → s.upd.head = false →
    (s.at_ i).judgeBlock b = .ok → s.upd.next + 1 ≠ s.upd.mb → ∃ t, exec (.block i b) s = .next t ∧
      t.upd.next = s.upd.next + 1 ∧ t.upd.session = (if s.upd.next + 1 = s.upd.total then .building else .receiving) ∧
      t.mem = (s.writeMem (if s.upd.next < s.upd.mb then s.stagingBase + 4096 * s.upd.next
        else s.stagingBase + 0x100000 + 4096 * (s.upd.next - s.upd.mb)) (slice b 16 4096)).mem ∧
      OnlyIn [.time, .upd, .mem, .regs, .ethA, .ethB] s t) ∧
  (∀ (s : State) (i : U64) (id : Word) (n st : Nat), s.tidy → s.upd.head = true → id = s.upd.imageId → n < s.upd.chainAt →
    n < 64 → st ≤ 0x17 → ∃ t, exec (.report i id n st) s = .next t ∧
      t.reg (Reg.UPD_HOP n) = setBits (setBits (s.reg (Reg.UPD_HOP n)) 31 24 st) 23 23 1 ∧
      (∀ a : Nat, a ≠ Reg.UPD_HOP n → t.reg a = s.reg a) ∧ OnlyIn [.time, .regs] s t) ∧
  (∀ (s : State) (i : U64) (x : Queue) (k : Nat), s.upd.down = .feeding → s.upd.sendNext < s.upd.next →
    s.upd.sendNext < s.upd.nextDown + 64 → s.upd.manifestOk = true → x = s.queue s.upd.cfg.rq → x.type = .rewind →
    x.consumer = 1 → x.pointersBad = false → k = s.upd.sendNext - s.upd.nextDown → k < x.items.length → ∃ t,
      exec (.viaductBlockSend i) s = .next t ∧ t.upd.sendNext = s.upd.sendNext + 1 ∧
        t.upd.sentTo = max s.upd.sentTo (s.upd.sendNext + 1) ∧ t.upd.nextDown = s.upd.nextDown ∧
        OnlyIn [.time, .upd, .que, .regs, .ethA, .ethB] s t) ∧
  (∀ (s : State) (i : U64), s.upd.outstanding = true → s.upd.cfg.retx ≤ (s.at_ i).msSince s.upd.retxAt → ∃ t,
    exec (.viaductRetransmit i) s = .next t ∧ t.upd.sendNext = s.upd.nextDown ∧
      t.que = (s.rewindQueue s.upd.cfg.rq).que ∧ OnlyIn [.time, .upd, .que, .regs] s t) ∧
  (∀ (s : State) (i : U64), s.upd.session = .receiving → s.upd.head = false →
    4 * s.upd.cfg.hopTimeout ≤ (s.at_ i).msSince s.upd.lastBlock → ∃ t, exec (.sessionIdleTimeout i) s = .next t ∧
      t.upd.session = .failed ∧ t.upd.lastStatus = .timeout ∧ t.upd.down = .none ∧
      OnlyIn [.time, .upd, .que, .regs, .ethA, .ethB, .hif, .outbox] s t)

/-- IMAGE_BUILD, IMAGE_VERIFY, UPD_START and UPD_ABORT (R371 to R373, R381): a stream that keeps R363 over the bases it
names is written over the bank not running; what has been built is checked, and the session is BUILT or has failed;
UPD_START takes its blocks one by one as the head of a session; and UPD_ABORT ends a session, or discards a BUILT image,
and completes OK. -/
def Obligations.imagesAreBuilt : Prop :=
  (∀ (s u : State) (i : U64) (m : Manifest) (key bs : List Byte) (x : Built), u = s.at_ i → s.upd.session = .building →
    m = readManifest s.upd.man → (m.full = true ∨ (imageSha (u.bankFw s.boot.bank) = m.baseFw ∧
      trussSha (u.bankTrussBytes s.boot.bank) = m.baseTruss)) → u.imageKey s.upd.cfg.wrapSlot m = .ok key →
    u.stagedStream u.stagingBase m key = (bs, true) →
    buildStream (u.bankFw s.boot.bank) (u.bankTrussBytes s.boot.bank) m.full bs = (x, true) → ∃ t,
      exec (.imageBuild i true) s = .next t ∧ t.upd.buildDone = true ∧ t.upd.builtFw = x.fw.length ∧
        t.upd.builtTruss = x.truss.length ∧ t.upd.session = (if s.upd.down = .none then .verifying else .forwarding) ∧
        t.flash = (s.writeBank (1 - s.boot.bank) x).flash ∧ OnlyIn [.time, .upd, .flash, .key] s t) ∧
  (∀ (s u v : State) (i : U64) (fw tr : List Byte), u = s.at_ i → s.upd.session = .verifying →
    fw = u.flashRead (bankBase (1 - s.boot.bank)) s.upd.builtFw →
    tr = u.flashRead (bankBase (1 - s.boot.bank) + bankTruss) s.upd.builtTruss →
    v = ((u.writeMem u.stagingBase fw).writeMem (u.stagingBase + bankTruss) tr).setUpd (fun u => { u with manifestOk := false }) →
    ∃ t, exec (.imageVerify i) s = .next t ∧
      (∀ n : Truss, builtCheck v (readManifest s.upd.man) fw tr = .ok n → t.upd.session = .built ∧ t.upd.lastStatus = .ok) ∧
      (∀ e : Status, builtCheck v (readManifest s.upd.man) fw tr = .error e → t.upd.session = .failed ∧
        t.upd.lastStatus = e ∧ t.upd.next = 0) ∧
      t.flash = s.flash ∧ OnlyIn [.time, .upd, .mem, .que, .regs, .ethA, .ethB, .evr, .free, .hif, .outbox] s t) ∧
  (∀ (s u : State) (d : Desc) (o total co n db : Nat) (b : List Byte) (l : List HopEntry), d.byte 4 = 0xFF →
    s.inStates stSAY = true → o = (d.word 2).toNat → total = (d.word 3).toNat → co = (d.word 4).toNat → n = d.byte 20 →
    b = s.readWin o 4116 → db = leAt b 0x20 4 → d.unlistedZero [8, 9, 10, 11, 12, 13, 14, 15, 16, 17, 18, 19, 20] = true →
    n ≤ 63 → s.inWindow o (total * 4116) = true → s.inWindow co (8 * n) = true → 1 ≤ db → db ≤ 7936 →
    manifestBlocks db + db = total → s.upd.session.active = false →
    s.offerReason (BitVec.ofNat 32 (leAt b 4 4)) db false = none → l = readHops (s.readWin co (8 * n)) n →
    u = (s.setHops l).setUpd (fun u => { u with
      session := .receiving
      cmd := some d
      head := true
      headMac := s.ethMac s.updCfg.port
      imageId := BitVec.ofNat 32 (leAt b 4 4)
      cfg := s.updCfg
      mb := manifestBlocks db
      total := total
      manifestOk := false
      next := 0
      lastBlock := s.time.elapsed
      upMac := []
      chain := l
      chainAt := n
      man := []
      down := .none
      nextDown := 0
      sendNext := 0
      sentTo := 0
      buildDone := false }) →
    (∀ t : State, u.takeBlocks 4116 o 0 total = (t, none) → exec (.updStart d) s = .next t ∧ t.upd.session = .building ∧
      t.upd.next = total ∧ t.upd.total = total ∧ t.upd.head = true ∧ t.upd.cmd = some d ∧
      t.upd.imageId = BitVec.ofNat 32 (leAt b 4 4) ∧
      OnlyIn [.ethA, .ethB, .evr, .free, .hif, .mem, .outbox, .que, .regs, .upd] s t) ∧
    (∀ (v : State) (e : Status), u.takeBlocks 4116 o 0 total = (v, some e) → ∃ t, exec (.updStart d) s = .next t ∧
      t.upd.session = .failed ∧ t.upd.lastStatus = e ∧ t.upd.down = .none ∧ t.upd.cmd = none ∧
      OnlyIn [.ethA, .ethB, .evr, .free, .hif, .mem, .outbox, .que, .regs, .upd] s t)) ∧
  (∀ (s : State) (d : Desc), d.byte 4 = 0xFF → s.inStates stSAYM = true → d.unlistedZero [] = true → ∃ t,
    exec (.updAbort d) s = .next t ∧
      (s.upd.session = .built → t.upd.session = .idle) ∧ (s.upd.session.active = true → t.upd.session = .failed) ∧
      (s.upd.session = .built ∨ s.upd.session.active = true → t.upd.lastStatus = .aborted ∧ t.upd.down = .none) ∧
      (s.upd.session ≠ .built → s.upd.session.active = false → t.upd = s.upd) ∧
      (∃ h : List Completion, t.hif.held = h ++ [{ tag := d.tag, status := .ok, b4 := 0, b8 := 0, b12 := 0 }]) ∧
      OnlyIn [.upd, .que, .regs, .ethA, .ethB, .hif, .outbox] s t)

/-- UPD_ACTIVATE, ACTIVATION_RESUME, UPD_CONFIRM, TRIAL_EXPIRY and UPD_RESIDENT (R376 to R380): an activation puts the
staged truss in force and runs the other bank until its trial is confirmed, or puts the record back and resumes when the
truss is refused; at the resuming edge the command completes OK and the trial of 30 s starts; a confirmation clears TRIAL;
a trial that runs out falls back and resets the device; and UPD_RESIDENT resets it to load a bank through the loader, or
in RECOVERY loads it at once. -/
def Obligations.activations : Prop :=
  (∀ (s u : State) (d : Desc) (tr : List Byte), d.byte 4 = 0xFF → s.inStates stSAY = true → d.unlistedZero [] = true →
    s.upd.session = .built → s.auditFits 25 = true → s.tbl.migration = none →
      tr = s.readMem (s.stagingBase + bankTruss) s.upd.builtTruss →
    u = (s.writeBankRec (s.trialRec (readManifest s.upd.man))).enterMaintenance →
    (∀ n : Truss, verifyTruss u tr = .ok n → ∃ t, exec (.updActivate d) s = .next t ∧ t.upd.session = .idle ∧
      t.upd.activation = some d ∧ t.upd.resumeDue = true ∧ t.boot.bank = 1 - s.boot.bank ∧ t.truss.truss = n ∧
      t.truss.loaded = true) ∧
    (∀ r : Refused, verifyTruss u tr = .error r → ∃ t, exec (.updActivate d) s = .next t ∧
      t.upd.lastStatus = r.reason.status ∧ t.upd.session = .built ∧ t.truss.resume = true ∧ t.truss.truss = s.truss.truss ∧
      t.boot = s.boot ∧ (∃ h : List Completion,
        t.hif.held = h ++ [{ tag := d.tag, status := r.reason.status, b4 := 0, b8 := 0, b12 := 0 }]))) ∧
  (∀ (s : State) (i : U64) (d : Desc), s.upd.activation = some d → ∃ t, exec (.activationResume i) s = .next t ∧
    t.upd.activation = none ∧ t.upd.resumeDue = false ∧ t.upd.lastStatus = .ok ∧ t.upd.trial = some 30000000000 ∧
    t.upd.trialAt = (s.at_ i).time.elapsed ∧
    (s.sys.state = .maintenance → t.sys.state = s.sys.held) ∧
    (∃ h : List Completion, t.hif.held = h ++ [{ tag := d.tag, status := .ok, b4 := 0, b8 := 0, b12 := 0 }])) ∧
  (∀ (s : State) (d : Desc), d.byte 4 = 0xFF → s.inStates [.active, .standby] = true → d.unlistedZero [] = true →
    s.upd.trial ≠ none → s.evr.running = true → s.evr.rsvUsed + 20 ≤ evrReserved → ∃ t, exec (.updConfirm d) s = .next t ∧
      t.upd = { s.upd with trial := none } ∧
      t.flash = (s.writeBankRec { s.bankRec with trial := false, fellBack := false }).flash ∧
      t.hif.held = s.hif.held ++ [{ tag := d.tag, status := .ok, b4 := 0, b8 := 0, b12 := 0 }] ∧
      OnlyIn [.upd, .flash, .regs, .evr, .free, .hif, .outbox, .que] s t) ∧
  (∀ (s : State) (i : U64), s.tidy → s.upd.trial ≠ none → s.sys.state ≠ .alarm → s.sys.state ≠ .reset →
    (s.at_ i).trialLeft = 0 → ∃ t, exec (.trialExpiry i) s = .next t ∧ t.sys.state = .reset ∧
      t.flash = (s.writeBankRec s.bankRec.fallBack).flash ∧ t.key.slots = [] ∧ t.reg Reg.SYS_RESET_CAUSE = 0) ∧
  (∀ (s : State) (d : Desc) (tests : List Bool), d.byte 4 = 0xFF → d.byte 8 < 2 → d.unlistedZero [8] = true →
    (s.tidy → s.inStates stSAYM = true → d.byte 8 = s.boot.bank → s.upd.manifestOk = true → s.upd.next = s.upd.total →
      (readManifest s.upd.man).full = true → s.upd.down = .none → ∃ t, exec (.updResident d tests) s = .next t ∧
        t.sys.state = .reset ∧ t.flash = (s.writeBankRec { s.bankRec with resident := true }).flash ∧ t.key.slots = []) ∧
    (s.sys.state = .boot → s.boot.stage = .recovery → ∀ (u : State) (st : Status), s.residentLoad (d.byte 8) 0 = (u, st) →
      exec (.updResident d tests) s = .next ((u.complete d st).bootBanks tests)))

/-- A step takes the command at the front of the queue and runs it with the queue's rest; with no command waiting the
block idles. What an empty queue does is the model's choice (log entry 1). -/
def Obligations.stepsRunTheFront : Prop :=
  (∀ (s : State) (c : Sys2Proof.Instr) (rest : List Sys2Proof.Instr), s.pending = c :: rest →
    step s = exec c { s with pending := rest }) ∧
  ∀ s : State, s.pending = [] → step s = .next s

/-- What reset leaves (R25, R68, Table 01-5): RESET, no command waiting, every register at its reset value, every span
ABORTED with its cleanup done and no items, DTIME 0, no truss, nothing on its way out. The boot flash, the fuses and the
memory die are the model's choice (log entries 2 and 8). The stores of the state at reset are in their canonical forms:
what a later claim about every step starts from. The forms are the model's choice (log entry 8). -/
def Obligations.resetState : Prop :=
  (State.reset.sys.state = .reset ∧ State.reset.pending = [] ∧ State.reset.regWrites = [] ∧
     (∀ a : Nat, State.reset.reg a = resetOf a) ∧
     (∀ n : Nat, n < 16 → (State.reset.span n).state = .aborted ∧ (State.reset.span n).free = true ∧
       (State.reset.span n).items = []) ∧
     State.reset.time.dtime = 0 ∧ State.reset.truss.loaded = false ∧ State.reset.linkUp = false ∧
     State.reset.hif.held = [] ∧ State.reset.hif.started = [] ∧ State.reset.outbox = [] ∧
     ∀ q : Nat, (State.reset.queue q).items = []) ∧
  (State.reset.tidy)

/-- Every command, in every state, has an effect and leaves the queue of waiting commands as it is: none faults and none
is refused, as the manual gives each an effect in every state (R8, R17). -/
def Obligations.everyCommandCompletes : Prop :=
  ∀ (c : Sys2Proof.Instr) (s : State), ∃ t : State, exec c s = .next t ∧ t.pending = s.pending

/-- Every step keeps the stores in their canonical forms: the memory die, the boot flash, the registers, the node
contexts, the key slots and the policers. The forms are the model's choice (log entry 8); that a store holds one value for
each address is the manual's. -/
def Obligations.stepsKeepTheForms : Prop := Kept State.tidy

/-- The boot flash changes at a boot, at the building of an image, at an activation, at its confirmation, at the end of
its trial, at a load of the resident image and at the end of a migration that an activation waited for, and at no other
command (R245, R357, R363, R373 to R381). -/
def Obligations.flashIsKept : Prop :=
  ∀ (c : Sys2Proof.Instr) (s t : State), Instr.changesFlash c = false → Runs c s t →
    t.flash = s.flash ∧ ∀ o n : Nat, t.flashRead o n = s.flashRead o n

/-- The cells and gate lists in force, the truss in force, the update sessions and the check units change at the commands
listed for each, and at no other command (R31, R60 to R65, R181, R340, R367). -/
def Obligations.serviceIsKept : Prop :=
  ∀ (c : Sys2Proof.Instr) (s t : State), Runs c s t →
    (Instr.changesSchedule c = false → t.sch = s.sch) ∧ (Instr.changesTruss c = false → t.truss = s.truss) ∧
    (Instr.changesSessions c = false → t.upd = s.upd) ∧ (Instr.changesScans c = false → t.chk = s.chk)

/-- R4: a register access of another width than 32 bits has no effect; its write is discarded and its read gives 0. -/
def Obligations.otherWidths : Prop :=
  ∀ (s : State) (a w : Nat) (v : Word), w ≠ 4 →
    exec (.registerWrite a w v) s = .next s ∧ s.readAccess a w = 0

/-- R75: SPAN_ABORT of a span in OPEN, STAGING or ARMED aborts it, with every item ABORTED, and completes OK; of a
COMMITTED or ABORTED span it completes as a command its state does not accept. -/
def Obligations.spansAborted : Prop :=
  ∀ (s : State) (d : Desc) (x : Span), s.spanc.spans.length = 16 → s.inStates stSAYM = true → d.byte 4 < 12 →
    d.unlistedZero [] = true → x = s.span (d.byte 4) →
    (x.state = .open_ ∨ x.state = .staging ∨ x.state = .armed → ∃ t, exec (.spanAbort d) s = .next t ∧
      (t.span (d.byte 4)).state = .aborted ∧ (t.span (d.byte 4)).clean = false ∧
      (∀ m, m ≠ d.byte 4 → t.span m = s.span m) ∧
      (∃ o : SpanOutcome, t.spanc.outcomes = s.spanc.outcomes ++ [o] ∧ o.span = d.byte 4 ∧ o.status = .aborted ∧
        o.tag = x.openTag ∧ o.armCmd = x.armCmd ∧ o.results = x.items.map fun _ => (.aborted, 0)) ∧
      t.hif.held = s.hif.held ++ [{ tag := d.tag, status := .ok }] ∧ OnlyIn [.hif, .spanc] s t) ∧
    (x.state = .committed ∨ x.state = .aborted → ∃ t, exec (.spanAbort d) s = .next t ∧ t.spanc = s.spanc ∧
      t.hif.held = s.hif.held ++ [{ tag := d.tag, status := .state }] ∧
      OnlyIn [.evr, .free, .hif, .outbox, .que, .regs] s t)
end

