-- ==== Sys2Proof/Laws/Sparse.lean ====
section
/-! SUPPORT. The canonical form of the sparse maps, and the laws of reading after writing. -/

namespace Sys2Proof.Machine

section
variable {α : Type}

/-- Keys of a map all lie above `n`. -/
def keysAbove (n : Nat) (m : List (Nat × α)) : Prop := ∀ e ∈ m, n < e.1

theorem rising_cons_iff (a : Nat) (x : α) (m : List (Nat × α)) :
    risingKeys ((a, x) :: m) = true ↔ keysAbove a m ∧ risingKeys m = true := by
  induction m generalizing a x with
  | nil => simp [risingKeys, keysAbove]
  | cons e r ih =>
    obtain ⟨b, y⟩ := e
    have hb := ih b y
    simp only [risingKeys, Bool.and_eq_true, decide_eq_true_eq]
    constructor
    · rintro ⟨h1, h2⟩
      refine ⟨?_, h2⟩
      intro e he
      rcases List.mem_cons.1 he with rfl | he
      · exact h1
      · have := (hb.1 h2).1 e he
        exact Nat.lt_trans h1 this
    · rintro ⟨h1, h2⟩
      exact ⟨h1 (b, y) (List.mem_cons_self ..), h2⟩

theorem keysAbove_aset [DecidableEq α] {n : Nat} {d : α} {m : List (Nat × α)} {k : Nat} {v : α} (hk : n < k)
    (h : keysAbove n m) : keysAbove n (aset d m k v) := by
  induction m with
  | nil => unfold aset; split <;> simp_all [keysAbove]
  | cons e r ih =>
    obtain ⟨a, x⟩ := e
    have hr : keysAbove n r := fun e he => h e (List.mem_cons_of_mem _ he)
    have ha : n < a := h (a, x) (List.mem_cons_self ..)
    unfold aset
    split
    · split
      · exact h
      · intro e he
        rcases List.mem_cons.1 he with rfl | he
        · exact hk
        · exact h e he
    · split
      · split
        · exact hr
        · intro e he
          rcases List.mem_cons.1 he with rfl | he
          · exact hk
          · exact hr e he
      · intro e he
        rcases List.mem_cons.1 he with rfl | he
        · exact ha
        · exact ih hr e he

theorem rising_aset [DecidableEq α] {d : α} {m : List (Nat × α)} {k : Nat} {v : α} (h : risingKeys m = true) :
    risingKeys (aset d m k v) = true := by
  induction m with
  | nil => unfold aset; split <;> simp [risingKeys]
  | cons e r ih =>
    obtain ⟨a, x⟩ := e
    have h' := (rising_cons_iff a x r).1 h
    unfold aset
    split
    · split
      · exact h
      · rename_i hk _
        refine (rising_cons_iff ..).2 ⟨?_, h⟩
        intro e he
        rcases List.mem_cons.1 he with rfl | he
        · exact hk
        · exact Nat.lt_trans hk (h'.1 e he)
    · split
      · rename_i hk
        split
        · exact h'.2
        · exact (rising_cons_iff ..).2 ⟨hk ▸ h'.1, h'.2⟩
      · rename_i h1 h2
        exact (rising_cons_iff ..).2 ⟨keysAbove_aset (by omega) h'.1, ih h'.2⟩

/-- What holds of every entry and of the new one holds after a write. -/
theorem all_aset [DecidableEq α] {p : Nat × α → Bool} {d : α} {m : List (Nat × α)} {k : Nat} {v : α}
    (h : m.all p = true) (hv : v ≠ d → p (k, v) = true) : (aset d m k v).all p = true := by
  induction m with
  | nil => unfold aset; split <;> simp_all
  | cons e r ih =>
    obtain ⟨a, x⟩ := e
    simp only [List.all_cons, Bool.and_eq_true] at h
    unfold aset
    split
    · split <;> simp_all
    · split
      · split <;> simp_all
      · simp_all

theorem canonical_aset [DecidableEq α] {d : α} {m : List (Nat × α)} {k : Nat} {v : α} (h : canonical d m = true) :
    canonical d (aset d m k v) = true := by
  simp only [canonical, Bool.and_eq_true] at h ⊢
  exact ⟨rising_aset h.1, all_aset h.2 (by simp)⟩

theorem rising_filter {p : Nat × α → Bool} {m : List (Nat × α)} (h : risingKeys m = true) :
    risingKeys (m.filter p) = true := by
  induction m with
  | nil => rfl
  | cons e r ih =>
    obtain ⟨a, x⟩ := e
    have h' := (rising_cons_iff a x r).1 h
    rw [List.filter_cons]
    split
    · exact (rising_cons_iff ..).2 ⟨fun e he => h'.1 e (List.mem_filter.1 he).1, ih h'.2⟩
    · exact ih h'.2

theorem rising_map {β : Type} {f : Nat × α → β} {m : List (Nat × α)} (h : risingKeys m = true) :
    risingKeys (m.map fun e => (e.1, f e)) = true := by
  induction m with
  | nil => rfl
  | cons e r ih =>
    obtain ⟨a, x⟩ := e
    have h' := (rising_cons_iff a x r).1 h
    refine (rising_cons_iff ..).2 ⟨?_, ih h'.2⟩
    intro e he
    obtain ⟨y, hy, rfl⟩ := List.mem_map.1 he
    exact h'.1 y hy

theorem canonical_filter [DecidableEq α] {d : α} {p : Nat × α → Bool} {m : List (Nat × α)} (h : canonical d m = true) :
    canonical d (m.filter p) = true := by
  simp only [canonical, Bool.and_eq_true] at h ⊢
  refine ⟨rising_filter h.1, ?_⟩
  rw [List.all_eq_true] at h ⊢
  exact fun e he => h.2 e (List.mem_filter.1 he).1

theorem aget_above {d : α} {m : List (Nat × α)} {n k : Nat} (h : keysAbove n m) (hk : k ≤ n) : aget d m k = d := by
  induction m with
  | nil => rfl
  | cons e r ih =>
    obtain ⟨a, x⟩ := e
    have ha : n < a := h (a, x) (List.mem_cons_self ..)
    unfold aget
    rw [if_neg (by omega)]
    exact ih fun e he => h e (List.mem_cons_of_mem _ he)

/-- Reading the key just written gives the value written. -/
theorem aget_aset_same [DecidableEq α] {d : α} {m : List (Nat × α)} {k : Nat} {v : α} (h : risingKeys m = true) :
    aget d (aset d m k v) k = v := by
  induction m with
  | nil =>
    unfold aset
    split
    · rename_i hv; simp [aget, hv]
    · simp [aget]
  | cons e r ih =>
    obtain ⟨a, x⟩ := e
    have h' := (rising_cons_iff a x r).1 h
    unfold aset
    split
    · rename_i hk
      split
      · rename_i hv
        unfold aget
        rw [if_neg (by omega), hv]
        exact aget_above h'.1 (by omega)
      · simp [aget]
    · split
      · rename_i hk
        split
        · rename_i hv
          rw [hv]
          exact aget_above h'.1 (by omega)
        · simp [aget]
      · rename_i h1 h2
        unfold aget
        rw [if_neg (by omega)]
        exact ih h'.2

/-- Writing one key leaves every other key as it reads. -/
theorem aget_aset_other [DecidableEq α] {d c : α} {m : List (Nat × α)} {k j : Nat} {v : α} (hj : j ≠ k) :
    aget c (aset d m k v) j = aget c m j := by
  induction m with
  | nil =>
    unfold aset
    split
    · rfl
    · simp [aget, Ne.symm hj]
  | cons e r ih =>
    obtain ⟨a, x⟩ := e
    unfold aset
    split
    · split
      · rfl
      · rename_i hk _
        conv => lhs; unfold aget
        rw [if_neg (Ne.symm hj)]
    · split
      · rename_i hk
        split
        · conv => rhs; unfold aget
          rw [if_neg (by omega)]
        · conv => lhs; unfold aget
          conv => rhs; unfold aget
          rw [if_neg (Ne.symm hj), if_neg (by omega)]
      · unfold aget
        rw [ih]

end

/-! ### The memory die and the flash -/

theorem memory_wf_put {m : List Host.Cell} {a : Nat} {v : Byte} (h : Memory.wf m = true) : Memory.wf (memPut m a v) = true := by
  unfold memPut
  split
  · rename_i ha
    simp only [Memory.wf, Bool.and_eq_true] at h ⊢
    exact ⟨canonical_aset h.1, all_aset h.2 fun _ => by simpa using ha⟩
  · exact h

theorem memory_wf_write {m : List Host.Cell} {a : Nat} {bs : List Byte} (h : Memory.wf m = true) :
    Memory.wf (memWrite m a bs) = true := by
  induction bs generalizing m a with
  | nil => exact h
  | cons b r ih => exact ih (memory_wf_put h)

theorem memory_wf_filter {m : List Host.Cell} {p : Nat × Byte → Bool} (h : Memory.wf m = true) :
    Memory.wf (m.filter p) = true := by
  simp only [Memory.wf, Bool.and_eq_true] at h ⊢
  refine ⟨canonical_filter h.1, ?_⟩
  rw [List.all_eq_true] at h ⊢
  exact fun e he => h.2 e (List.mem_filter.1 he).1

theorem memory_wf_zero {m : List Host.Cell} {a n : Nat} (h : Memory.wf m = true) : Memory.wf (memZero m a n) = true :=
  memory_wf_filter h

theorem flash_wf_put {f : List Host.Cell} {o : Nat} {bs : List Byte} (h : Flash.wf f = true) :
    Flash.wf (flashPut f o bs) = true := by
  induction bs generalizing f o with
  | nil => exact h
  | cons b r ih => exact ih (canonical_aset h)

theorem flash_wf_erase {f : List Host.Cell} {o n : Nat} (h : Flash.wf f = true) : Flash.wf (flashErase f o n) = true :=
  canonical_filter h

/-! ### Registers -/

theorem regs_wf_set {m : List (Nat × Word)} {a : Nat} {v : Word} (h : Regs.wf m = true) :
    Regs.wf (aset (resetOf a) m a v) = true := by
  simp only [Regs.wf, Bool.and_eq_true] at h ⊢
  exact ⟨rising_aset h.1, all_aset h.2 fun hv => by simpa using hv⟩

theorem regs_wf_filter {m : List (Nat × Word)} {p : Nat × Word → Bool} (h : Regs.wf m = true) :
    Regs.wf (m.filter p) = true := by
  simp only [Regs.wf, Bool.and_eq_true] at h ⊢
  refine ⟨rising_filter h.1, ?_⟩
  rw [List.all_eq_true] at h ⊢
  exact fun e he => h.2 e (List.mem_filter.1 he).1

/-- A register reads back the word held for it. -/
theorem reg_setReg_same {s : State} {a : Nat} {v : Word} (h : risingKeys s.regs = true) : (s.setReg a v).reg a = v :=
  aget_aset_same h

/-- Holding a word for one register leaves every other as it reads. -/
theorem reg_setReg_other {s : State} {a b : Nat} {v : Word} (h : b ≠ a) : (s.setReg a v).reg b = s.reg b :=
  aget_aset_other h

end Sys2Proof.Machine
end

