-- ==== Sys2Proof/Laws/Keeps.lean ====
section
/-! SUPPORT. What every operation of the machine does to the state it is given: the waiting commands stay, the sparse
stores stay in their canonical forms, and only the parts an operation's lemma names may change. The ways the parts of an
operation compose. -/

namespace Sys2Proof.Machine

/-- The parts `L` are among `W`. -/
def Within (L W : List Part) : Prop := ∀ p : Part, p ∈ L → p ∈ W

theorem Within.self (W : List Part) : Within W W := fun _ h => h

theorem Within.mem {L W : List Part} {p : Part} (h : Within L W) (hp : L.contains p = true) : p ∈ W :=
  h p (by simpa using hp)

theorem Within.mono {L K W : List Part} (h : Within L W)
    (hk : (K.all fun p => L.contains p) = true) : Within K W := by
  intro p hp
  exact h.mem (List.all_eq_true.1 hk p hp)

/-- `t` has the commands of `s` still waiting, keeps its sparse stores in their canonical forms when `s` has them so, and
differs from it in the parts `W` at most. Every operation of the machine does this to the state it is given, with the parts
its own lemma names. -/
def Keeps (W : List Part) (s t : State) : Prop := t.pending = s.pending ∧ (s.tidy → t.tidy) ∧ OnlyIn W s t

theorem Keeps.refl {W : List Part} (s : State) : Keeps W s s :=
  ⟨rfl, id, fun p => .inr (by cases p <;> rfl)⟩

theorem Keeps.part {W : List Part} {s t : State} (h : Keeps W s t) (p : Part) (hp : W.contains p = false) :
    State.same p s t :=
  (h.2.2 p).resolve_left fun m => by simp [m] at hp

theorem State.same_trans {p : Part} {s t u : State} (h : State.same p s t)
    (g : State.same p t u) : State.same p s u := by
  cases p <;> exact Eq.trans g h

/-- A part changed at most where it is listed, when every other part is as it was. -/
theorem OnlyIn.step {W : List Part} {s0 s t : State} (h : OnlyIn W s0 s)
    (g : OnlyIn W s t) : OnlyIn W s0 t := fun p =>
  (h p).elim .inl fun a => (g p).elim .inl fun b => .inr (State.same_trans a b)

/-- A change of fields that hold neither waiting commands nor a sparse store. -/
theorem Keeps.fields {W : List Part} {s0 s : State}
    {sys_ time_ truss_ evr_ hif_ spanc_ sch_ tbl_ que_ tol_ key_ cip_ par_ cal_ rf_ red_ chk_ boot_ upd_ ethA_ ethB_ regWrites_ outbox_ free_}
    (hp : ∀ p : Part, p ∈ W ∨ State.same p s ⟨s.pending, sys_, time_, truss_, evr_, hif_, spanc_, sch_, tbl_, que_, tol_, key_, cip_, par_, cal_, rf_, red_, chk_, boot_, upd_, s.flash, ethA_, ethB_, s.regs, regWrites_, s.ctxs, s.mem, outbox_, free_⟩) (h : Keeps W s0 s)
    (hk : KeySt.slots key_ = s.key.slots) (ht : TolSt.policers tol_ = s.tol.policers) :
    Keeps W s0 ⟨s.pending, sys_, time_, truss_, evr_, hif_, spanc_, sch_, tbl_, que_, tol_, key_, cip_, par_, cal_, rf_, red_, chk_, boot_, upd_, s.flash, ethA_, ethB_, s.regs, regWrites_, s.ctxs, s.mem, outbox_, free_⟩ := by
  refine ⟨h.1, fun x => ?_, OnlyIn.step h.2.2 hp⟩
  have y := h.2.1 x
  simp only [State.tidy] at y ⊢
  rw [hk, ht]
  exact y

theorem Keeps.regs {W : List Part} {s0 s : State} {x : List (Nat × Word)} (hp : Part.regs ∈ W) (h : Keeps W s0 s)
    (hm : Regs.wf s.regs = true → Regs.wf x = true) : Keeps W s0 { s with regs := x } :=
  ⟨h.1, fun y => match h.2.1 y with
    | ⟨a, b, c, d, e, f⟩ => ⟨a, b, hm c, d, e, f⟩, OnlyIn.step h.2.2 fun p => by cases p <;> first | exact .inl hp | exact .inr rfl⟩

theorem Keeps.mem {W : List Part} {s0 s : State} {x : List Host.Cell} (hp : Part.mem ∈ W) (h : Keeps W s0 s)
    (hm : Memory.wf s.mem = true → Memory.wf x = true) : Keeps W s0 { s with mem := x } :=
  ⟨h.1, fun y => match h.2.1 y with
    | ⟨a, b, c, d, e, f⟩ => ⟨hm a, b, c, d, e, f⟩, OnlyIn.step h.2.2 fun p => by cases p <;> first | exact .inl hp | exact .inr rfl⟩

theorem Keeps.flash {W : List Part} {s0 s : State} {x : List Host.Cell} (hp : Part.flash ∈ W) (h : Keeps W s0 s)
    (hm : Flash.wf s.flash = true → Flash.wf x = true) : Keeps W s0 { s with flash := x } :=
  ⟨h.1, fun y => match h.2.1 y with
    | ⟨a, b, c, d, e, f⟩ => ⟨a, hm b, c, d, e, f⟩, OnlyIn.step h.2.2 fun p => by cases p <;> first | exact .inl hp | exact .inr rfl⟩

theorem Keeps.ctxs {W : List Part} {s0 s : State} {x : List (Nat × CtxLine)} (hp : Part.ctxs ∈ W) (h : Keeps W s0 s)
    (hm : canonical {} s.ctxs = true → canonical {} x = true) : Keeps W s0 { s with ctxs := x } :=
  ⟨h.1, fun y => match h.2.1 y with
    | ⟨a, b, c, d, e, f⟩ => ⟨a, b, c, hm d, e, f⟩, OnlyIn.step h.2.2 fun p => by cases p <;> first | exact .inl hp | exact .inr rfl⟩

theorem Keeps.key {W : List Part} {s0 s : State} {x : KeySt} (hp : Part.key ∈ W) (h : Keeps W s0 s)
    (hm : canonical {} s.key.slots = true → canonical {} x.slots = true) : Keeps W s0 { s with key := x } :=
  ⟨h.1, fun y => match h.2.1 y with
    | ⟨a, b, c, d, e, f⟩ => ⟨a, b, c, d, hm e, f⟩, OnlyIn.step h.2.2 fun p => by cases p <;> first | exact .inl hp | exact .inr rfl⟩

theorem Keeps.tol {W : List Part} {s0 s : State} {x : TolSt} (hp : Part.tol ∈ W) (h : Keeps W s0 s)
    (hm : canonical {} s.tol.policers = true → canonical {} x.policers = true) : Keeps W s0 { s with tol := x } :=
  ⟨h.1, fun y => match h.2.1 y with
    | ⟨a, b, c, d, e, f⟩ => ⟨a, b, c, d, e, hm f⟩, OnlyIn.step h.2.2 fun p => by cases p <;> first | exact .inl hp | exact .inr rfl⟩

theorem Keeps.set_sys {W : List Part} {s0 s : State} {x : SysSt} (hp : Part.sys ∈ W) (h : Keeps W s0 s) :
    Keeps W s0 { s with sys := x } :=
  ⟨h.1, fun y => h.2.1 y, OnlyIn.step h.2.2 fun p => by cases p <;> first | exact .inl hp | exact .inr rfl⟩

theorem Keeps.set_time {W : List Part} {s0 s : State} {x : TimeSt} (hp : Part.time ∈ W) (h : Keeps W s0 s) :
    Keeps W s0 { s with time := x } :=
  ⟨h.1, fun y => h.2.1 y, OnlyIn.step h.2.2 fun p => by cases p <;> first | exact .inl hp | exact .inr rfl⟩

theorem Keeps.set_truss {W : List Part} {s0 s : State} {x : TrussSt} (hp : Part.truss ∈ W) (h : Keeps W s0 s) :
    Keeps W s0 { s with truss := x } :=
  ⟨h.1, fun y => h.2.1 y, OnlyIn.step h.2.2 fun p => by cases p <;> first | exact .inl hp | exact .inr rfl⟩

theorem Keeps.set_evr {W : List Part} {s0 s : State} {x : EvrSt} (hp : Part.evr ∈ W) (h : Keeps W s0 s) :
    Keeps W s0 { s with evr := x } :=
  ⟨h.1, fun y => h.2.1 y, OnlyIn.step h.2.2 fun p => by cases p <;> first | exact .inl hp | exact .inr rfl⟩

theorem Keeps.set_hif {W : List Part} {s0 s : State} {x : HifSt} (hp : Part.hif ∈ W) (h : Keeps W s0 s) :
    Keeps W s0 { s with hif := x } :=
  ⟨h.1, fun y => h.2.1 y, OnlyIn.step h.2.2 fun p => by cases p <;> first | exact .inl hp | exact .inr rfl⟩

theorem Keeps.set_spanc {W : List Part} {s0 s : State} {x : SpanSt} (hp : Part.spanc ∈ W) (h : Keeps W s0 s) :
    Keeps W s0 { s with spanc := x } :=
  ⟨h.1, fun y => h.2.1 y, OnlyIn.step h.2.2 fun p => by cases p <;> first | exact .inl hp | exact .inr rfl⟩

theorem Keeps.set_sch {W : List Part} {s0 s : State} {x : SchSt} (hp : Part.sch ∈ W) (h : Keeps W s0 s) :
    Keeps W s0 { s with sch := x } :=
  ⟨h.1, fun y => h.2.1 y, OnlyIn.step h.2.2 fun p => by cases p <;> first | exact .inl hp | exact .inr rfl⟩

theorem Keeps.set_tbl {W : List Part} {s0 s : State} {x : TblSt} (hp : Part.tbl ∈ W) (h : Keeps W s0 s) :
    Keeps W s0 { s with tbl := x } :=
  ⟨h.1, fun y => h.2.1 y, OnlyIn.step h.2.2 fun p => by cases p <;> first | exact .inl hp | exact .inr rfl⟩

theorem Keeps.set_que {W : List Part} {s0 s : State} {x : QueSt} (hp : Part.que ∈ W) (h : Keeps W s0 s) :
    Keeps W s0 { s with que := x } :=
  ⟨h.1, fun y => h.2.1 y, OnlyIn.step h.2.2 fun p => by cases p <;> first | exact .inl hp | exact .inr rfl⟩

theorem Keeps.set_cip {W : List Part} {s0 s : State} {x : CipSt} (hp : Part.cip ∈ W) (h : Keeps W s0 s) :
    Keeps W s0 { s with cip := x } :=
  ⟨h.1, fun y => h.2.1 y, OnlyIn.step h.2.2 fun p => by cases p <;> first | exact .inl hp | exact .inr rfl⟩

theorem Keeps.set_par {W : List Part} {s0 s : State} {x : ParSt} (hp : Part.par ∈ W) (h : Keeps W s0 s) :
    Keeps W s0 { s with par := x } :=
  ⟨h.1, fun y => h.2.1 y, OnlyIn.step h.2.2 fun p => by cases p <;> first | exact .inl hp | exact .inr rfl⟩

theorem Keeps.set_cal {W : List Part} {s0 s : State} {x : CalSt} (hp : Part.cal ∈ W) (h : Keeps W s0 s) :
    Keeps W s0 { s with cal := x } :=
  ⟨h.1, fun y => h.2.1 y, OnlyIn.step h.2.2 fun p => by cases p <;> first | exact .inl hp | exact .inr rfl⟩

theorem Keeps.set_rf {W : List Part} {s0 s : State} {x : RfSt} (hp : Part.rf ∈ W) (h : Keeps W s0 s) :
    Keeps W s0 { s with rf := x } :=
  ⟨h.1, fun y => h.2.1 y, OnlyIn.step h.2.2 fun p => by cases p <;> first | exact .inl hp | exact .inr rfl⟩

theorem Keeps.set_red {W : List Part} {s0 s : State} {x : RedSt} (hp : Part.red ∈ W) (h : Keeps W s0 s) :
    Keeps W s0 { s with red := x } :=
  ⟨h.1, fun y => h.2.1 y, OnlyIn.step h.2.2 fun p => by cases p <;> first | exact .inl hp | exact .inr rfl⟩

theorem Keeps.set_chk {W : List Part} {s0 s : State} {x : ChkSt} (hp : Part.chk ∈ W) (h : Keeps W s0 s) :
    Keeps W s0 { s with chk := x } :=
  ⟨h.1, fun y => h.2.1 y, OnlyIn.step h.2.2 fun p => by cases p <;> first | exact .inl hp | exact .inr rfl⟩

theorem Keeps.set_boot {W : List Part} {s0 s : State} {x : BootSt} (hp : Part.boot ∈ W) (h : Keeps W s0 s) :
    Keeps W s0 { s with boot := x } :=
  ⟨h.1, fun y => h.2.1 y, OnlyIn.step h.2.2 fun p => by cases p <;> first | exact .inl hp | exact .inr rfl⟩

theorem Keeps.set_upd {W : List Part} {s0 s : State} {x : UpdSt} (hp : Part.upd ∈ W) (h : Keeps W s0 s) :
    Keeps W s0 { s with upd := x } :=
  ⟨h.1, fun y => h.2.1 y, OnlyIn.step h.2.2 fun p => by cases p <;> first | exact .inl hp | exact .inr rfl⟩

theorem Keeps.set_ethA {W : List Part} {s0 s : State} {x : EthPort} (hp : Part.ethA ∈ W) (h : Keeps W s0 s) :
    Keeps W s0 { s with ethA := x } :=
  ⟨h.1, fun y => h.2.1 y, OnlyIn.step h.2.2 fun p => by cases p <;> first | exact .inl hp | exact .inr rfl⟩

theorem Keeps.set_ethB {W : List Part} {s0 s : State} {x : EthPort} (hp : Part.ethB ∈ W) (h : Keeps W s0 s) :
    Keeps W s0 { s with ethB := x } :=
  ⟨h.1, fun y => h.2.1 y, OnlyIn.step h.2.2 fun p => by cases p <;> first | exact .inl hp | exact .inr rfl⟩

theorem Keeps.set_regWrites {W : List Part} {s0 s : State} {x : List (Nat × Word)} (hp : Part.regWrites ∈ W)
    (h : Keeps W s0 s) :
    Keeps W s0 { s with regWrites := x } :=
  ⟨h.1, fun y => h.2.1 y, OnlyIn.step h.2.2 fun p => by cases p <;> first | exact .inl hp | exact .inr rfl⟩

theorem Keeps.set_outbox {W : List Part} {s0 s : State} {x : List Output} (hp : Part.outbox ∈ W) (h : Keeps W s0 s) :
    Keeps W s0 { s with outbox := x } :=
  ⟨h.1, fun y => h.2.1 y, OnlyIn.step h.2.2 fun p => by cases p <;> first | exact .inl hp | exact .inr rfl⟩

theorem Keeps.set_free {W : List Part} {s0 s : State} {x : Nat} (hp : Part.free ∈ W) (h : Keeps W s0 s) :
    Keeps W s0 { s with free := x } :=
  ⟨h.1, fun y => h.2.1 y, OnlyIn.step h.2.2 fun p => by cases p <;> first | exact .inl hp | exact .inr rfl⟩

theorem Keeps.ite {W : List Part} {s0 a b : State} {c : Prop} [Decidable c] (ha : Keeps W s0 a) (hb : Keeps W s0 b) :
    Keeps W s0 (if c then a else b) := by split <;> assumption

theorem Keeps.iteFst {β : Type} {W : List Part} {s0 : State} {a b : State × β} {c : Prop} [Decidable c]
    (ha : Keeps W s0 a.1) (hb : Keeps W s0 b.1) : Keeps W s0 (if c then a else b).1 := by split <;> assumption

theorem Keeps.ofFst {β : Type} {W : List Part} {s0 a : State} {b : β} {p : State × β} (e : p = (a, b))
    (h : Keeps W s0 p.1) : Keeps W s0 a := by subst e; exact h

theorem Keeps.foldl {β : Type} {W : List Part} {s0 : State} {f : State → β → State} {l : List β} {s : State}
    (hf : ∀ s x, Keeps W s0 s → Keeps W s0 (f s x)) (h : Keeps W s0 s) : Keeps W s0 (l.foldl f s) := by
  induction l generalizing s with
  | nil => exact h
  | cons x r ih => exact ih (hf s x h)

theorem Keeps.foldlFst {β γ : Type} {W : List Part} {s0 : State} {f : State × γ → β → State × γ} {l : List β}
    {p : State × γ} (hf : ∀ p x, Keeps W s0 p.1 → Keeps W s0 (f p x).1) (h : Keeps W s0 p.1) :
    Keeps W s0 (l.foldl f p).1 := by
  induction l generalizing p with
  | nil => exact h
  | cons x r ih => exact ih (hf p x h)

theorem Keeps.getD {W : List Part} {s0 a : State} {o : Option State} (ho : ∀ t, o = some t → Keeps W s0 t)
    (h : Keeps W s0 a) : Keeps W s0 (o.getD a) := by
  cases o with
  | none => exact h
  | some t => exact ho t rfl

end Sys2Proof.Machine
end

