-- ==== Sys2Proof/Laws/KeepsBasic.lean ====
section
/-! SUPPORT. One lemma per operation on registers, queues, the recorder, keys, spans, tables and the cell store:
it keeps the waiting commands and the canonical stores, and changes the parts listed at most. -/

namespace Sys2Proof.Machine

theorem State.setReg_keeps {W : List Part} {z0 : State} {s : State} {addr : Nat} {v : Word} (hw : Within [.regs] W)
    (h : Keeps W z0 s) :
    Keeps W z0 (State.setReg s addr v) := by
  exact h.regs (hw.mem rfl) regs_wf_set

theorem State.setFld_keeps {W : List Part} {z0 : State} {s : State} {addr : Nat} {hi : Nat} {lo : Nat} {v : Nat}
    (hw : Within [.regs] W) (h : Keeps W z0 s) :
    Keeps W z0 (State.setFld s addr hi lo v) := by
  unfold State.setFld
  with_reducible repeat' first | assumption | decide | refine State.setReg_keeps (hw.mono ?_) ?_

theorem State.bumpBy_keeps {W : List Part} {z0 : State} {s : State} {addr : Nat} {hi : Nat} {k : Nat}
    (hw : Within [.regs] W) (h : Keeps W z0 s) :
    Keeps W z0 (State.bumpBy s addr hi k) := by
  unfold State.bumpBy
  with_reducible repeat' first | assumption | decide | refine State.setFld_keeps (hw.mono ?_) ?_

theorem State.bump_keeps {W : List Part} {z0 : State} {s : State} {addr : Nat} (hw : Within [.regs] W)
    (h : Keeps W z0 s) :
    Keeps W z0 (State.bump s addr) := by
  unfold State.bump
  with_reducible repeat' first | assumption | decide | refine State.bumpBy_keeps (hw.mono ?_) ?_

theorem State.emit_keeps {W : List Part} {z0 : State} {s : State} {o : Output} (hw : Within [.outbox] W)
    (h : Keeps W z0 s) :
    Keeps W z0 (State.emit s o) := by
  unfold State.emit
  with_reducible repeat' first | assumption | decide | (refine Keeps.set_outbox (hw.mem (by decide)) ?_; assumption)

theorem State.sendMsi_keeps {W : List Part} {z0 : State} {s : State} {v : Nat} (hw : Within [.regs, .outbox] W)
    (h : Keeps W z0 s) :
    Keeps W z0 (State.sendMsi s v) := by
  unfold State.sendMsi
  with_reducible repeat' first | assumption | decide | apply Keeps.ite | refine State.setFld_keeps (hw.mono ?_) ?_ | refine State.bump_keeps (hw.mono ?_) ?_ | refine State.emit_keeps (hw.mono ?_) ?_

theorem State.vectorEvent_keeps {W : List Part} {z0 : State} {s : State} {v : Nat}
    (hw : Within [.hif, .regs, .outbox] W) (h : Keeps W z0 s) :
    Keeps W z0 (State.vectorEvent s v) := by
  unfold State.vectorEvent
  with_reducible repeat' first | assumption | decide | apply Keeps.ite | refine State.sendMsi_keeps (hw.mono ?_) ?_ | (refine Keeps.set_hif (hw.mem (by decide)) ?_; assumption)

theorem State.raise_keeps {W : List Part} {z0 : State} {s : State} {c : Nat} (hw : Within [.hif, .regs, .outbox] W)
    (h : Keeps W z0 s) :
    Keeps W z0 (State.raise s c) := by
  unfold State.raise
  with_reducible repeat' first | assumption | decide | apply Keeps.ite | refine State.setFld_keeps (hw.mono ?_) ?_ | refine State.vectorEvent_keeps (hw.mono ?_) ?_

theorem State.dropRec_keeps {W : List Part} {z0 : State} {s : State} {sev : Sev} (hw : Within [.regs] W)
    (h : Keeps W z0 s) :
    Keeps W z0 (State.dropRec s sev) := by
  unfold State.dropRec
  with_reducible repeat' first | assumption | decide | refine State.bump_keeps (hw.mono ?_) ?_

theorem State.writeRec_keeps {W : List Part} {z0 : State} {s : State} {sev : Sev} {src : Nat} {st : Option Status}
    {ev : Nat} {payload : List Word} (hw : Within [.evr, .hif, .regs, .outbox] W) (h : Keeps W z0 s) :
    Keeps W z0 (State.writeRec s sev src st ev payload).1 := by
  unfold State.writeRec
  dsimp only
  with_reducible repeat' first | assumption | decide | apply Keeps.ite | refine State.dropRec_keeps (hw.mono ?_) ?_ | refine State.raise_keeps (hw.mono ?_) ?_ | (refine Keeps.set_evr (hw.mem (by decide)) ?_; first | assumption | apply Keeps.ite | refine State.dropRec_keeps (hw.mono ?_) ?_ | refine State.raise_keeps (hw.mono ?_) ?_ | split) | split

theorem State.setQueue_keeps {W : List Part} {z0 : State} {s : State} {q : Nat} {x : Queue} (hw : Within [.que] W)
    (h : Keeps W z0 s) :
    Keeps W z0 (State.setQueue s q x) := by
  unfold State.setQueue
  with_reducible repeat' first | assumption | decide | (refine Keeps.set_que (hw.mem (by decide)) ?_; assumption)

theorem State.newPacket_keeps {W : List Part} {z0 : State} {s : State} {q : Nat} {it : QItem} (hw : Within [.que] W)
    (h : Keeps W z0 s) :
    Keeps W z0 (State.newPacket s q it) := by
  unfold State.newPacket
  with_reducible repeat' first | assumption | decide | apply Keeps.ite | refine State.setQueue_keeps (hw.mono ?_) ?_

theorem State.resetQueue_keeps {W : List Part} {z0 : State} {post : Poster} {s : State} {q : Nat}
    (hw : Within [.hif, .que, .regs, .outbox] W)
    (h_post : ∀ b0 b1 b2 b3 b4 b5, Keeps W z0 b0 → Keeps W z0 (post b0 b1 b2 b3 b4 b5)) (h : Keeps W z0 s) :
    Keeps W z0 (State.resetQueue post s q) := by
  unfold State.resetQueue
  with_reducible repeat' first | assumption | decide | apply Keeps.ite | apply h_post | refine State.setQueue_keeps (hw.mono ?_) ?_ | refine State.raise_keeps (hw.mono ?_) ?_ | refine State.bump_keeps (hw.mono ?_) ?_ | (refine Keeps.set_que (hw.mem (by decide)) ?_; first | assumption | apply Keeps.ite | apply h_post | refine State.setQueue_keeps (hw.mono ?_) ?_ | refine State.raise_keeps (hw.mono ?_) ?_ | refine State.bump_keeps (hw.mono ?_) ?_ | split) | split

theorem State.checkPointers_keeps {W : List Part} {z0 : State} {post : Poster} {s : State} {q : Nat}
    (hw : Within [.hif, .que, .regs, .outbox] W)
    (h_post : ∀ b0 b1 b2 b3 b4 b5, Keeps W z0 b0 → Keeps W z0 (post b0 b1 b2 b3 b4 b5)) (h : Keeps W z0 s) :
    Keeps W z0 (State.checkPointers post s q) := by
  unfold State.checkPointers
  with_reducible repeat' first | assumption | decide | apply Keeps.ite | apply h_post | refine State.resetQueue_keeps (hw.mono ?_) ?_ ?_

theorem State.freeGaps_keeps {W : List Part} {z0 : State} {s : State} {q : Nat} (hw : Within [.que] W)
    (h : Keeps W z0 s) :
    Keeps W z0 (State.freeGaps s q) := by
  unfold State.freeGaps
  with_reducible repeat' first | assumption | decide | apply Keeps.ite | refine State.setQueue_keeps (hw.mono ?_) ?_

theorem State.dropArrival_keeps {W : List Part} {z0 : State} {s : State} {q : Nat} {eop : Bool}
    (hw : Within [.que, .regs] W) (h : Keeps W z0 s) :
    Keeps W z0 (State.dropArrival s q eop) := by
  unfold State.dropArrival
  dsimp only
  with_reducible repeat' first | assumption | decide | apply Keeps.ite | refine State.bump_keeps (hw.mono ?_) ?_ | refine State.setQueue_keeps (hw.mono ?_) ?_ | refine State.freeGaps_keeps (hw.mono ?_) ?_ | split

theorem State.nextFree_keeps {W : List Part} {z0 : State} {s : State} (hw : Within [.free] W) (h : Keeps W z0 s) :
    Keeps W z0 (State.nextFree s) := by
  unfold State.nextFree
  with_reducible repeat' first | assumption | decide | (refine Keeps.set_free (hw.mem (by decide)) ?_; assumption)

theorem State.enqueueWith_keeps {W : List Part} {z0 : State} {post : Poster} {s0_ : State} {q : Nat} {it : QItem}
    (hw : Within [.hif, .que, .regs, .outbox, .free] W)
    (h_post : ∀ b0 b1 b2 b3 b4 b5, Keeps W z0 b0 → Keeps W z0 (post b0 b1 b2 b3 b4 b5)) (h : Keeps W z0 s0_) :
    Keeps W z0 (State.enqueueWith post s0_ q it).1 := by
  unfold State.enqueueWith
  with_reducible repeat' first | assumption | decide | apply Keeps.iteFst | apply h_post | refine State.newPacket_keeps (hw.mono ?_) ?_ | refine State.checkPointers_keeps (hw.mono ?_) ?_ ?_ | refine State.bump_keeps (hw.mono ?_) ?_ | refine State.dropArrival_keeps (hw.mono ?_) ?_ | refine State.setQueue_keeps (hw.mono ?_) ?_ | refine State.nextFree_keeps (hw.mono ?_) ?_ | apply Keeps.foldl | apply Keeps.foldlFst | (intro _; intros) | split

theorem State.exportWith_keeps {W : List Part} {z0 : State} {post : Poster} {s : State} {sev : Sev}
    (hw : Within [.hif, .que, .regs, .outbox, .free] W)
    (h_post : ∀ b0 b1 b2 b3 b4 b5, Keeps W z0 b0 → Keeps W z0 (post b0 b1 b2 b3 b4 b5)) (h : Keeps W z0 s) :
    Keeps W z0 (State.exportWith post s sev) := by
  unfold State.exportWith
  with_reducible repeat' first | assumption | decide | apply Keeps.ite | apply h_post | refine State.enqueueWith_keeps (hw.mono ?_) ?_ ?_ | split

theorem postVia_keeps {W : List Part} {z0 : State} {inner : Poster} {a1 : State} {a2 : Sev} {a3 : Nat}
    {a4 : Option Status} {a5 : Nat} {a6 : List Word} (hw : Within [.evr, .hif, .que, .regs, .outbox, .free] W)
    (h_inner : ∀ b0 b1 b2 b3 b4 b5, Keeps W z0 b0 → Keeps W z0 (inner b0 b1 b2 b3 b4 b5)) (h : Keeps W z0 a1) :
    Keeps W z0 (postVia inner a1 a2 a3 a4 a5 a6) := by
  unfold postVia
  with_reducible repeat' first | assumption | decide | apply h_inner | refine State.writeRec_keeps (hw.mono ?_) ?_ | refine State.exportWith_keeps (hw.mono ?_) ?_ ?_ | refine Keeps.ofFst (by assumption) ?_ | split

theorem postPlain_keeps {W : List Part} {z0 : State} {a0 : State} {a1 : Sev} {a2 : Nat} {a3 : Option Status}
    {a4 : Nat} {a5 : List Word} (hw : Within [.evr, .hif, .regs, .outbox] W) (h : Keeps W z0 a0) :
    Keeps W z0 (postPlain a0 a1 a2 a3 a4 a5) := by
  unfold postPlain
  with_reducible repeat' first | assumption | decide | refine State.writeRec_keeps (hw.mono ?_) ?_

theorem post_keeps {W : List Part} {z0 : State} {a0 : State} {a1 : Sev} {a2 : Nat} {a3 : Option Status} {a4 : Nat}
    {a5 : List Word} (hw : Within [.evr, .hif, .que, .regs, .outbox, .free] W) (h : Keeps W z0 a0) :
    Keeps W z0 (post a0 a1 a2 a3 a4 a5) := by
  unfold post
  with_reducible repeat' first | assumption | decide | refine postVia_keeps (hw.mono ?_) ?_ ?_ | refine postPlain_keeps (hw.mono ?_) ?_ | apply Keeps.foldl | (intro _; intros) | split

theorem State.hold_keeps {W : List Part} {z0 : State} {s : State} {c : Completion} (hw : Within [.hif] W)
    (h : Keeps W z0 s) :
    Keeps W z0 (State.hold s c) := by
  unfold State.hold
  with_reducible repeat' first | assumption | decide | (refine Keeps.set_hif (hw.mem (by decide)) ?_; assumption)

theorem State.enqueue_keeps {W : List Part} {z0 : State} {s : State} {q : Nat} {it : QItem}
    (hw : Within [.evr, .hif, .que, .regs, .outbox, .free] W) (h : Keeps W z0 s) :
    Keeps W z0 (State.enqueue s q it).1 := by
  unfold State.enqueue
  with_reducible repeat' first | assumption | decide | refine State.enqueueWith_keeps (hw.mono ?_) ?_ ?_ | refine post_keeps (hw.mono ?_) ?_ | apply Keeps.foldl | (intro _; intros) | split

theorem State.holdChange_keeps {W : List Part} {z0 : State} {s : State} {w : HeldChange} (hw : Within [.spanc] W)
    (h : Keeps W z0 s) :
    Keeps W z0 (State.holdChange s w) := by
  unfold State.holdChange
  with_reducible repeat' first | assumption | decide | (refine Keeps.set_spanc (hw.mem (by decide)) ?_; assumption)

theorem State.waitInsert_keeps {W : List Part} {z0 : State} {s : State} {w : WaitInsert}
    (hw : Within [.tbl, .regs] W) (h : Keeps W z0 s) :
    Keeps W z0 (State.waitInsert s w).1 := by
  unfold State.waitInsert
  with_reducible repeat' first | assumption | decide | apply Keeps.iteFst | refine State.bump_keeps (hw.mono ?_) ?_ | (refine Keeps.set_tbl (hw.mem (by decide)) ?_; assumption) | apply Keeps.foldl | apply Keeps.foldlFst | (intro _; intros) | split

theorem State.seenInsert_keeps {W : List Part} {z0 : State} {s : State} {seed : U64} {seq : BitVec 16} {age : Nat}
    (hw : Within [.tbl, .regs] W) (h : Keeps W z0 s) :
    Keeps W z0 (State.seenInsert s seed seq age).1 := by
  unfold State.seenInsert
  with_reducible repeat' first | assumption | decide | refine State.waitInsert_keeps (hw.mono ?_) ?_ | (refine Keeps.set_tbl (hw.mem (by decide)) ?_; assumption) | split

theorem State.markItems_keeps {W : List Part} {z0 : State} {s : State} {sel : Nat → Bool} {cause : Nat}
    {other : Nat} {p : SpanItem → Bool} (hw : Within [.spanc] W) (h : Keeps W z0 s) :
    Keeps W z0 (State.markItems s sel cause other p) := by
  unfold State.markItems
  with_reducible repeat' first | assumption | decide | (refine Keeps.set_spanc (hw.mem (by decide)) ?_; assumption)

theorem State.changed_keeps {W : List Part} {z0 : State} {s : State} {o : Obj} {self : Option Nat} {cause : Nat}
    {other : Nat} (hw : Within [.spanc] W) (h : Keeps W z0 s) :
    Keeps W z0 (State.changed s o self cause other) := by
  unfold State.changed
  with_reducible repeat' first | assumption | decide | refine State.markItems_keeps (hw.mono ?_) ?_ | (refine Keeps.set_spanc (hw.mem (by decide)) ?_; assumption)

theorem State.seenPut_keeps {W : List Part} {z0 : State} {s : State} {seed : U64} {seq : BitVec 16} {age : Nat}
    (hw : Within [.spanc, .tbl, .regs] W) (h : Keeps W z0 s) :
    Keeps W z0 (State.seenPut s seed seq age) := by
  unfold State.seenPut
  with_reducible repeat' first | assumption | decide | apply Keeps.ite | refine State.holdChange_keeps (hw.mono ?_) ?_ | refine State.seenInsert_keeps (hw.mono ?_) ?_ | refine State.changed_keeps (hw.mono ?_) ?_ | refine State.bump_keeps (hw.mono ?_) ?_ | apply Keeps.foldl | refine Keeps.ofFst (by assumption) ?_ | (intro _; intros) | split

theorem State.bump16_keeps {W : List Part} {z0 : State} {s : State} {addr : Nat} (hw : Within [.regs] W)
    (h : Keeps W z0 s) :
    Keeps W z0 (State.bump16 s addr) := by
  unfold State.bump16
  with_reducible repeat' first | assumption | decide | refine State.bumpBy_keeps (hw.mono ?_) ?_

theorem State.setSlot_keeps {W : List Part} {z0 : State} {s : State} {i : Nat} {k : KeySlot} (hw : Within [.key] W)
    (h : Keeps W z0 s) :
    Keeps W z0 (State.setSlot s i k) := by
  exact h.key (hw.mem rfl) canonical_aset

theorem State.touchSlot_keeps {W : List Part} {z0 : State} {s : State} {i : Nat} (hw : Within [.key] W)
    (h : Keeps W z0 s) :
    Keeps W z0 (State.touchSlot s i) := by
  unfold State.touchSlot
  with_reducible repeat' first | assumption | decide | refine State.setSlot_keeps (hw.mono ?_) ?_ | (refine Keeps.fields (fun p => by cases p <;> first | exact .inl (hw.mem (by decide)) | with_unfolding_all exact .inr rfl) ?_ ?_ ?_ <;> first | rfl | assumption)

theorem State.deriveNode_keeps {W : List Part} {z0 : State} {s : State} {master : Nat} {nidx : Nat} {eui : U64}
    (hw : Within [.key, .regs] W) (h : Keeps W z0 s) :
    Keeps W z0 (State.deriveNode s master nidx eui).1 := by
  unfold State.deriveNode
  with_reducible repeat' first | assumption | decide | refine State.bump_keeps (hw.mono ?_) ?_ | refine State.setSlot_keeps (hw.mono ?_) ?_ | refine State.touchSlot_keeps (hw.mono ?_) ?_ | split

theorem State.emPut_keeps {W : List Part} {z0 : State} {s : State} {p : Nat} {e_ : EmEntry} (hw : Within [.tbl] W)
    (h : Keeps W z0 s) :
    Keeps W z0 (State.emPut s p e_) := by
  unfold State.emPut
  with_reducible repeat' first | assumption | decide | (refine Keeps.set_tbl (hw.mem (by decide)) ?_; assumption)

theorem State.learnKnown_keeps {W : List Part} {z0 : State} {s : State} {eui : U64} {nidx : BitVec 18} {band : Bool}
    {pier : BitVec 6} {t_} (hw : Within [.evr, .hif, .spanc, .tbl, .que, .regs, .outbox, .free] W)
    (e : (State.learnKnown s eui nidx band pier) = some t_) (h : Keeps W z0 s) :
    Keeps W z0 t_ := by
  unfold State.learnKnown at e
  repeat' split at e
  all_goals first | (cases e; done) | cases e | skip
  with_reducible repeat' first | assumption | decide | refine post_keeps (hw.mono ?_) ?_ | refine State.bump_keeps (hw.mono ?_) ?_ | refine State.changed_keeps (hw.mono ?_) ?_ | refine State.emPut_keeps (hw.mono ?_) ?_

theorem State.relocate_keeps {W : List Part} {z0 : State} {s : State} {l : List Nat} (hw : Within [.tbl, .regs] W)
    (h : Keeps W z0 s) :
    Keeps W z0 (State.relocate s l).1 := by
  induction l generalizing s with
  | nil => exact h
  | cons p rest ih =>
    unfold State.relocate
    split
    · exact ih h
    · split
      · exact ih h
      · split
        · exact ih h
        · split
          · exact ih (State.bump_keeps (hw.mono rfl) h)
          · exact State.bump_keeps (hw.mono rfl) (State.emPut_keeps (hw.mono rfl) h)

theorem State.rehashRequest_keeps {W : List Part} {z0 : State} {s : State}
    (hw : Within [.evr, .hif, .que, .regs, .outbox, .free] W) (h : Keeps W z0 s) :
    Keeps W z0 (State.rehashRequest s) := by
  unfold State.rehashRequest
  with_reducible repeat' first | assumption | decide | apply Keeps.ite | refine State.raise_keeps (hw.mono ?_) ?_ | refine post_keeps (hw.mono ?_) ?_ | refine State.setFld_keeps (hw.mono ?_) ?_

theorem State.emInsert_keeps {W : List Part} {z0 : State} {s : State} {e_ : EmEntry}
    (hw : Within [.evr, .hif, .tbl, .que, .regs, .outbox, .free] W) (h : Keeps W z0 s) :
    Keeps W z0 (State.emInsert s e_).1 := by
  unfold State.emInsert
  dsimp only
  with_reducible repeat' first | assumption | decide | apply Keeps.ite | refine State.emPut_keeps (hw.mono ?_) ?_ | refine State.relocate_keeps (hw.mono ?_) ?_ | refine State.bump_keeps (hw.mono ?_) ?_ | refine State.rehashRequest_keeps (hw.mono ?_) ?_ | (refine Keeps.fields (fun p => by cases p <;> first | exact .inl (hw.mem (by decide)) | exact .inr rfl) ?_ ?_ ?_ <;> first | rfl | assumption) | refine Keeps.ofFst (by assumption) ?_ | split

theorem State.learnInsert_keeps {W : List Part} {z0 : State} {s : State} {eui : U64} {nidx : BitVec 18}
    {band : Bool} {pier : BitVec 6} (hw : Within [.evr, .hif, .spanc, .tbl, .que, .regs, .outbox, .free] W)
    (h : Keeps W z0 s) :
    Keeps W z0 (State.learnInsert s eui nidx band pier) := by
  unfold State.learnInsert
  dsimp only
  with_reducible repeat' first | assumption | decide | apply Keeps.ite | refine State.waitInsert_keeps (hw.mono ?_) ?_ | refine State.emInsert_keeps (hw.mono ?_) ?_ | refine State.changed_keeps (hw.mono ?_) ?_ | refine State.bump_keeps (hw.mono ?_) ?_ | (refine Keeps.fields (fun p => by cases p <;> first | exact .inl (hw.mem (by decide)) | exact .inr rfl) ?_ ?_ ?_ <;> first | rfl | assumption) | refine Keeps.ofFst (by assumption) ?_ | split

theorem State.learnKey_keeps {W : List Part} {z0 : State} {s : State} {eui : U64} {nidx : BitVec 18} {band : Bool}
    {pier : BitVec 6} (hw : Within [.evr, .hif, .spanc, .tbl, .que, .regs, .outbox, .free] W) (h : Keeps W z0 s) :
    Keeps W z0 (State.learnKey s eui nidx band pier) := by
  unfold State.learnKey
  with_reducible repeat' first | assumption | decide | apply Keeps.ite | refine State.holdChange_keeps (hw.mono ?_) ?_ | refine State.learnInsert_keeps (hw.mono ?_) ?_ | refine State.learnKnown_keeps (hw.mono ?_) (by assumption) ?_ | split

theorem State.applyWait_keeps {W : List Part} {z0 : State} {s : State} {w : WaitInsert}
    (hw : Within [.evr, .hif, .spanc, .tbl, .que, .regs, .outbox, .free] W) (h : Keeps W z0 s) :
    Keeps W z0 (State.applyWait s w) := by
  unfold State.applyWait
  with_reducible repeat' first | assumption | decide | apply Keeps.ite | refine State.seenPut_keeps (hw.mono ?_) ?_ | refine State.learnKey_keeps (hw.mono ?_) ?_

theorem State.complete_keeps {W : List Part} {z0 : State} {s : State} {d : Desc} {st : Status}
    {b4 : optParam Word 0} {b8 : optParam Word 0} {b12 : optParam Word 0} (hw : Within [.hif] W) (h : Keeps W z0 s) :
    Keeps W z0 (State.complete s d st b4 b8 b12) := by
  unfold State.complete
  with_reducible repeat' first | assumption | decide | refine State.hold_keeps (hw.mono ?_) ?_ | (refine Keeps.set_hif (hw.mem (by decide)) ?_; assumption)

theorem State.writeLpm_keeps {W : List Part} {z0 : State} {s : State} {l : List (Nat × Option LpmEntry × Nat)} {t_}
    (hw : Within [.spanc, .tbl] W) (e : (State.writeLpm s l) = .ok t_) (h : Keeps W z0 s) :
    Keeps W z0 t_ := by
  unfold State.writeLpm at e
  dsimp only at e
  repeat' split at e
  all_goals first | (cases e; done) | cases e | skip
  with_reducible repeat' first | assumption | decide | apply Keeps.ite | refine State.changed_keeps (hw.mono ?_) ?_ | (refine Keeps.set_tbl (hw.mem (by decide)) ?_; assumption) | (refine Keeps.fields (fun p => by cases p <;> first | exact .inl (hw.mem (by decide)) | exact .inr rfl) ?_ ?_ ?_ <;> first | rfl | assumption) | apply Keeps.foldl | refine Keeps.ofFst (by assumption) ?_ | (intro _; intros) | split

theorem State.writeSeen_keeps {W : List Part} {z0 : State} {s : State} {l : List (Nat × Option SeenEntry × Nat)}
    {t_} (hw : Within [.spanc, .tbl] W) (e : (State.writeSeen s l) = .ok t_) (h : Keeps W z0 s) :
    Keeps W z0 t_ := by
  unfold State.writeSeen at e
  dsimp only at e
  repeat' split at e
  all_goals first | (cases e; done) | cases e | skip
  with_reducible repeat' first | assumption | decide | apply Keeps.ite | refine State.changed_keeps (hw.mono ?_) ?_ | (refine Keeps.set_tbl (hw.mem (by decide)) ?_; assumption) | (refine Keeps.fields (fun p => by cases p <;> first | exact .inl (hw.mem (by decide)) | exact .inr rfl) ?_ ?_ ?_ <;> first | rfl | assumption) | apply Keeps.foldl | refine Keeps.ofFst (by assumption) ?_ | (intro _; intros) | split

theorem State.emClear_keeps {W : List Part} {z0 : State} {s : State} {p : Nat} (hw : Within [.tbl] W)
    (h : Keeps W z0 s) :
    Keeps W z0 (State.emClear s p) := by
  unfold State.emClear
  with_reducible repeat' first | assumption | decide | (refine Keeps.set_tbl (hw.mem (by decide)) ?_; assumption)

theorem State.writeEm_keeps {W : List Part} {z0 : State} {s : State} {l : List (Nat × Option EmEntry × Nat)} {t_}
    (hw : Within [.spanc, .tbl] W) (e : (State.writeEm s l) = .ok t_) (h : Keeps W z0 s) :
    Keeps W z0 t_ := by
  unfold State.writeEm at e
  dsimp only at e
  repeat' split at e
  all_goals first | (cases e; done) | cases e | skip
  with_reducible repeat' first | assumption | decide | apply Keeps.ite | refine State.emPut_keeps (hw.mono ?_) ?_ | refine State.changed_keeps (hw.mono ?_) ?_ | refine State.emClear_keeps (hw.mono ?_) ?_ | (refine Keeps.fields (fun p => by cases p <;> first | exact .inl (hw.mem (by decide)) | exact .inr rfl) ?_ ?_ ?_ <;> first | rfl | assumption) | apply Keeps.foldl | refine Keeps.ofFst (by assumption) ?_ | (intro _; intros) | split

theorem State.tblWriteNow_keeps {W : List Part} {z0 : State} {s : State} {d : Desc}
    (hw : Within [.hif, .spanc, .tbl] W) (h : Keeps W z0 s) :
    Keeps W z0 (State.tblWriteNow s d) := by
  unfold State.tblWriteNow
  refine Keeps.ite (State.complete_keeps (hw.mono rfl) h) ?_
  split
  · exact State.complete_keeps (hw.mono rfl) h
  · rename_i s1 heq
    have h1 : Keeps W z0 s1 := by
      split at heq
      · exact State.writeLpm_keeps (hw.mono rfl) heq h
      · exact State.writeSeen_keeps (hw.mono rfl) heq h
      · exact State.writeEm_keeps (hw.mono rfl) heq h
    exact Keeps.ite (State.holdChange_keeps (hw.mono rfl) h) (State.complete_keeps (hw.mono rfl) h1)

theorem State.setSpan_keeps {W : List Part} {z0 : State} {s : State} {n : Nat} {x : Span} (hw : Within [.spanc] W)
    (h : Keeps W z0 s) :
    Keeps W z0 (State.setSpan s n x) := by
  unfold State.setSpan
  with_reducible repeat' first | assumption | decide | (refine Keeps.set_spanc (hw.mem (by decide)) ?_; assumption)

theorem State.invalidate_keeps {W : List Part} {z0 : State} {s : State} {l : List Nat} (hw : Within [.key] W)
    (h : Keeps W z0 s) :
    Keeps W z0 (State.invalidate s l) := by
  unfold State.invalidate
  with_reducible repeat' first | assumption | decide | refine State.setSlot_keeps (hw.mono ?_) ?_ | apply Keeps.foldl | (intro _; intros) | split

theorem State.commitCell_keeps {W : List Part} {z0 : State} {s : State} {band : Nat} {handle : Nat} {idx : Nat}
    {f : Cell → Cell} (hw : Within [.sch] W) (h : Keeps W z0 s) :
    Keeps W z0 (State.commitCell s band handle idx f) := by
  unfold State.commitCell
  with_reducible repeat' first | assumption | decide | apply Keeps.ite | (refine Keeps.set_sch (hw.mem (by decide)) ?_; first | assumption | apply Keeps.ite | split) | split

theorem State.commitGateList_keeps {W : List Part} {z0 : State} {s : State} {band : Nat} {handle : Nat}
    {g : GateList} {start : Nat} (hw : Within [.sch] W) (h : Keeps W z0 s) :
    Keeps W z0 (State.commitGateList s band handle g start) := by
  unfold State.commitGateList
  with_reducible repeat' first | assumption | decide | (refine Keeps.set_sch (hw.mem (by decide)) ?_; assumption)

theorem State.startMigration_keeps {W : List Part} {z0 : State} {s : State} {img : List (Nat × EmEntry)}
    {sd0 : Word} {sd1 : Word} (hw : Within [.tbl] W) (h : Keeps W z0 s) :
    Keeps W z0 (State.startMigration s img sd0 sd1) := by
  unfold State.startMigration
  with_reducible repeat' first | assumption | decide | (refine Keeps.set_tbl (hw.mem (by decide)) ?_; assumption)

theorem State.queueSet_keeps {W : List Part} {z0 : State} {s : State} {q : Nat} {quota : Nat} {ovf : Nat}
    {ring : Nat} {f : Byte} (hw : Within [.que] W) (h : Keeps W z0 s) :
    Keeps W z0 (State.queueSet s q quota ovf ring f) := by
  unfold State.queueSet
  with_reducible repeat' first | assumption | decide | refine State.freeGaps_keeps (hw.mono ?_) ?_ | refine State.setQueue_keeps (hw.mono ?_) ?_

theorem State.postAsk_keeps {W : List Part} {z0 : State} {s : State} {sev : Sev} {src : Nat} {st : Option Status}
    {ev : Nat} {pl : List Word} (hw : Within [.evr, .hif, .que, .regs, .outbox, .free] W) (h : Keeps W z0 s) :
    Keeps W z0 (State.postAsk s sev src st ev pl).1 := by
  unfold State.postAsk
  with_reducible repeat' first | assumption | decide | apply Keeps.ite | refine State.writeRec_keeps (hw.mono ?_) ?_ | refine State.exportWith_keeps (hw.mono ?_) ?_ ?_ | refine postVia_keeps (hw.mono ?_) ?_ ?_ | refine postPlain_keeps (hw.mono ?_) ?_ | apply Keeps.foldl | refine Keeps.ofFst (by assumption) ?_ | (intro _; intros) | split

theorem State.writeMem_keeps {W : List Part} {z0 : State} {s : State} {a : Nat} {bs : List Byte}
    (hw : Within [.mem] W) (h : Keeps W z0 s) :
    Keeps W z0 (State.writeMem s a bs) := by
  exact h.mem (hw.mem rfl) memory_wf_write

theorem State.writeWin_keeps {W : List Part} {z0 : State} {s : State} {o : Nat} {bs : List Byte}
    (hw : Within [.mem] W) (h : Keeps W z0 s) :
    Keeps W z0 (State.writeWin s o bs) := by
  unfold State.writeWin
  with_reducible repeat' first | assumption | decide | refine State.writeMem_keeps (hw.mono ?_) ?_

theorem State.at__keeps {W : List Part} {z0 : State} {s : State} {t : U64} (hw : Within [.time] W)
    (h : Keeps W z0 s) :
    Keeps W z0 (State.at_ s t) := by
  unfold State.at_
  with_reducible repeat' first | assumption | decide | apply Keeps.ite | (refine Keeps.set_time (hw.mem (by decide)) ?_; assumption)

theorem State.rejectNote_keeps {W : List Part} {z0 : State} {s : State} {d : Desc}
    (hw : Within [.evr, .hif, .que, .regs, .outbox, .free] W) (h : Keeps W z0 s) :
    Keeps W z0 (State.rejectNote s d) := by
  unfold State.rejectNote
  with_reducible repeat' first | assumption | decide | refine post_keeps (hw.mono ?_) ?_

theorem State.rejectState_keeps {W : List Part} {z0 : State} {s : State} {d : Desc} {b4 : optParam Word 0}
    (hw : Within [.evr, .hif, .que, .regs, .outbox, .free] W) (h : Keeps W z0 s) :
    Keeps W z0 (State.rejectState s d b4) := by
  unfold State.rejectState
  with_reducible repeat' first | assumption | decide | refine State.rejectNote_keeps (hw.mono ?_) ?_ | refine State.complete_keeps (hw.mono ?_) ?_

theorem State.command_keeps {W : List Part} {z0 : State} {s : State} {d : Desc} {states : List SysState}
    {k : State → State} (hw : Within [.evr, .hif, .que, .regs, .outbox, .free] W) (h : Keeps W z0 s)
    (h_k : ∀ b0, Keeps W z0 b0 → Keeps W z0 (k b0)) :
    Keeps W z0 (State.command s d states k) := by
  unfold State.command
  with_reducible repeat' first | assumption | decide | apply Keeps.ite | apply h_k | refine State.complete_keeps (hw.mono ?_) ?_ | refine State.rejectState_keeps (hw.mono ?_) ?_

theorem State.enter_keeps {W : List Part} {z0 : State} {s : State} {t : SysState}
    (hw : Within [.sys, .hif, .regs, .outbox] W) (h : Keeps W z0 s) :
    Keeps W z0 (State.enter s t) := by
  unfold State.enter
  with_reducible repeat' first | assumption | decide | apply Keeps.ite | refine State.raise_keeps (hw.mono ?_) ?_ | (refine Keeps.set_sys (hw.mem (by decide)) ?_; first | assumption | apply Keeps.ite | refine State.raise_keeps (hw.mono ?_) ?_ | split) | split

theorem State.applyWaits_keeps {W : List Part} {z0 : State} {s : State} {table : Nat} {region : Option Nat}
    (hw : Within [.evr, .hif, .spanc, .tbl, .que, .regs, .outbox, .free] W) (h : Keeps W z0 s) :
    Keeps W z0 (State.applyWaits s table region) := by
  unfold State.applyWaits
  with_reducible repeat' first | assumption | decide | refine State.applyWait_keeps (hw.mono ?_) ?_ | (refine Keeps.set_tbl (hw.mem (by decide)) ?_; assumption) | apply Keeps.foldl | (intro _; intros) | split

theorem State.endMigration_keeps {W : List Part} {z0 : State} {s : State}
    (hw : Within [.evr, .hif, .spanc, .tbl, .que, .regs, .outbox, .free] W) (h : Keeps W z0 s) :
    Keeps W z0 (State.endMigration s) := by
  unfold State.endMigration
  with_reducible repeat' first | assumption | decide | refine State.setFld_keeps (hw.mono ?_) ?_ | refine State.applyWaits_keeps (hw.mono ?_) ?_ | refine post_keeps (hw.mono ?_) ?_ | (refine Keeps.set_tbl (hw.mem (by decide)) ?_; assumption) | split

theorem State.lcEnd_keeps {W : List Part} {z0 : State} {s : State} {d : Desc} {st : Status}
    (hw : Within [.hif, .key] W) (h : Keeps W z0 s) :
    Keeps W z0 (State.lcEnd s d st) := by
  unfold State.lcEnd
  with_reducible repeat' first | assumption | decide | refine State.complete_keeps (hw.mono ?_) ?_ | (refine Keeps.fields (fun p => by cases p <;> first | exact .inl (hw.mem (by decide)) | with_unfolding_all exact .inr rfl) ?_ ?_ ?_ <;> first | rfl | assumption)

theorem State.deriveLevel2_keeps {W : List Part} {z0 : State} {s : State} (hw : Within [.key] W) (h : Keeps W z0 s) :
    Keeps W z0 (State.deriveLevel2 s) := by
  unfold State.deriveLevel2
  with_reducible repeat' first | assumption | decide | refine State.setSlot_keeps (hw.mono ?_) ?_ | (refine Keeps.fields (fun p => by cases p <;> first | exact .inl (hw.mem (by decide)) | with_unfolding_all exact .inr rfl) ?_ ?_ ?_ <;> first | rfl | assumption) | split

theorem State.schGlRead_keeps {W : List Part} {z0 : State} {s : State} {d : Desc}
    (hw : Within [.evr, .hif, .que, .regs, .mem, .outbox, .free] W) (h : Keeps W z0 s) :
    Keeps W z0 (State.schGlRead s d) := by
  unfold State.schGlRead
  with_reducible repeat' first | assumption | decide | apply Keeps.ite | refine State.command_keeps (hw.mono ?_) ?_ ?_ | refine State.complete_keeps (hw.mono ?_) ?_ | refine State.writeWin_keeps (hw.mono ?_) ?_ | apply Keeps.foldl | (intro _; intros) | split

theorem State.notice_keeps {W : List Part} {z0 : State} {s : State} {block : Nat}
    (hw : Within [.evr, .hif, .que, .regs, .outbox, .free] W) (h : Keeps W z0 s) :
    Keeps W z0 (State.notice s block) := by
  unfold State.notice
  with_reducible repeat' first | assumption | decide | refine post_keeps (hw.mono ?_) ?_

theorem State.takeHead_keeps {W : List Part} {z0 : State} {s : State} {q : Nat} {hold : Bool}
    (hw : Within [.que, .regs] W) (h : Keeps W z0 s) :
    Keeps W z0 (State.takeHead s q hold).1 := by
  unfold State.takeHead
  dsimp only
  with_reducible repeat' first | assumption | decide | apply Keeps.ite | refine State.setQueue_keeps (hw.mono ?_) ?_ | refine State.bump_keeps (hw.mono ?_) ?_ | split

theorem State.dropBroken_keeps {W : List Part} {z0 : State} {s : State} {q : Nat} (hw : Within [.que, .regs] W)
    (h : Keeps W z0 s) :
    Keeps W z0 (State.dropBroken s q) := by
  unfold State.dropBroken
  with_reducible repeat' first | assumption | decide | apply Keeps.ite | refine State.setQueue_keeps (hw.mono ?_) ?_ | refine State.bumpBy_keeps (hw.mono ?_) ?_

theorem State.eraseKeys_keeps {W : List Part} {z0 : State} {s : State} (hw : Within [.key] W) (h : Keeps W z0 s) :
    Keeps W z0 (State.eraseKeys s) := by
  unfold State.eraseKeys
  refine h.key (hw.mem rfl) fun hc => ?_
  dsimp only
  generalize s.key.slots = l at hc
  simp only [canonical, Bool.and_eq_true] at hc ⊢
  have hr : ∀ (l : List (Nat × KeySlot)), risingKeys l = true → ∀ n, keysAbove n l → keysAbove n (l.filterMap fun e =>
      if e.2.invalSeen then some (e.1, ({ invalSeen := true, invalGen := e.2.invalGen } : KeySlot)) else none) := by
    intro l _ n hn e he
    obtain ⟨x, hx, hy⟩ := List.mem_filterMap.1 he
    split at hy
    · cases hy
      exact hn x hx
    · cases hy
  constructor
  · have hl := hc.1
    clear hc
    induction l with
    | nil => rfl
    | cons x r ih =>
      obtain ⟨a, k⟩ := x
      have h' := (rising_cons_iff a k r).1 hl
      rw [List.filterMap_cons]
      split
      · exact ih h'.2
      · rename_i heq
        split at heq
        · cases heq
          exact (rising_cons_iff ..).2 ⟨hr r h'.2 a h'.1, ih h'.2⟩
        · cases heq
  · rw [List.all_eq_true]
    intro e he
    obtain ⟨x, _, hy⟩ := List.mem_filterMap.1 he
    split at hy
    · cases hy
      simp
    · cases hy

theorem State.countKeyFail_keeps {W : List Part} {z0 : State} {s : State} {st : Status} (hw : Within [.regs] W)
    (h : Keeps W z0 s) :
    Keeps W z0 (State.countKeyFail s st) := by
  unfold State.countKeyFail
  with_reducible repeat' first | assumption | decide | refine State.bump_keeps (hw.mono ?_) ?_ | split

theorem State.keyCommand_keeps {W : List Part} {z0 : State} {s : State} {d : Desc} {kind : Nat}
    {make : List Byte → Except Status KeySlot} (hw : Within [.evr, .hif, .que, .key, .regs, .outbox, .free] W)
    (h : Keeps W z0 s) :
    Keeps W z0 (State.keyCommand s d kind make) := by
  unfold State.keyCommand
  with_reducible repeat' first | assumption | decide | refine State.command_keeps (hw.mono ?_) ?_ ?_ | refine State.rejectState_keeps (hw.mono ?_) ?_ | refine State.complete_keeps (hw.mono ?_) ?_ | refine State.countKeyFail_keeps (hw.mono ?_) ?_ | refine State.setSlot_keeps (hw.mono ?_) ?_ | apply Keeps.foldl | (intro _; intros) | split

theorem State.keyRestore_keeps {W : List Part} {z0 : State} {s : State} {d : Desc}
    (hw : Within [.evr, .hif, .que, .key, .regs, .outbox, .free] W) (h : Keeps W z0 s) :
    Keeps W z0 (State.keyRestore s d) := by
  unfold State.keyRestore
  with_reducible repeat' first | assumption | decide | refine State.keyCommand_keeps (hw.mono ?_) ?_

theorem State.keyDeriveCmd_keeps {W : List Part} {z0 : State} {s : State} {d : Desc}
    (hw : Within [.evr, .hif, .que, .key, .regs, .outbox, .free] W) (h : Keeps W z0 s) :
    Keeps W z0 (State.keyDeriveCmd s d) := by
  unfold State.keyDeriveCmd
  with_reducible repeat' first | assumption | decide | refine State.keyCommand_keeps (hw.mono ?_) ?_

theorem State.keyImport_keeps {W : List Part} {z0 : State} {s : State} {d : Desc}
    (hw : Within [.evr, .hif, .que, .regs, .mem, .outbox, .free] W) (h : Keeps W z0 s) :
    Keeps W z0 (State.keyImport s d) := by
  unfold State.keyImport
  with_reducible repeat' first | assumption | decide | apply Keeps.ite | refine State.command_keeps (hw.mono ?_) ?_ ?_ | refine State.rejectState_keeps (hw.mono ?_) ?_ | refine State.complete_keeps (hw.mono ?_) ?_ | refine State.writeWin_keeps (hw.mono ?_) ?_ | apply Keeps.foldl | (intro _; intros) | split

theorem State.keyLcSet_keeps {W : List Part} {z0 : State} {s : State} {d : Desc}
    {start : State → LifeCycle → List Byte → State} (hw : Within [.evr, .hif, .que, .key, .regs, .outbox, .free] W)
    (h : Keeps W z0 s) (h_start : ∀ b0 b1 b2, Keeps W z0 b0 → Keeps W z0 (start b0 b1 b2)) :
    Keeps W z0 (State.keyLcSet s d start) := by
  unfold State.keyLcSet
  with_reducible repeat' first | assumption | decide | apply Keeps.ite | apply h_start | refine State.complete_keeps (hw.mono ?_) ?_ | refine State.lcEnd_keeps (hw.mono ?_) ?_ | refine State.rejectState_keeps (hw.mono ?_) ?_ | split

theorem State.resetBlock_keeps {W : List Part} {z0 : State} {s : State} {b : Nat} (hw : Within [.regs] W)
    (h : Keeps W z0 s) :
    Keeps W z0 (State.resetBlock s b) := by
  exact h.regs (hw.mem rfl) regs_wf_filter

theorem State.freeItem_keeps {W : List Part} {z0 : State} {s : State} {q : Nat} {seq : BitVec 16}
    (hw : Within [.que] W) (h : Keeps W z0 s) :
    Keeps W z0 (State.freeItem s q seq) := by
  unfold State.freeItem
  with_reducible repeat' first | assumption | decide | refine State.setQueue_keeps (hw.mono ?_) ?_

theorem State.writeLock_keeps {W : List Part} {z0 : State} {s : State} {t : Nat} {h_ : Nat} {v : Word}
    (hw : Within [.tbl, .regs] W) (h : Keeps W z0 s) :
    Keeps W z0 (State.writeLock s t h_ v) := by
  unfold State.writeLock
  with_reducible repeat' first | assumption | decide | apply Keeps.ite | refine State.setReg_keeps (hw.mono ?_) ?_ | (refine Keeps.set_tbl (hw.mem (by decide)) ?_; assumption) | apply Keeps.foldl | (intro _; intros) | split

theorem State.emMarkDelete_keeps {W : List Part} {z0 : State} {s : State} {p : Nat} {n : Nat} (hw : Within [.tbl] W)
    (h : Keeps W z0 s) :
    Keeps W z0 (State.emMarkDelete s p n) := by
  unfold State.emMarkDelete
  with_reducible repeat' first | assumption | decide | refine State.emPut_keeps (hw.mono ?_) ?_ | split

theorem stageEmAdd_keeps {W : List Part} {z0 : State} {s : State} {n : Nat} {eui : U64} {w : U64} {t_}
    (hw : Within [.evr, .hif, .tbl, .que, .regs, .outbox, .free] W) (e : (stageEmAdd s n eui w) = .ok t_)
    (h : Keeps W z0 s) :
    Keeps W z0 t_ := by
  unfold stageEmAdd at e
  dsimp only at e
  repeat' split at e
  all_goals first | (cases e; done) | cases e | skip
  with_reducible repeat' first | assumption | decide | apply Keeps.ite | refine State.emInsert_keeps (hw.mono ?_) ?_ | refine State.emMarkDelete_keeps (hw.mono ?_) ?_ | (refine Keeps.fields (fun p => by cases p <;> first | exact .inl (hw.mem (by decide)) | exact .inr rfl) ?_ ?_ ?_ <;> first | rfl | assumption) | refine Keeps.ofFst (by assumption) ?_ | split

theorem stageEmAdd_error_keeps {W : List Part} {z0 : State} {s : State} {n : Nat} {eui : U64} {w : U64} {t_ : State}
    {x_ : Status} (hw : Within [.evr, .hif, .tbl, .que, .regs, .outbox, .free] W)
        (e : stageEmAdd s n eui w = .error (t_, x_)) (h : Keeps W z0 s) :
    Keeps W z0 t_ := by
  unfold stageEmAdd at e
  extract_lets nidx old ver e1 at e
  split at e
  · cases e; exact h
  · split at e
    · cases e; exact h
    · split at e
      · cases e
      · rename_i heq
        cases e
        exact Keeps.ofFst heq (State.emInsert_keeps (hw.mono rfl) h)
      · rename_i heq
        cases e
        exact Keeps.ofFst heq (State.emInsert_keeps (hw.mono rfl) h)

theorem stageEmDel_keeps {W : List Part} {z0 : State} {s : State} {n : Nat} {eui : U64} {t_} (hw : Within [.tbl] W)
    (e : (stageEmDel s n eui) = .ok t_) (h : Keeps W z0 s) :
    Keeps W z0 t_ := by
  unfold stageEmDel at e
  repeat' split at e
  all_goals first | (cases e; done) | cases e | skip
  with_reducible repeat' first | assumption | decide | refine State.emMarkDelete_keeps (hw.mono ?_) ?_

theorem stageLpmAdd_keeps {W : List Part} {z0 : State} {s : State} {n : Nat} {pfx : BitVec 128} {len : Nat}
    {result : Word} {t_} (hw : Within [.tbl] W) (e : (stageLpmAdd s n pfx len result) = .ok t_) (h : Keeps W z0 s) :
    Keeps W z0 t_ := by
  unfold stageLpmAdd at e
  dsimp only at e
  repeat' split at e
  all_goals first | (cases e; done) | cases e | skip
  with_reducible repeat' first | assumption | decide | apply Keeps.ite | (refine Keeps.set_tbl (hw.mem (by decide)) ?_; assumption) | split

theorem stageLpmDel_keeps {W : List Part} {z0 : State} {s : State} {n : Nat} {pfx : BitVec 128} {len : Nat} {t_}
    (hw : Within [.tbl] W) (e : (stageLpmDel s n pfx len) = .ok t_) (h : Keeps W z0 s) :
    Keeps W z0 t_ := by
  unfold stageLpmDel at e
  repeat' split at e
  all_goals first | (cases e; done) | cases e | skip
  with_reducible repeat' first | assumption | decide | (refine Keeps.set_tbl (hw.mem (by decide)) ?_; assumption)

theorem stageSeenAdd_keeps {W : List Part} {z0 : State} {s : State} {n : Nat} {seed : U64} {seq : Nat} {age : Nat}
    {t_} (hw : Within [.tbl] W) (e : (stageSeenAdd s n seed seq age) = .ok t_) (h : Keeps W z0 s) :
    Keeps W z0 t_ := by
  unfold stageSeenAdd at e
  dsimp only at e
  repeat' split at e
  all_goals first | (cases e; done) | cases e | skip
  with_reducible repeat' first | assumption | decide | apply Keeps.ite | (refine Keeps.set_tbl (hw.mem (by decide)) ?_; assumption) | split

theorem stageSeenDel_keeps {W : List Part} {z0 : State} {s : State} {n : Nat} {seed : U64} {seq : Nat} {t_}
    (hw : Within [.tbl] W) (e : (stageSeenDel s n seed seq) = .ok t_) (h : Keeps W z0 s) :
    Keeps W z0 t_ := by
  unfold stageSeenDel at e
  repeat' split at e
  all_goals first | (cases e; done) | cases e | skip
  with_reducible repeat' first | assumption | decide | (refine Keeps.set_tbl (hw.mem (by decide)) ?_; assumption)

theorem State.unlock_keeps {W : List Part} {z0 : State} {s : State} {table : Nat} {region : Nat}
    (hw : Within [.tbl, .regs] W) (h : Keeps W z0 s) :
    Keeps W z0 (State.unlock s table region) := by
  unfold State.unlock
  with_reducible repeat' first | assumption | decide | refine State.setFld_keeps (hw.mono ?_) ?_ | (refine Keeps.set_tbl (hw.mem (by decide)) ?_; assumption)

theorem State.drainOne_keeps {W : List Part} {z0 : State} {s : State} {p : Nat} (hw : Within [.tbl, .regs] W)
    (h : Keeps W z0 s) :
    Keeps W z0 (State.drainOne s p) := by
  unfold State.drainOne
  with_reducible repeat' first | assumption | decide | apply Keeps.ite | refine State.emPut_keeps (hw.mono ?_) ?_ | refine State.bump_keeps (hw.mono ?_) ?_ | (refine Keeps.set_tbl (hw.mem (by decide)) ?_; first | assumption | apply Keeps.ite | refine State.emPut_keeps (hw.mono ?_) ?_ | refine State.bump_keeps (hw.mono ?_) ?_ | split) | split

theorem State.drainOverflow_keeps {W : List Part} {z0 : State} {s : State} (hw : Within [.tbl, .regs] W)
    (h : Keeps W z0 s) :
    Keeps W z0 (State.drainOverflow s) := by
  unfold State.drainOverflow
  dsimp only
  with_reducible repeat' first | assumption | decide | apply Keeps.ite | refine State.drainOne_keeps (hw.mono ?_) ?_ | (refine Keeps.set_tbl (hw.mem (by decide)) ?_; assumption) | (refine Keeps.fields (fun p => by cases p <;> first | exact .inl (hw.mem (by decide)) | with_unfolding_all exact .inr rfl) ?_ ?_ ?_ <;> first | rfl | assumption | apply Keeps.ite | refine State.drainOne_keeps (hw.mono ?_) ?_ | refine Keeps.ofFst (by assumption) ?_ | apply Keeps.foldl | apply Keeps.foldlFst | split) | apply Keeps.foldl | refine Keeps.ofFst (by assumption) ?_ | (intro _; intros) | split

theorem State.tblRead_keeps {W : List Part} {z0 : State} {s : State} {d : Desc}
    (hw : Within [.evr, .hif, .que, .regs, .mem, .outbox, .free] W) (h : Keeps W z0 s) :
    Keeps W z0 (State.tblRead s d) := by
  unfold State.tblRead
  with_reducible repeat' first | assumption | decide | refine State.command_keeps (hw.mono ?_) ?_ ?_ | refine State.complete_keeps (hw.mono ?_) ?_ | refine State.writeWin_keeps (hw.mono ?_) ?_ | apply Keeps.foldl | (intro _; intros) | split

theorem State.tblWrite_keeps {W : List Part} {z0 : State} {s : State} {d : Desc}
    (hw : Within [.evr, .hif, .spanc, .tbl, .que, .regs, .outbox, .free] W) (h : Keeps W z0 s) :
    Keeps W z0 (State.tblWrite s d) := by
  unfold State.tblWrite
  refine State.command_keeps (hw.mono rfl) h (fun s h => ?_)
  split
  · exact State.complete_keeps (hw.mono rfl) h
  · exact State.tblWriteNow_keeps (hw.mono rfl) h

end Sys2Proof.Machine
end

