-- ==== Sys2Proof/Laws/KeepsService.lean ====
section
/-! SUPPORT. One lemma per operation on deferred cipher work, measures, span commits, time, node contexts, CHK4, the tollgate and the parapet:
it keeps the waiting commands and the canonical stores, and changes the parts listed at most. -/

namespace Sys2Proof.Machine

theorem State.setTime_keeps {W : List Part} {z0 : State} {s : State} {f : TimeSt → TimeSt} (hw : Within [.time] W)
    (h : Keeps W z0 s) :
    Keeps W z0 (State.setTime s f) := by
  unfold State.setTime
  with_reducible repeat' first | assumption | decide | (refine Keeps.set_time (hw.mem (by decide)) ?_; assumption)

theorem State.holdoverCheck_keeps {W : List Part} {z0 : State} {s : State}
    (hw : Within [.time, .evr, .hif, .que, .regs, .outbox, .free] W) (h : Keeps W z0 s) :
    Keeps W z0 (State.holdoverCheck s) := by
  unfold State.holdoverCheck
  with_reducible repeat' first | assumption | decide | apply Keeps.ite | refine State.raise_keeps (hw.mono ?_) ?_ | refine post_keeps (hw.mono ?_) ?_ | refine State.setTime_keeps (hw.mono ?_) ?_

theorem State.setCtx_keeps {W : List Part} {z0 : State} {s : State} {n : Nat} {c : Ctx} (hw : Within [.ctxs] W)
    (h : Keeps W z0 s) :
    Keeps W z0 (State.setCtx s n c) := by
  exact h.ctxs (hw.mem rfl) canonical_aset

theorem State.updCtx_keeps {W : List Part} {z0 : State} {s : State} {n : Nat} {f : Ctx → Ctx}
    (hw : Within [.ctxs] W) (h : Keeps W z0 s) :
    Keeps W z0 (State.updCtx s n f) := by
  unfold State.updCtx
  with_reducible repeat' first | assumption | decide | apply Keeps.ite | refine State.setCtx_keeps (hw.mono ?_) ?_

theorem State.countJob_keeps {W : List Part} {z0 : State} {s : State} {c : JobClass} {st : Status}
    (hw : Within [.regs] W) (h : Keeps W z0 s) :
    Keeps W z0 (State.countJob s c st) := by
  unfold State.countJob
  with_reducible repeat' first | assumption | decide | refine State.bump_keeps (hw.mono ?_) ?_ | split

theorem State.lineFound_keeps {W : List Part} {z0 : State} {s : State} {n : Nat}
    (hw : Within [.evr, .hif, .que, .regs, .ctxs, .outbox, .free] W) (h : Keeps W z0 s) :
    Keeps W z0 (State.lineFound s n) := by
  unfold State.lineFound
  exact Keeps.ite h (post_keeps (hw.mono rfl) (h.ctxs (hw.mem rfl) canonical_aset))

theorem State.fetchCtx_keeps {W : List Part} {z0 : State} {s : State} {n : Nat}
    (hw : Within [.evr, .hif, .que, .regs, .ctxs, .outbox, .free] W) (h : Keeps W z0 s) :
    Keeps W z0 (State.fetchCtx s n).1 := by
  unfold State.fetchCtx
  with_reducible repeat' first | assumption | decide | refine State.bump_keeps (hw.mono ?_) ?_ | refine State.lineFound_keeps (hw.mono ?_) ?_ | split

theorem State.setPolicer_keeps {W : List Part} {z0 : State} {s : State} {p : Nat} {x : Policer}
    (hw : Within [.tol] W) (h : Keeps W z0 s) :
    Keeps W z0 (State.setPolicer s p x) := by
  unfold State.setPolicer
  exact h.tol (hw.mem rfl) canonical_aset

theorem State.police_keeps {W : List Part} {z0 : State} {s : State} {p : Nat} {len : Nat}
    (hw : Within [.tol, .regs] W) (h : Keeps W z0 s) :
    Keeps W z0 (State.police s p len).1 := by
  unfold State.police
  with_reducible repeat' first | assumption | decide | refine State.bump_keeps (hw.mono ?_) ?_ | refine State.setPolicer_keeps (hw.mono ?_) ?_ | split

theorem State.policeUplink_keeps {W : List Part} {z0 : State} {s : State} {p : Nat} {q : Nat} {len : Nat}
    (hw : Within [.tol, .regs] W) (h : Keeps W z0 s) :
    Keeps W z0 (State.policeUplink s p q len).1 := by
  unfold State.policeUplink
  with_reducible repeat' first | assumption | decide | refine State.police_keeps (hw.mono ?_) ?_ | refine State.bump_keeps (hw.mono ?_) ?_ | refine Keeps.ofFst (by assumption) ?_ | split

theorem State.queueJob_keeps {W : List Part} {z0 : State} {s : State} {j : CipJob} (hw : Within [.cip] W)
    (h : Keeps W z0 s) :
    Keeps W z0 (State.queueJob s j) := by
  unfold State.queueJob
  with_reducible repeat' first | assumption | decide | (refine Keeps.set_cip (hw.mem (by decide)) ?_; assumption)

theorem State.reportSpan_keeps {W : List Part} {z0 : State} {s : State} {n : Nat} {st : Status}
    {item : SpanItem → Status × Nat} {tick : Nat} (hw : Within [.spanc] W) (h : Keeps W z0 s) :
    Keeps W z0 (State.reportSpan s n st item tick) := by
  unfold State.reportSpan
  with_reducible repeat' first | assumption | decide | (refine Keeps.set_spanc (hw.mem (by decide)) ?_; assumption)

theorem State.showSpan_keeps {W : List Part} {z0 : State} {s : State} {n : Nat} (hw : Within [.spanc] W)
    (h : Keeps W z0 s) :
    Keeps W z0 (State.showSpan s n) := by
  unfold State.showSpan
  with_reducible repeat' first | assumption | decide | apply Keeps.ite | refine State.reportSpan_keeps (hw.mono ?_) ?_ | refine State.setSpan_keeps (hw.mono ?_) ?_ | (refine Keeps.set_spanc (hw.mem (by decide)) ?_; first | assumption | apply Keeps.ite | refine State.reportSpan_keeps (hw.mono ?_) ?_ | refine State.setSpan_keeps (hw.mono ?_) ?_ | split) | split

theorem State.setCal_keeps {W : List Part} {z0 : State} {s : State} {c : Nat} {i : Nat} {e_ : CalEntry}
    (hw : Within [.cal] W) (h : Keeps W z0 s) :
    Keeps W z0 (State.setCal s c i e_) := by
  unfold State.setCal
  with_reducible repeat' first | assumption | decide | (refine Keeps.set_cal (hw.mem (by decide)) ?_; assumption)

theorem State.setMr_keeps {W : List Part} {z0 : State} {s : State} {n : Nat} {dig : List Byte}
    (hw : Within [.boot] W) (h : Keeps W z0 s) :
    Keeps W z0 (State.setMr s n dig) := by
  unfold State.setMr
  with_reducible repeat' first | assumption | decide | (refine Keeps.set_boot (hw.mem (by decide)) ?_; assumption)

theorem State.mrExtend_keeps {W : List Part} {z0 : State} {s : State} {n : Nat} {dig : List Byte}
    (hw : Within [.evr, .hif, .que, .boot, .regs, .outbox, .free] W) (h : Keeps W z0 s) :
    Keeps W z0 (State.mrExtend s n dig) := by
  unfold State.mrExtend
  dsimp only
  with_reducible repeat' first | assumption | decide | apply Keeps.ite | refine State.setMr_keeps (hw.mono ?_) ?_ | refine State.postAsk_keeps (hw.mono ?_) ?_ | (refine Keeps.set_evr (hw.mem (by decide)) ?_; assumption) | (refine Keeps.set_boot (hw.mem (by decide)) ?_; assumption) | (refine Keeps.fields (fun p => by cases p <;> first | exact .inl (hw.mem (by decide)) | with_unfolding_all exact .inr rfl) ?_ ?_ ?_ <;> first | rfl | assumption | apply Keeps.ite | refine State.setMr_keeps (hw.mono ?_) ?_ | refine State.postAsk_keeps (hw.mono ?_) ?_ | refine Keeps.ofFst (by assumption) ?_ | apply Keeps.foldl | apply Keeps.foldlFst | split) | split

theorem State.commitSection_keeps {W : List Part} {z0 : State} {s : State} {sec : Section}
    (hw : Within [.truss, .evr, .hif, .sch, .que, .boot, .regs, .outbox, .free] W) (h : Keeps W z0 s) :
    Keeps W z0 (State.commitSection s sec) := by
  unfold State.commitSection
  with_reducible repeat' first | assumption | decide | apply Keeps.ite | refine State.bump16_keeps (hw.mono ?_) ?_ | refine State.mrExtend_keeps (hw.mono ?_) ?_ | refine post_keeps (hw.mono ?_) ?_ | (refine Keeps.set_truss (hw.mem (by decide)) ?_; first | assumption | apply Keeps.ite | refine State.bump16_keeps (hw.mono ?_) ?_ | refine State.mrExtend_keeps (hw.mono ?_) ?_ | refine post_keeps (hw.mono ?_) ?_ | split) | (refine Keeps.set_sch (hw.mem (by decide)) ?_; first | assumption | apply Keeps.ite | refine State.bump16_keeps (hw.mono ?_) ?_ | refine State.mrExtend_keeps (hw.mono ?_) ?_ | refine post_keeps (hw.mono ?_) ?_ | split) | split

theorem State.commitItem_keeps {W : List Part} {z0 : State} {endJob : State → CipJob → Status → State} {s : State}
    {n : Nat} {i : Nat} {it : SpanItem}
    (hw : Within [.truss, .evr, .hif, .spanc, .sch, .tbl, .que, .tol, .key, .cip, .cal, .boot, .regs, .outbox, .free] W) (h_endJob : ∀ b0 b1 b2, Keeps W z0 b0 → Keeps W z0 (endJob b0 b1 b2)) (h : Keeps W z0 s) :
    Keeps W z0 (State.commitItem endJob s n i it) := by
  unfold State.commitItem
  extract_lets t start chg
  have hc : ∀ s, Keeps W z0 s → Keeps W z0 (chg s) := fun s h => State.changed_keeps (hw.mono rfl) h
  clear_value chg
  split
  all_goals first
    | exact hc _ h
    | exact hc _ (State.commitCell_keeps (hw.mono rfl) h)
    | exact hc _ (State.commitGateList_keeps (hw.mono rfl) h)
    | exact hc _ (State.startMigration_keeps (hw.mono rfl) h)
    | exact hc _ (State.queueSet_keeps (hw.mono rfl) h)
    | exact hc _ (State.setCal_keeps (hw.mono rfl) h)
    | exact hc _ (State.commitSection_keeps (hw.mono rfl) h)
    | exact hc _ (Keeps.tol (hw.mem rfl) h canonical_aset)
    | skip
  exact Keeps.foldl (fun s j h => h_endJob _ _ _ (Keeps.set_cip (hw.mem rfl) h)) (State.markItems_keeps (hw.mono rfl)
    (Keeps.foldl (fun _ _ h => State.changed_keeps (hw.mono rfl) h) (State.invalidate_keeps (hw.mono rfl) h)))

theorem State.commitSpans_keeps {W : List Part} {z0 : State} {endJob : State → CipJob → Status → State} {s : State}
    (hw : Within [.truss, .evr, .hif, .spanc, .sch, .tbl, .que, .tol, .key, .cip, .cal, .boot, .regs, .outbox, .free] W) (h_endJob : ∀ b0 b1 b2, Keeps W z0 b0 → Keeps W z0 (endJob b0 b1 b2)) (h : Keeps W z0 s) :
    Keeps W z0 (State.commitSpans endJob s) := by
  unfold State.commitSpans
  with_reducible repeat' first | assumption | decide | apply h_endJob | refine State.showSpan_keeps (hw.mono ?_) ?_ | refine State.commitItem_keeps (hw.mono ?_) ?_ ?_ | apply Keeps.foldl | (intro _; intros) | split

theorem State.completeSubmit_keeps {W : List Part} {z0 : State} {s : State} {d : Desc} {st : Status} {unit : Nat}
    (hw : Within [.hif] W) (h : Keeps W z0 s) :
    Keeps W z0 (State.completeSubmit s d st unit) := by
  unfold State.completeSubmit
  with_reducible repeat' first | assumption | decide | refine State.complete_keeps (hw.mono ?_) ?_

theorem State.endHostJob_keeps {W : List Part} {z0 : State} {s : State} {j : CipJob} {st : Status} {out : List Byte}
    {tag : List Byte} {unit : Nat} (hw : Within [.hif, .regs, .mem] W) (h : Keeps W z0 s) :
    Keeps W z0 (State.endHostJob s j st out tag unit) := by
  unfold State.endHostJob
  with_reducible repeat' first | assumption | decide | refine State.writeWin_keeps (hw.mono ?_) ?_ | refine State.completeSubmit_keeps (hw.mono ?_) ?_ | refine State.countJob_keeps (hw.mono ?_) ?_ | split

theorem State.abortSpan_keeps {W : List Part} {z0 : State} {s : State} {n : Nat} {st : Status}
    {item : SpanItem → Status × Nat} {tick : Nat} (hw : Within [.spanc] W) (h : Keeps W z0 s) :
    Keeps W z0 (State.abortSpan s n st item tick) := by
  unfold State.abortSpan
  with_reducible repeat' first | assumption | decide | refine State.reportSpan_keeps (hw.mono ?_) ?_ | refine State.setSpan_keeps (hw.mono ?_) ?_

theorem State.abortSpans_keeps {W : List Part} {z0 : State} {s : State} {st : Status} (hw : Within [.spanc] W)
    (h : Keeps W z0 s) :
    Keeps W z0 (State.abortSpans s st) := by
  unfold State.abortSpans
  with_reducible repeat' first | assumption | decide | refine State.abortSpan_keeps (hw.mono ?_) ?_ | apply Keeps.foldl | (intro _; intros) | split

theorem State.newRole_keeps {W : List Part} {z0 : State} {s : State} (hw : Within [.time] W) (h : Keeps W z0 s) :
    Keeps W z0 (State.newRole s) := by
  unfold State.newRole
  with_reducible repeat' first | assumption | decide | refine State.setTime_keeps (hw.mono ?_) ?_

theorem State.stepTime_keeps {W : List Part} {z0 : State} {s : State} {new : Nat}
    (hw : Within [.time, .evr, .hif, .que, .regs, .outbox, .free] W) (h : Keeps W z0 s) :
    Keeps W z0 (State.stepTime s new) := by
  unfold State.stepTime
  with_reducible repeat' first | assumption | decide | refine State.setTime_keeps (hw.mono ?_) ?_ | refine post_keeps (hw.mono ?_) ?_

theorem State.maintenanceTime_keeps {W : List Part} {z0 : State} {s : State}
    (hw : Within [.time, .evr, .hif, .que, .regs, .outbox, .free] W) (h : Keeps W z0 s) :
    Keeps W z0 (State.maintenanceTime s) := by
  unfold State.maintenanceTime
  with_reducible repeat' first | assumption | decide | apply Keeps.ite | refine State.setTime_keeps (hw.mono ?_) ?_ | refine State.stepTime_keeps (hw.mono ?_) ?_ | split

theorem State.undecideSpans_keeps {W : List Part} {z0 : State} {s : State} (hw : Within [.spanc] W)
    (h : Keeps W z0 s) :
    Keeps W z0 (State.undecideSpans s) := by
  unfold State.undecideSpans
  with_reducible repeat' first | assumption | decide | (refine Keeps.set_spanc (hw.mem (by decide)) ?_; assumption)

theorem State.holdoverClear_keeps {W : List Part} {z0 : State} {s : State}
    (hw : Within [.time, .evr, .hif, .que, .regs, .outbox, .free] W) (h : Keeps W z0 s) :
    Keeps W z0 (State.holdoverClear s) := by
  unfold State.holdoverClear
  with_reducible repeat' first | assumption | decide | apply Keeps.ite | refine State.raise_keeps (hw.mono ?_) ?_ | refine post_keeps (hw.mono ?_) ?_ | refine State.setTime_keeps (hw.mono ?_) ?_

theorem State.holdoverAtEntry_keeps {W : List Part} {z0 : State} {s : State}
    (hw : Within [.time, .evr, .hif, .que, .regs, .outbox, .free] W) (h : Keeps W z0 s) :
    Keeps W z0 (State.holdoverAtEntry s) := by
  unfold State.holdoverAtEntry
  with_reducible repeat' first | assumption | decide | apply Keeps.ite | refine State.holdoverCheck_keeps (hw.mono ?_) ?_ | refine State.holdoverClear_keeps (hw.mono ?_) ?_

theorem State.spanOutcome_keeps {W : List Part} {z0 : State} {s : State} {n : Nat}
    (hw : Within [.hif, .spanc, .regs, .mem] W) (h : Keeps W z0 s) :
    Keeps W z0 (State.spanOutcome s n) := by
  unfold State.spanOutcome
  with_reducible repeat' first | assumption | decide | refine State.writeWin_keeps (hw.mono ?_) ?_ | refine State.bump16_keeps (hw.mono ?_) ?_ | refine State.setSpan_keeps (hw.mono ?_) ?_ | refine State.complete_keeps (hw.mono ?_) ?_ | refine State.hold_keeps (hw.mono ?_) ?_ | (refine Keeps.set_spanc (hw.mem (by decide)) ?_; assumption) | split

theorem State.emitted_keeps {W : List Part} {z0 : State} {s : State} {b : Nat} {a : Nat} {z : Nat}
    (hw : Within [.par] W) (h : Keeps W z0 s) :
    Keeps W z0 (State.emitted s b a z) := by
  unfold State.emitted
  with_reducible repeat' first | assumption | decide | (refine Keeps.set_par (hw.mem (by decide)) ?_; assumption)

theorem State.shapeNow_keeps {W : List Part} {z0 : State} {s : State} (hw : Within [.tol] W) (h : Keeps W z0 s) :
    Keeps W z0 (State.shapeNow s) := by
  unfold State.shapeNow
  with_reducible repeat' first | assumption | decide | (refine Keeps.fields (fun p => by cases p <;> first | exact .inl (hw.mem (by decide)) | with_unfolding_all exact .inr rfl) ?_ ?_ ?_ <;> first | rfl | assumption)

theorem State.shapeCharge_keeps {W : List Part} {z0 : State} {s0_ : State} {b : Nat} {air : Int}
    (hw : Within [.tol] W) (h : Keeps W z0 s0_) :
    Keeps W z0 (State.shapeCharge s0_ b air) := by
  unfold State.shapeCharge
  refine Keeps.fields (fun p => by cases p <;> first | exact .inl (hw.mem rfl) | with_unfolding_all exact .inr rfl) (State.shapeNow_keeps (hw.mono rfl) h) rfl ?_
  dsimp only
  split <;> rfl

theorem State.parRefund_keeps {W : List Part} {z0 : State} {s : State} {b : Nat} {ch : Nat} {fTx : Nat} {air : Nat}
    (hw : Within [.tol, .par] W) (h : Keeps W z0 s) :
    Keeps W z0 (State.parRefund s b ch fTx air) := by
  unfold State.parRefund
  with_reducible repeat' first | assumption | decide | refine State.shapeCharge_keeps (hw.mono ?_) ?_ | (refine Keeps.set_par (hw.mem (by decide)) ?_; assumption) | split

theorem State.parEnd_keeps {W : List Part} {z0 : State} {s : State} {d : Desc} {st : Status}
    (hw : Within [.hif, .regs] W) (h : Keeps W z0 s) :
    Keeps W z0 (State.parEnd s d st) := by
  unfold State.parEnd
  with_reducible repeat' first | assumption | decide | refine State.complete_keeps (hw.mono ?_) ?_ | refine State.setFld_keeps (hw.mono ?_) ?_

theorem State.parTornWith_keeps {W : List Part} {z0 : State} {s : State} {n : Nat} {img : List Byte}
    (hw : Within [.par] W) (h : Keeps W z0 s) :
    Keeps W z0 (State.parTornWith s n img) := by
  unfold State.parTornWith
  with_reducible repeat' first | assumption | decide | apply Keeps.ite | (refine Keeps.set_par (hw.mem (by decide)) ?_; assumption)

theorem State.parTear_keeps {W : List Part} {z0 : State} {s : State} {cut : Bool} (hw : Within [.par, .free] W)
    (h : Keeps W z0 s) :
    Keeps W z0 (State.parTear s cut) := by
  unfold State.parTear
  with_reducible repeat' first | assumption | decide | refine State.parTornWith_keeps (hw.mono ?_) ?_ | refine State.nextFree_keeps (hw.mono ?_) ?_ | split

theorem State.setChan_keeps {W : List Part} {z0 : State} {s : State} {n : Nat} {c : ChkChan} (hw : Within [.chk] W)
    (h : Keeps W z0 s) :
    Keeps W z0 (State.setChan s n c) := by
  unfold State.setChan
  with_reducible repeat' first | assumption | decide | (refine Keeps.set_chk (hw.mem (by decide)) ?_; assumption)

theorem State.tollAtStructured_keeps {W : List Part} {z0 : State} {s : State} (hw : Within [.tol, .regs] W)
    (h : Keeps W z0 s) :
    Keeps W z0 (State.tollAtStructured s) := by
  unfold State.tollAtStructured
  extract_lets s2
  have h2 : Keeps W z0 s2 := State.setReg_keeps (hw.mono rfl) (State.setReg_keeps (hw.mono rfl) h)
  clear_value s2
  exact Keeps.tol (hw.mem rfl) h2 fun _ => rfl

theorem State.parFill_keeps {W : List Part} {z0 : State} {s : State} (hw : Within [.par] W) (h : Keeps W z0 s) :
    Keeps W z0 (State.parFill s) := by
  unfold State.parFill
  with_reducible repeat' first | assumption | decide | (refine Keeps.set_par (hw.mem (by decide)) ?_; assumption)

theorem State.parSense_keeps {W : List Part} {z0 : State} {s : State} (hw : Within [.par] W) (h : Keeps W z0 s) :
    Keeps W z0 (State.parSense s) := by
  unfold State.parSense
  with_reducible repeat' first | assumption | decide | (refine Keeps.set_par (hw.mem (by decide)) ?_; assumption)

theorem State.parAtBoot_keeps {W : List Part} {z0 : State} {s : State}
    (hw : Within [.evr, .hif, .que, .par, .boot, .regs, .outbox, .free] W) (h : Keeps W z0 s) :
    Keeps W z0 (State.parAtBoot s) := by
  unfold State.parAtBoot
  with_reducible repeat' first | assumption | decide | apply Keeps.ite | refine State.parSense_keeps (hw.mono ?_) ?_ | refine State.mrExtend_keeps (hw.mono ?_) ?_ | (refine Keeps.set_boot (hw.mem (by decide)) ?_; first | assumption | apply Keeps.ite | refine State.parSense_keeps (hw.mono ?_) ?_ | refine State.mrExtend_keeps (hw.mono ?_) ?_ | split) | split

theorem State.chkScan_keeps {W : List Part} {z0 : State} {s : State} {d : Desc}
    (hw : Within [.evr, .hif, .que, .chk, .regs, .outbox, .free] W) (h : Keeps W z0 s) :
    Keeps W z0 (State.chkScan s d) := by
  unfold State.chkScan
  with_reducible repeat' first | assumption | decide | apply Keeps.ite | refine State.command_keeps (hw.mono ?_) ?_ ?_ | refine State.complete_keeps (hw.mono ?_) ?_ | refine State.setChan_keeps (hw.mono ?_) ?_ | apply Keeps.foldl | (intro _; intros) | split

theorem State.scanRun_keeps {W : List Part} {z0 : State} {s : State} {ch : Nat} {c : ChkChan} {d : Desc}
    {rest : List Desc} (hw : Within [.hif, .chk, .regs, .mem] W) (h : Keeps W z0 s) :
    Keeps W z0 (State.scanRun s ch c d rest) := by
  unfold State.scanRun
  with_reducible repeat' first | assumption | decide | apply Keeps.ite | refine State.writeWin_keeps (hw.mono ?_) ?_ | refine State.bump_keeps (hw.mono ?_) ?_ | refine State.setChan_keeps (hw.mono ?_) ?_ | refine State.complete_keeps (hw.mono ?_) ?_

theorem State.chkScanComplete_keeps {W : List Part} {z0 : State} {s : State} {ch : Nat}
    (hw : Within [.hif, .chk, .regs, .mem] W) (h : Keeps W z0 s) :
    Keeps W z0 (State.chkScanComplete s ch) := by
  unfold State.chkScanComplete
  dsimp only
  with_reducible repeat' first | assumption | decide | apply Keeps.ite | refine State.scanRun_keeps (hw.mono ?_) ?_ | refine State.complete_keeps (hw.mono ?_) ?_ | refine State.setChan_keeps (hw.mono ?_) ?_ | split

theorem State.chkCfgWrite_keeps {W : List Part} {z0 : State} {s : State} {n : Nat} {v : Word}
    (hw : Within [.evr, .hif, .que, .chk, .regs, .outbox, .free] W) (h : Keeps W z0 s) :
    Keeps W z0 (State.chkCfgWrite s n v) := by
  unfold State.chkCfgWrite
  with_reducible repeat' first | assumption | decide | apply Keeps.ite | refine State.notice_keeps (hw.mono ?_) ?_ | refine State.setChan_keeps (hw.mono ?_) ?_

theorem State.setUnit_keeps {W : List Part} {z0 : State} {s : State} {u : Nat} {x : CipUnit} (hw : Within [.cip] W)
    (h : Keeps W z0 s) :
    Keeps W z0 (State.setUnit s u x) := by
  unfold State.setUnit
  with_reducible repeat' first | assumption | decide | (refine Keeps.set_cip (hw.mem (by decide)) ?_; assumption)

theorem State.startRun_keeps {W : List Part} {z0 : State} {s : State} {u : Nat} {j : CipJob} {aged : Bool}
    (hw : Within [.cip, .regs] W) (h : Keeps W z0 s) :
    Keeps W z0 (State.startRun s u j aged) := by
  unfold State.startRun
  with_reducible repeat' first | assumption | decide | apply Keeps.ite | refine State.setUnit_keeps (hw.mono ?_) ?_ | refine State.bump_keeps (hw.mono ?_) ?_ | (refine Keeps.set_cip (hw.mem (by decide)) ?_; assumption)

theorem State.cipSubmit_keeps {W : List Part} {z0 : State} {s : State} {d : Desc}
    (hw : Within [.evr, .hif, .que, .cip, .regs, .outbox, .free] W) (h : Keeps W z0 s) :
    Keeps W z0 (State.cipSubmit s d) := by
  unfold State.cipSubmit
  with_reducible repeat' first | assumption | decide | apply Keeps.ite | refine State.completeSubmit_keeps (hw.mono ?_) ?_ | refine State.rejectNote_keeps (hw.mono ?_) ?_ | refine State.countJob_keeps (hw.mono ?_) ?_ | refine State.queueJob_keeps (hw.mono ?_) ?_ | split

theorem State.noCoreLeft_keeps {W : List Part} {z0 : State} {s : State}
    (hw : Within [.evr, .hif, .que, .cip, .regs, .mem, .outbox, .free] W) (h : Keeps W z0 s) :
    Keeps W z0 (State.noCoreLeft s) := by
  unfold State.noCoreLeft
  with_reducible repeat' first | assumption | decide | apply Keeps.ite | refine post_keeps (hw.mono ?_) ?_ | refine State.endHostJob_keeps (hw.mono ?_) ?_ | refine State.countJob_keeps (hw.mono ?_) ?_ | (refine Keeps.set_cip (hw.mem (by decide)) ?_; first | assumption | apply Keeps.ite | refine post_keeps (hw.mono ?_) ?_ | refine State.endHostJob_keeps (hw.mono ?_) ?_ | refine State.countJob_keeps (hw.mono ?_) ?_ | split) | apply Keeps.foldl | (intro _; intros) | split

theorem State.voidJob_keeps {W : List Part} {z0 : State} {s : State} {id : Nat} (hw : Within [.cip] W)
    (h : Keeps W z0 s) :
    Keeps W z0 (State.voidJob s id) := by
  unfold State.voidJob
  with_reducible repeat' first | assumption | decide | (refine Keeps.set_cip (hw.mem (by decide)) ?_; assumption)

theorem State.selfTestEnd_keeps {W : List Part} {z0 : State} {s : State} {u : Nat} {pass : Bool}
    (hw : Within [.evr, .hif, .que, .cip, .regs, .outbox, .free] W) (h : Keeps W z0 s) :
    Keeps W z0 (State.selfTestEnd s u pass) := by
  unfold State.selfTestEnd
  dsimp only
  with_reducible repeat' first | assumption | decide | apply Keeps.ite | refine State.setFld_keeps (hw.mono ?_) ?_ | refine State.setUnit_keeps (hw.mono ?_) ?_ | refine post_keeps (hw.mono ?_) ?_ | refine State.complete_keeps (hw.mono ?_) ?_ | split

theorem State.ctxRead_keeps {W : List Part} {z0 : State} {s : State} {d : Desc}
    (hw : Within [.evr, .hif, .que, .regs, .ctxs, .mem, .outbox, .free] W) (h : Keeps W z0 s) :
    Keeps W z0 (State.ctxRead s d) := by
  unfold State.ctxRead
  with_reducible repeat' first | assumption | decide | apply Keeps.ite | refine State.command_keeps (hw.mono ?_) ?_ ?_ | refine State.complete_keeps (hw.mono ?_) ?_ | refine State.fetchCtx_keeps (hw.mono ?_) ?_ | refine State.writeWin_keeps (hw.mono ?_) ?_ | apply Keeps.foldl | refine Keeps.ofFst (by assumption) ?_ | (intro _; intros) | split

theorem State.repairLine_keeps {W : List Part} {z0 : State} {s : State} {d : Desc}
    (hw : Within [.evr, .hif, .que, .regs, .ctxs, .outbox, .free] W) (h : Keeps W z0 s) :
    Keeps W z0 (State.repairLine s d) := by
  unfold State.repairLine
  with_reducible repeat' first | assumption | decide | refine State.setCtx_keeps (hw.mono ?_) ?_ | refine State.lineFound_keeps (hw.mono ?_) ?_ | refine State.complete_keeps (hw.mono ?_) ?_ | refine post_keeps (hw.mono ?_) ?_

theorem State.ctxUpdate_keeps {W : List Part} {z0 : State} {s : State} {d : Desc}
    (hw : Within [.evr, .hif, .que, .regs, .ctxs, .outbox, .free] W) (h : Keeps W z0 s) :
    Keeps W z0 (State.ctxUpdate s d) := by
  unfold State.ctxUpdate
  with_reducible repeat' first | assumption | decide | apply Keeps.ite | refine State.command_keeps (hw.mono ?_) ?_ ?_ | refine State.complete_keeps (hw.mono ?_) ?_ | refine State.setCtx_keeps (hw.mono ?_) ?_ | refine State.repairLine_keeps (hw.mono ?_) ?_ | refine State.fetchCtx_keeps (hw.mono ?_) ?_ | apply Keeps.foldl | (intro _; intros) | split

theorem State.scrubLine_keeps {W : List Part} {z0 : State} {s : State} {n : Nat}
    (hw : Within [.evr, .hif, .que, .regs, .ctxs, .outbox, .free] W) (h : Keeps W z0 s) :
    Keeps W z0 (State.scrubLine s n) := by
  unfold State.scrubLine
  with_reducible repeat' first | assumption | decide | apply Keeps.ite | refine State.raise_keeps (hw.mono ?_) ?_ | refine State.setReg_keeps (hw.mono ?_) ?_ | refine State.bump_keeps (hw.mono ?_) ?_ | refine State.lineFound_keeps (hw.mono ?_) ?_

theorem State.contextScrub_keeps {W : List Part} {z0 : State} {s : State}
    (hw : Within [.evr, .hif, .que, .chk, .regs, .ctxs, .outbox, .free] W) (h : Keeps W z0 s) :
    Keeps W z0 (State.contextScrub s) := by
  unfold State.contextScrub
  dsimp only
  with_reducible repeat' first | assumption | decide | apply Keeps.ite | refine State.scrubLine_keeps (hw.mono ?_) ?_ | refine State.bumpBy_keeps (hw.mono ?_) ?_ | (refine Keeps.set_chk (hw.mem (by decide)) ?_; assumption) | (refine Keeps.fields (fun p => by cases p <;> first | exact .inl (hw.mem (by decide)) | with_unfolding_all exact .inr rfl) ?_ ?_ ?_ <;> first | rfl | assumption | apply Keeps.ite | refine State.scrubLine_keeps (hw.mono ?_) ?_ | refine State.bumpBy_keeps (hw.mono ?_) ?_ | refine Keeps.ofFst (by assumption) ?_ | apply Keeps.foldl | apply Keeps.foldlFst | split) | apply Keeps.foldl | refine Keeps.ofFst (by assumption) ?_ | (intro _; intros) | split

theorem State.measure_keeps {W : List Part} {z0 : State} {s : State} {err : Int} {adj : Int}
    (hw : Within [.time, .evr, .hif, .que, .regs, .outbox, .free] W) (h : Keeps W z0 s) :
    Keeps W z0 (State.measure s err adj) := by
  unfold State.measure
  with_reducible repeat' first | assumption | decide | apply Keeps.ite | refine State.setTime_keeps (hw.mono ?_) ?_ | refine State.stepTime_keeps (hw.mono ?_) ?_ | refine post_keeps (hw.mono ?_) ?_

theorem State.ptpSync_keeps {W : List Part} {z0 : State} {s : State} {err : Int} {adj : Int}
    (hw : Within [.time, .evr, .hif, .que, .regs, .outbox, .free] W) (h : Keeps W z0 s) :
    Keeps W z0 (State.ptpSync s err adj) := by
  unfold State.ptpSync
  with_reducible repeat' first | assumption | decide | apply Keeps.ite | refine State.setTime_keeps (hw.mono ?_) ?_ | refine State.stepTime_keeps (hw.mono ?_) ?_ | refine State.measure_keeps (hw.mono ?_) ?_

theorem State.noteWait_keeps {W : List Part} {z0 : State} {s : State} {p : Nat} {since : Option Nat}
    (hw : Within [.tol] W) (h : Keeps W z0 s) :
    Keeps W z0 (State.noteWait s p since) := by
  unfold State.noteWait
  with_reducible repeat' first | assumption | decide | refine State.setPolicer_keeps (hw.mono ?_) ?_ | split

theorem State.bootMrExtend_keeps {W : List Part} {z0 : State} {s : State} {d : Desc}
    (hw : Within [.evr, .hif, .que, .boot, .regs, .outbox, .free] W) (h : Keeps W z0 s) :
    Keeps W z0 (State.bootMrExtend s d) := by
  unfold State.bootMrExtend
  with_reducible repeat' first | assumption | decide | apply Keeps.ite | refine State.command_keeps (hw.mono ?_) ?_ ?_ | refine State.complete_keeps (hw.mono ?_) ?_ | refine State.postAsk_keeps (hw.mono ?_) ?_ | refine State.setMr_keeps (hw.mono ?_) ?_ | apply Keeps.foldl | refine Keeps.ofFst (by assumption) ?_ | (intro _; intros) | split

theorem State.parProgram_keeps {W : List Part} {z0 : State} {s : State} {d : Desc}
    (hw : Within [.evr, .hif, .que, .par, .regs, .outbox, .free] W) (h : Keeps W z0 s) :
    Keeps W z0 (State.parProgram s d) := by
  unfold State.parProgram
  with_reducible repeat' first | assumption | decide | apply Keeps.ite | refine State.command_keeps (hw.mono ?_) ?_ ?_ | refine State.rejectState_keeps (hw.mono ?_) ?_ | refine State.parEnd_keeps (hw.mono ?_) ?_ | (refine Keeps.set_par (hw.mem (by decide)) ?_; assumption) | apply Keeps.foldl | (intro _; intros) | split

theorem State.parBurnComplete_keeps {W : List Part} {z0 : State} {s : State} {read : List Byte}
    (hw : Within [.evr, .hif, .que, .par, .boot, .regs, .outbox, .free] W) (h : Keeps W z0 s) :
    Keeps W z0 (State.parBurnComplete s read) := by
  unfold State.parBurnComplete
  with_reducible repeat' first | assumption | decide | apply Keeps.ite | refine State.parEnd_keeps (hw.mono ?_) ?_ | refine State.parTornWith_keeps (hw.mono ?_) ?_ | refine State.mrExtend_keeps (hw.mono ?_) ?_ | refine post_keeps (hw.mono ?_) ?_ | (refine Keeps.set_par (hw.mem (by decide)) ?_; assumption) | split

theorem State.parTick_keeps {W : List Part} {z0 : State} {s : State} (hw : Within [.par] W) (h : Keeps W z0 s) :
    Keeps W z0 (State.parTick s) := by
  unfold State.parTick
  with_reducible repeat' first | assumption | decide | apply Keeps.ite | refine State.parSense_keeps (hw.mono ?_) ?_ | (refine Keeps.set_par (hw.mem (by decide)) ?_; first | assumption | apply Keeps.ite | refine State.parSense_keeps (hw.mono ?_) ?_ | split) | split

theorem State.parRead_keeps {W : List Part} {z0 : State} {s : State} {d : Desc}
    (hw : Within [.evr, .hif, .que, .regs, .mem, .outbox, .free] W) (h : Keeps W z0 s) :
    Keeps W z0 (State.parRead s d) := by
  unfold State.parRead
  with_reducible repeat' first | assumption | decide | apply Keeps.ite | refine State.command_keeps (hw.mono ?_) ?_ ?_ | refine State.complete_keeps (hw.mono ?_) ?_ | refine State.writeWin_keeps (hw.mono ?_) ?_ | apply Keeps.foldl | (intro _; intros) | split

theorem State.dutyAdvance_keeps {W : List Part} {z0 : State} {s0_ : State} {t : U64} (hw : Within [.time, .par] W)
    (h : Keeps W z0 s0_) :
    Keeps W z0 (State.dutyAdvance s0_ t) := by
  unfold State.dutyAdvance
  with_reducible repeat' first | assumption | decide | apply Keeps.ite | refine State.at__keeps (hw.mono ?_) ?_ | (refine Keeps.set_par (hw.mem (by decide)) ?_; first | assumption | apply Keeps.ite | refine State.at__keeps (hw.mono ?_) ?_ | split) | split

theorem State.parCheck_keeps {W : List Part} {z0 : State} {s : State} {a : ParAsk}
    (hw : Within [.tol, .par, .regs] W) (h : Keeps W z0 s) :
    Keeps W z0 (State.parCheck s a).1 := by
  unfold State.parCheck
  dsimp only
  with_reducible repeat' first | assumption | decide | apply Keeps.ite | apply Keeps.iteFst | refine State.bump_keeps (hw.mono ?_) ?_ | refine State.shapeCharge_keeps (hw.mono ?_) ?_ | (refine Keeps.set_par (hw.mem (by decide)) ?_; first | assumption | apply Keeps.ite | refine State.bump_keeps (hw.mono ?_) ?_ | refine State.shapeCharge_keeps (hw.mono ?_) ?_ | split) | (refine Keeps.fields (fun p => by cases p <;> first | exact .inl (hw.mem (by decide)) | with_unfolding_all exact .inr rfl) ?_ ?_ ?_ <;> first | rfl | assumption | apply Keeps.ite | refine State.bump_keeps (hw.mono ?_) ?_ | refine State.shapeCharge_keeps (hw.mono ?_) ?_ | refine Keeps.ofFst (by assumption) ?_ | apply Keeps.foldl | apply Keeps.foldlFst | split) | apply Keeps.foldl | apply Keeps.foldlFst | refine Keeps.ofFst (by assumption) ?_ | (intro _; intros) | split

theorem stageOwn_keeps {W : List Part} {z0 : State} {s : State} {n : Nat} {it : SpanItem} {t_}
    (hw : Within [.evr, .hif, .tbl, .que, .key, .regs, .outbox, .free] W) (e : (stageOwn s n it) = .ok t_)
    (h : Keeps W z0 s) :
    Keeps W z0 t_.1 := by
  have hh : ∀ {α : Type} (r : Except Status α) (f : α → State × Staged) (t : State × Staged),
      (match r with
        | .ok x => .ok (f x)
        | .error e => .error (s, e) : Except (State × Status)
        (State × Staged)) = .ok t → ∃ x, r = .ok x ∧ f x = t := by
    intro α r f t he
    cases r with
    | ok x => cases he; exact ⟨x, rfl, rfl⟩
    | error _ => cases he
  unfold stageOwn at e
  dsimp only at e
  split at e
  case h_4 =>
    cases hr : stageEmAdd s n (BitVec.ofNat 64 (leAt it.payload 0 8)) (BitVec.ofNat 64 (leAt it.payload 8 8)) with
    | ok _ =>
      rw [hr] at e
      cases e
      exact stageEmAdd_keeps (hw.mono rfl) hr h
    | error _ => rw [hr] at e; cases e
  all_goals first
    | (obtain ⟨x, hx, rfl⟩ := hh _ _ _ e
       first
         | exact h
         | exact State.setSlot_keeps (hw.mono rfl) h
         | exact stageEmDel_keeps (hw.mono rfl) hx h
         | exact stageLpmAdd_keeps (hw.mono rfl) hx h
         | exact stageLpmDel_keeps (hw.mono rfl) hx h
         | exact stageSeenAdd_keeps (hw.mono rfl) hx h
         | exact stageSeenDel_keeps (hw.mono rfl) hx h)
    | (split at e <;> cases e <;> exact h)

theorem stageOwn_error_keeps {W : List Part} {z0 : State} {s : State} {n : Nat} {it : SpanItem} {t_ : State}
    {x_ : Status}
    (hw : Within [.evr, .hif, .tbl, .que, .key, .regs, .outbox, .free] W) (e : stageOwn s n it = .error (t_, x_))
        (h : Keeps W z0 s) : Keeps W z0 t_ := by
  have hh : ∀ {α : Type} (r : Except Status α) (f : α → State × Staged),
      (match r with
        | .ok x => .ok (f x)
        | .error e => .error (s, e) : Except (State × Status)
        (State × Staged)) = .error (t_, x_) → Keeps W z0 t_ := by
    intro α r f he
    cases r with
    | ok _ => cases he
    | error _ => cases he; exact h
  unfold stageOwn at e
  dsimp only at e
  split at e
  case h_4 =>
    cases hr : stageEmAdd s n (BitVec.ofNat 64 (leAt it.payload 0 8)) (BitVec.ofNat 64 (leAt it.payload 8 8)) with
    | ok _ => rw [hr] at e; cases e
    | error y =>
      rw [hr] at e
      cases e
      exact stageEmAdd_error_keeps (hw.mono rfl) hr h
  all_goals first
    | exact hh _ _ e
    | (split at e <;> cases e <;> exact h)

theorem stageItem_keeps {W : List Part} {z0 : State} {s : State} {n : Nat} {bs : List Byte} {t_}
    (hw : Within [.evr, .hif, .spanc, .tbl, .que, .key, .regs, .outbox, .free] W) (e : (stageItem s n bs) = .ok t_)
    (h : Keeps W z0 s) :
    Keeps W z0 t_ := by
  unfold stageItem at e
  dsimp only at e
  repeat' split at e
  all_goals first | (cases e; done) | cases e | skip
  with_reducible repeat' first | assumption | decide | apply Keeps.ite | refine State.setSpan_keeps (hw.mono ?_) ?_ | refine stageOwn_keeps (hw.mono ?_) (by assumption) ?_ | split

theorem stageItem_error_keeps {W : List Part} {z0 : State} {s : State} {n : Nat} {bs : List Byte} {t_ : State}
    {x_ : Status}
    (hw : Within [.evr, .hif, .spanc, .tbl, .que, .key, .regs, .outbox, .free] W)
        (e : stageItem s n bs = .error (t_, x_)) (h : Keeps W z0 s) : Keeps W z0 t_ := by
  unfold stageItem at e
  dsimp only at e
  repeat' split at e
  all_goals first
    | (cases e; done)
    | (cases e; exact h)
    | (rename_i heq _; cases e; exact stageOwn_error_keeps (hw.mono rfl) heq h)

theorem stageAll_keeps {W : List Part} {z0 : State} {s : State} {n : Nat} {l : List (List Byte)} {done : Nat}
    (hw : Within [.evr, .hif, .spanc, .tbl, .que, .key, .regs, .outbox, .free] W) (h : Keeps W z0 s) :
    Keeps W z0 (stageAll s n l done).1 := by
  induction l generalizing s done with
  | nil => exact h
  | cons bs r ih =>
    unfold stageAll
    split
    · rename_i s1 he
      exact ih (stageItem_keeps (hw.mono rfl) he h)
    · rename_i s1 e1 he
      have h1 := stageItem_error_keeps (hw.mono rfl) he h
      exact Keeps.ite (State.countKeyFail_keeps (hw.mono rfl) h1) h1

theorem State.spanCommand_keeps {W : List Part} {z0 : State} {s : State} {d : Desc} {states : List SysState}
    {used : List Nat} {k : State → Nat → State} {b4 : optParam Word 0}
    (hw : Within [.evr, .hif, .que, .regs, .outbox, .free] W) (h : Keeps W z0 s)
    (h_k : ∀ b0 b1, Keeps W z0 b0 → Keeps W z0 (k b0 b1)) :
    Keeps W z0 (State.spanCommand s d states used k b4) := by
  unfold State.spanCommand
  with_reducible repeat' first | assumption | decide | apply Keeps.ite | apply h_k | refine State.rejectState_keeps (hw.mono ?_) ?_ | refine State.complete_keeps (hw.mono ?_) ?_

theorem State.spanOpen_keeps {W : List Part} {z0 : State} {s : State} {d : Desc}
    (hw : Within [.evr, .hif, .spanc, .que, .regs, .outbox, .free] W) (h : Keeps W z0 s) :
    Keeps W z0 (State.spanOpen s d) := by
  unfold State.spanOpen
  with_reducible repeat' first | assumption | decide | apply Keeps.ite | refine State.rejectState_keeps (hw.mono ?_) ?_ | refine State.complete_keeps (hw.mono ?_) ?_ | refine State.setSpan_keeps (hw.mono ?_) ?_ | split

theorem State.spanStage_keeps {W : List Part} {z0 : State} {s : State} {d : Desc}
    (hw : Within [.evr, .hif, .spanc, .tbl, .que, .key, .regs, .outbox, .free] W) (h : Keeps W z0 s) :
    Keeps W z0 (State.spanStage s d) := by
  unfold State.spanStage
  with_reducible repeat' first | assumption | decide | apply Keeps.ite | refine State.spanCommand_keeps (hw.mono ?_) ?_ ?_ | refine State.rejectState_keeps (hw.mono ?_) ?_ | refine State.complete_keeps (hw.mono ?_) ?_ | refine stageAll_keeps (hw.mono ?_) ?_ | apply Keeps.foldl | refine Keeps.ofFst (by assumption) ?_ | (intro _; intros) | split

theorem State.spanArm_keeps {W : List Part} {z0 : State} {s : State} {d : Desc}
    (hw : Within [.evr, .hif, .spanc, .que, .regs, .outbox, .free] W) (h : Keeps W z0 s) :
    Keeps W z0 (State.spanArm s d) := by
  unfold State.spanArm
  with_reducible repeat' first | assumption | decide | apply Keeps.ite | refine State.spanCommand_keeps (hw.mono ?_) ?_ ?_ | refine State.complete_keeps (hw.mono ?_) ?_ | refine State.setSpan_keeps (hw.mono ?_) ?_ | refine State.abortSpan_keeps (hw.mono ?_) ?_ | refine State.rejectState_keeps (hw.mono ?_) ?_ | apply Keeps.foldl | (intro _; intros) | split

theorem State.spanAbort_keeps {W : List Part} {z0 : State} {s : State} {d : Desc}
    (hw : Within [.evr, .hif, .spanc, .que, .regs, .outbox, .free] W) (h : Keeps W z0 s) :
    Keeps W z0 (State.spanAbort s d) := by
  unfold State.spanAbort
  with_reducible repeat' first | assumption | decide | refine State.spanCommand_keeps (hw.mono ?_) ?_ ?_ | refine State.complete_keeps (hw.mono ?_) ?_ | refine State.abortSpan_keeps (hw.mono ?_) ?_ | refine State.rejectState_keeps (hw.mono ?_) ?_ | apply Keeps.foldl | (intro _; intros) | split

theorem State.markRivals_keeps {W : List Part} {z0 : State} {s : State} {n : Nat} (hw : Within [.spanc] W)
    (h : Keeps W z0 s) :
    Keeps W z0 (State.markRivals s n) := by
  unfold State.markRivals
  with_reducible repeat' first | assumption | decide | refine State.markItems_keeps (hw.mono ?_) ?_

theorem State.decideSpan_keeps {W : List Part} {z0 : State} {s : State} {n : Nat} (hw : Within [.spanc] W)
    (h : Keeps W z0 s) :
    Keeps W z0 (State.decideSpan s n) := by
  unfold State.decideSpan
  with_reducible repeat' first | assumption | decide | apply Keeps.ite | refine State.abortSpan_keeps (hw.mono ?_) ?_ | refine State.markRivals_keeps (hw.mono ?_) ?_ | refine State.setSpan_keeps (hw.mono ?_) ?_ | split

theorem State.lateSpan_keeps {W : List Part} {z0 : State} {s : State} {n : Nat} (hw : Within [.spanc, .regs] W)
    (h : Keeps W z0 s) :
    Keeps W z0 (State.lateSpan s n) := by
  unfold State.lateSpan
  with_reducible repeat' first | assumption | decide | refine State.bump16_keeps (hw.mono ?_) ?_ | refine State.abortSpan_keeps (hw.mono ?_) ?_

theorem State.passedSpan_keeps {W : List Part} {z0 : State} {s : State} {n : Nat} (hw : Within [.spanc] W)
    (h : Keeps W z0 s) :
    Keeps W z0 (State.passedSpan s n) := by
  unfold State.passedSpan
  with_reducible repeat' first | assumption | decide | apply Keeps.ite | refine State.setSpan_keeps (hw.mono ?_) ?_ | refine State.abortSpan_keeps (hw.mono ?_) ?_

theorem State.decideSpans_keeps {W : List Part} {z0 : State} {s : State} (hw : Within [.spanc, .regs] W)
    (h : Keeps W z0 s) :
    Keeps W z0 (State.decideSpans s) := by
  unfold State.decideSpans
  with_reducible repeat' first | assumption | decide | refine State.passedSpan_keeps (hw.mono ?_) ?_ | refine State.decideSpan_keeps (hw.mono ?_) ?_ | refine State.lateSpan_keeps (hw.mono ?_) ?_ | apply Keeps.foldl | (intro _; intros) | split

theorem State.spanCleanup_keeps {W : List Part} {z0 : State} {s : State} {n : Nat}
    (hw : Within [.spanc, .tbl, .key] W) (h : Keeps W z0 s) :
    Keeps W z0 (State.spanCleanup s n) := by
  unfold State.spanCleanup
  extract_lets x commit em lpm src2 t keep slots src
  have hs : canonical {} s.key.slots = true → canonical {} slots = true := by
    intro hc
    simp only [canonical, Bool.and_eq_true, slots] at hc ⊢
    refine ⟨rising_filter (rising_map hc.1), ?_⟩
    rw [List.all_eq_true]
    intro e he
    simpa using (List.mem_filter.1 he).2
  clear_value t slots
  exact Keeps.ite h (State.setSpan_keeps (hw.mono rfl) (Keeps.key (hw.mem rfl) (s := { s with tbl := t })
    (x := { src with slots := slots }) (Keeps.set_tbl (hw.mem rfl) h) hs))

theorem State.guardTick_keeps {W : List Part} {z0 : State} {s : State} (hw : Within [.time] W) (h : Keeps W z0 s) :
    Keeps W z0 (State.guardTick s) := by
  unfold State.guardTick
  with_reducible repeat' first | assumption | decide | apply Keeps.ite | refine State.setTime_keeps (hw.mono ?_) ?_

theorem State.lockTick_keeps {W : List Part} {z0 : State} {s : State} (hw : Within [.time] W) (h : Keeps W z0 s) :
    Keeps W z0 (State.lockTick s) := by
  unfold State.lockTick
  with_reducible repeat' first | assumption | decide | refine State.setTime_keeps (hw.mono ?_) ?_

theorem State.ppsEdge_keeps {W : List Part} {z0 : State} {s0_ : State} {t : U64} {adj : Int}
    (hw : Within [.time, .evr, .hif, .que, .regs, .outbox, .free] W) (h : Keeps W z0 s0_) :
    Keeps W z0 (State.ppsEdge s0_ t adj) := by
  unfold State.ppsEdge
  with_reducible repeat' first | assumption | decide | apply Keeps.ite | refine State.at__keeps (hw.mono ?_) ?_ | refine State.setTime_keeps (hw.mono ?_) ?_ | refine State.measure_keeps (hw.mono ?_) ?_

theorem State.ppsLoss_keeps {W : List Part} {z0 : State} {s0_ : State} {t : U64}
    (hw : Within [.time, .evr, .hif, .que, .regs, .outbox, .free] W) (h : Keeps W z0 s0_) :
    Keeps W z0 (State.ppsLoss s0_ t) := by
  unfold State.ppsLoss
  with_reducible repeat' first | assumption | decide | apply Keeps.ite | refine State.at__keeps (hw.mono ?_) ?_ | refine State.setTime_keeps (hw.mono ?_) ?_ | refine State.holdoverCheck_keeps (hw.mono ?_) ?_ | refine post_keeps (hw.mono ?_) ?_

theorem State.ptpLoss_keeps {W : List Part} {z0 : State} {s0_ : State} {t : U64}
    (hw : Within [.time, .evr, .hif, .que, .regs, .outbox, .free] W) (h : Keeps W z0 s0_) :
    Keeps W z0 (State.ptpLoss s0_ t) := by
  unfold State.ptpLoss
  with_reducible repeat' first | assumption | decide | apply Keeps.ite | refine State.at__keeps (hw.mono ?_) ?_ | refine State.setTime_keeps (hw.mono ?_) ?_ | refine State.holdoverCheck_keeps (hw.mono ?_) ?_

theorem State.searchTimeout_keeps {W : List Part} {z0 : State} {s0_ : State} {t : U64}
    (hw : Within [.time, .evr, .hif, .que, .regs, .outbox, .free] W) (h : Keeps W z0 s0_) :
    Keeps W z0 (State.searchTimeout s0_ t) := by
  unfold State.searchTimeout
  dsimp only
  with_reducible repeat' first | assumption | decide | apply Keeps.ite | refine State.at__keeps (hw.mono ?_) ?_ | refine post_keeps (hw.mono ?_) ?_ | refine State.setTime_keeps (hw.mono ?_) ?_ | split

theorem State.lockAchieved_keeps {W : List Part} {z0 : State} {s : State}
    (hw : Within [.time, .evr, .hif, .que, .regs, .outbox, .free] W) (h : Keeps W z0 s) :
    Keeps W z0 (State.lockAchieved s) := by
  unfold State.lockAchieved
  with_reducible repeat' first | assumption | decide | apply Keeps.ite | refine State.holdoverClear_keeps (hw.mono ?_) ?_ | refine State.setTime_keeps (hw.mono ?_) ?_

theorem State.guardCapped_keeps {W : List Part} {z0 : State} {s0_ : State} {t : U64}
    (hw : Within [.time, .evr, .hif, .que, .regs, .outbox, .free] W) (h : Keeps W z0 s0_) :
    Keeps W z0 (State.guardCapped s0_ t) := by
  unfold State.guardCapped
  with_reducible repeat' first | assumption | decide | apply Keeps.ite | refine State.at__keeps (hw.mono ?_) ?_ | refine post_keeps (hw.mono ?_) ?_ | refine State.setTime_keeps (hw.mono ?_) ?_

theorem State.timeSet_keeps {W : List Part} {z0 : State} {s : State} {d : Desc}
    (hw : Within [.time, .evr, .hif, .que, .regs, .outbox, .free] W) (h : Keeps W z0 s) :
    Keeps W z0 (State.timeSet s d) := by
  unfold State.timeSet
  with_reducible repeat' first | assumption | decide | refine State.command_keeps (hw.mono ?_) ?_ ?_ | refine State.complete_keeps (hw.mono ?_) ?_ | refine State.stepTime_keeps (hw.mono ?_) ?_ | apply Keeps.foldl | (intro _; intros) | split

theorem State.ppsOut_keeps {W : List Part} {z0 : State} {s0_ : State} {t : U64} (hw : Within [.time, .outbox] W)
    (h : Keeps W z0 s0_) :
    Keeps W z0 (State.ppsOut s0_ t) := by
  unfold State.ppsOut
  with_reducible repeat' first | assumption | decide | apply Keeps.ite | refine State.at__keeps (hw.mono ?_) ?_ | refine State.emit_keeps (hw.mono ?_) ?_

theorem State.dtimeSnapshot_keeps {W : List Part} {z0 : State} {s0_ : State} {t : U64}
    (hw : Within [.time, .regs] W) (h : Keeps W z0 s0_) :
    Keeps W z0 (State.dtimeSnapshot s0_ t) := by
  unfold State.dtimeSnapshot
  with_reducible repeat' first | assumption | decide | refine State.at__keeps (hw.mono ?_) ?_ | refine State.setReg_keeps (hw.mono ?_) ?_

end Sys2Proof.Machine
end

