-- ==== Sys2Proof/Laws/KeepsAir.lean ====
section
/-! SUPPORT. One lemma per operation on the transmit chains, the piers, calibration and the MAC:
it keeps the waiting commands and the canonical stores, and changes the parts listed at most. -/

namespace Sys2Proof.Machine

theorem State.searchClock_keeps {W : List Part} {z0 : State} {s : State} (hw : Within [.time] W) (h : Keeps W z0 s) :
    Keeps W z0 (State.searchClock s) := by
  unfold State.searchClock
  with_reducible repeat' first | assumption | decide | refine State.setTime_keeps (hw.mono ?_) ?_

theorem State.setRf_keeps {W : List Part} {z0 : State} {s : State} {f : RfSt → RfSt} (hw : Within [.rf] W)
    (h : Keeps W z0 s) :
    Keeps W z0 (State.setRf s f) := by
  unfold State.setRf
  with_reducible repeat' first | assumption | decide | (refine Keeps.set_rf (hw.mem (by decide)) ?_; assumption)

theorem State.searchRefresh_keeps {W : List Part} {z0 : State} {s0_ : State} (hw : Within [.time, .rf] W)
    (h : Keeps W z0 s0_) :
    Keeps W z0 (State.searchRefresh s0_) := by
  unfold State.searchRefresh
  with_reducible repeat' first | assumption | decide | refine State.searchClock_keeps (hw.mono ?_) ?_ | refine State.setRf_keeps (hw.mono ?_) ?_

theorem State.parentMissed_keeps {W : List Part} {z0 : State} {s : State} {b : Nat}
    (hw : Within [.time, .evr, .hif, .que, .regs, .outbox, .free] W) (h : Keeps W z0 s) :
    Keeps W z0 (State.parentMissed s b) := by
  unfold State.parentMissed
  with_reducible repeat' first | assumption | decide | apply Keeps.ite | refine State.setTime_keeps (hw.mono ?_) ?_ | refine State.bump_keeps (hw.mono ?_) ?_ | refine State.holdoverCheck_keeps (hw.mono ?_) ?_

theorem State.standbyMissed_keeps {W : List Part} {z0 : State} {s : State} {b : Nat}
    (hw : Within [.evr, .hif, .que, .red, .regs, .outbox, .free] W) (h : Keeps W z0 s) :
    Keeps W z0 (State.standbyMissed s b) := by
  unfold State.standbyMissed
  with_reducible repeat' first | assumption | decide | apply Keeps.ite | refine State.bump_keeps (hw.mono ?_) ?_ | refine post_keeps (hw.mono ?_) ?_ | (refine Keeps.set_red (hw.mem (by decide)) ?_; first | assumption | apply Keeps.ite | refine State.bump_keeps (hw.mono ?_) ?_ | refine post_keeps (hw.mono ?_) ?_ | split) | split

theorem State.settleWatches_keeps {W : List Part} {z0 : State} {s : State}
    (hw : Within [.time, .evr, .hif, .que, .rf, .red, .regs, .outbox, .free] W) (h : Keeps W z0 s) :
    Keeps W z0 (State.settleWatches s) := by
  unfold State.settleWatches
  with_reducible repeat' first | assumption | decide | refine State.setRf_keeps (hw.mono ?_) ?_ | refine State.parentMissed_keeps (hw.mono ?_) ?_ | refine State.standbyMissed_keeps (hw.mono ?_) ?_ | apply Keeps.foldl | (intro _; intros) | split

theorem State.freeOwned_keeps {W : List Part} {z0 : State} {s : State} {q : Nat} {n : Nat} (hw : Within [.que] W)
    (h : Keeps W z0 s) :
    Keeps W z0 (State.freeOwned s q n) := by
  unfold State.freeOwned
  with_reducible repeat' first | assumption | decide | refine State.freeGaps_keeps (hw.mono ?_) ?_ | refine State.setQueue_keeps (hw.mono ?_) ?_

theorem State.releaseFlood_keeps {W : List Part} {z0 : State} {s : State} {q : Nat} {n : Nat}
    (hw : Within [.que, .regs] W) (h : Keeps W z0 s) :
    Keeps W z0 (State.releaseFlood s q n) := by
  unfold State.releaseFlood
  with_reducible repeat' first | assumption | decide | refine State.freeGaps_keeps (hw.mono ?_) ?_ | refine State.setQueue_keeps (hw.mono ?_) ?_ | refine State.bumpBy_keeps (hw.mono ?_) ?_

theorem State.withdrawJob_keeps {W : List Part} {z0 : State} {s : State} {id : Nat} (hw : Within [.cip] W)
    (h : Keeps W z0 s) :
    Keeps W z0 (State.withdrawJob s id) := by
  unfold State.withdrawJob
  with_reducible repeat' first | assumption | decide | (refine Keeps.set_cip (hw.mem (by decide)) ?_; assumption)

theorem State.dropClaim_keeps {W : List Part} {z0 : State} {s : State} {id : Nat} (hw : Within [.cip, .rf] W)
    (h : Keeps W z0 s) :
    Keeps W z0 (State.dropClaim s id) := by
  unfold State.dropClaim
  with_reducible repeat' first | assumption | decide | refine State.setRf_keeps (hw.mono ?_) ?_ | refine State.withdrawJob_keeps (hw.mono ?_) ?_

theorem State.endClaim_keeps {W : List Part} {z0 : State} {s : State} {c : Claim} (hw : Within [.cip, .rf] W)
    (h : Keeps W z0 s) :
    Keeps W z0 (State.endClaim s c) := by
  unfold State.endClaim
  with_reducible repeat' first | assumption | decide | apply Keeps.ite | refine State.setClaim_keeps (hw.mono ?_) ?_ | refine State.withdrawJob_keeps (hw.mono ?_) ?_ | refine State.dropClaim_keeps (hw.mono ?_) ?_

theorem State.txComplete_keeps {W : List Part} {z0 : State} {s : State} {x : TxDesc} {st : Status}
    (hw : Within [.hif, .que, .cip, .rf, .regs] W) (h : Keeps W z0 s) :
    Keeps W z0 (State.txComplete s x st) := by
  unfold State.txComplete
  with_reducible repeat' first | assumption | decide | apply Keeps.ite | refine State.freeOwned_keeps (hw.mono ?_) ?_ | refine State.releaseFlood_keeps (hw.mono ?_) ?_ | refine State.setRf_keeps (hw.mono ?_) ?_ | refine State.endClaim_keeps (hw.mono ?_) ?_ | refine State.hold_keeps (hw.mono ?_) ?_ | (refine Keeps.set_que (hw.mem (by decide)) ?_; first | assumption | apply Keeps.ite | refine State.freeOwned_keeps (hw.mono ?_) ?_ | refine State.releaseFlood_keeps (hw.mono ?_) ?_ | refine State.setRf_keeps (hw.mono ?_) ?_ | refine State.endClaim_keeps (hw.mono ?_) ?_ | refine State.hold_keeps (hw.mono ?_) ?_ | split) | apply Keeps.foldl | (intro _; intros) | split

theorem State.setDesc_keeps {W : List Part} {z0 : State} {s : State} {x : TxDesc} (hw : Within [.rf] W)
    (h : Keeps W z0 s) :
    Keeps W z0 (State.setDesc s x) := by
  unfold State.setDesc
  with_reducible repeat' first | assumption | decide | refine State.setRf_keeps (hw.mono ?_) ?_

theorem State.untake_keeps {W : List Part} {z0 : State} {s : State} {x : TxDesc} (hw : Within [.que] W)
    (h : Keeps W z0 s) :
    Keeps W z0 (State.untake s x) := by
  unfold State.untake
  with_reducible repeat' first | assumption | decide | refine State.setQueue_keeps (hw.mono ?_) ?_

theorem State.waitFailed_keeps {W : List Part} {z0 : State} {s : State} {n : Nat}
    (hw : Within [.hif, .que, .cip, .rf, .regs, .ctxs] W) (h : Keeps W z0 s) :
    Keeps W z0 (State.waitFailed s n) := by
  unfold State.waitFailed
  with_reducible repeat' first | assumption | decide | apply Keeps.ite | refine State.bump_keeps (hw.mono ?_) ?_ | refine State.txComplete_keeps (hw.mono ?_) ?_ | refine State.updCtx_keeps (hw.mono ?_) ?_ | refine State.setDesc_keeps (hw.mono ?_) ?_ | refine State.untake_keeps (hw.mono ?_) ?_ | split

theorem State.settleWaits_keeps {W : List Part} {z0 : State} {s : State}
    (hw : Within [.hif, .que, .cip, .rf, .regs, .ctxs] W) (h : Keeps W z0 s) :
    Keeps W z0 (State.settleWaits s) := by
  unfold State.settleWaits
  with_reducible repeat' first | assumption | decide | refine State.waitFailed_keeps (hw.mono ?_) ?_ | refine State.setRf_keeps (hw.mono ?_) ?_ | apply Keeps.foldl | (intro _; intros) | split

theorem State.settleAir_keeps {W : List Part} {z0 : State} {s : State}
    (hw : Within [.time, .evr, .hif, .que, .cip, .rf, .red, .regs, .ctxs, .outbox, .free] W) (h : Keeps W z0 s) :
    Keeps W z0 (State.settleAir s) := by
  unfold State.settleAir
  with_reducible repeat' first | assumption | decide | refine State.searchRefresh_keeps (hw.mono ?_) ?_ | refine State.settleWatches_keeps (hw.mono ?_) ?_ | refine State.settleWaits_keeps (hw.mono ?_) ?_

theorem State.setCalSt_keeps {W : List Part} {z0 : State} {s : State} {f : CalSt → CalSt} (hw : Within [.cal] W)
    (h : Keeps W z0 s) :
    Keeps W z0 (State.setCalSt s f) := by
  unfold State.setCalSt
  with_reducible repeat' first | assumption | decide | (refine Keeps.set_cal (hw.mem (by decide)) ?_; assumption)

theorem State.calRepend_keeps {W : List Part} {z0 : State} {s : State} (hw : Within [.cal] W) (h : Keeps W z0 s) :
    Keeps W z0 (State.calRepend s) := by
  unfold State.calRepend
  with_reducible repeat' first | assumption | decide | apply Keeps.ite | refine State.setCalSt_keeps (hw.mono ?_) ?_

theorem State.dropWait_keeps {W : List Part} {z0 : State} {s : State} {id : Nat} (hw : Within [.rf] W)
    (h : Keeps W z0 s) :
    Keeps W z0 (State.dropWait s id) := by
  unfold State.dropWait
  with_reducible repeat' first | assumption | decide | refine State.setRf_keeps (hw.mono ?_) ?_

theorem State.cellEnds_keeps {W : List Part} {z0 : State} {s : State} {n : Nat} {st : Status}
    (hw : Within [.hif, .que, .cip, .rf, .regs] W) (h : Keeps W z0 s) :
    Keeps W z0 (State.cellEnds s n st) := by
  unfold State.cellEnds
  with_reducible repeat' first | assumption | decide | refine State.txComplete_keeps (hw.mono ?_) ?_ | refine State.setDesc_keeps (hw.mono ?_) ?_ | refine State.untake_keeps (hw.mono ?_) ?_ | split

theorem State.beaconEnds_keeps {W : List Part} {z0 : State} {s : State} {b : Nat} (hw : Within [.regs] W)
    (h : Keeps W z0 s) :
    Keeps W z0 (State.beaconEnds s b) := by
  unfold State.beaconEnds
  with_reducible repeat' first | assumption | decide | refine State.bump_keeps (hw.mono ?_) ?_

theorem State.ackLost_keeps {W : List Part} {z0 : State} {s : State} {id : Nat} {mute : Bool} (hw : Within [.rf] W)
    (h : Keeps W z0 s) :
    Keeps W z0 (State.ackLost s id mute) := by
  unfold State.ackLost
  with_reducible repeat' first | assumption | decide | refine State.setRf_keeps (hw.mono ?_) ?_

theorem State.claimLate_keeps {W : List Part} {z0 : State} {s : State} {c : Claim}
    (hw : Within [.hif, .que, .cip, .rf, .regs] W) (h : Keeps W z0 s) :
    Keeps W z0 (State.claimLate s c) := by
  unfold State.claimLate
  with_reducible repeat' first | assumption | decide | refine State.endClaim_keeps (hw.mono ?_) ?_ | refine State.dropWait_keeps (hw.mono ?_) ?_ | refine State.cellEnds_keeps (hw.mono ?_) ?_ | refine State.beaconEnds_keeps (hw.mono ?_) ?_ | refine State.bump_keeps (hw.mono ?_) ?_ | refine State.ackLost_keeps (hw.mono ?_) ?_ | split

theorem State.setFrame_keeps {W : List Part} {z0 : State} {s : State} {f : RxFrame} (hw : Within [.rf] W)
    (h : Keeps W z0 s) :
    Keeps W z0 (State.setFrame s f) := by
  unfold State.setFrame
  with_reducible repeat' first | assumption | decide | refine State.setRf_keeps (hw.mono ?_) ?_

theorem State.dropFrame_keeps {W : List Part} {z0 : State} {s : State} {id : Nat} (hw : Within [.rf] W)
    (h : Keeps W z0 s) :
    Keeps W z0 (State.dropFrame s id) := by
  unfold State.dropFrame
  with_reducible repeat' first | assumption | decide | refine State.setRf_keeps (hw.mono ?_) ?_

theorem State.deliverForm0_keeps {W : List Part} {z0 : State} {s : State} {q : Nat} {f : RxFrame}
    (hw : Within [.evr, .hif, .que, .regs, .outbox, .free] W) (h : Keeps W z0 s) :
    Keeps W z0 (State.deliverForm0 s q f) := by
  unfold State.deliverForm0
  with_reducible repeat' first | assumption | decide | refine State.enqueue_keeps (hw.mono ?_) ?_

theorem State.rxPolicer_keeps {W : List Part} {z0 : State} {s : State} {f : RxFrame}
    (hw : Within [.evr, .hif, .que, .regs, .ctxs, .outbox, .free] W) (h : Keeps W z0 s) :
    Keeps W z0 (State.rxPolicer s f).1 := by
  unfold State.rxPolicer
  with_reducible repeat' first | assumption | decide | refine State.fetchCtx_keeps (hw.mono ?_) ?_ | refine Keeps.ofFst (by assumption) ?_ | split

theorem State.policedEnqueue_keeps {W : List Part} {z0 : State} {s : State} {f : RxFrame} {q : Nat} {it : QItem}
    (hw : Within [.evr, .hif, .que, .tol, .regs, .ctxs, .outbox, .free] W) (h : Keeps W z0 s) :
    Keeps W z0 (State.policedEnqueue s f q it) := by
  unfold State.policedEnqueue
  with_reducible repeat' first | assumption | decide | refine State.rxPolicer_keeps (hw.mono ?_) ?_ | refine State.enqueue_keeps (hw.mono ?_) ?_ | refine State.policeUplink_keeps (hw.mono ?_) ?_ | refine Keeps.ofFst (by assumption) ?_ | split

theorem State.toQueue_keeps {W : List Part} {z0 : State} {s : State} {q : Nat} {d : List Byte}
    {frames : List RxFrame} {last : RxFrame} (hw : Within [.evr, .hif, .que, .tol, .regs, .ctxs, .outbox, .free] W)
    (h : Keeps W z0 s) :
    Keeps W z0 (State.toQueue s q d frames last) := by
  unfold State.toQueue
  with_reducible repeat' first | assumption | decide | refine State.policedEnqueue_keeps (hw.mono ?_) ?_ | apply Keeps.foldl | (intro _; intros) | split

theorem State.addDesc_keeps {W : List Part} {z0 : State} {s : State} {x : TxDesc} (hw : Within [.rf] W)
    (h : Keeps W z0 s) :
    Keeps W z0 (State.addDesc s x).1 := by
  unfold State.addDesc
  with_reducible repeat' first | assumption | decide | refine State.setRf_keeps (hw.mono ?_) ?_

theorem State.fetchAll_keeps {W : List Part} {z0 : State} {s : State} {l : List Nat}
    (hw : Within [.evr, .hif, .que, .regs, .ctxs, .outbox, .free] W) (h : Keeps W z0 s) :
    Keeps W z0 (State.fetchAll s l).1 := by
  unfold State.fetchAll
  refine Keeps.foldlFst (fun p n hp => ?_) h
  split
  · exact hp
  · split
    · rename_i heq
      exact Keeps.ofFst heq (State.fetchCtx_keeps (hw.mono rfl) hp)
    · rename_i heq
      exact Keeps.ofFst heq (State.fetchCtx_keeps (hw.mono rfl) hp)

theorem State.queueFrame_keeps {W : List Part} {z0 : State} {s : State} {x : TxDesc}
    (hw : Within [.evr, .hif, .que, .cip, .rf, .regs, .outbox, .free] W) (h : Keeps W z0 s) :
    Keeps W z0 (State.queueFrame s x) := by
  unfold State.queueFrame
  dsimp only
  with_reducible repeat' first | assumption | decide | apply Keeps.ite | refine State.txComplete_keeps (hw.mono ?_) ?_ | refine State.bump_keeps (hw.mono ?_) ?_ | refine State.enqueue_keeps (hw.mono ?_) ?_ | (refine Keeps.fields (fun p => by cases p <;> first | exact .inl (hw.mem (by decide)) | exact .inr rfl) ?_ ?_ ?_ <;> first | rfl | assumption) | refine Keeps.ofFst (by assumption) ?_ | split

theorem State.tagUsed_keeps {W : List Part} {z0 : State} {s : State} {cut : Bool} (hw : Within [.regs] W)
    (h : Keeps W z0 s) :
    Keeps W z0 (State.tagUsed s cut) := by
  unfold State.tagUsed
  with_reducible repeat' first | assumption | decide | apply Keeps.ite | refine State.setFld_keeps (hw.mono ?_) ?_

theorem State.sendTo_keeps {W : List Part} {z0 : State} {s : State} {x0 : TxDesc} {nidx : Option Nat}
    {data : List Byte} (hw : Within [.evr, .hif, .que, .cip, .rf, .regs, .ctxs, .outbox, .free] W)
    (h : Keeps W z0 s) :
    Keeps W z0 (State.sendTo s x0 nidx data) := by
  unfold State.sendTo
  with_reducible repeat' first | assumption | decide | apply Keeps.ite | refine State.addDesc_keeps (hw.mono ?_) ?_ | refine State.txComplete_keeps (hw.mono ?_) ?_ | refine State.fetchCtx_keeps (hw.mono ?_) ?_ | refine State.bump_keeps (hw.mono ?_) ?_ | refine State.fetchAll_keeps (hw.mono ?_) ?_ | refine State.queueFrame_keeps (hw.mono ?_) ?_ | refine State.setDesc_keeps (hw.mono ?_) ?_ | refine State.tagUsed_keeps (hw.mono ?_) ?_ | apply Keeps.foldl | refine Keeps.ofFst (by assumption) ?_ | (intro _; intros) | split

theorem State.forward_keeps {W : List Part} {z0 : State} {s : State} {n : Nat} {d : List Byte}
    (hw : Within [.evr, .hif, .que, .cip, .rf, .regs, .ctxs, .outbox, .free] W) (h : Keeps W z0 s) :
    Keeps W z0 (State.forward s n d) := by
  unfold State.forward
  with_reducible repeat' first | assumption | decide | refine State.sendTo_keeps (hw.mono ?_) ?_

theorem State.routeUp_keeps {W : List Part} {z0 : State} {s : State} {d : List Byte} {frames : List RxFrame}
    {last : RxFrame} (hw : Within [.evr, .hif, .que, .tol, .cip, .rf, .regs, .ctxs, .outbox, .free] W)
    (h : Keeps W z0 s) :
    Keeps W z0 (State.routeUp s d frames last) := by
  unfold State.routeUp
  with_reducible repeat' first | assumption | decide | refine State.toQueue_keeps (hw.mono ?_) ?_ | refine State.bump_keeps (hw.mono ?_) ?_ | refine State.policedEnqueue_keeps (hw.mono ?_) ?_ | refine State.rxPolicer_keeps (hw.mono ?_) ?_ | refine State.forward_keeps (hw.mono ?_) ?_ | refine State.police_keeps (hw.mono ?_) ?_ | refine Keeps.ofFst (by assumption) ?_ | split

theorem State.holdFlood_keeps {W : List Part} {z0 : State} {s : State} {x : TxDesc}
    (hw : Within [.evr, .hif, .que, .cip, .rf, .regs, .outbox, .free] W) (h : Keeps W z0 s) :
    Keeps W z0 (State.holdFlood s x) := by
  unfold State.holdFlood
  dsimp only
  with_reducible repeat' first | assumption | decide | apply Keeps.ite | refine State.txComplete_keeps (hw.mono ?_) ?_ | refine State.bumpBy_keeps (hw.mono ?_) ?_ | refine State.enqueue_keeps (hw.mono ?_) ?_ | (refine Keeps.fields (fun p => by cases p <;> first | exact .inl (hw.mem (by decide)) | with_unfolding_all exact .inr rfl) ?_ ?_ ?_ <;> first | rfl | assumption | apply Keeps.ite | refine State.txComplete_keeps (hw.mono ?_) ?_ | refine State.bumpBy_keeps (hw.mono ?_) ?_ | refine State.enqueue_keeps (hw.mono ?_) ?_ | refine Keeps.ofFst (by assumption) ?_ | apply Keeps.foldl | apply Keeps.foldlFst | split) | apply Keeps.foldl | refine Keeps.ofFst (by assumption) ?_ | (intro _; intros) | split

theorem State.startFlood_keeps {W : List Part} {z0 : State} {s : State} {x0 : TxDesc} {d : List Byte}
    (hw : Within [.evr, .hif, .que, .cip, .rf, .regs, .outbox, .free] W) (h : Keeps W z0 s) :
    Keeps W z0 (State.startFlood s x0 d) := by
  unfold State.startFlood
  dsimp only
  with_reducible repeat' first | assumption | decide | apply Keeps.ite | refine State.addDesc_keeps (hw.mono ?_) ?_ | refine State.txComplete_keeps (hw.mono ?_) ?_ | refine State.holdFlood_keeps (hw.mono ?_) ?_ | refine State.setDesc_keeps (hw.mono ?_) ?_ | refine State.tagUsed_keeps (hw.mono ?_) ?_ | split

theorem State.relay_keeps {W : List Part} {z0 : State} {s : State} {d : List Byte}
    (hw : Within [.evr, .hif, .que, .cip, .rf, .regs, .outbox, .free] W) (h : Keeps W z0 s) :
    Keeps W z0 (State.relay s d) := by
  unfold State.relay
  with_reducible repeat' first | assumption | decide | apply Keeps.ite | refine State.startFlood_keeps (hw.mono ?_) ?_ | refine State.bump_keeps (hw.mono ?_) ?_

theorem State.floodSeen_keeps {W : List Part} {z0 : State} {s : State} {seed : U64} {seq : BitVec 16}
    (hw : Within [.spanc, .tbl, .regs] W) (h : Keeps W z0 s) :
    Keeps W z0 (State.floodSeen s seed seq) := by
  unfold State.floodSeen
  with_reducible repeat' first | assumption | decide | refine State.seenPut_keeps (hw.mono ?_) ?_

theorem State.datagramUp_keeps {W : List Part} {z0 : State} {s : State} {d : List Byte} {frames : List RxFrame}
    {last : RxFrame} (hw : Within [.evr, .hif, .spanc, .tbl, .que, .tol, .cip, .rf, .regs, .ctxs, .outbox, .free] W)
    (h : Keeps W z0 s) :
    Keeps W z0 (State.datagramUp s d frames last) := by
  unfold State.datagramUp
  with_reducible repeat' first | assumption | decide | refine State.routeUp_keeps (hw.mono ?_) ?_ | refine State.bump_keeps (hw.mono ?_) ?_ | refine State.relay_keeps (hw.mono ?_) ?_ | refine State.floodSeen_keeps (hw.mono ?_) ?_ | split

theorem State.dropReasm_keeps {W : List Part} {z0 : State} {s : State} {x : Reasm} (hw : Within [.rf] W)
    (h : Keeps W z0 s) :
    Keeps W z0 (State.dropReasm s x) := by
  unfold State.dropReasm
  with_reducible repeat' first | assumption | decide | refine State.setRf_keeps (hw.mono ?_) ?_

theorem State.reassemble_keeps {W : List Part} {z0 : State} {s : State} {f : RxFrame} {l : Lowpan}
    (hw : Within [.evr, .hif, .spanc, .tbl, .que, .tol, .cip, .rf, .regs, .ctxs, .outbox, .free] W)
    (h : Keeps W z0 s) :
    Keeps W z0 (State.reassemble s f l) := by
  unfold State.reassemble
  with_reducible repeat' first | assumption | decide | apply Keeps.ite | refine State.bump_keeps (hw.mono ?_) ?_ | refine State.dropReasm_keeps (hw.mono ?_) ?_ | refine State.setFld_keeps (hw.mono ?_) ?_ | refine State.datagramUp_keeps (hw.mono ?_) ?_ | refine State.setRf_keeps (hw.mono ?_) ?_ | split

theorem State.deliver_keeps {W : List Part} {z0 : State} {s : State} {f : RxFrame}
    (hw : Within [.evr, .hif, .spanc, .tbl, .que, .tol, .cip, .rf, .regs, .ctxs, .outbox, .free] W)
    (h : Keeps W z0 s) :
    Keeps W z0 (State.deliver s f) := by
  unfold State.deliver
  with_reducible repeat' first | assumption | decide | apply Keeps.ite | refine State.dropFrame_keeps (hw.mono ?_) ?_ | refine State.bump_keeps (hw.mono ?_) ?_ | refine State.deliverForm0_keeps (hw.mono ?_) ?_ | refine State.datagramUp_keeps (hw.mono ?_) ?_ | refine State.reassemble_keeps (hw.mono ?_) ?_ | split

theorem State.release_keeps {W : List Part} {z0 : State} {s : State} {id : Nat}
    (hw : Within [.evr, .hif, .spanc, .tbl, .que, .tol, .cip, .rf, .regs, .ctxs, .outbox, .free] W)
    (h : Keeps W z0 s) :
    Keeps W z0 (State.release s id) := by
  unfold State.release
  with_reducible repeat' first | assumption | decide | refine State.dropFrame_keeps (hw.mono ?_) ?_ | refine State.deliver_keeps (hw.mono ?_) ?_ | split

theorem State.settleAck_keeps {W : List Part} {z0 : State} {s : State} {id : Nat} {acked : Bool} {noack : Bool}
    {capture : Bool} (hw : Within [.evr, .hif, .spanc, .tbl, .que, .tol, .cip, .rf, .regs, .ctxs, .outbox, .free] W)
    (h : Keeps W z0 s) :
    Keeps W z0 (State.settleAck s id acked noack capture) := by
  unfold State.settleAck
  with_reducible repeat' first | assumption | decide | refine State.setFrame_keeps (hw.mono ?_) ?_ | refine State.release_keeps (hw.mono ?_) ?_ | split

theorem State.ackRefused_keeps {W : List Part} {z0 : State} {s : State} {id : Nat}
    (hw : Within [.evr, .hif, .spanc, .tbl, .que, .tol, .cip, .rf, .regs, .ctxs, .outbox, .free] W)
    (h : Keeps W z0 s) :
    Keeps W z0 (State.ackRefused s id) := by
  unfold State.ackRefused
  with_reducible repeat' first | assumption | decide | refine State.settleAck_keeps (hw.mono ?_) ?_ | refine State.setFrame_keeps (hw.mono ?_) ?_ | split

theorem State.attemptEnds_keeps {W : List Part} {z0 : State} {s : State} {c : Claim} {st : Status}
    (hw : Within [.evr, .hif, .spanc, .tbl, .que, .tol, .cip, .rf, .regs, .ctxs, .outbox, .free] W)
    (h : Keeps W z0 s) :
    Keeps W z0 (State.attemptEnds s c st) := by
  unfold State.attemptEnds
  with_reducible repeat' first | assumption | decide | refine State.dropWait_keeps (hw.mono ?_) ?_ | refine State.cellEnds_keeps (hw.mono ?_) ?_ | refine State.beaconEnds_keeps (hw.mono ?_) ?_ | refine State.ackRefused_keeps (hw.mono ?_) ?_ | refine State.ackLost_keeps (hw.mono ?_) ?_ | split

theorem State.claimFails_keeps {W : List Part} {z0 : State} {s : State} {c : Claim} {st : Status}
    (hw : Within [.evr, .hif, .spanc, .tbl, .que, .tol, .cip, .rf, .regs, .ctxs, .outbox, .free] W)
    (h : Keeps W z0 s) :
    Keeps W z0 (State.claimFails s c st) := by
  unfold State.claimFails
  with_reducible repeat' first | assumption | decide | apply Keeps.ite | refine State.claimLate_keeps (hw.mono ?_) ?_ | refine State.attemptEnds_keeps (hw.mono ?_) ?_ | refine State.endClaim_keeps (hw.mono ?_) ?_

theorem State.endFrame_keeps {W : List Part} {z0 : State} {s : State} {id : Nat}
    (hw : Within [.hif, .que, .cip, .rf, .regs, .ctxs] W) (h : Keeps W z0 s) :
    Keeps W z0 (State.endFrame s id) := by
  unfold State.endFrame
  with_reducible repeat' first | assumption | decide | refine State.settleWaits_keeps (hw.mono ?_) ?_ | refine State.dropFrame_keeps (hw.mono ?_) ?_

theorem State.failFrame_keeps {W : List Part} {z0 : State} {s : State} {f : RxFrame} {cnt : Nat}
    (hw : Within [.hif, .que, .cip, .rf, .regs, .ctxs] W) (h : Keeps W z0 s) :
    Keeps W z0 (State.failFrame s f cnt) := by
  unfold State.failFrame
  with_reducible repeat' first | assumption | decide | refine State.endFrame_keeps (hw.mono ?_) ?_ | refine State.bump_keeps (hw.mono ?_) ?_

theorem State.replayRecord_keeps {W : List Part} {z0 : State} {s : State} {n : Nat} {fc : Word} {rxFc : Word}
    (hw : Within [.evr, .hif, .que, .rf, .regs, .outbox, .free] W) (h : Keeps W z0 s) :
    Keeps W z0 (State.replayRecord s n fc rxFc) := by
  unfold State.replayRecord
  with_reducible repeat' first | assumption | decide | apply Keeps.ite | refine post_keeps (hw.mono ?_) ?_ | refine State.setRf_keeps (hw.mono ?_) ?_

theorem State.countLate_keeps {W : List Part} {z0 : State} {s : State} {i : Nat} (hw : Within [.regs] W)
    (h : Keeps W z0 s) :
    Keeps W z0 (State.countLate s i) := by
  unfold State.countLate
  with_reducible repeat' first | assumption | decide | apply Keeps.ite | refine State.bump16_keeps (hw.mono ?_) ?_

theorem State.releaseAck_keeps {W : List Part} {z0 : State} {s : State} {f : RxFrame} (hw : Within [.cip, .rf] W)
    (h : Keeps W z0 s) :
    Keeps W z0 (State.releaseAck s f) := by
  unfold State.releaseAck
  with_reducible repeat' first | assumption | decide | refine State.setFrame_keeps (hw.mono ?_) ?_ | refine State.dropClaim_keeps (hw.mono ?_) ?_ | split

theorem State.missedCheck_keeps {W : List Part} {z0 : State} {s : State} {f : RxFrame}
    (hw : Within [.cip, .rf, .regs] W) (h : Keeps W z0 s) :
    Keeps W z0 (State.missedCheck s f) := by
  unfold State.missedCheck
  with_reducible repeat' first | assumption | decide | apply Keeps.ite | refine State.countLate_keeps (hw.mono ?_) ?_ | refine State.setFrame_keeps (hw.mono ?_) ?_ | refine State.releaseAck_keeps (hw.mono ?_) ?_

theorem State.nodeKeys_keeps {W : List Part} {z0 : State} {s : State} {n : Nat} {c : Ctx} {gen : Byte}
    (hw : Within [.key, .regs] W) (h : Keeps W z0 s) :
    Keeps W z0 (State.nodeKeys s n c gen).1 := by
  unfold State.nodeKeys
  with_reducible repeat' first | assumption | decide | refine State.touchSlot_keeps (hw.mono ?_) ?_ | refine State.deriveNode_keeps (hw.mono ?_) ?_ | refine Keeps.ofFst (by assumption) ?_ | split

theorem State.queueCheck_keeps {W : List Part} {z0 : State} {s : State} {f : RxFrame} (hw : Within [.cip, .rf] W)
    (h : Keeps W z0 s) :
    Keeps W z0 (State.queueCheck s f) := by
  unfold State.queueCheck
  with_reducible repeat' first | assumption | decide | apply Keeps.ite | refine State.setFrame_keeps (hw.mono ?_) ?_ | refine State.releaseAck_keeps (hw.mono ?_) ?_ | refine State.queueJob_keeps (hw.mono ?_) ?_

theorem State.dupFrame_keeps {W : List Part} {z0 : State} {s : State} {f0 : RxFrame} {n : Nat} {c : Ctx}
    (hw : Within [.hif, .que, .key, .cip, .rf, .regs, .ctxs] W) (h : Keeps W z0 s) :
    Keeps W z0 (State.dupFrame s f0 n c) := by
  unfold State.dupFrame
  with_reducible repeat' first | assumption | decide | apply Keeps.ite | refine State.bump_keeps (hw.mono ?_) ?_ | refine State.updCtx_keeps (hw.mono ?_) ?_ | refine State.endFrame_keeps (hw.mono ?_) ?_ | refine State.missedCheck_keeps (hw.mono ?_) ?_ | refine State.nodeKeys_keeps (hw.mono ?_) ?_ | refine State.queueCheck_keeps (hw.mono ?_) ?_ | apply Keeps.foldl | refine Keeps.ofFst (by assumption) ?_ | (intro _; intros) | split

theorem State.ackFields_keeps {W : List Part} {z0 : State} {s : State} {f : RxFrame} (hw : Within [.regs] W)
    (h : Keeps W z0 s) :
    Keeps W z0 (State.ackFields s f).1 := by
  unfold State.ackFields
  with_reducible repeat' first | assumption | decide | apply Keeps.ite | refine State.bump_keeps (hw.mono ?_) ?_

theorem State.freshFrame_keeps {W : List Part} {z0 : State} {s : State} {f0 : RxFrame} {n : Nat} {c : Ctx}
    (hw : Within [.hif, .que, .key, .cip, .rf, .regs, .ctxs] W) (h : Keeps W z0 s) :
    Keeps W z0 (State.freshFrame s f0 n c) := by
  unfold State.freshFrame
  with_reducible repeat' first | assumption | decide | apply Keeps.ite | refine State.missedCheck_keeps (hw.mono ?_) ?_ | refine State.ackFields_keeps (hw.mono ?_) ?_ | refine State.failFrame_keeps (hw.mono ?_) ?_ | refine State.queueCheck_keeps (hw.mono ?_) ?_ | refine State.nodeKeys_keeps (hw.mono ?_) ?_ | refine State.endFrame_keeps (hw.mono ?_) ?_ | apply Keeps.foldl | refine Keeps.ofFst (by assumption) ?_ | (intro _; intros) | split

theorem State.stage4_keeps {W : List Part} {z0 : State} {s0_ : State} {f : RxFrame}
    (hw : Within [.evr, .hif, .que, .key, .cip, .rf, .regs, .ctxs, .outbox, .free] W) (h : Keeps W z0 s0_) :
    Keeps W z0 (State.stage4 s0_ f) := by
  unfold State.stage4
  dsimp only
  with_reducible repeat' first | assumption | decide | apply Keeps.ite | refine State.fetchCtx_keeps (hw.mono ?_) ?_ | refine State.endFrame_keeps (hw.mono ?_) ?_ | refine State.failFrame_keeps (hw.mono ?_) ?_ | refine State.replayRecord_keeps (hw.mono ?_) ?_ | refine State.updCtx_keeps (hw.mono ?_) ?_ | refine State.dupFrame_keeps (hw.mono ?_) ?_ | refine State.freshFrame_keeps (hw.mono ?_) ?_ | (refine Keeps.fields (fun p => by cases p <;> first | exact .inl (hw.mem (by decide)) | with_unfolding_all exact .inr rfl) ?_ ?_ ?_ <;> first | rfl | assumption) | refine Keeps.ofFst (by assumption) ?_ | split

theorem State.resumeFrames_keeps {W : List Part} {z0 : State} {s : State}
    (hw : Within [.evr, .hif, .que, .key, .cip, .rf, .regs, .ctxs, .outbox, .free] W) (h : Keeps W z0 s) :
    Keeps W z0 (State.resumeFrames s) := by
  unfold State.resumeFrames
  with_reducible repeat' first | assumption | decide | refine State.stage4_keeps (hw.mono ?_) ?_ | apply Keeps.foldl | (intro _; intros) | split

theorem State.endMacJob_keeps {W : List Part} {z0 : State} {s : State} {j : CipJob} {st : Status}
    (hw : Within [.evr, .hif, .spanc, .tbl, .que, .tol, .key, .cip, .rf, .regs, .ctxs, .outbox, .free] W)
    (h : Keeps W z0 s) :
    Keeps W z0 (State.endMacJob s j st) := by
  unfold State.endMacJob
  dsimp only
  with_reducible repeat' first | assumption | decide | apply Keeps.ite | refine State.countJob_keeps (hw.mono ?_) ?_ | refine State.claimFails_keeps (hw.mono ?_) ?_ | refine State.resumeFrames_keeps (hw.mono ?_) ?_ | refine State.failFrame_keeps (hw.mono ?_) ?_ | refine State.endFrame_keeps (hw.mono ?_) ?_ | split

theorem State.unqueue_keeps {W : List Part} {z0 : State} {s : State} {id : Nat} (hw : Within [.cip] W)
    (h : Keeps W z0 s) :
    Keeps W z0 (State.unqueue s id) := by
  unfold State.unqueue
  with_reducible repeat' first | assumption | decide | (refine Keeps.set_cip (hw.mem (by decide)) ?_; assumption)

theorem State.flushMac_keeps {W : List Part} {z0 : State} {s : State}
    (hw : Within [.evr, .hif, .spanc, .tbl, .que, .tol, .key, .cip, .rf, .regs, .ctxs, .outbox, .free] W)
    (h : Keeps W z0 s) :
    Keeps W z0 (State.flushMac s) := by
  unfold State.flushMac
  with_reducible repeat' first | assumption | decide | refine State.endMacJob_keeps (hw.mono ?_) ?_ | refine State.unqueue_keeps (hw.mono ?_) ?_ | apply Keeps.foldl | (intro _; intros) | split

theorem State.endQueued_keeps {W : List Part} {z0 : State} {s : State} {j : CipJob} {st : Status}
    (hw : Within [.evr, .hif, .spanc, .tbl, .que, .tol, .key, .cip, .rf, .regs, .ctxs, .mem, .outbox, .free] W)
    (h : Keeps W z0 s) :
    Keeps W z0 (State.endQueued s j st) := by
  unfold State.endQueued
  with_reducible repeat' first | assumption | decide | refine State.endHostJob_keeps (hw.mono ?_) ?_ | refine State.endMacJob_keeps (hw.mono ?_) ?_ | refine State.countJob_keeps (hw.mono ?_) ?_ | split

theorem State.calEmpty_keeps {W : List Part} {z0 : State} {s : State} (hw : Within [.cal] W) (h : Keeps W z0 s) :
    Keeps W z0 (State.calEmpty s) := by
  unfold State.calEmpty
  with_reducible repeat' first | assumption | decide | refine State.calRepend_keeps (hw.mono ?_) ?_ | refine State.setCalSt_keeps (hw.mono ?_) ?_

theorem State.assignRoles_keeps {W : List Part} {z0 : State} {s : State} (hw : Within [.rf] W) (h : Keeps W z0 s) :
    Keeps W z0 (State.assignRoles s) := by
  unfold State.assignRoles
  with_reducible repeat' first | assumption | decide | refine State.setRf_keeps (hw.mono ?_) ?_

theorem State.setPier_keeps {W : List Part} {z0 : State} {s : State} {p : Nat} {x : Pier} (hw : Within [.rf] W)
    (h : Keeps W z0 s) :
    Keeps W z0 (State.setPier s p x) := by
  unfold State.setPier
  with_reducible repeat' first | assumption | decide | refine State.setRf_keeps (hw.mono ?_) ?_

theorem State.leave_keeps {W : List Part} {z0 : State} {s : State} {p : Nat} (hw : Within [.rf] W)
    (h : Keeps W z0 s) :
    Keeps W z0 (State.leave s p) := by
  unfold State.leave
  with_reducible repeat' first | assumption | decide | refine State.setPier_keeps (hw.mono ?_) ?_

theorem State.cutReception_keeps {W : List Part} {z0 : State} {s : State} {p : Nat} (hw : Within [.cip, .rf] W)
    (h : Keeps W z0 s) :
    Keeps W z0 (State.cutReception s p) := by
  unfold State.cutReception
  with_reducible repeat' first | assumption | decide | apply Keeps.ite | refine State.dropClaim_keeps (hw.mono ?_) ?_ | refine State.setRf_keeps (hw.mono ?_) ?_ | split

theorem State.abandon_keeps {W : List Part} {z0 : State} {s : State} {p : Nat} {cnt : Nat}
    (hw : Within [.cip, .rf, .regs] W) (h : Keeps W z0 s) :
    Keeps W z0 (State.abandon s p cnt) := by
  unfold State.abandon
  with_reducible repeat' first | assumption | decide | refine State.leave_keeps (hw.mono ?_) ?_ | refine State.bump_keeps (hw.mono ?_) ?_ | refine State.cutReception_keeps (hw.mono ?_) ?_

theorem State.drained_keeps {W : List Part} {z0 : State} {s : State} (hw : Within [.rf] W) (h : Keeps W z0 s) :
    Keeps W z0 (State.drained s) := by
  unfold State.drained
  with_reducible repeat' first | assumption | decide | apply Keeps.ite | refine State.leave_keeps (hw.mono ?_) ?_ | apply Keeps.foldl | (intro _; intros) | split

theorem State.stopPiers_keeps {W : List Part} {z0 : State} {s : State} (hw : Within [.cip, .rf, .regs] W)
    (h : Keeps W z0 s) :
    Keeps W z0 (State.stopPiers s) := by
  unfold State.stopPiers
  with_reducible repeat' first | assumption | decide | refine State.abandon_keeps (hw.mono ?_) ?_ | refine State.drained_keeps (hw.mono ?_) ?_ | refine State.setRf_keeps (hw.mono ?_) ?_ | apply Keeps.foldl | (intro _; intros) | split

theorem State.ackWithdrawn_keeps {W : List Part} {z0 : State} {s : State} {c : Claim}
    (hw : Within [.evr, .hif, .spanc, .tbl, .que, .tol, .cip, .rf, .regs, .ctxs, .outbox, .free] W)
    (h : Keeps W z0 s) :
    Keeps W z0 (State.ackWithdrawn s c) := by
  unfold State.ackWithdrawn
  with_reducible repeat' first | assumption | decide | refine State.ackRefused_keeps (hw.mono ?_) ?_ | refine State.endClaim_keeps (hw.mono ?_) ?_ | refine State.ackLost_keeps (hw.mono ?_) ?_ | split

theorem State.observeDeviation_keeps {W : List Part} {z0 : State} {s : State} {c : Claim} {dev : Int}
    (hw : Within [.cal] W) (h : Keeps W z0 s) :
    Keeps W z0 (State.observeDeviation s c dev) := by
  unfold State.observeDeviation
  with_reducible repeat' first | assumption | decide | apply Keeps.ite | refine State.setCal_keeps (hw.mono ?_) ?_ | refine State.setCalSt_keeps (hw.mono ?_) ?_ | split

theorem State.observePower_keeps {W : List Part} {z0 : State} {s : State} {c : Claim} {obs : Int} {dev : Int}
    (hw : Within [.evr, .hif, .que, .cal, .regs, .outbox, .free] W) (h : Keeps W z0 s) :
    Keeps W z0 (State.observePower s c obs dev) := by
  unfold State.observePower
  with_reducible repeat' first | assumption | decide | apply Keeps.ite | refine State.setFld_keeps (hw.mono ?_) ?_ | refine State.observeDeviation_keeps (hw.mono ?_) ?_ | refine post_keeps (hw.mono ?_) ?_ | refine State.raise_keeps (hw.mono ?_) ?_ | refine State.bump_keeps (hw.mono ?_) ?_

theorem State.observeDue_keeps {W : List Part} {z0 : State} {s : State} {c : Claim}
    (hw : Within [.evr, .hif, .que, .cal, .rf, .regs, .outbox, .free] W) (h : Keeps W z0 s) :
    Keeps W z0 (State.observeDue s c) := by
  unfold State.observeDue
  with_reducible repeat' first | assumption | decide | apply Keeps.ite | refine State.setRf_keeps (hw.mono ?_) ?_ | refine State.observePower_keeps (hw.mono ?_) ?_ | split

theorem State.claimsLate_keeps {W : List Part} {z0 : State} {s : State}
    (hw : Within [.evr, .hif, .spanc, .tbl, .que, .tol, .cip, .cal, .rf, .regs, .ctxs, .outbox, .free] W)
    (h : Keeps W z0 s) :
    Keeps W z0 (State.claimsLate s) := by
  unfold State.claimsLate
  with_reducible repeat' first | assumption | decide | refine State.ackWithdrawn_keeps (hw.mono ?_) ?_ | refine State.claimLate_keeps (hw.mono ?_) ?_ | refine State.observeDue_keeps (hw.mono ?_) ?_ | apply Keeps.foldl | (intro _; intros) | split

theorem State.attestNext_keeps {W : List Part} {z0 : State} {s : State} (hw : Within [.cip] W) (h : Keeps W z0 s) :
    Keeps W z0 (State.attestNext s) := by
  unfold State.attestNext
  with_reducible repeat' first | assumption | decide | apply Keeps.ite | refine State.queueJob_keeps (hw.mono ?_) ?_

theorem State.calEntryDone_keeps {W : List Part} {z0 : State} {s : State} {c : Nat} {i : Nat}
    (hw : Within [.cal, .regs, .free] W) (h : Keeps W z0 s) :
    Keeps W z0 (State.calEntryDone s c i) := by
  unfold State.calEntryDone
  with_reducible repeat' first | assumption | decide | refine State.nextFree_keeps (hw.mono ?_) ?_ | refine State.setCal_keeps (hw.mono ?_) ?_ | refine State.bump_keeps (hw.mono ?_) ?_ | refine State.setCalSt_keeps (hw.mono ?_) ?_

theorem State.endCalJob_keeps {W : List Part} {z0 : State} {s : State} {j : CalJob} {st : Status} {done : List Nat}
    (hw : Within [.cal, .regs, .free] W) (h : Keeps W z0 s) :
    Keeps W z0 (State.endCalJob s j st done) := by
  unfold State.endCalJob
  with_reducible repeat' first | assumption | decide | refine State.calEntryDone_keeps (hw.mono ?_) ?_ | refine State.setFld_keeps (hw.mono ?_) ?_ | refine State.setCalSt_keeps (hw.mono ?_) ?_ | apply Keeps.foldl | (intro _; intros) | split

theorem State.endCalJobs_keeps {W : List Part} {z0 : State} {s : State} {st : Status}
    (hw : Within [.hif, .cal, .regs, .free] W) (h : Keeps W z0 s) :
    Keeps W z0 (State.endCalJobs s st) := by
  unfold State.endCalJobs
  with_reducible repeat' first | assumption | decide | refine State.endCalJob_keeps (hw.mono ?_) ?_ | refine State.setCalSt_keeps (hw.mono ?_) ?_ | refine State.complete_keeps (hw.mono ?_) ?_ | apply Keeps.foldl | (intro _; intros) | split

theorem State.endAllJobs_keeps {W : List Part} {z0 : State} {s : State} {st : Status}
    (hw : Within [.hif, .cip, .regs, .mem] W) (h : Keeps W z0 s) :
    Keeps W z0 (State.endAllJobs s st) := by
  unfold State.endAllJobs
  with_reducible repeat' first | assumption | decide | refine State.endHostJob_keeps (hw.mono ?_) ?_ | refine State.complete_keeps (hw.mono ?_) ?_ | (refine Keeps.set_cip (hw.mem (by decide)) ?_; assumption) | apply Keeps.foldl | (intro _; intros) | split

theorem State.setClaim_keeps {W : List Part} {z0 : State} {s : State} {c : Claim} (hw : Within [.rf] W)
    (h : Keeps W z0 s) :
    Keeps W z0 (State.setClaim s c) := by
  unfold State.setClaim
  with_reducible repeat' first | assumption | decide | (refine Keeps.set_rf (hw.mem (by decide)) ?_; assumption)

theorem State.refundDue_keeps {W : List Part} {z0 : State} {s : State} {c : Claim} (hw : Within [.tol, .par] W)
    (h : Keeps W z0 s) :
    Keeps W z0 (State.refundDue s c) := by
  unfold State.refundDue
  with_reducible repeat' first | assumption | decide | apply Keeps.ite | refine State.parRefund_keeps (hw.mono ?_) ?_

theorem State.cutOff_keeps {W : List Part} {z0 : State} {s0_ : State} {c0 : Claim} {ramp : Nat}
    (hw : Within [.evr, .hif, .que, .tol, .par, .cal, .rf, .regs, .outbox, .free] W) (h : Keeps W z0 s0_) :
    Keeps W z0 (State.cutOff s0_ c0 ramp) := by
  unfold State.cutOff
  with_reducible repeat' first | assumption | decide | apply Keeps.ite | refine State.observeDue_keeps (hw.mono ?_) ?_ | refine State.emitted_keeps (hw.mono ?_) ?_ | refine State.setClaim_keeps (hw.mono ?_) ?_ | refine State.refundDue_keeps (hw.mono ?_) ?_

theorem State.endAllTx_keeps {W : List Part} {z0 : State} {s : State} {st : Status}
    (hw : Within [.evr, .hif, .que, .tol, .cip, .par, .cal, .rf, .regs, .outbox, .free] W) (h : Keeps W z0 s) :
    Keeps W z0 (State.endAllTx s st) := by
  unfold State.endAllTx
  with_reducible repeat' first | assumption | decide | refine State.cutOff_keeps (hw.mono ?_) ?_ | refine State.beaconEnds_keeps (hw.mono ?_) ?_ | refine State.refundDue_keeps (hw.mono ?_) ?_ | refine State.txComplete_keeps (hw.mono ?_) ?_ | refine State.setRf_keeps (hw.mono ?_) ?_ | apply Keeps.foldl | (intro _; intros) | split

theorem State.compactDueOn_keeps {W : List Part} {z0 : State} {s : State} {c : Nat} (hw : Within [.cal] W)
    (h : Keeps W z0 s) :
    Keeps W z0 (State.compactDueOn s c) := by
  unfold State.compactDueOn
  with_reducible repeat' first | assumption | decide | refine State.setCalSt_keeps (hw.mono ?_) ?_

theorem State.calAtStructured_keeps {W : List Part} {z0 : State} {s : State} (hw : Within [.cal] W)
    (h : Keeps W z0 s) :
    Keeps W z0 (State.calAtStructured s) := by
  unfold State.calAtStructured
  with_reducible repeat' first | assumption | decide | refine State.calEmpty_keeps (hw.mono ?_) ?_ | refine State.compactDueOn_keeps (hw.mono ?_) ?_ | apply Keeps.foldl | (intro _; intros) | split

theorem State.endCalCmds_keeps {W : List Part} {z0 : State} {s : State} {c : Nat} (hw : Within [.hif, .cal] W)
    (h : Keeps W z0 s) :
    Keeps W z0 (State.endCalCmds s c) := by
  unfold State.endCalCmds
  with_reducible repeat' first | assumption | decide | refine State.setCalSt_keeps (hw.mono ?_) ?_ | refine State.complete_keeps (hw.mono ?_) ?_ | apply Keeps.foldl | (intro _; intros) | split

theorem State.compactDone_keeps {W : List Part} {z0 : State} {s : State} {c : Nat}
    (hw : Within [.hif, .cal, .regs, .free] W) (h : Keeps W z0 s) :
    Keeps W z0 (State.compactDone s c) := by
  unfold State.compactDone
  with_reducible repeat' first | assumption | decide | refine State.setCalSt_keeps (hw.mono ?_) ?_ | refine State.nextFree_keeps (hw.mono ?_) ?_ | refine State.endCalCmds_keeps (hw.mono ?_) ?_ | refine State.bump_keeps (hw.mono ?_) ?_ | refine State.setFld_keeps (hw.mono ?_) ?_

theorem State.calJobComplete_keeps {W : List Part} {z0 : State} {s0_ : State} {t : U64} {c : Nat}
    (hw : Within [.time, .hif, .cal, .regs, .free] W) (h : Keeps W z0 s0_) :
    Keeps W z0 (State.calJobComplete s0_ t c) := by
  unfold State.calJobComplete
  dsimp only
  with_reducible repeat' first | assumption | decide | apply Keeps.ite | refine State.at__keeps (hw.mono ?_) ?_ | refine State.compactDone_keeps (hw.mono ?_) ?_ | refine State.endCalJob_keeps (hw.mono ?_) ?_ | split

theorem State.stopCalJob_keeps {W : List Part} {z0 : State} {s : State} {j : CalJob}
    (hw : Within [.cal, .regs, .free] W) (h : Keeps W z0 s) :
    Keeps W z0 (State.stopCalJob s j) := by
  unfold State.stopCalJob
  with_reducible repeat' first | assumption | decide | refine State.bump_keeps (hw.mono ?_) ?_ | refine State.endCalJob_keeps (hw.mono ?_) ?_

theorem State.meetCalJob_keeps {W : List Part} {z0 : State} {s : State} {c : Claim}
    (hw : Within [.cal, .regs, .free] W) (h : Keeps W z0 s) :
    Keeps W z0 (State.meetCalJob s c).1 := by
  unfold State.meetCalJob
  with_reducible repeat' first | assumption | decide | refine State.stopCalJob_keeps (hw.mono ?_) ?_ | split

theorem State.lateCalJobs_keeps {W : List Part} {z0 : State} {s : State} {e_ : Nat}
    (hw : Within [.cal, .regs, .free] W) (h : Keeps W z0 s) :
    Keeps W z0 (State.lateCalJobs s e_) := by
  unfold State.lateCalJobs
  with_reducible repeat' first | assumption | decide | refine State.bump16_keeps (hw.mono ?_) ?_ | refine State.bump_keeps (hw.mono ?_) ?_ | refine State.endCalJob_keeps (hw.mono ?_) ?_ | apply Keeps.foldl | (intro _; intros) | split

theorem State.calPlace_keeps {W : List Part} {z0 : State} {s : State} {edge : Nat} {c : Nat}
    (hw : Within [.hif, .que, .cip, .cal, .rf, .regs] W) (h : Keeps W z0 s) :
    Keeps W z0 (State.calPlace s edge c) := by
  unfold State.calPlace
  dsimp only
  with_reducible repeat' first | assumption | decide | apply Keeps.ite | refine State.setCalSt_keeps (hw.mono ?_) ?_ | refine State.bump_keeps (hw.mono ?_) ?_ | refine State.claimLate_keeps (hw.mono ?_) ?_ | (refine Keeps.fields (fun p => by cases p <;> first | exact .inl (hw.mem (by decide)) | exact .inr rfl) ?_ ?_ ?_ <;> first | rfl | assumption) | apply Keeps.foldl | refine Keeps.ofFst (by assumption) ?_ | (intro _; intros) | split

theorem State.notePlaced_keeps {W : List Part} {z0 : State} {s : State} (hw : Within [.cal] W) (h : Keeps W z0 s) :
    Keeps W z0 (State.notePlaced s) := by
  unfold State.notePlaced
  with_reducible repeat' first | assumption | decide | refine State.setCalSt_keeps (hw.mono ?_) ?_

theorem State.calJobPlacement_keeps {W : List Part} {z0 : State} {s0_ : State} {t : U64}
    (hw : Within [.time, .hif, .que, .cip, .cal, .rf, .regs] W) (h : Keeps W z0 s0_) :
    Keeps W z0 (State.calJobPlacement s0_ t) := by
  unfold State.calJobPlacement
  with_reducible repeat' first | assumption | decide | apply Keeps.ite | refine State.at__keeps (hw.mono ?_) ?_ | refine State.calPlace_keeps (hw.mono ?_) ?_ | refine State.notePlaced_keeps (hw.mono ?_) ?_ | apply Keeps.foldl | (intro _; intros) | split

theorem State.calibrationSweep_keeps {W : List Part} {z0 : State} {s0_ : State} {t : U64}
    (hw : Within [.time, .cal] W) (h : Keeps W z0 s0_) :
    Keeps W z0 (State.calibrationSweep s0_ t) := by
  unfold State.calibrationSweep
  with_reducible repeat' first | assumption | decide | apply Keeps.ite | refine State.at__keeps (hw.mono ?_) ?_ | refine State.setCalSt_keeps (hw.mono ?_) ?_ | refine State.notePlaced_keeps (hw.mono ?_) ?_ | apply Keeps.foldl | (intro _; intros) | split

theorem State.holdTuned_keeps {W : List Part} {z0 : State} {s : State} {c : Nat} (hw : Within [.rf] W)
    (h : Keeps W z0 s) :
    Keeps W z0 (State.holdTuned s c) := by
  unfold State.holdTuned
  with_reducible repeat' first | assumption | decide | refine State.setRf_keeps (hw.mono ?_) ?_

theorem State.takeChain_keeps {W : List Part} {z0 : State} {s : State} {j : CalJob}
    (hw : Within [.cal, .rf, .regs, .free] W) (h : Keeps W z0 s) :
    Keeps W z0 (State.takeChain s j) := by
  unfold State.takeChain
  with_reducible repeat' first | assumption | decide | refine State.stopCalJob_keeps (hw.mono ?_) ?_ | refine State.bump_keeps (hw.mono ?_) ?_ | refine State.setCalSt_keeps (hw.mono ?_) ?_ | refine State.holdTuned_keeps (hw.mono ?_) ?_ | split

theorem State.mandatoryRecalibration_keeps {W : List Part} {z0 : State} {s0_ : State} {t : U64} {c : Nat}
    (hw : Within [.time, .cal, .rf, .regs, .free] W) (h : Keeps W z0 s0_) :
    Keeps W z0 (State.mandatoryRecalibration s0_ t c) := by
  unfold State.mandatoryRecalibration
  with_reducible repeat' first | assumption | decide | apply Keeps.ite | refine State.at__keeps (hw.mono ?_) ?_ | refine State.takeChain_keeps (hw.mono ?_) ?_ | split

theorem State.compactCalibration_keeps {W : List Part} {z0 : State} {s0_ : State} {t : U64} {c : Nat}
    (hw : Within [.time, .cal, .rf, .regs, .free] W) (h : Keeps W z0 s0_) :
    Keeps W z0 (State.compactCalibration s0_ t c) := by
  unfold State.compactCalibration
  with_reducible repeat' first | assumption | decide | apply Keeps.ite | refine State.at__keeps (hw.mono ?_) ?_ | refine State.setCalSt_keeps (hw.mono ?_) ?_ | refine State.takeChain_keeps (hw.mono ?_) ?_

theorem State.calMark_keeps {W : List Part} {z0 : State} {s : State} {c : Nat} {i : Nat} (hw : Within [.cal] W)
    (h : Keeps W z0 s) :
    Keeps W z0 (State.calMark s c i) := by
  unfold State.calMark
  with_reducible repeat' first | assumption | decide | refine State.setCalSt_keeps (hw.mono ?_) ?_

theorem State.calSynth_keeps {W : List Part} {z0 : State} {s : State} {d : Desc}
    (hw : Within [.evr, .hif, .que, .cal, .regs, .outbox, .free] W) (h : Keeps W z0 s) :
    Keeps W z0 (State.calSynth s d) := by
  unfold State.calSynth
  with_reducible repeat' first | assumption | decide | apply Keeps.ite | refine State.command_keeps (hw.mono ?_) ?_ ?_ | refine State.complete_keeps (hw.mono ?_) ?_ | refine State.calRepend_keeps (hw.mono ?_) ?_ | refine State.calMark_keeps (hw.mono ?_) ?_ | refine State.setCalSt_keeps (hw.mono ?_) ?_ | refine State.compactDueOn_keeps (hw.mono ?_) ?_ | apply Keeps.foldl | (intro _; intros) | split

theorem State.calStarve_keeps {W : List Part} {z0 : State} {s : State} (hw : Within [.cal, .regs] W)
    (h : Keeps W z0 s) :
    Keeps W z0 (State.calStarve s) := by
  unfold State.calStarve
  with_reducible repeat' first | assumption | decide | refine State.setCalSt_keeps (hw.mono ?_) ?_ | refine State.bump_keeps (hw.mono ?_) ?_ | apply Keeps.foldl | (intro _; intros) | split

theorem State.calTick_keeps {W : List Part} {z0 : State} {s : State} {temps : List Int}
    (hw : Within [.cal, .regs] W) (h : Keeps W z0 s) :
    Keeps W z0 (State.calTick s temps) := by
  unfold State.calTick
  extract_lets s2
  have h2 : Keeps W z0 s2 := Keeps.foldl (fun _ _ h => State.setFld_keeps (hw.mono rfl) h) h
  clear_value s2
  refine Keeps.ite h2 (Keeps.ite (State.calStarve_keeps (hw.mono rfl) (State.calRepend_keeps (hw.mono rfl) h2))
    (Keeps.foldl (fun s c h => ?_) h2))
  split
  · exact Keeps.ite (State.compactDueOn_keeps (hw.mono rfl) h) h
  · exact h

theorem State.crowdWindowEnd_keeps {W : List Part} {z0 : State} {s0_ : State} {t : U64}
    (hw : Within [.time, .cal, .regs] W) (h : Keeps W z0 s0_) :
    Keeps W z0 (State.crowdWindowEnd s0_ t) := by
  unfold State.crowdWindowEnd
  with_reducible repeat' first | assumption | decide | apply Keeps.ite | refine State.at__keeps (hw.mono ?_) ?_ | refine State.setReg_keeps (hw.mono ?_) ?_ | (refine Keeps.set_cal (hw.mem (by decide)) ?_; first | assumption | apply Keeps.ite | refine State.at__keeps (hw.mono ?_) ?_ | refine State.setReg_keeps (hw.mono ?_) ?_ | split) | split

theorem State.crowdTick_keeps {W : List Part} {z0 : State} {s : State} (hw : Within [.cal, .regs] W)
    (h : Keeps W z0 s) :
    Keeps W z0 (State.crowdTick s) := by
  unfold State.crowdTick
  with_reducible repeat' first | assumption | decide | refine State.setReg_keeps (hw.mono ?_) ?_ | refine State.setCalSt_keeps (hw.mono ?_) ?_ | split

theorem State.iqTick_keeps {W : List Part} {z0 : State} {s : State} {b : Nat} {e_ : IqEstimate}
    (hw : Within [.cal, .regs] W) (h : Keeps W z0 s) :
    Keeps W z0 (State.iqTick s b e_) := by
  unfold State.iqTick
  with_reducible repeat' first | assumption | decide | apply Keeps.ite | refine State.setReg_keeps (hw.mono ?_) ?_ | refine State.setCalSt_keeps (hw.mono ?_) ?_ | refine State.setFld_keeps (hw.mono ?_) ?_

theorem State.iqFrame_keeps {W : List Part} {z0 : State} {s : State} {b : Nat} {power : Int} (hw : Within [.cal] W)
    (h : Keeps W z0 s) :
    Keeps W z0 (State.iqFrame s b power) := by
  unfold State.iqFrame
  with_reducible repeat' first | assumption | decide | apply Keeps.ite | refine State.setCalSt_keeps (hw.mono ?_) ?_

theorem State.observeCarrier_keeps {W : List Part} {z0 : State} {s : State} {c : Claim} {err : Int}
    (hw : Within [.cal, .regs] W) (h : Keeps W z0 s) :
    Keeps W z0 (State.observeCarrier s c err) := by
  unfold State.observeCarrier
  with_reducible repeat' first | assumption | decide | apply Keeps.ite | refine State.bump_keeps (hw.mono ?_) ?_ | refine State.calRepend_keeps (hw.mono ?_) ?_ | refine State.calMark_keeps (hw.mono ?_) ?_ | refine State.compactDueOn_keeps (hw.mono ?_) ?_

theorem State.calEntryDataRead_keeps {W : List Part} {z0 : State} {s : State} (hw : Within [.regs] W)
    (h : Keeps W z0 s) :
    Keeps W z0 (State.calEntryDataRead s) := by
  unfold State.calEntryDataRead
  with_reducible repeat' first | assumption | decide | refine State.setReg_keeps (hw.mono ?_) ?_ | apply Keeps.foldl | (intro _; intros) | split

theorem State.purgeClaims_keeps {W : List Part} {z0 : State} {s : State} (hw : Within [.rf] W) (h : Keeps W z0 s) :
    Keeps W z0 (State.purgeClaims s) := by
  unfold State.purgeClaims
  with_reducible repeat' first | assumption | decide | refine State.setRf_keeps (hw.mono ?_) ?_

theorem State.txForget_keeps {W : List Part} {z0 : State} {s : State} {x : TxDesc}
    (hw : Within [.hif, .que, .cip, .rf, .regs] W) (h : Keeps W z0 s) :
    Keeps W z0 (State.txForget s x) := by
  unfold State.txForget
  with_reducible repeat' first | assumption | decide | refine State.txComplete_keeps (hw.mono ?_) ?_

theorem State.settleOrphans_keeps {W : List Part} {z0 : State} {s : State}
    (hw : Within [.hif, .que, .cip, .rf, .regs] W) (h : Keeps W z0 s) :
    Keeps W z0 (State.settleOrphans s) := by
  unfold State.settleOrphans
  with_reducible repeat' first | assumption | decide | refine State.txComplete_keeps (hw.mono ?_) ?_ | (refine Keeps.set_que (hw.mem (by decide)) ?_; assumption) | apply Keeps.foldl | (intro _; intros) | split

theorem State.displace_keeps {W : List Part} {z0 : State} {s : State} {l : List Claim}
    (hw : Within [.hif, .que, .cip, .rf, .regs] W) (h : Keeps W z0 s) :
    Keeps W z0 (State.displace s l) := by
  unfold State.displace
  with_reducible repeat' first | assumption | decide | refine State.bump_keeps (hw.mono ?_) ?_ | refine State.claimLate_keeps (hw.mono ?_) ?_ | apply Keeps.foldl | (intro _; intros) | split

theorem State.makeClaim_keeps {W : List Part} {z0 : State} {s0_ : State} {c0 : Claim}
    (hw : Within [.hif, .que, .cip, .rf, .regs] W) (h : Keeps W z0 s0_) :
    Keeps W z0 (State.makeClaim s0_ c0).1 := by
  unfold State.makeClaim
  dsimp only
  with_reducible repeat' first | assumption | decide | apply Keeps.ite | refine State.purgeClaims_keeps (hw.mono ?_) ?_ | refine State.setRf_keeps (hw.mono ?_) ?_ | refine State.displace_keeps (hw.mono ?_) ?_ | split

theorem State.txRefuse_keeps {W : List Part} {z0 : State} {s : State} {ring : Nat} {count : Nat} {d : Desc}
    {st : Status} (hw : Within [.hif] W) (h : Keeps W z0 s) :
    Keeps W z0 (State.txRefuse s ring count d st) := by
  unfold State.txRefuse
  with_reducible repeat' first | assumption | decide | refine State.hold_keeps (hw.mono ?_) ?_

theorem State.lookupMesh_keeps {W : List Part} {z0 : State} {s : State} {dst : BitVec 128} (hw : Within [.regs] W)
    (h : Keeps W z0 s) :
    Keeps W z0 (State.lookupMesh s dst).1 := by
  unfold State.lookupMesh
  with_reducible repeat' first | assumption | decide | refine State.bump_keeps (hw.mono ?_) ?_ | split

theorem State.lookupNode_keeps {W : List Part} {z0 : State} {s : State} {dst : BitVec 128} (hw : Within [.regs] W)
    (h : Keeps W z0 s) :
    Keeps W z0 (State.lookupNode s dst).1 := by
  unfold State.lookupNode
  with_reducible repeat' first | assumption | decide | refine State.bump_keeps (hw.mono ?_) ?_ | split

theorem State.txAccept_keeps {W : List Part} {z0 : State} {s : State} {ring : Nat} {count : Nat} {d : Desc}
    {data : List Byte} (hw : Within [.evr, .hif, .spanc, .tbl, .que, .cip, .rf, .regs, .ctxs, .outbox, .free] W)
    (h : Keeps W z0 s) :
    Keeps W z0 (State.txAccept s ring count d data) := by
  unfold State.txAccept
  with_reducible repeat' first | assumption | decide | apply Keeps.ite | refine State.txRefuse_keeps (hw.mono ?_) ?_ | refine State.lookupMesh_keeps (hw.mono ?_) ?_ | refine State.hold_keeps (hw.mono ?_) ?_ | refine State.setFld_keeps (hw.mono ?_) ?_ | refine State.startFlood_keeps (hw.mono ?_) ?_ | refine State.floodSeen_keeps (hw.mono ?_) ?_ | refine State.sendTo_keeps (hw.mono ?_) ?_ | refine State.lookupNode_keeps (hw.mono ?_) ?_ | split

theorem State.heardOn_keeps {W : List Part} {z0 : State} {s : State} {b : Nat} {ch : Nat} (hw : Within [.rf] W)
    (h : Keeps W z0 s) :
    Keeps W z0 (State.heardOn s b ch) := by
  unfold State.heardOn
  with_reducible repeat' first | assumption | decide | refine State.setRf_keeps (hw.mono ?_) ?_

theorem State.resolve_keeps {W : List Part} {z0 : State} {s : State} {a : AirFrame}
    (hw : Within [.evr, .hif, .que, .regs, .ctxs, .outbox, .free] W) (h : Keeps W z0 s) :
    Keeps W z0 (State.resolve s a).1 := by
  unfold State.resolve
  dsimp only
  with_reducible repeat' first | assumption | decide | apply Keeps.ite | refine State.fetchCtx_keeps (hw.mono ?_) ?_ | (refine Keeps.fields (fun p => by cases p <;> first | exact .inl (hw.mem (by decide)) | exact .inr rfl) ?_ ?_ ?_ <;> first | rfl | assumption) | refine Keeps.ofFst (by assumption) ?_ | split

theorem State.crowdSample_keeps {W : List Part} {z0 : State} {s : State} {f : RxFrame} (hw : Within [.cal] W)
    (h : Keeps W z0 s) :
    Keeps W z0 (State.crowdSample s f) := by
  unfold State.crowdSample
  with_reducible repeat' first | assumption | decide | apply Keeps.ite | (refine Keeps.set_cal (hw.mem (by decide)) ?_; assumption)

theorem State.afterPass_keeps {W : List Part} {z0 : State} {s : State} {id : Nat}
    (hw : Within [.evr, .hif, .spanc, .tbl, .que, .tol, .cip, .rf, .regs, .ctxs, .outbox, .free] W)
    (h : Keeps W z0 s) :
    Keeps W z0 (State.afterPass s id) := by
  unfold State.afterPass
  with_reducible repeat' first | assumption | decide | refine State.release_keeps (hw.mono ?_) ?_ | refine State.setFrame_keeps (hw.mono ?_) ?_ | refine State.settleAck_keeps (hw.mono ?_) ?_ | refine State.releaseAck_keeps (hw.mono ?_) ?_ | refine State.bump_keeps (hw.mono ?_) ?_ | split

theorem State.learn_keeps {W : List Part} {z0 : State} {s : State} {id : Nat}
    (hw : Within [.evr, .hif, .spanc, .tbl, .que, .rf, .regs, .outbox, .free] W) (h : Keeps W z0 s) :
    Keeps W z0 (State.learn s id) := by
  unfold State.learn
  with_reducible repeat' first | assumption | decide | apply Keeps.ite | refine State.learnKey_keeps (hw.mono ?_) ?_ | refine State.setFrame_keeps (hw.mono ?_) ?_ | refine State.bump_keeps (hw.mono ?_) ?_ | (refine Keeps.set_tbl (hw.mem (by decide)) ?_; first | assumption | apply Keeps.ite | refine State.learnKey_keeps (hw.mono ?_) ?_ | refine State.setFrame_keeps (hw.mono ?_) ?_ | refine State.bump_keeps (hw.mono ?_) ?_ | split) | split

theorem State.acceptFrame_keeps {W : List Part} {z0 : State} {s : State} {f0 : RxFrame}
    (hw : Within [.evr, .hif, .spanc, .tbl, .que, .tol, .cip, .cal, .rf, .regs, .ctxs, .outbox, .free] W)
    (h : Keeps W z0 s) :
    Keeps W z0 (State.acceptFrame s f0) := by
  unfold State.acceptFrame
  with_reducible repeat' first | assumption | decide | refine State.setFrame_keeps (hw.mono ?_) ?_ | refine State.bump_keeps (hw.mono ?_) ?_ | refine State.crowdSample_keeps (hw.mono ?_) ?_ | refine State.updCtx_keeps (hw.mono ?_) ?_ | refine State.afterPass_keeps (hw.mono ?_) ?_ | refine State.learn_keeps (hw.mono ?_) ?_

theorem State.stage4InOrder_keeps {W : List Part} {z0 : State} {s : State} {f : RxFrame}
    (hw : Within [.evr, .hif, .que, .key, .cip, .rf, .regs, .ctxs, .outbox, .free] W) (h : Keeps W z0 s) :
    Keeps W z0 (State.stage4InOrder s f) := by
  unfold State.stage4InOrder
  with_reducible repeat' first | assumption | decide | apply Keeps.ite | refine State.setFrame_keeps (hw.mono ?_) ?_ | refine State.resumeFrames_keeps (hw.mono ?_) ?_ | refine State.stage4_keeps (hw.mono ?_) ?_

theorem State.unsecured_keeps {W : List Part} {z0 : State} {s : State} {f0 : RxFrame}
    (hw : Within [.evr, .hif, .spanc, .tbl, .que, .tol, .cip, .rf, .regs, .ctxs, .outbox, .free] W)
    (h : Keeps W z0 s) :
    Keeps W z0 (State.unsecured s f0) := by
  unfold State.unsecured
  with_reducible repeat' first | assumption | decide | apply Keeps.ite | refine State.bump_keeps (hw.mono ?_) ?_ | refine State.endFrame_keeps (hw.mono ?_) ?_ | refine State.ackFields_keeps (hw.mono ?_) ?_ | refine State.afterPass_keeps (hw.mono ?_) ?_ | refine State.setFrame_keeps (hw.mono ?_) ?_

theorem State.stage3_keeps {W : List Part} {z0 : State} {s : State} {f : RxFrame}
    (hw : Within [.evr, .hif, .spanc, .tbl, .que, .tol, .key, .cip, .rf, .regs, .ctxs, .outbox, .free] W)
    (h : Keeps W z0 s) :
    Keeps W z0 (State.stage3 s f) := by
  unfold State.stage3
  dsimp only
  with_reducible repeat' first | assumption | decide | apply Keeps.ite | refine State.resolve_keeps (hw.mono ?_) ?_ | refine State.endFrame_keeps (hw.mono ?_) ?_ | refine State.unsecured_keeps (hw.mono ?_) ?_ | refine State.failFrame_keeps (hw.mono ?_) ?_ | refine State.stage4InOrder_keeps (hw.mono ?_) ?_ | (refine Keeps.fields (fun p => by cases p <;> first | exact .inl (hw.mem (by decide)) | with_unfolding_all exact .inr rfl) ?_ ?_ ?_ <;> first | rfl | assumption) | refine Keeps.ofFst (by assumption) ?_ | split

theorem State.setFc_keeps {W : List Part} {z0 : State} {s : State} {k : FcKind} {v : Word}
    (hw : Within [.regs, .ctxs] W) (h : Keeps W z0 s) :
    Keeps W z0 (State.setFc s k v) := by
  unfold State.setFc
  with_reducible repeat' first | assumption | decide | refine State.updCtx_keeps (hw.mono ?_) ?_ | refine State.setReg_keeps (hw.mono ?_) ?_ | split

theorem State.raiseFc_keeps {W : List Part} {z0 : State} {s : State} {k : FcKind} {fc : Word}
    (hw : Within [.regs, .ctxs] W) (h : Keeps W z0 s) :
    Keeps W z0 (State.raiseFc s k fc) := by
  unfold State.raiseFc
  with_reducible repeat' first | assumption | decide | apply Keeps.ite | refine State.bump_keeps (hw.mono ?_) ?_ | refine State.setFc_keeps (hw.mono ?_) ?_

theorem State.overheardBeacon_keeps {W : List Part} {z0 : State} {s : State} {f : RxFrame}
    (hw : Within [.hif, .que, .cip, .rf, .regs, .ctxs] W) (h : Keeps W z0 s) :
    Keeps W z0 (State.overheardBeacon s f) := by
  unfold State.overheardBeacon
  with_reducible repeat' first | assumption | decide | apply Keeps.ite | refine State.heardOn_keeps (hw.mono ?_) ?_ | refine State.endFrame_keeps (hw.mono ?_) ?_ | refine State.raiseFc_keeps (hw.mono ?_) ?_ | refine State.failFrame_keeps (hw.mono ?_) ?_

theorem State.overheardData_keeps {W : List Part} {z0 : State} {s : State} {f : RxFrame} {t_}
    (hw : Within [.evr, .hif, .que, .cip, .rf, .regs, .ctxs, .outbox, .free] W)
    (e : (State.overheardData s f) = some t_) (h : Keeps W z0 s) :
    Keeps W z0 t_ := by
  unfold State.overheardData at e
  dsimp only at e
  repeat' split at e
  all_goals first | (cases e; done) | cases e | skip
  with_reducible repeat' first | assumption | decide | apply Keeps.ite | refine State.endFrame_keeps (hw.mono ?_) ?_ | refine State.raiseFc_keeps (hw.mono ?_) ?_ | refine State.resolve_keeps (hw.mono ?_) ?_ | (refine Keeps.fields (fun p => by cases p <;> first | exact .inl (hw.mem (by decide)) | exact .inr rfl) ?_ ?_ ?_ <;> first | rfl | assumption) | refine Keeps.ofFst (by assumption) ?_ | split

theorem State.parentBeacon_keeps {W : List Part} {z0 : State} {s : State} {f : RxFrame} {adj : Int}
    (hw : Within [.time, .evr, .hif, .que, .cip, .rf, .regs, .ctxs, .outbox, .free] W) (h : Keeps W z0 s) :
    Keeps W z0 (State.parentBeacon s f adj) := by
  unfold State.parentBeacon
  with_reducible repeat' first | assumption | decide | apply Keeps.ite | refine State.failFrame_keeps (hw.mono ?_) ?_ | refine State.setTime_keeps (hw.mono ?_) ?_ | refine State.heardOn_keeps (hw.mono ?_) ?_ | refine State.endFrame_keeps (hw.mono ?_) ?_ | refine State.measure_keeps (hw.mono ?_) ?_ | refine post_keeps (hw.mono ?_) ?_

theorem State.frameDone_keeps {W : List Part} {z0 : State} {s : State} {x : TxDesc}
    (hw : Within [.evr, .hif, .que, .cip, .rf, .regs, .outbox, .free] W) (h : Keeps W z0 s) :
    Keeps W z0 (State.frameDone s x) := by
  unfold State.frameDone
  with_reducible repeat' first | assumption | decide | apply Keeps.ite | refine State.txComplete_keeps (hw.mono ?_) ?_ | refine State.freeOwned_keeps (hw.mono ?_) ?_ | refine State.queueFrame_keeps (hw.mono ?_) ?_ | refine State.setDesc_keeps (hw.mono ?_) ?_

theorem State.ackAccepted_keeps {W : List Part} {z0 : State} {s : State} {w : AckWait}
    (hw : Within [.evr, .hif, .que, .cip, .rf, .regs, .ctxs, .outbox, .free] W) (h : Keeps W z0 s) :
    Keeps W z0 (State.ackAccepted s w) := by
  unfold State.ackAccepted
  dsimp only
  with_reducible repeat' first | assumption | decide | apply Keeps.ite | refine State.setRf_keeps (hw.mono ?_) ?_ | refine State.updCtx_keeps (hw.mono ?_) ?_ | refine State.bump_keeps (hw.mono ?_) ?_ | refine State.frameDone_keeps (hw.mono ?_) ?_ | split

theorem State.ackRx_keeps {W : List Part} {z0 : State} {s : State} {f : RxFrame}
    (hw : Within [.evr, .hif, .que, .cip, .rf, .regs, .ctxs, .outbox, .free] W) (h : Keeps W z0 s) :
    Keeps W z0 (State.ackRx s f) := by
  unfold State.ackRx
  with_reducible repeat' first | assumption | decide | refine State.endFrame_keeps (hw.mono ?_) ?_ | refine State.ackAccepted_keeps (hw.mono ?_) ?_ | refine State.fetchCtx_keeps (hw.mono ?_) ?_ | refine State.setFrame_keeps (hw.mono ?_) ?_ | refine State.queueJob_keeps (hw.mono ?_) ?_ | refine Keeps.ofFst (by assumption) ?_ | split

theorem State.macFrameRx_keeps {W : List Part} {z0 : State} {s : State} {id : Nat} {adj : Int}
    (hw : Within [.time, .evr, .hif, .spanc, .tbl, .que, .tol, .key, .cip, .rf, .regs, .ctxs, .outbox, .free] W)
    (h : Keeps W z0 s) :
    Keeps W z0 (State.macFrameRx s id adj) := by
  unfold State.macFrameRx
  with_reducible repeat' first | assumption | decide | apply Keeps.ite | refine State.resumeFrames_keeps (hw.mono ?_) ?_ | refine State.parentBeacon_keeps (hw.mono ?_) ?_ | refine State.overheardBeacon_keeps (hw.mono ?_) ?_ | refine State.failFrame_keeps (hw.mono ?_) ?_ | refine State.ackRx_keeps (hw.mono ?_) ?_ | refine State.stage3_keeps (hw.mono ?_) ?_ | refine State.overheardData_keeps (hw.mono ?_) (by assumption) ?_ | split

theorem State.txKeys_keeps {W : List Part} {z0 : State} {s : State} {n : Nat} {c : Ctx}
    (hw : Within [.key, .regs, .ctxs] W) (h : Keeps W z0 s) :
    Keeps W z0 (State.txKeys s n c).1 := by
  unfold State.txKeys
  with_reducible repeat' first | assumption | decide | refine State.updCtx_keeps (hw.mono ?_) ?_ | refine State.nodeKeys_keeps (hw.mono ?_) ?_ | refine State.deriveNode_keeps (hw.mono ?_) ?_ | refine Keeps.ofFst (by assumption) ?_ | split

theorem State.bindFc_keeps {W : List Part} {z0 : State} {s : State} {k : FcKind}
    (hw : Within [.evr, .hif, .que, .rf, .regs, .ctxs, .outbox, .free] W) (h : Keeps W z0 s) :
    Keeps W z0 (State.bindFc s k).1 := by
  unfold State.bindFc
  with_reducible repeat' first | assumption | decide | apply Keeps.iteFst | refine State.bump_keeps (hw.mono ?_) ?_ | refine post_keeps (hw.mono ?_) ?_ | refine State.setFc_keeps (hw.mono ?_) ?_ | (refine Keeps.set_rf (hw.mem (by decide)) ?_; assumption) | apply Keeps.foldl | apply Keeps.foldlFst | (intro _; intros) | split

theorem State.bindTx_keeps {W : List Part} {z0 : State} {s : State} {c : Claim}
    (hw : Within [.evr, .hif, .que, .key, .rf, .regs, .ctxs, .outbox, .free] W) (h : Keeps W z0 s) :
    Keeps W z0 (State.bindTx s c).1 := by
  unfold State.bindTx
  dsimp only
  with_reducible repeat' first | assumption | decide | apply Keeps.ite | refine State.bindFc_keeps (hw.mono ?_) ?_ | refine State.fetchCtx_keeps (hw.mono ?_) ?_ | refine State.txKeys_keeps (hw.mono ?_) ?_ | (refine Keeps.fields (fun p => by cases p <;> first | exact .inl (hw.mem (by decide)) | exact .inr rfl) ?_ ?_ ?_ <;> first | rfl | assumption) | refine Keeps.ofFst (by assumption) ?_ | split

theorem State.dispatchTx_keeps {W : List Part} {z0 : State} {s : State} {u : Nat} {j : CipJob} {aged : Bool}
    {id : Nat} (hw : Within [.evr, .hif, .spanc, .tbl, .que, .tol, .key, .cip, .rf, .regs, .ctxs, .outbox, .free] W)
    (h : Keeps W z0 s) :
    Keeps W z0 (State.dispatchTx s u j aged id) := by
  unfold State.dispatchTx
  with_reducible repeat' first | assumption | decide | refine State.startRun_keeps (hw.mono ?_) ?_ | refine State.unqueue_keeps (hw.mono ?_) ?_ | refine State.bindTx_keeps (hw.mono ?_) ?_ | refine State.endMacJob_keeps (hw.mono ?_) ?_ | refine Keeps.ofFst (by assumption) ?_ | split

theorem State.dispatchRx_keeps {W : List Part} {z0 : State} {s : State} {u : Nat} {j : CipJob} {aged : Bool}
    {id : Nat} (hw : Within [.evr, .hif, .spanc, .tbl, .que, .tol, .key, .cip, .rf, .regs, .ctxs, .outbox, .free] W)
    (h : Keeps W z0 s) :
    Keeps W z0 (State.dispatchRx s u j aged id) := by
  unfold State.dispatchRx
  with_reducible repeat' first | assumption | decide | refine State.startRun_keeps (hw.mono ?_) ?_ | refine State.unqueue_keeps (hw.mono ?_) ?_ | refine State.bindFc_keeps (hw.mono ?_) ?_ | refine State.endMacJob_keeps (hw.mono ?_) ?_ | refine State.setFrame_keeps (hw.mono ?_) ?_ | refine Keeps.ofFst (by assumption) ?_ | split

theorem State.attestDispatch_keeps {W : List Part} {z0 : State} {s : State} {u : Nat} {j : CipJob} {aged : Bool}
    (hw : Within [.cip, .boot, .regs] W) (h : Keeps W z0 s) :
    Keeps W z0 (State.attestDispatch s u j aged) := by
  unfold State.attestDispatch
  with_reducible repeat' first | assumption | decide | refine State.startRun_keeps (hw.mono ?_) ?_ | refine State.setUnit_keeps (hw.mono ?_) ?_ | (refine Keeps.set_boot (hw.mem (by decide)) ?_; assumption) | split

theorem State.cipherDispatch_keeps {W : List Part} {z0 : State} {s0_ : State} {t : U64} {u : Nat}
    (hw : Within [.time, .evr, .hif, .spanc, .tbl, .que, .tol, .key, .cip, .rf, .red, .boot, .regs, .ctxs, .outbox, .free] W) (h : Keeps W z0 s0_) :
    Keeps W z0 (State.cipherDispatch s0_ t u) := by
  unfold State.cipherDispatch
  with_reducible repeat' first | assumption | decide | apply Keeps.ite | refine State.at__keeps (hw.mono ?_) ?_ | refine State.settleAir_keeps (hw.mono ?_) ?_ | refine State.resumeFrames_keeps (hw.mono ?_) ?_ | refine State.dispatchTx_keeps (hw.mono ?_) ?_ | refine State.dispatchRx_keeps (hw.mono ?_) ?_ | refine State.attestDispatch_keeps (hw.mono ?_) ?_ | refine State.startRun_keeps (hw.mono ?_) ?_ | split

theorem State.txReady_keeps {W : List Part} {z0 : State} {s : State} {j : CipJob} {out : List Byte}
    {tag : List Byte} {id : Nat} (hw : Within [.rf] W) (h : Keeps W z0 s) :
    Keeps W z0 (State.txReady s j out tag id) := by
  unfold State.txReady
  with_reducible repeat' first | assumption | decide | refine State.setClaim_keeps (hw.mono ?_) ?_ | split

theorem State.rxChecked_keeps {W : List Part} {z0 : State} {s : State} {st : Status} {out : List Byte} {id : Nat}
    (hw : Within [.evr, .hif, .spanc, .tbl, .que, .tol, .key, .cip, .cal, .rf, .regs, .ctxs, .outbox, .free] W)
    (h : Keeps W z0 s) :
    Keeps W z0 (State.rxChecked s st out id) := by
  unfold State.rxChecked
  with_reducible repeat' first | assumption | decide | refine State.endFrame_keeps (hw.mono ?_) ?_ | refine State.ackAccepted_keeps (hw.mono ?_) ?_ | refine State.afterPass_keeps (hw.mono ?_) ?_ | refine State.setFrame_keeps (hw.mono ?_) ?_ | refine State.acceptFrame_keeps (hw.mono ?_) ?_ | refine State.failFrame_keeps (hw.mono ?_) ?_ | refine State.resumeFrames_keeps (hw.mono ?_) ?_ | split

theorem State.freeUnit_keeps {W : List Part} {z0 : State} {s : State} {u : Nat}
    (hw : Within [.evr, .hif, .que, .cip, .regs, .mem, .outbox, .free] W) (h : Keeps W z0 s) :
    Keeps W z0 (State.freeUnit s u) := by
  unfold State.freeUnit
  with_reducible repeat' first | assumption | decide | apply Keeps.ite | refine State.setUnit_keeps (hw.mono ?_) ?_ | refine State.noCoreLeft_keeps (hw.mono ?_) ?_

theorem State.afterTest_keeps {W : List Part} {z0 : State} {s : State} {x : CipUnit}
    (hw : Within [.time, .evr, .hif, .spanc, .tbl, .que, .tol, .key, .cip, .rf, .red, .regs, .ctxs, .outbox, .free] W) (h : Keeps W z0 s) :
    Keeps W z0 (State.afterTest s x) := by
  unfold State.afterTest
  with_reducible repeat' first | assumption | decide | apply Keeps.ite | refine State.settleAir_keeps (hw.mono ?_) ?_ | refine State.flushMac_keeps (hw.mono ?_) ?_

theorem State.cipherJobComplete_keeps {W : List Part} {z0 : State} {attestEnd : State → Status → List Byte → State}
    {s0_ : State} {t : U64} {u : Nat}
    (hw : Within [.time, .evr, .hif, .spanc, .tbl, .que, .tol, .key, .cip, .cal, .rf, .red, .regs, .ctxs, .mem, .outbox, .free] W) (h_attestEnd : ∀ b0 b1 b2, Keeps W z0 b0 → Keeps W z0 (attestEnd b0 b1 b2)) (h : Keeps W z0 s0_) :
    Keeps W z0 (State.cipherJobComplete attestEnd s0_ t u) := by
  unfold State.cipherJobComplete
  dsimp only
  with_reducible repeat' first | assumption | decide | apply Keeps.ite | apply h_attestEnd | refine State.at__keeps (hw.mono ?_) ?_ | refine State.freeUnit_keeps (hw.mono ?_) ?_ | refine State.bump_keeps (hw.mono ?_) ?_ | refine State.voidJob_keeps (hw.mono ?_) ?_ | refine State.afterTest_keeps (hw.mono ?_) ?_ | refine State.endHostJob_keeps (hw.mono ?_) ?_ | refine State.settleAir_keeps (hw.mono ?_) ?_ | refine State.flushMac_keeps (hw.mono ?_) ?_ | refine State.txReady_keeps (hw.mono ?_) ?_ | refine State.countJob_keeps (hw.mono ?_) ?_ | refine State.rxChecked_keeps (hw.mono ?_) ?_ | split

theorem State.jobLate_keeps {W : List Part} {z0 : State} {s0_ : State} {t : U64} {id : Nat}
    (hw : Within [.time, .evr, .hif, .spanc, .tbl, .que, .tol, .cip, .rf, .red, .regs, .ctxs, .mem, .outbox, .free] W) (h : Keeps W z0 s0_) :
    Keeps W z0 (State.jobLate s0_ t id) := by
  unfold State.jobLate
  dsimp only
  with_reducible repeat' first | assumption | decide | apply Keeps.ite | refine State.at__keeps (hw.mono ?_) ?_ | refine State.endHostJob_keeps (hw.mono ?_) ?_ | refine State.voidJob_keeps (hw.mono ?_) ?_ | refine State.settleAir_keeps (hw.mono ?_) ?_ | refine State.claimFails_keeps (hw.mono ?_) ?_ | refine State.countLate_keeps (hw.mono ?_) ?_ | refine State.countJob_keeps (hw.mono ?_) ?_ | refine State.setFrame_keeps (hw.mono ?_) ?_ | refine State.releaseAck_keeps (hw.mono ?_) ?_ | split

theorem State.slowMark_keeps {W : List Part} {z0 : State} {s0_ : State} {t : U64} {u : Nat}
    (hw : Within [.time, .evr, .hif, .spanc, .tbl, .que, .tol, .key, .cip, .rf, .red, .regs, .ctxs, .mem, .outbox, .free] W) (h : Keeps W z0 s0_) :
    Keeps W z0 (State.slowMark s0_ t u) := by
  unfold State.slowMark
  with_reducible repeat' first | assumption | decide | apply Keeps.ite | refine State.at__keeps (hw.mono ?_) ?_ | refine State.bump16_keeps (hw.mono ?_) ?_ | refine State.bump_keeps (hw.mono ?_) ?_ | refine State.setUnit_keeps (hw.mono ?_) ?_ | refine post_keeps (hw.mono ?_) ?_ | refine State.settleAir_keeps (hw.mono ?_) ?_ | refine State.flushMac_keeps (hw.mono ?_) ?_ | refine State.noCoreLeft_keeps (hw.mono ?_) ?_ | (refine Keeps.set_cip (hw.mem (by decide)) ?_; first | assumption | apply Keeps.ite | refine State.at__keeps (hw.mono ?_) ?_ | refine State.bump16_keeps (hw.mono ?_) ?_ | refine State.bump_keeps (hw.mono ?_) ?_ | refine State.setUnit_keeps (hw.mono ?_) ?_ | refine post_keeps (hw.mono ?_) ?_ | refine State.settleAir_keeps (hw.mono ?_) ?_ | refine State.flushMac_keeps (hw.mono ?_) ?_ | refine State.noCoreLeft_keeps (hw.mono ?_) ?_ | split) | split

theorem State.stopRun_keeps {W : List Part} {z0 : State} {attestEnd : State → Status → List Byte → State}
    {s : State} {u : Nat}
    (hw : Within [.time, .evr, .hif, .spanc, .tbl, .que, .tol, .key, .cip, .rf, .red, .regs, .ctxs, .mem, .outbox, .free] W) (h_attestEnd : ∀ b0 b1 b2, Keeps W z0 b0 → Keeps W z0 (attestEnd b0 b1 b2)) (h : Keeps W z0 s) :
    Keeps W z0 (State.stopRun attestEnd s u) := by
  unfold State.stopRun
  with_reducible repeat' first | assumption | decide | apply Keeps.ite | apply h_attestEnd | refine State.setUnit_keeps (hw.mono ?_) ?_ | refine State.endHostJob_keeps (hw.mono ?_) ?_ | refine State.countJob_keeps (hw.mono ?_) ?_ | refine State.settleAir_keeps (hw.mono ?_) ?_ | refine State.endMacJob_keeps (hw.mono ?_) ?_ | split

theorem State.slowStop_keeps {W : List Part} {z0 : State} {attestEnd : State → Status → List Byte → State}
    {s0_ : State} {t : U64} {u : Nat}
    (hw : Within [.time, .evr, .hif, .spanc, .tbl, .que, .tol, .key, .cip, .rf, .red, .regs, .ctxs, .mem, .outbox, .free] W) (h_attestEnd : ∀ b0 b1 b2, Keeps W z0 b0 → Keeps W z0 (attestEnd b0 b1 b2)) (h : Keeps W z0 s0_) :
    Keeps W z0 (State.slowStop attestEnd s0_ t u) := by
  unfold State.slowStop
  dsimp only
  with_reducible repeat' first | assumption | decide | apply Keeps.ite | apply h_attestEnd | refine State.at__keeps (hw.mono ?_) ?_ | refine State.freeUnit_keeps (hw.mono ?_) ?_ | refine State.stopRun_keeps (hw.mono ?_) ?_ ?_ | refine State.setUnit_keeps (hw.mono ?_) ?_ | split

theorem State.beginTest_keeps {W : List Part} {z0 : State} {attestEnd : State → Status → List Byte → State}
    {s : State} {u : Nat} {d : Desc}
    (hw : Within [.time, .evr, .hif, .spanc, .tbl, .que, .tol, .key, .cip, .rf, .red, .regs, .ctxs, .mem, .outbox, .free] W) (h_attestEnd : ∀ b0 b1 b2, Keeps W z0 b0 → Keeps W z0 (attestEnd b0 b1 b2)) (h : Keeps W z0 s) :
    Keeps W z0 (State.beginTest attestEnd s u d) := by
  unfold State.beginTest
  with_reducible repeat' first | assumption | decide | apply Keeps.ite | apply h_attestEnd | refine State.setUnit_keeps (hw.mono ?_) ?_ | refine State.stopRun_keeps (hw.mono ?_) ?_ ?_ | refine State.settleAir_keeps (hw.mono ?_) ?_ | refine State.flushMac_keeps (hw.mono ?_) ?_ | refine State.noCoreLeft_keeps (hw.mono ?_) ?_

theorem State.cipSelfTest_keeps {W : List Part} {z0 : State} {attestEnd : State → Status → List Byte → State}
    {s : State} {d : Desc}
    (hw : Within [.time, .evr, .hif, .spanc, .tbl, .que, .tol, .key, .cip, .rf, .red, .regs, .ctxs, .mem, .outbox, .free] W) (h_attestEnd : ∀ b0 b1 b2, Keeps W z0 b0 → Keeps W z0 (attestEnd b0 b1 b2)) (h : Keeps W z0 s) :
    Keeps W z0 (State.cipSelfTest attestEnd s d) := by
  unfold State.cipSelfTest
  with_reducible repeat' first | assumption | decide | apply h_attestEnd | refine State.command_keeps (hw.mono ?_) ?_ ?_ | refine State.complete_keeps (hw.mono ?_) ?_ | refine State.rejectState_keeps (hw.mono ?_) ?_ | refine State.beginTest_keeps (hw.mono ?_) ?_ ?_ | apply Keeps.foldl | (intro _; intros) | split

theorem State.selfTestComplete_keeps {W : List Part} {z0 : State} {s0_ : State} {t : U64} {u : Nat} {pass : Bool}
    (hw : Within [.time, .evr, .hif, .que, .cip, .regs, .outbox, .free] W) (h : Keeps W z0 s0_) :
    Keeps W z0 (State.selfTestComplete s0_ t u pass) := by
  unfold State.selfTestComplete
  with_reducible repeat' first | assumption | decide | apply Keeps.ite | refine State.at__keeps (hw.mono ?_) ?_ | refine State.selfTestEnd_keeps (hw.mono ?_) ?_ | refine State.settleAir_keeps (hw.mono ?_) ?_ | refine State.flushMac_keeps (hw.mono ?_) ?_ | refine State.noCoreLeft_keeps (hw.mono ?_) ?_

theorem State.reassemblyTimeout_keeps {W : List Part} {z0 : State} {s : State} {i : Nat}
    (hw : Within [.rf, .regs] W) (h : Keeps W z0 s) :
    Keeps W z0 (State.reassemblyTimeout s i) := by
  unfold State.reassemblyTimeout
  with_reducible repeat' first | assumption | decide | refine State.bump_keeps (hw.mono ?_) ?_ | refine State.dropReasm_keeps (hw.mono ?_) ?_ | split

theorem State.learnHoldClose_keeps {W : List Part} {z0 : State} {s : State} {eui : U64}
    (hw : Within [.evr, .hif, .spanc, .tbl, .que, .tol, .cip, .rf, .regs, .ctxs, .outbox, .free] W)
    (h : Keeps W z0 s) :
    Keeps W z0 (State.learnHoldClose s eui) := by
  unfold State.learnHoldClose
  with_reducible repeat' first | assumption | decide | apply Keeps.ite | refine State.learnKey_keeps (hw.mono ?_) ?_ | refine State.setFrame_keeps (hw.mono ?_) ?_ | refine State.bump_keeps (hw.mono ?_) ?_ | refine State.updCtx_keeps (hw.mono ?_) ?_ | refine State.release_keeps (hw.mono ?_) ?_ | (refine Keeps.set_tbl (hw.mem (by decide)) ?_; first | assumption | apply Keeps.ite | refine State.learnKey_keeps (hw.mono ?_) ?_ | refine State.setFrame_keeps (hw.mono ?_) ?_ | refine State.bump_keeps (hw.mono ?_) ?_ | refine State.updCtx_keeps (hw.mono ?_) ?_ | refine State.release_keeps (hw.mono ?_) ?_ | split) | apply Keeps.foldl | (intro _; intros) | split

theorem State.floodRepetition_keeps {W : List Part} {z0 : State} {s : State} {n : Nat}
    (hw : Within [.evr, .hif, .que, .cip, .rf, .regs, .outbox, .free] W) (h : Keeps W z0 s) :
    Keeps W z0 (State.floodRepetition s n) := by
  unfold State.floodRepetition
  dsimp only
  with_reducible repeat' first | assumption | decide | apply Keeps.ite | apply Keeps.iteFst | refine State.setQueue_keeps (hw.mono ?_) ?_ | refine State.bumpBy_keeps (hw.mono ?_) ?_ | refine State.setDesc_keeps (hw.mono ?_) ?_ | refine State.txComplete_keeps (hw.mono ?_) ?_ | refine State.bump_keeps (hw.mono ?_) ?_ | refine State.enqueue_keeps (hw.mono ?_) ?_ | (refine Keeps.fields (fun p => by cases p <;> first | exact .inl (hw.mem (by decide)) | exact .inr rfl) ?_ ?_ ?_ <;> first | rfl | assumption) | apply Keeps.foldl | apply Keeps.foldlFst | refine Keeps.ofFst (by assumption) ?_ | (intro _; intros) | split

theorem State.freeFrame_keeps {W : List Part} {z0 : State} {s : State} {q : Nat} {n : Nat} {i : Nat}
    (hw : Within [.que] W) (h : Keeps W z0 s) :
    Keeps W z0 (State.freeFrame s q n i) := by
  unfold State.freeFrame
  with_reducible repeat' first | assumption | decide | refine State.freeGaps_keeps (hw.mono ?_) ?_ | refine State.setQueue_keeps (hw.mono ?_) ?_

theorem State.floodSent_keeps {W : List Part} {z0 : State} {s : State} {x : TxDesc} {i : Nat}
    (hw : Within [.hif, .que, .cip, .rf, .regs] W) (h : Keeps W z0 s) :
    Keeps W z0 (State.floodSent s x i) := by
  unfold State.floodSent
  with_reducible repeat' first | assumption | decide | apply Keeps.ite | refine State.txComplete_keeps (hw.mono ?_) ?_ | refine State.freeFrame_keeps (hw.mono ?_) ?_ | refine State.setDesc_keeps (hw.mono ?_) ?_

theorem State.lifetimeExpiry_keeps {W : List Part} {z0 : State} {s : State} {n : Nat}
    (hw : Within [.hif, .que, .tol, .cip, .rf, .regs, .ctxs] W) (h : Keeps W z0 s) :
    Keeps W z0 (State.lifetimeExpiry s n) := by
  unfold State.lifetimeExpiry
  with_reducible repeat' first | assumption | decide | refine State.noteWait_keeps (hw.mono ?_) ?_ | refine State.txComplete_keeps (hw.mono ?_) ?_ | refine State.updCtx_keeps (hw.mono ?_) ?_ | split

theorem State.setGain_keeps {W : List Part} {z0 : State} {s : State} {b : Nat} {g : Nat} (hw : Within [.regs] W)
    (h : Keeps W z0 s) :
    Keeps W z0 (State.setGain s b g) := by
  unfold State.setGain
  with_reducible repeat' first | assumption | decide | refine State.setFld_keeps (hw.mono ?_) ?_

theorem State.askGain_keeps {W : List Part} {z0 : State} {s : State} {b : Nat} {v : Bool} (hw : Within [.rf] W)
    (h : Keeps W z0 s) :
    Keeps W z0 (State.askGain s b v) := by
  unfold State.askGain
  with_reducible repeat' first | assumption | decide | refine State.setRf_keeps (hw.mono ?_) ?_

theorem State.setPending_keeps {W : List Part} {z0 : State} {s : State} {b : Nat} {p : Bool} {up : Bool}
    (hw : Within [.regs] W) (h : Keeps W z0 s) :
    Keeps W z0 (State.setPending s b p up) := by
  unfold State.setPending
  with_reducible repeat' first | assumption | decide | refine State.setFld_keeps (hw.mono ?_) ?_

theorem State.setUpRun_keeps {W : List Part} {z0 : State} {s : State} {b : Nat} {n : Nat} (hw : Within [.rf] W)
    (h : Keeps W z0 s) :
    Keeps W z0 (State.setUpRun s b n) := by
  unfold State.setUpRun
  with_reducible repeat' first | assumption | decide | refine State.setRf_keeps (hw.mono ?_) ?_

theorem State.gainStep_keeps {W : List Part} {z0 : State} {s : State} {b : Nat} {g : Nat} (hw : Within [.regs] W)
    (h : Keeps W z0 s) :
    Keeps W z0 (State.gainStep s b g) := by
  unfold State.gainStep
  with_reducible repeat' first | assumption | decide | apply Keeps.ite | refine State.bump_keeps (hw.mono ?_) ?_ | refine State.setPending_keeps (hw.mono ?_) ?_ | refine State.setUpRun_keeps (hw.mono ?_) ?_ | refine State.setGain_keeps (hw.mono ?_) ?_

theorem State.headroomTick_keeps {W : List Part} {z0 : State} {s0_ : State} {b : Nat} {peak : Int} {mean : Int}
    (hw : Within [.rf, .regs] W) (h : Keeps W z0 s0_) :
    Keeps W z0 (State.headroomTick s0_ b peak mean) := by
  unfold State.headroomTick
  with_reducible repeat' first | assumption | decide | apply Keeps.ite | refine State.setReg_keeps (hw.mono ?_) ?_ | refine State.setUpRun_keeps (hw.mono ?_) ?_ | refine State.setPending_keeps (hw.mono ?_) ?_ | refine State.gainStep_keeps (hw.mono ?_) ?_ | refine State.askGain_keeps (hw.mono ?_) ?_

theorem State.clippingStep_keeps {W : List Part} {z0 : State} {s0_ : State} {t : U64} {b : Nat}
    (hw : Within [.time, .rf, .regs] W) (h : Keeps W z0 s0_) :
    Keeps W z0 (State.clippingStep s0_ t b) := by
  unfold State.clippingStep
  with_reducible repeat' first | assumption | decide | apply Keeps.ite | refine State.at__keeps (hw.mono ?_) ?_ | refine State.bumpBy_keeps (hw.mono ?_) ?_ | refine State.bump_keeps (hw.mono ?_) ?_ | refine State.setGain_keeps (hw.mono ?_) ?_ | refine State.setRf_keeps (hw.mono ?_) ?_

theorem State.airAt_keeps {W : List Part} {z0 : State} {s : State} {t : U64} (hw : Within [.time, .rf] W)
    (h : Keeps W z0 s) :
    Keeps W z0 (State.airAt s t) := by
  unfold State.airAt
  with_reducible repeat' first | assumption | decide | refine State.drained_keeps (hw.mono ?_) ?_ | refine State.at__keeps (hw.mono ?_) ?_

theorem State.rxWindowOpen_keeps {W : List Part} {z0 : State} {s0_ : State} {t : U64} {p : Nat}
    (hw : Within [.time, .rf] W) (h : Keeps W z0 s0_) :
    Keeps W z0 (State.rxWindowOpen s0_ t p) := by
  unfold State.rxWindowOpen
  dsimp only
  with_reducible repeat' first | assumption | decide | apply Keeps.ite | refine State.airAt_keeps (hw.mono ?_) ?_ | refine State.setPier_keeps (hw.mono ?_) ?_ | split

theorem State.rxWindowClose_keeps {W : List Part} {z0 : State} {s0_ : State} {t : U64} {p : Nat}
    (hw : Within [.time, .evr, .hif, .que, .cip, .rf, .red, .regs, .ctxs, .outbox, .free] W) (h : Keeps W z0 s0_) :
    Keeps W z0 (State.rxWindowClose s0_ t p) := by
  unfold State.rxWindowClose
  with_reducible repeat' first | assumption | decide | apply Keeps.ite | refine State.airAt_keeps (hw.mono ?_) ?_ | refine State.setPier_keeps (hw.mono ?_) ?_ | refine State.setRf_keeps (hw.mono ?_) ?_ | refine State.settleAir_keeps (hw.mono ?_) ?_ | (refine Keeps.set_red (hw.mem (by decide)) ?_; first | assumption | apply Keeps.ite | refine State.airAt_keeps (hw.mono ?_) ?_ | refine State.setPier_keeps (hw.mono ?_) ?_ | refine State.setRf_keeps (hw.mono ?_) ?_ | refine State.settleAir_keeps (hw.mono ?_) ?_ | split) | split

theorem State.blankPiers_keeps {W : List Part} {z0 : State} {s : State} {b : Nat} {ch : Nat}
    (hw : Within [.cip, .rf, .regs] W) (h : Keeps W z0 s) :
    Keeps W z0 (State.blankPiers s b ch) := by
  unfold State.blankPiers
  with_reducible repeat' first | assumption | decide | apply Keeps.ite | refine State.bump_keeps (hw.mono ?_) ?_ | refine State.cutReception_keeps (hw.mono ?_) ?_ | refine State.setPier_keeps (hw.mono ?_) ?_ | refine State.leave_keeps (hw.mono ?_) ?_ | refine State.drained_keeps (hw.mono ?_) ?_ | apply Keeps.foldl | (intro _; intros) | split

theorem State.unblankPiers_keeps {W : List Part} {z0 : State} {s : State} {b : Nat} (hw : Within [.rf] W)
    (h : Keeps W z0 s) :
    Keeps W z0 (State.unblankPiers s b) := by
  unfold State.unblankPiers
  with_reducible repeat' first | assumption | decide | apply Keeps.ite | refine State.setPier_keeps (hw.mono ?_) ?_ | apply Keeps.foldl | (intro _; intros) | split

theorem State.startSync_keeps {W : List Part} {z0 : State} {s : State} {p : Nat} {x : Pier} {d : Preamble}
    (hw : Within [.rf] W) (h : Keeps W z0 s) :
    Keeps W z0 (State.startSync s p x d) := by
  unfold State.startSync
  with_reducible repeat' first | assumption | decide | refine State.setPier_keeps (hw.mono ?_) ?_

theorem State.preambleDetect_keeps {W : List Part} {z0 : State} {s0_ : State} {t : U64} {p : Nat} {d : Preamble}
    (hw : Within [.time, .rf, .regs] W) (h : Keeps W z0 s0_) :
    Keeps W z0 (State.preambleDetect s0_ t p d) := by
  unfold State.preambleDetect
  with_reducible repeat' first | assumption | decide | apply Keeps.ite | refine State.airAt_keeps (hw.mono ?_) ?_ | refine State.bump_keeps (hw.mono ?_) ?_ | refine State.startSync_keeps (hw.mono ?_) ?_ | split

theorem State.sfdFound_keeps {W : List Part} {z0 : State} {s0_ : State} {t : U64} {p : Nat} {ts : Nat}
    (hw : Within [.time, .rf, .regs] W) (h : Keeps W z0 s0_) :
    Keeps W z0 (State.sfdFound s0_ t p ts) := by
  unfold State.sfdFound
  with_reducible repeat' first | assumption | decide | apply Keeps.ite | refine State.airAt_keeps (hw.mono ?_) ?_ | refine State.bump_keeps (hw.mono ?_) ?_ | refine State.setPier_keeps (hw.mono ?_) ?_

theorem State.sfdTimeout_keeps {W : List Part} {z0 : State} {s0_ : State} {t : U64} {p : Nat}
    (hw : Within [.time, .evr, .hif, .que, .cip, .rf, .red, .regs, .ctxs, .outbox, .free] W) (h : Keeps W z0 s0_) :
    Keeps W z0 (State.sfdTimeout s0_ t p) := by
  unfold State.sfdTimeout
  with_reducible repeat' first | assumption | decide | apply Keeps.ite | refine State.airAt_keeps (hw.mono ?_) ?_ | refine State.settleAir_keeps (hw.mono ?_) ?_ | refine State.abandon_keeps (hw.mono ?_) ?_

theorem State.claimAck_keeps {W : List Part} {z0 : State} {s : State} {x : Pier} {ends : Nat}
    (hw : Within [.hif, .que, .cip, .rf, .regs] W) (h : Keeps W z0 s) :
    Keeps W z0 (State.claimAck s x ends).1 := by
  unfold State.claimAck
  dsimp only
  with_reducible repeat' first | assumption | decide | apply Keeps.ite | refine State.makeClaim_keeps (hw.mono ?_) ?_ | (refine Keeps.fields (fun p => by cases p <;> first | exact .inl (hw.mem (by decide)) | exact .inr rfl) ?_ ?_ ?_ <;> first | rfl | assumption) | refine Keeps.ofFst (by assumption) ?_ | split

theorem State.phrReceived_keeps {W : List Part} {z0 : State} {s0_ : State} {t : U64} {p : Nat} {h_ : Phr}
    (hw : Within [.time, .evr, .hif, .que, .cip, .rf, .red, .regs, .ctxs, .outbox, .free] W) (h : Keeps W z0 s0_) :
    Keeps W z0 (State.phrReceived s0_ t p h_) := by
  unfold State.phrReceived
  with_reducible repeat' first | assumption | decide | apply Keeps.ite | refine State.airAt_keeps (hw.mono ?_) ?_ | refine State.setPier_keeps (hw.mono ?_) ?_ | refine State.bump_keeps (hw.mono ?_) ?_ | refine State.settleAir_keeps (hw.mono ?_) ?_ | refine State.abandon_keeps (hw.mono ?_) ?_ | refine State.claimAck_keeps (hw.mono ?_) ?_

theorem State.handOver_keeps {W : List Part} {z0 : State} {s : State} {p : Nat} {x : Pier} {air : AirFrame}
    {mpdu : List Byte} {cfo : Int} (hw : Within [.rf] W) (h : Keeps W z0 s) :
    Keeps W z0 (State.handOver s p x air mpdu cfo) := by
  unfold State.handOver
  dsimp only
  with_reducible repeat' first | assumption | decide | apply Keeps.ite | refine State.setRf_keeps (hw.mono ?_) ?_ | refine State.setClaim_keeps (hw.mono ?_) ?_ | split

theorem State.frameEnd_keeps {W : List Part} {z0 : State} {s0_ : State} {t : U64} {p : Nat} {air : AirFrame}
    {octets : List Byte} {cfo : Int}
    (hw : Within [.time, .evr, .hif, .que, .cip, .cal, .rf, .red, .regs, .ctxs, .outbox, .free] W)
    (h : Keeps W z0 s0_) :
    Keeps W z0 (State.frameEnd s0_ t p air octets cfo) := by
  unfold State.frameEnd
  with_reducible repeat' first | assumption | decide | apply Keeps.ite | refine State.airAt_keeps (hw.mono ?_) ?_ | refine State.iqFrame_keeps (hw.mono ?_) ?_ | refine State.setPier_keeps (hw.mono ?_) ?_ | refine State.settleAir_keeps (hw.mono ?_) ?_ | refine State.abandon_keeps (hw.mono ?_) ?_ | refine State.bump_keeps (hw.mono ?_) ?_ | refine State.handOver_keeps (hw.mono ?_) ?_

theorem State.handedOver_keeps {W : List Part} {z0 : State} {s : State} {id : Nat} (hw : Within [.rf] W)
    (h : Keeps W z0 s) :
    Keeps W z0 (State.handedOver s id) := by
  unfold State.handedOver
  with_reducible repeat' first | assumption | decide | apply Keeps.ite | refine State.leave_keeps (hw.mono ?_) ?_ | split

theorem State.macFrameTaken_keeps {W : List Part} {z0 : State} {s : State} {id : Nat} {adj : Int}
    (hw : Within [.time, .evr, .hif, .spanc, .tbl, .que, .tol, .key, .cip, .rf, .red, .regs, .ctxs, .outbox, .free] W) (h : Keeps W z0 s) :
    Keeps W z0 (State.macFrameTaken s id adj) := by
  unfold State.macFrameTaken
  with_reducible repeat' first | assumption | decide | refine State.settleAir_keeps (hw.mono ?_) ?_ | refine State.macFrameRx_keeps (hw.mono ?_) ?_ | refine State.handedOver_keeps (hw.mono ?_) ?_

theorem State.interlockEnds_keeps {W : List Part} {z0 : State} {s : State} {c : Claim}
    (hw : Within [.evr, .hif, .spanc, .tbl, .que, .tol, .cip, .rf, .regs, .ctxs, .outbox, .free] W)
    (h : Keeps W z0 s) :
    Keeps W z0 (State.interlockEnds s c) := by
  unfold State.interlockEnds
  with_reducible repeat' first | assumption | decide | refine State.txForget_keeps (hw.mono ?_) ?_ | refine State.dropWait_keeps (hw.mono ?_) ?_ | refine State.attemptEnds_keeps (hw.mono ?_) ?_ | split

theorem State.interlockLost_keeps {W : List Part} {z0 : State} {s : State}
    (hw : Within [.time, .evr, .hif, .spanc, .tbl, .que, .tol, .cip, .par, .cal, .rf, .red, .regs, .ctxs, .outbox, .free] W) (h : Keeps W z0 s) :
    Keeps W z0 (State.interlockLost s) := by
  unfold State.interlockLost
  with_reducible repeat' first | assumption | decide | refine State.settleAir_keeps (hw.mono ?_) ?_ | refine State.interlockEnds_keeps (hw.mono ?_) ?_ | refine State.cutOff_keeps (hw.mono ?_) ?_ | apply Keeps.foldl | (intro _; intros) | split

theorem State.claimsForget_keeps {W : List Part} {z0 : State} {s : State}
    (hw : Within [.evr, .hif, .spanc, .tbl, .que, .tol, .cip, .rf, .regs, .ctxs, .outbox, .free] W)
    (h : Keeps W z0 s) :
    Keeps W z0 (State.claimsForget s) := by
  unfold State.claimsForget
  with_reducible repeat' first | assumption | decide | refine State.txForget_keeps (hw.mono ?_) ?_ | refine State.endClaim_keeps (hw.mono ?_) ?_ | refine State.dropWait_keeps (hw.mono ?_) ?_ | refine State.beaconEnds_keeps (hw.mono ?_) ?_ | refine State.ackWithdrawn_keeps (hw.mono ?_) ?_ | apply Keeps.foldl | (intro _; intros) | split

theorem State.ensureEntry_keeps {W : List Part} {z0 : State} {s : State} {c : Claim}
    (hw : Within [.cal, .regs, .free] W) (h : Keeps W z0 s) :
    Keeps W z0 (State.ensureEntry s c) := by
  unfold State.ensureEntry
  with_reducible repeat' first | assumption | decide | apply Keeps.ite | refine State.calEntryDone_keeps (hw.mono ?_) ?_

theorem State.setSynth_keeps {W : List Part} {z0 : State} {s : State} {c : Nat} {word : Nat} (hw : Within [.rf] W)
    (h : Keeps W z0 s) :
    Keeps W z0 (State.setSynth s c word) := by
  unfold State.setSynth
  with_reducible repeat' first | assumption | decide | refine State.setRf_keeps (hw.mono ?_) ?_

theorem State.tune_keeps {W : List Part} {z0 : State} {s : State} {c : Claim}
    (hw : Within [.cal, .rf, .regs, .free] W) (h : Keeps W z0 s) :
    Keeps W z0 (State.tune s c) := by
  unfold State.tune
  with_reducible repeat' first | assumption | decide | apply Keeps.ite | refine State.ensureEntry_keeps (hw.mono ?_) ?_ | refine State.bump_keeps (hw.mono ?_) ?_ | refine State.setFld_keeps (hw.mono ?_) ?_ | refine State.setReg_keeps (hw.mono ?_) ?_ | refine State.setClaim_keeps (hw.mono ?_) ?_ | refine State.setSynth_keeps (hw.mono ?_) ?_

theorem State.tuneInstant_keeps {W : List Part} {z0 : State} {s0_ : State} {t : U64} {id : Nat}
    (hw : Within [.time, .hif, .que, .cip, .cal, .rf, .regs, .free] W) (h : Keeps W z0 s0_) :
    Keeps W z0 (State.tuneInstant s0_ t id) := by
  unfold State.tuneInstant
  dsimp only
  with_reducible repeat' first | assumption | decide | apply Keeps.ite | refine State.at__keeps (hw.mono ?_) ?_ | refine State.meetCalJob_keeps (hw.mono ?_) ?_ | refine State.claimLate_keeps (hw.mono ?_) ?_ | refine State.tune_keeps (hw.mono ?_) ?_ | (refine Keeps.fields (fun p => by cases p <;> first | exact .inl (hw.mem (by decide)) | with_unfolding_all exact .inr rfl) ?_ ?_ ?_ <;> first | rfl | assumption) | refine Keeps.ofFst (by assumption) ?_ | split

theorem State.coexRequest_keeps {W : List Part} {z0 : State} {s0_ : State} {t : U64} {id : Nat}
    (hw : Within [.time, .rf] W) (h : Keeps W z0 s0_) :
    Keeps W z0 (State.coexRequest s0_ t id) := by
  unfold State.coexRequest
  dsimp only
  with_reducible repeat' first | assumption | decide | apply Keeps.ite | refine State.at__keeps (hw.mono ?_) ?_ | refine State.setClaim_keeps (hw.mono ?_) ?_ | split

theorem State.synthLock_keeps {W : List Part} {z0 : State} {s0_ : State} {t : U64} {id : Nat}
    (hw : Within [.time, .cal, .rf, .regs, .free] W) (h : Keeps W z0 s0_) :
    Keeps W z0 (State.synthLock s0_ t id) := by
  unfold State.synthLock
  dsimp only
  with_reducible repeat' first | assumption | decide | apply Keeps.ite | refine State.at__keeps (hw.mono ?_) ?_ | refine State.setClaim_keeps (hw.mono ?_) ?_ | refine State.ensureEntry_keeps (hw.mono ?_) ?_ | split

theorem State.refused_keeps {W : List Part} {z0 : State} {s : State} {c : Claim} (hw : Within [.cip, .rf] W)
    (h : Keeps W z0 s) :
    Keeps W z0 (State.refused s c) := by
  unfold State.refused
  with_reducible repeat' first | assumption | decide | refine State.setClaim_keeps (hw.mono ?_) ?_ | refine State.withdrawJob_keeps (hw.mono ?_) ?_

theorem State.decide__keeps {W : List Part} {z0 : State} {s : State} {c0 : Claim} {gnt : Bool}
    {energy : List (Nat × Int)}
    (hw : Within [.evr, .hif, .spanc, .tbl, .que, .tol, .cip, .par, .rf, .regs, .ctxs, .outbox, .free] W)
    (h : Keeps W z0 s) :
    Keeps W z0 (State.decide_ s c0 gnt energy) := by
  unfold State.decide_
  with_reducible repeat' first | assumption | decide | apply Keeps.ite | refine State.attemptEnds_keeps (hw.mono ?_) ?_ | refine State.refused_keeps (hw.mono ?_) ?_ | refine State.interlockEnds_keeps (hw.mono ?_) ?_ | refine State.parCheck_keeps (hw.mono ?_) ?_ | refine State.bump_keeps (hw.mono ?_) ?_ | refine State.countLate_keeps (hw.mono ?_) ?_ | refine State.setClaim_keeps (hw.mono ?_) ?_ | apply Keeps.foldl | refine Keeps.ofFst (by assumption) ?_ | (intro _; intros) | split

theorem State.decideAsked_keeps {W : List Part} {z0 : State} {s : State} {c : Claim}
    (hw : Within [.evr, .hif, .spanc, .tbl, .que, .tol, .cip, .par, .rf, .regs, .ctxs, .outbox, .free] W)
    (h : Keeps W z0 s) :
    Keeps W z0 (State.decideAsked s c) := by
  unfold State.decideAsked
  with_reducible repeat' first | assumption | decide | refine State.decide__keeps (hw.mono ?_) ?_ | split

theorem State.decideBand_keeps {W : List Part} {z0 : State} {s : State} {b : Nat}
    (hw : Within [.evr, .hif, .spanc, .tbl, .que, .tol, .cip, .par, .rf, .regs, .ctxs, .outbox, .free] W)
    (h : Keeps W z0 s) :
    Keeps W z0 (State.decideBand s b) := by
  unfold State.decideBand
  with_reducible repeat' first | assumption | decide | refine State.decideAsked_keeps (hw.mono ?_) ?_ | apply Keeps.foldl | (intro _; intros) | split

theorem State.decisionInstant_keeps {W : List Part} {z0 : State} {s0_ : State} {t : U64} {id : Nat} {gnt : Bool}
    {energy : List (Nat × Int)}
    (hw : Within [.time, .evr, .hif, .spanc, .tbl, .que, .tol, .cip, .par, .rf, .red, .regs, .ctxs, .outbox, .free] W) (h : Keeps W z0 s0_) :
    Keeps W z0 (State.decisionInstant s0_ t id gnt energy) := by
  unfold State.decisionInstant
  dsimp only
  with_reducible repeat' first | assumption | decide | apply Keeps.ite | refine State.at__keeps (hw.mono ?_) ?_ | refine State.blankPiers_keeps (hw.mono ?_) ?_ | refine State.setFld_keeps (hw.mono ?_) ?_ | refine State.settleAir_keeps (hw.mono ?_) ?_ | refine State.decideBand_keeps (hw.mono ?_) ?_ | refine State.setClaim_keeps (hw.mono ?_) ?_ | split

theorem State.decideOverdue_keeps {W : List Part} {z0 : State} {s : State} {id : Nat}
    (hw : Within [.evr, .hif, .spanc, .tbl, .que, .tol, .cip, .par, .rf, .regs, .ctxs, .outbox, .free] W)
    (h : Keeps W z0 s) :
    Keeps W z0 (State.decideOverdue s id) := by
  unfold State.decideOverdue
  with_reducible repeat' first | assumption | decide | refine State.decide__keeps (hw.mono ?_) ?_ | split

theorem State.slipWaits_keeps {W : List Part} {z0 : State} {s : State} {id : Nat} {sl : Nat} (hw : Within [.rf] W)
    (h : Keeps W z0 s) :
    Keeps W z0 (State.slipWaits s id sl) := by
  unfold State.slipWaits
  with_reducible repeat' first | assumption | decide | refine State.setRf_keeps (hw.mono ?_) ?_

theorem State.rampUp_keeps {W : List Part} {z0 : State} {s : State} {c : Claim} {sl : Nat} {carrier : Int}
    {obs : Int} {dev : Int} (hw : Within [.cal, .rf, .regs] W) (h : Keeps W z0 s) :
    Keeps W z0 (State.rampUp s c sl carrier obs dev) := by
  unfold State.rampUp
  with_reducible repeat' first | assumption | decide | apply Keeps.ite | refine State.setReg_keeps (hw.mono ?_) ?_ | refine State.bump_keeps (hw.mono ?_) ?_ | refine State.observeCarrier_keeps (hw.mono ?_) ?_ | refine State.slipWaits_keeps (hw.mono ?_) ?_ | refine State.setClaim_keeps (hw.mono ?_) ?_

theorem State.rampUpStart_keeps {W : List Part} {z0 : State} {s0_ : State} {t : U64} {id : Nat} {carrier : Int}
    {obs : Int} {dev : Int}
    (hw : Within [.time, .evr, .hif, .spanc, .tbl, .que, .tol, .cip, .par, .cal, .rf, .red, .regs, .ctxs, .outbox, .free] W) (h : Keeps W z0 s0_) :
    Keeps W z0 (State.rampUpStart s0_ t id carrier obs dev) := by
  unfold State.rampUpStart
  dsimp only
  with_reducible repeat' first | assumption | decide | apply Keeps.ite | refine State.decideOverdue_keeps (hw.mono ?_) ?_ | refine State.at__keeps (hw.mono ?_) ?_ | refine State.rampUp_keeps (hw.mono ?_) ?_ | refine State.countLate_keeps (hw.mono ?_) ?_ | refine State.bump_keeps (hw.mono ?_) ?_ | refine State.ensureEntry_keeps (hw.mono ?_) ?_ | refine State.settleAir_keeps (hw.mono ?_) ?_ | refine State.attemptEnds_keeps (hw.mono ?_) ?_ | refine State.refused_keeps (hw.mono ?_) ?_ | split

theorem State.frameSent_keeps {W : List Part} {z0 : State} {s : State} {c : Claim} (hw : Within [.rf] W)
    (h : Keeps W z0 s) :
    Keeps W z0 (State.frameSent s c) := by
  unfold State.frameSent
  with_reducible repeat' first | assumption | decide | refine State.setDesc_keeps (hw.mono ?_) ?_ | refine State.setRf_keeps (hw.mono ?_) ?_ | split

theorem State.sentNormally_keeps {W : List Part} {z0 : State} {s : State} {c : Claim}
    (hw : Within [.evr, .hif, .spanc, .tbl, .que, .tol, .cip, .rf, .regs, .ctxs, .outbox, .free] W)
    (h : Keeps W z0 s) :
    Keeps W z0 (State.sentNormally s c) := by
  unfold State.sentNormally
  with_reducible repeat' first | assumption | decide | apply Keeps.ite | refine State.bump_keeps (hw.mono ?_) ?_ | refine State.updCtx_keeps (hw.mono ?_) ?_ | refine State.settleAck_keeps (hw.mono ?_) ?_ | refine State.floodSent_keeps (hw.mono ?_) ?_ | refine State.frameDone_keeps (hw.mono ?_) ?_ | refine State.setRf_keeps (hw.mono ?_) ?_ | refine State.setDesc_keeps (hw.mono ?_) ?_ | split

theorem State.txEnd_keeps {W : List Part} {z0 : State} {s0_ : State} {t : U64} {id : Nat} {obs dev : Int}
    (hw : Within [.time, .evr, .hif, .que, .cip, .par, .cal, .rf, .red, .regs, .ctxs, .outbox, .free] W)
    (h : Keeps W z0 s0_) :
    Keeps W z0 (State.txEnd s0_ t id obs dev) := by
  unfold State.txEnd
  dsimp only
  with_reducible repeat' first | assumption | decide | apply Keeps.ite | refine State.at__keeps (hw.mono ?_) ?_ | refine State.observeDue_keeps (hw.mono ?_) ?_ | refine State.emit_keeps (hw.mono ?_) ?_ | refine State.setClaim_keeps (hw.mono ?_) ?_ | refine State.emitted_keeps (hw.mono ?_) ?_ | refine State.settleAir_keeps (hw.mono ?_) ?_ | refine State.frameSent_keeps (hw.mono ?_) ?_ | split

theorem State.retire_keeps {W : List Part} {z0 : State} {s : State} {c : Claim} (hw : Within [.rf] W)
    (h : Keeps W z0 s) :
    Keeps W z0 (State.retire s c) := by
  unfold State.retire
  with_reducible repeat' first | assumption | decide | refine State.purgeClaims_keeps (hw.mono ?_) ?_ | refine State.setClaim_keeps (hw.mono ?_) ?_

theorem State.femReturn_keeps {W : List Part} {z0 : State} {s0_ : State} {t : U64} {id : Nat}
    (hw : Within [.time, .evr, .hif, .spanc, .tbl, .que, .tol, .cip, .par, .rf, .red, .regs, .ctxs, .outbox, .free] W) (h : Keeps W z0 s0_) :
    Keeps W z0 (State.femReturn s0_ t id) := by
  unfold State.femReturn
  dsimp only
  with_reducible repeat' first | assumption | decide | apply Keeps.ite | refine State.at__keeps (hw.mono ?_) ?_ | refine State.setClaim_keeps (hw.mono ?_) ?_ | refine State.refundDue_keeps (hw.mono ?_) ?_ | refine State.settleAir_keeps (hw.mono ?_) ?_ | refine State.purgeClaims_keeps (hw.mono ?_) ?_ | refine State.sentNormally_keeps (hw.mono ?_) ?_ | refine State.bump_keeps (hw.mono ?_) ?_ | split

theorem State.blankingEnd_keeps {W : List Part} {z0 : State} {s0_ : State} {t : U64} {id : Nat}
    (hw : Within [.time, .rf] W) (h : Keeps W z0 s0_) :
    Keeps W z0 (State.blankingEnd s0_ t id) := by
  unfold State.blankingEnd
  dsimp only
  with_reducible repeat' first | assumption | decide | apply Keeps.ite | refine State.at__keeps (hw.mono ?_) ?_ | refine State.unblankPiers_keeps (hw.mono ?_) ?_ | refine State.retire_keeps (hw.mono ?_) ?_ | split

theorem State.coexGrantWithdrawn_keeps {W : List Part} {z0 : State} {s0_ : State} {t : U64} {b : Nat}
    (hw : Within [.time, .evr, .hif, .spanc, .tbl, .que, .tol, .cip, .par, .cal, .rf, .red, .regs, .ctxs, .outbox, .free] W) (h : Keeps W z0 s0_) :
    Keeps W z0 (State.coexGrantWithdrawn s0_ t b) := by
  unfold State.coexGrantWithdrawn
  with_reducible repeat' first | assumption | decide | refine State.setFld_keeps (hw.mono ?_) ?_ | refine State.at__keeps (hw.mono ?_) ?_ | refine State.settleAir_keeps (hw.mono ?_) ?_ | refine State.attemptEnds_keeps (hw.mono ?_) ?_ | refine State.bump_keeps (hw.mono ?_) ?_ | refine State.cutOff_keeps (hw.mono ?_) ?_ | apply Keeps.foldl | (intro _; intros) | split

theorem State.parapetBackstop_keeps {W : List Part} {z0 : State} {s0_ : State} {t : U64} {id : Nat}
    (hw : Within [.time, .evr, .hif, .spanc, .tbl, .que, .tol, .cip, .par, .cal, .rf, .red, .regs, .ctxs, .outbox, .free] W) (h : Keeps W z0 s0_) :
    Keeps W z0 (State.parapetBackstop s0_ t id) := by
  unfold State.parapetBackstop
  dsimp only
  with_reducible repeat' first | assumption | decide | apply Keeps.ite | refine State.at__keeps (hw.mono ?_) ?_ | refine State.bump_keeps (hw.mono ?_) ?_ | refine State.cutOff_keeps (hw.mono ?_) ?_ | refine State.settleAir_keeps (hw.mono ?_) ?_ | refine State.attemptEnds_keeps (hw.mono ?_) ?_ | refine post_keeps (hw.mono ?_) ?_ | split

theorem State.ackWaitClose_keeps {W : List Part} {z0 : State} {s0_ : State} {t : U64} {id : Nat}
    (hw : Within [.time, .evr, .hif, .que, .cip, .rf, .red, .regs, .ctxs, .outbox, .free] W) (h : Keeps W z0 s0_) :
    Keeps W z0 (State.ackWaitClose s0_ t id) := by
  unfold State.ackWaitClose
  with_reducible repeat' first | assumption | decide | refine State.at__keeps (hw.mono ?_) ?_ | refine State.settleAir_keeps (hw.mono ?_) ?_ | refine State.setRf_keeps (hw.mono ?_) ?_

theorem State.ackCaptured_keeps {W : List Part} {z0 : State} {s : State} {f : RxFrame}
    (hw : Within [.evr, .hif, .spanc, .tbl, .que, .tol, .cip, .par, .cal, .rf, .regs, .ctxs, .outbox, .free] W)
    (h : Keeps W z0 s) :
    Keeps W z0 (State.ackCaptured s f) := by
  unfold State.ackCaptured
  with_reducible repeat' first | assumption | decide | refine State.setFrame_keeps (hw.mono ?_) ?_ | refine State.cutOff_keeps (hw.mono ?_) ?_ | refine State.releaseAck_keeps (hw.mono ?_) ?_ | refine State.settleAck_keeps (hw.mono ?_) ?_ | refine State.bump_keeps (hw.mono ?_) ?_ | split

theorem State.ackGrant_keeps {W : List Part} {z0 : State} {s : State} {f : RxFrame}
    (hw : Within [.evr, .hif, .spanc, .tbl, .que, .tol, .cip, .rf, .regs, .ctxs, .outbox, .free] W)
    (h : Keeps W z0 s) :
    Keeps W z0 (State.ackGrant s f) := by
  unfold State.ackGrant
  with_reducible repeat' first | assumption | decide | refine State.settleAck_keeps (hw.mono ?_) ?_ | refine State.bump_keeps (hw.mono ?_) ?_ | refine State.setRf_keeps (hw.mono ?_) ?_ | refine State.setFrame_keeps (hw.mono ?_) ?_ | refine State.setClaim_keeps (hw.mono ?_) ?_ | split

theorem State.ackCheckDeadline_keeps {W : List Part} {z0 : State} {s0_ : State} {t : U64} {fid : Nat}
    (hw : Within [.time, .evr, .hif, .spanc, .tbl, .que, .tol, .cip, .par, .cal, .rf, .regs, .ctxs, .outbox, .free] W) (h : Keeps W z0 s0_) :
    Keeps W z0 (State.ackCheckDeadline s0_ t fid) := by
  unfold State.ackCheckDeadline
  dsimp only
  with_reducible repeat' first | assumption | decide | apply Keeps.ite | refine State.at__keeps (hw.mono ?_) ?_ | refine State.endClaim_keeps (hw.mono ?_) ?_ | refine State.releaseAck_keeps (hw.mono ?_) ?_ | refine State.countLate_keeps (hw.mono ?_) ?_ | refine State.setFrame_keeps (hw.mono ?_) ?_ | refine State.ackCaptured_keeps (hw.mono ?_) ?_ | refine State.ackGrant_keeps (hw.mono ?_) ?_ | (refine Keeps.fields (fun p => by cases p <;> first | exact .inl (hw.mem (by decide)) | with_unfolding_all exact .inr rfl) ?_ ?_ ?_ <;> first | rfl | assumption) | apply Keeps.foldl | refine Keeps.ofFst (by assumption) ?_ | (intro _; intros) | split

end Sys2Proof.Machine
end

