-- ==== Sys2Proof/Laws/KeepsHost.lean ====
section
/-! SUPPORT. One lemma per operation on the schedule, the host interface, redundancy, attestation, the Ethernet ports and the recorder:
it keeps the waiting commands and the canonical stores, and changes the parts listed at most. -/

namespace Sys2Proof.Machine

theorem State.ageOut_keeps {W : List Part} {z0 : State} {s : State} {seed : U64} {seq : BitVec 16}
    (hw : Within [.spanc] W) (h : Keeps W z0 s) :
    Keeps W z0 (State.ageOut s seed seq) := by
  unfold State.ageOut
  with_reducible repeat' first | assumption | decide | apply Keeps.ite | refine State.holdChange_keeps (hw.mono ?_) ?_ | refine State.changed_keeps (hw.mono ?_) ?_

theorem State.applyHeld_keeps {W : List Part} {z0 : State} {s : State} {w : HeldChange}
    (hw : Within [.evr, .hif, .spanc, .tbl, .que, .regs, .outbox, .free] W) (h : Keeps W z0 s) :
    Keeps W z0 (State.applyHeld s w) := by
  unfold State.applyHeld
  with_reducible repeat' first | assumption | decide | refine State.applyWait_keeps (hw.mono ?_) ?_ | refine State.ageOut_keeps (hw.mono ?_) ?_ | refine State.tblWriteNow_keeps (hw.mono ?_) ?_ | split

theorem State.applyHeldAll_keeps {W : List Part} {z0 : State} {s : State}
    (hw : Within [.evr, .hif, .spanc, .tbl, .que, .regs, .outbox, .free] W) (h : Keeps W z0 s) :
    Keeps W z0 (State.applyHeldAll s) := by
  unfold State.applyHeldAll
  with_reducible repeat' first | assumption | decide | refine State.applyHeld_keeps (hw.mono ?_) ?_ | (refine Keeps.set_spanc (hw.mem (by decide)) ?_; assumption) | apply Keeps.foldl | (intro _; intros) | split

theorem State.flashWrite_keeps {W : List Part} {z0 : State} {s : State} {o : Nat} {bs : List Byte}
    (hw : Within [.flash] W) (h : Keeps W z0 s) :
    Keeps W z0 (State.flashWrite s o bs) := by
  exact h.flash (hw.mem rfl) flash_wf_put

theorem State.setEth_keeps {W : List Part} {z0 : State} {s : State} {p : Nat} {x : EthPort}
    (hw : Within [.ethA, .ethB] W) (h : Keeps W z0 s) :
    Keeps W z0 (State.setEth s p x) := by
  unfold State.setEth
  with_reducible repeat' first | assumption | decide | apply Keeps.ite | (refine Keeps.set_ethA (hw.mem (by decide)) ?_; assumption) | (refine Keeps.set_ethB (hw.mem (by decide)) ?_; assumption)

theorem State.ethQueueOut_keeps {W : List Part} {z0 : State} {s : State} {p : Nat} {x : EthOut}
    (hw : Within [.ethA, .ethB] W) (h : Keeps W z0 s) :
    Keeps W z0 (State.ethQueueOut s p x) := by
  unfold State.ethQueueOut
  with_reducible repeat' first | assumption | decide | refine State.setEth_keeps (hw.mono ?_) ?_

theorem State.sendMgmt_keeps {W : List Part} {z0 : State} {s : State} {p : Nat} {dst : List Byte} {msg : Nat}
    {body : List Byte} (hw : Within [.ethA, .ethB] W) (h : Keeps W z0 s) :
    Keeps W z0 (State.sendMgmt s p dst msg body) := by
  unfold State.sendMgmt
  with_reducible repeat' first | assumption | decide | apply Keeps.ite | refine State.ethQueueOut_keeps (hw.mono ?_) ?_

theorem State.setBoot_keeps {W : List Part} {z0 : State} {s : State} {f : BootSt → BootSt} (hw : Within [.boot] W)
    (h : Keeps W z0 s) :
    Keeps W z0 (State.setBoot s f) := by
  unfold State.setBoot
  with_reducible repeat' first | assumption | decide | (refine Keeps.set_boot (hw.mem (by decide)) ?_; assumption)

theorem State.setRed_keeps {W : List Part} {z0 : State} {s : State} {f : RedSt → RedSt} (hw : Within [.red] W)
    (h : Keeps W z0 s) :
    Keeps W z0 (State.setRed s f) := by
  unfold State.setRed
  with_reducible repeat' first | assumption | decide | (refine Keeps.set_red (hw.mem (by decide)) ?_; assumption)

theorem State.releaseIlk_keeps {W : List Part} {z0 : State} {s : State} (hw : Within [.sys, .red] W)
    (h : Keeps W z0 s) :
    Keeps W z0 (State.releaseIlk s) := by
  unfold State.releaseIlk
  with_reducible repeat' first | assumption | decide | refine State.setRed_keeps (hw.mono ?_) ?_ | (refine Keeps.set_sys (hw.mem (by decide)) ?_; assumption)

theorem State.writeBankRec_keeps {W : List Part} {z0 : State} {s : State} {r : BankRec} (hw : Within [.flash] W)
    (h : Keeps W z0 s) :
    Keeps W z0 (State.writeBankRec s r) := by
  unfold State.writeBankRec
  with_reducible repeat' first | assumption | decide | refine State.flashWrite_keeps (hw.mono ?_) ?_ | split

theorem State.assertIlk_keeps {W : List Part} {z0 : State} {s : State} {forced : Bool} (hw : Within [.sys, .red] W)
    (h : Keeps W z0 s) :
    Keeps W z0 (State.assertIlk s forced) := by
  unfold State.assertIlk
  with_reducible repeat' first | assumption | decide | refine State.setRed_keeps (hw.mono ?_) ?_ | (refine Keeps.set_sys (hw.mem (by decide)) ?_; assumption)

theorem State.normalAssert_keeps {W : List Part} {z0 : State} {s : State} (hw : Within [.sys, .red] W)
    (h : Keeps W z0 s) :
    Keeps W z0 (State.normalAssert s) := by
  unfold State.normalAssert
  with_reducible repeat' first | assumption | decide | apply Keeps.ite | refine State.assertIlk_keeps (hw.mono ?_) ?_

theorem State.standbyAtEntry_keeps {W : List Part} {z0 : State} {s : State}
    (hw : Within [.time, .evr, .hif, .que, .red, .regs, .outbox, .free] W) (h : Keeps W z0 s) :
    Keeps W z0 (State.standbyAtEntry s) := by
  unfold State.standbyAtEntry
  with_reducible repeat' first | assumption | decide | refine State.holdoverAtEntry_keeps (hw.mono ?_) ?_ | refine State.setRed_keeps (hw.mono ?_) ?_ | refine State.setReg_keeps (hw.mono ?_) ?_

theorem State.attestAdd_keeps {W : List Part} {z0 : State} {s : State} {r : AttReq} (hw : Within [.cip, .boot] W)
    (h : Keeps W z0 s) :
    Keeps W z0 (State.attestAdd s r) := by
  unfold State.attestAdd
  with_reducible repeat' first | assumption | decide | refine State.attestNext_keeps (hw.mono ?_) ?_ | refine State.setBoot_keeps (hw.mono ?_) ?_

theorem State.attest_keeps {W : List Part} {z0 : State} {s : State} {d : Desc}
    (hw : Within [.evr, .hif, .que, .cip, .boot, .regs, .outbox, .free] W) (h : Keeps W z0 s) :
    Keeps W z0 (State.attest s d) := by
  unfold State.attest
  with_reducible repeat' first | assumption | decide | apply Keeps.ite | refine State.command_keeps (hw.mono ?_) ?_ ?_ | refine State.complete_keeps (hw.mono ?_) ?_ | refine State.attestAdd_keeps (hw.mono ?_) ?_ | apply Keeps.foldl | (intro _; intros) | split

theorem State.attestRequestRx_keeps {W : List Part} {z0 : State} {s : State} {p : Nat} {mac : List Byte}
    {nonce : List Byte} (hw : Within [.cip, .boot, .regs] W) (h : Keeps W z0 s) :
    Keeps W z0 (State.attestRequestRx s p mac nonce) := by
  unfold State.attestRequestRx
  with_reducible repeat' first | assumption | decide | apply Keeps.ite | refine State.bump_keeps (hw.mono ?_) ?_ | refine State.setFld_keeps (hw.mono ?_) ?_ | refine State.attestAdd_keeps (hw.mono ?_) ?_

theorem State.attestFail_keeps {W : List Part} {z0 : State} {s : State} {r : AttReq} {snap : Bool} {st : Status}
    (hw : Within [.hif, .mem] W) (h : Keeps W z0 s) :
    Keeps W z0 (State.attestFail s r snap st) := by
  unfold State.attestFail
  with_reducible repeat' first | assumption | decide | refine State.complete_keeps (hw.mono ?_) ?_ | refine State.writeWin_keeps (hw.mono ?_) ?_ | split

theorem State.attestEnd_keeps {W : List Part} {z0 : State} {s : State} {st : Status} {sig : List Byte}
    (hw : Within [.hif, .cip, .boot, .mem] W) (h : Keeps W z0 s) :
    Keeps W z0 (State.attestEnd s st sig) := by
  unfold State.attestEnd
  with_reducible repeat' first | assumption | decide | refine State.setBoot_keeps (hw.mono ?_) ?_ | refine State.attestNext_keeps (hw.mono ?_) ?_ | refine State.attestFail_keeps (hw.mono ?_) ?_ | split

theorem State.attestFlush_keeps {W : List Part} {z0 : State} {s : State} {st : Status}
    (hw : Within [.hif, .cip, .boot, .mem] W) (h : Keeps W z0 s) :
    Keeps W z0 (State.attestFlush s st) := by
  unfold State.attestFlush
  with_reducible repeat' first | assumption | decide | apply Keeps.ite | refine State.setBoot_keeps (hw.mono ?_) ?_ | refine State.attestFail_keeps (hw.mono ?_) ?_ | (refine Keeps.set_cip (hw.mem (by decide)) ?_; first | assumption | apply Keeps.ite | refine State.setBoot_keeps (hw.mono ?_) ?_ | refine State.attestFail_keeps (hw.mono ?_) ?_ | split) | apply Keeps.foldl | (intro _; intros) | split

theorem State.attestReportOut_keeps {W : List Part} {z0 : State} {s : State}
    (hw : Within [.hif, .cip, .boot, .ethA, .ethB, .regs, .mem] W) (h : Keeps W z0 s) :
    Keeps W z0 (State.attestReportOut s) := by
  unfold State.attestReportOut
  with_reducible repeat' first | assumption | decide | refine State.bump16_keeps (hw.mono ?_) ?_ | refine State.setBoot_keeps (hw.mono ?_) ?_ | refine State.complete_keeps (hw.mono ?_) ?_ | refine State.writeWin_keeps (hw.mono ?_) ?_ | refine State.sendMgmt_keeps (hw.mono ?_) ?_ | refine State.attestNext_keeps (hw.mono ?_) ?_ | split

theorem State.bootAttestPub_keeps {W : List Part} {z0 : State} {s : State} {d : Desc}
    (hw : Within [.evr, .hif, .que, .regs, .mem, .outbox, .free] W) (h : Keeps W z0 s) :
    Keeps W z0 (State.bootAttestPub s d) := by
  unfold State.bootAttestPub
  with_reducible repeat' first | assumption | decide | apply Keeps.ite | refine State.command_keeps (hw.mono ?_) ?_ ?_ | refine State.complete_keeps (hw.mono ?_) ?_ | refine State.writeWin_keeps (hw.mono ?_) ?_ | apply Keeps.foldl | (intro _; intros) | split

theorem State.setHif_keeps {W : List Part} {z0 : State} {s : State} {f : HifSt → HifSt} (hw : Within [.hif] W)
    (h : Keeps W z0 s) :
    Keeps W z0 (State.setHif s f) := by
  unfold State.setHif
  with_reducible repeat' first | assumption | decide | (refine Keeps.set_hif (hw.mem (by decide)) ?_; assumption)

theorem State.rsbWrite_keeps {W : List Part} {z0 : State} {s : State} {o : Nat} {bs : List Byte}
    (hw : Within [.outbox] W) (h : Keeps W z0 s) :
    Keeps W z0 (State.rsbWrite s o bs) := by
  unfold State.rsbWrite
  with_reducible repeat' first | assumption | decide | apply Keeps.ite | refine State.emit_keeps (hw.mono ?_) ?_

theorem State.rsbMapByte_keeps {W : List Part} {z0 : State} {s : State} {r : Nat} {i : Nat}
    (hw : Within [.outbox] W) (h : Keeps W z0 s) :
    Keeps W z0 (State.rsbMapByte s r i) := by
  unfold State.rsbMapByte
  with_reducible repeat' first | assumption | decide | refine State.rsbWrite_keeps (hw.mono ?_) ?_

theorem State.rsbDone_keeps {W : List Part} {z0 : State} {s : State} {r : Nat} {i : Nat}
    (hw : Within [.red, .outbox] W) (h : Keeps W z0 s) :
    Keeps W z0 (State.rsbDone s r i) := by
  unfold State.rsbDone
  with_reducible repeat' first | assumption | decide | apply Keeps.ite | refine State.rsbMapByte_keeps (hw.mono ?_) ?_ | refine State.rsbWrite_keeps (hw.mono ?_) ?_ | (refine Keeps.set_red (hw.mem (by decide)) ?_; first | assumption | apply Keeps.ite | refine State.rsbMapByte_keeps (hw.mono ?_) ?_ | refine State.rsbWrite_keeps (hw.mono ?_) ?_ | split) | split

theorem State.completionWrite_keeps {W : List Part} {z0 : State} {s : State}
    (hw : Within [.hif, .red, .regs, .outbox] W) (h : Keeps W z0 s) :
    Keeps W z0 (State.completionWrite s) := by
  unfold State.completionWrite
  with_reducible repeat' first | assumption | decide | refine State.setHif_keeps (hw.mono ?_) ?_ | refine State.bump_keeps (hw.mono ?_) ?_ | refine State.setReg_keeps (hw.mono ?_) ?_ | refine State.emit_keeps (hw.mono ?_) ?_ | refine State.raise_keeps (hw.mono ?_) ?_ | refine State.rsbDone_keeps (hw.mono ?_) ?_ | split

theorem State.writeHeld_keeps {W : List Part} {z0 : State} {s : State} {fuel : Nat}
    (hw : Within [.hif, .red, .regs, .outbox] W) (h : Keeps W z0 s) :
    Keeps W z0 (State.writeHeld s fuel) := by
  induction fuel generalizing s with
  | zero => exact h
  | succ n ih =>
    unfold State.writeHeld
    exact Keeps.ite h (ih (State.completionWrite_keeps (hw.mono rfl) h))

theorem State.ethConflict_keeps {W : List Part} {z0 : State} {s : State} {p : Nat} {bs : List Byte} {t_}
    (hw : Within [.evr, .hif, .tbl, .que, .regs, .outbox, .free] W) (e : (State.ethConflict s p bs) = some t_)
    (h : Keeps W z0 s) :
    Keeps W z0 t_ := by
  unfold State.ethConflict at e
  dsimp only at e
  repeat' split at e
  all_goals first | (cases e; done) | cases e | skip
  with_reducible repeat' first | assumption | decide | apply Keeps.ite | refine State.bump_keeps (hw.mono ?_) ?_ | refine post_keeps (hw.mono ?_) ?_ | (refine Keeps.set_tbl (hw.mem (by decide)) ?_; first | assumption | apply Keeps.ite | refine State.bump_keeps (hw.mono ?_) ?_ | refine post_keeps (hw.mono ?_) ?_ | split) | split

theorem State.ethRoute_keeps {W : List Part} {z0 : State} {s : State} {t : U64} {bs : List Byte}
    (hw : Within [.evr, .hif, .que, .tol, .cip, .rf, .regs, .ctxs, .outbox, .free] W) (h : Keeps W z0 s) :
    Keeps W z0 (State.ethRoute s t bs) := by
  unfold State.ethRoute
  with_reducible repeat' first | assumption | decide | refine State.routeUp_keeps (hw.mono ?_) ?_

theorem State.toHost_keeps {W : List Part} {z0 : State} {s : State} {p : Nat} {t : U64} {bs : List Byte}
    (hw : Within [.evr, .hif, .que, .regs, .outbox, .free] W) (h : Keeps W z0 s) :
    Keeps W z0 (State.toHost s p t bs) := by
  unfold State.toHost
  with_reducible repeat' first | assumption | decide | apply Keeps.ite | refine State.bump_keeps (hw.mono ?_) ?_ | refine State.enqueue_keeps (hw.mono ?_) ?_

theorem State.ethClassify_keeps {W : List Part} {z0 : State} {s : State} {p : Nat} {t : U64} {bs : List Byte}
    (hw : Within [.evr, .hif, .que, .tol, .cip, .rf, .regs, .ctxs, .outbox, .free] W) (h : Keeps W z0 s) :
    Keeps W z0 (State.ethClassify s p t bs) := by
  unfold State.ethClassify
  with_reducible repeat' first | assumption | decide | apply Keeps.ite | refine State.bump_keeps (hw.mono ?_) ?_ | refine State.ethRoute_keeps (hw.mono ?_) ?_ | refine State.toHost_keeps (hw.mono ?_) ?_ | refine State.ethConflict_keeps (hw.mono ?_) (by assumption) ?_ | split

theorem State.ethFrameRx_keeps {W : List Part} {z0 : State} {s0_ : State} {t : U64} {p : Nat} {bs : List Byte}
    {fcsOk : Bool}
    (hw : Within [.time, .evr, .hif, .tbl, .que, .tol, .cip, .rf, .ethA, .ethB, .regs, .ctxs, .outbox, .free] W)
    (h : Keeps W z0 s0_) :
    Keeps W z0 (State.ethFrameRx s0_ t p bs fcsOk) := by
  unfold State.ethFrameRx
  with_reducible repeat' first | assumption | decide | apply Keeps.ite | refine State.at__keeps (hw.mono ?_) ?_ | refine State.bump_keeps (hw.mono ?_) ?_ | refine State.setEth_keeps (hw.mono ?_) ?_ | refine State.ethClassify_keeps (hw.mono ?_) ?_ | refine State.ethConflict_keeps (hw.mono ?_) (by assumption) ?_ | split

theorem State.ptpMessage_keeps {W : List Part} {z0 : State} {s0_ : State} {t : U64} {p : Nat} {domain : Nat}
    {sync : Option (Int × Int)} (hw : Within [.time, .evr, .hif, .que, .regs, .outbox, .free] W)
    (h : Keeps W z0 s0_) :
    Keeps W z0 (State.ptpMessage s0_ t p domain sync) := by
  unfold State.ptpMessage
  with_reducible repeat' first | assumption | decide | apply Keeps.ite | refine State.at__keeps (hw.mono ?_) ?_ | refine State.ptpSync_keeps (hw.mono ?_) ?_ | split

theorem State.ethSend_keeps {W : List Part} {z0 : State} {s : State} {d : Desc}
    (hw : Within [.evr, .hif, .que, .ethA, .ethB, .regs, .outbox, .free] W) (h : Keeps W z0 s) :
    Keeps W z0 (State.ethSend s d) := by
  unfold State.ethSend
  with_reducible repeat' first | assumption | decide | apply Keeps.ite | refine State.command_keeps (hw.mono ?_) ?_ ?_ | refine State.complete_keeps (hw.mono ?_) ?_ | refine State.ethQueueOut_keeps (hw.mono ?_) ?_ | apply Keeps.foldl | (intro _; intros) | split

theorem State.skipGaps_keeps {W : List Part} {z0 : State} {s : State} {q : Nat} {fuel : Nat}
    (hw : Within [.que, .regs] W) (h : Keeps W z0 s) :
    Keeps W z0 (State.skipGaps s q fuel) := by
  induction fuel generalizing s with
  | zero => exact h
  | succ k ih =>
    unfold State.skipGaps
    split
    · exact Keeps.ite (ih (State.takeHead_keeps (hw.mono rfl) h)) h
    · exact h

theorem State.egressTake_keeps {W : List Part} {z0 : State} {s0_ : State} {p : Nat} {q : Nat}
    (hw : Within [.evr, .hif, .que, .regs, .outbox, .free] W) (h : Keeps W z0 s0_) :
    Keeps W z0 (State.egressTake s0_ p q).1 := by
  unfold State.egressTake
  dsimp only
  with_reducible repeat' first | assumption | decide | apply Keeps.ite | refine State.resetQueue_keeps (hw.mono ?_) ?_ ?_ | refine post_keeps (hw.mono ?_) ?_ | refine State.skipGaps_keeps (hw.mono ?_) ?_ | refine State.dropBroken_keeps (hw.mono ?_) ?_ | refine State.takeHead_keeps (hw.mono ?_) ?_ | (refine Keeps.fields (fun p => by cases p <;> first | exact .inl (hw.mem (by decide)) | exact .inr rfl) ?_ ?_ ?_ <;> first | rfl | assumption) | apply Keeps.foldl | refine Keeps.ofFst (by assumption) ?_ | (intro _; intros) | split

theorem State.ethLeaves_keeps {W : List Part} {z0 : State} {s : State} {p : Nat} {bs : List Byte}
    (hw : Within [.regs, .outbox] W) (h : Keeps W z0 s) :
    Keeps W z0 (State.ethLeaves s p bs) := by
  unfold State.ethLeaves
  with_reducible repeat' first | assumption | decide | refine State.bump_keeps (hw.mono ?_) ?_ | refine State.emit_keeps (hw.mono ?_) ?_

theorem State.ethernetEgress_keeps {W : List Part} {z0 : State} {s : State} {p : Nat}
    (hw : Within [.evr, .hif, .que, .ethA, .ethB, .regs, .outbox, .free] W) (h : Keeps W z0 s) :
    Keeps W z0 (State.ethernetEgress s p) := by
  unfold State.ethernetEgress
  dsimp only
  with_reducible repeat' first | assumption | decide | apply Keeps.ite | refine State.ethLeaves_keeps (hw.mono ?_) ?_ | refine State.setEth_keeps (hw.mono ?_) ?_ | refine State.complete_keeps (hw.mono ?_) ?_ | refine State.egressTake_keeps (hw.mono ?_) ?_ | (refine Keeps.fields (fun p => by cases p <;> first | exact .inl (hw.mem (by decide)) | exact .inr rfl) ?_ ?_ ?_ <;> first | rfl | assumption) | refine Keeps.ofFst (by assumption) ?_ | split

theorem State.pauseQuantaExpiry_keeps {W : List Part} {z0 : State} {s : State} {p : Nat}
    (hw : Within [.ethA, .ethB] W) (h : Keeps W z0 s) :
    Keeps W z0 (State.pauseQuantaExpiry s p) := by
  unfold State.pauseQuantaExpiry
  with_reducible repeat' first | assumption | decide | refine State.setEth_keeps (hw.mono ?_) ?_

theorem State.ethLinkChange_keeps {W : List Part} {z0 : State} {s : State} {p : Nat} {up : Bool} {speed : Nat}
    (hw : Within [.hif, .ethA, .ethB, .regs, .outbox] W) (h : Keeps W z0 s) :
    Keeps W z0 (State.ethLinkChange s p up speed) := by
  unfold State.ethLinkChange
  with_reducible repeat' first | assumption | decide | apply Keeps.ite | refine State.setEth_keeps (hw.mono ?_) ?_ | refine State.raise_keeps (hw.mono ?_) ?_

theorem State.ethCtrlWrite_keeps {W : List Part} {z0 : State} {s : State} {p : Nat} {ptp : Bool} {v : Word}
    (hw : Within [.evr, .hif, .que, .ethA, .ethB, .regs, .outbox, .free] W) (h : Keeps W z0 s) :
    Keeps W z0 (State.ethCtrlWrite s p ptp v) := by
  unfold State.ethCtrlWrite
  with_reducible repeat' first | assumption | decide | apply Keeps.ite | refine State.setReg_keeps (hw.mono ?_) ?_ | refine State.notice_keeps (hw.mono ?_) ?_ | refine State.ethLinkChange_keeps (hw.mono ?_) ?_

theorem State.evrRead_keeps {W : List Part} {z0 : State} {s : State} {d : Desc}
    (hw : Within [.evr, .hif, .que, .regs, .mem, .outbox, .free] W) (h : Keeps W z0 s) :
    Keeps W z0 (State.evrRead s d) := by
  unfold State.evrRead
  with_reducible repeat' first | assumption | decide | apply Keeps.ite | refine State.command_keeps (hw.mono ?_) ?_ ?_ | refine State.complete_keeps (hw.mono ?_) ?_ | refine State.writeWin_keeps (hw.mono ?_) ?_ | apply Keeps.foldl | (intro _; intros) | split

theorem State.evrWrite_keeps {W : List Part} {z0 : State} {s : State} {d : Desc}
    (hw : Within [.evr, .hif, .que, .regs, .outbox, .free] W) (h : Keeps W z0 s) :
    Keeps W z0 (State.evrWrite s d) := by
  unfold State.evrWrite
  with_reducible repeat' first | assumption | decide | apply Keeps.ite | refine State.command_keeps (hw.mono ?_) ?_ ?_ | refine State.complete_keeps (hw.mono ?_) ?_ | refine State.postAsk_keeps (hw.mono ?_) ?_ | apply Keeps.foldl | refine Keeps.ofFst (by assumption) ?_ | (intro _; intros) | split

theorem State.evrClear_keeps {W : List Part} {z0 : State} {s : State} {d : Desc}
    (hw : Within [.evr, .hif, .que, .regs, .outbox, .free] W) (h : Keeps W z0 s) :
    Keeps W z0 (State.evrClear s d) := by
  unfold State.evrClear
  refine State.command_keeps (hw.mono rfl) h fun s h => ?_
  refine Keeps.ite (State.complete_keeps (hw.mono rfl) h)
      (Keeps.ite (State.complete_keeps (hw.mono rfl) h) (Keeps.ite (State.complete_keeps (hw.mono rfl) h) ?_))
  refine State.complete_keeps (hw.mono rfl)
      (State.setFld_keeps (hw.mono rfl) (Keeps.foldl (fun _ _ h => State.setReg_keeps (hw.mono rfl) h)
    (State.postAsk_keeps (hw.mono rfl) (Keeps.fields (fun p => by cases p <;> first | exact .inl (hw.mem rfl) | with_unfolding_all exact .inr rfl) (s := Prod.fst _) ?_ rfl rfl))))
  split
  · exact h
  · exact State.nextFree_keeps (hw.mono rfl) h

theorem State.hostProdWrite_keeps {W : List Part} {z0 : State} {s : State} {k : Nat} {v : Word}
    (hw : Within [.hif, .regs, .outbox] W) (h : Keeps W z0 s) :
    Keeps W z0 (State.hostProdWrite s k v) := by
  unfold State.hostProdWrite
  with_reducible repeat' first | assumption | decide | apply Keeps.ite | refine State.setReg_keeps (hw.mono ?_) ?_ | refine State.raise_keeps (hw.mono ?_) ?_ | refine State.bump_keeps (hw.mono ?_) ?_

theorem State.hostConsWrite_keeps {W : List Part} {z0 : State} {s : State} {k : Nat} {v : Word}
    (hw : Within [.regs] W) (h : Keeps W z0 s) :
    Keeps W z0 (State.hostConsWrite s k v) := by
  unfold State.hostConsWrite
  with_reducible repeat' first | assumption | decide | apply Keeps.ite | refine State.setReg_keeps (hw.mono ?_) ?_

theorem State.fetchError_keeps {W : List Part} {z0 : State} {s : State} {k : Nat}
    (hw : Within [.evr, .hif, .que, .regs, .outbox, .free] W) (h : Keeps W z0 s) :
    Keeps W z0 (State.fetchError s k) := by
  unfold State.fetchError
  with_reducible repeat' first | assumption | decide | refine post_keeps (hw.mono ?_) ?_ | refine State.raise_keeps (hw.mono ?_) ?_ | refine State.setReg_keeps (hw.mono ?_) ?_

theorem State.advanceCons_keeps {W : List Part} {z0 : State} {s : State} {k : Nat} (hw : Within [.regs] W)
    (h : Keeps W z0 s) :
    Keeps W z0 (State.advanceCons s k) := by
  unfold State.advanceCons
  with_reducible repeat' first | assumption | decide | refine State.setReg_keeps (hw.mono ?_) ?_

theorem State.rsbFetch_keeps {W : List Part} {z0 : State} {s : State} {r : Nat} {i : Nat}
    (hw : Within [.red, .outbox] W) (h : Keeps W z0 s) :
    Keeps W z0 (State.rsbFetch s r i) := by
  unfold State.rsbFetch
  with_reducible repeat' first | assumption | decide | apply Keeps.ite | refine State.rsbWrite_keeps (hw.mono ?_) ?_ | refine State.rsbMapByte_keeps (hw.mono ?_) ?_ | (refine Keeps.set_red (hw.mem (by decide)) ?_; assumption)

theorem State.rsbInit_keeps {W : List Part} {z0 : State} {s : State} (hw : Within [.red, .outbox] W)
    (h : Keeps W z0 s) :
    Keeps W z0 (State.rsbInit s) := by
  unfold State.rsbInit
  with_reducible repeat' first | assumption | decide | refine State.rsbWrite_keeps (hw.mono ?_) ?_ | (refine Keeps.set_red (hw.mem (by decide)) ?_; assumption)

theorem State.judgeCommand_keeps {W : List Part} {z0 : State} {s : State} {d : Desc}
    (hw : Within [.evr, .hif, .que, .regs, .outbox, .free] W) (h : Keeps W z0 s) :
    Keeps W z0 (State.judgeCommand s d) := by
  unfold State.judgeCommand
  with_reducible repeat' first | assumption | decide | refine State.complete_keeps (hw.mono ?_) ?_ | refine State.setHif_keeps (hw.mono ?_) ?_ | refine State.rejectState_keeps (hw.mono ?_) ?_ | split

theorem State.commandFetch_keeps {W : List Part} {z0 : State} {s : State} {d : Dma Desc}
    (hw : Within [.evr, .hif, .que, .regs, .outbox, .free] W) (h : Keeps W z0 s) :
    Keeps W z0 (State.commandFetch s d) := by
  unfold State.commandFetch
  with_reducible repeat' first | assumption | decide | refine State.fetchError_keeps (hw.mono ?_) ?_ | refine State.judgeCommand_keeps (hw.mono ?_) ?_ | refine State.bump_keeps (hw.mono ?_) ?_ | refine State.advanceCons_keeps (hw.mono ?_) ?_ | split

theorem State.unlessHeld_keeps {W : List Part} {z0 : State} {s : State} {d : Desc} {k : State → State}
    (hw : Within [] W) (h : Keeps W z0 s) (h_k : ∀ b0, Keeps W z0 b0 → Keeps W z0 (k b0)) :
    Keeps W z0 (State.unlessHeld s d k) := by
  unfold State.unlessHeld
  with_reducible repeat' first | assumption | decide | apply Keeps.ite | apply h_k

theorem State.hifNop_keeps {W : List Part} {z0 : State} {s : State} {d : Desc}
    (hw : Within [.evr, .hif, .que, .regs, .outbox, .free] W) (h : Keeps W z0 s) :
    Keeps W z0 (State.hifNop s d) := by
  unfold State.hifNop
  with_reducible repeat' first | assumption | decide | refine State.command_keeps (hw.mono ?_) ?_ ?_ | refine State.complete_keeps (hw.mono ?_) ?_ | apply Keeps.foldl | (intro _; intros) | split

theorem State.txTaken_keeps {W : List Part} {z0 : State} {s : State} {r : Nat} {d : Desc} {buf : Dma (List Byte)}
    (hw : Within [.evr, .hif, .spanc, .tbl, .que, .cip, .rf, .red, .regs, .ctxs, .outbox, .free] W)
    (h : Keeps W z0 s) :
    Keeps W z0 (State.txTaken s r d buf) := by
  unfold State.txTaken
  with_reducible repeat' first | assumption | decide | apply Keeps.ite | refine State.bump_keeps (hw.mono ?_) ?_ | refine State.advanceCons_keeps (hw.mono ?_) ?_ | refine State.rsbFetch_keeps (hw.mono ?_) ?_ | refine State.setHif_keeps (hw.mono ?_) ?_ | refine State.txAccept_keeps (hw.mono ?_) ?_ | refine State.txRefuse_keeps (hw.mono ?_) ?_ | split

theorem State.txFetch_keeps {W : List Part} {z0 : State} {s : State} {r : Nat} {d : Dma Desc}
    {buf : Dma (List Byte)}
    (hw : Within [.evr, .hif, .spanc, .tbl, .que, .cip, .rf, .red, .regs, .ctxs, .outbox, .free] W)
    (h : Keeps W z0 s) :
    Keeps W z0 (State.txFetch s r d buf) := by
  unfold State.txFetch
  with_reducible repeat' first | assumption | decide | refine State.fetchError_keeps (hw.mono ?_) ?_ | refine State.txTaken_keeps (hw.mono ?_) ?_ | refine State.setHif_keeps (hw.mono ?_) ?_ | split

theorem State.phaseReread_keeps {W : List Part} {z0 : State} {s : State} {r : Nat} {d : Dma Desc}
    {buf : Dma (List Byte)}
    (hw : Within [.evr, .hif, .spanc, .tbl, .que, .cip, .rf, .red, .regs, .ctxs, .outbox, .free] W)
    (h : Keeps W z0 s) :
    Keeps W z0 (State.phaseReread s r d buf) := by
  unfold State.phaseReread
  with_reducible repeat' first | assumption | decide | apply Keeps.ite | refine State.setHif_keeps (hw.mono ?_) ?_ | refine State.fetchError_keeps (hw.mono ?_) ?_ | refine State.txTaken_keeps (hw.mono ?_) ?_ | refine State.bump_keeps (hw.mono ?_) ?_ | refine State.advanceCons_keeps (hw.mono ?_) ?_ | refine State.rsbFetch_keeps (hw.mono ?_) ?_ | refine State.txRefuse_keeps (hw.mono ?_) ?_ | split

theorem State.moderationExpiry_keeps {W : List Part} {z0 : State} {s0_ : State} {t : U64} {v : Nat}
    (hw : Within [.time, .hif, .regs, .outbox] W) (h : Keeps W z0 s0_) :
    Keeps W z0 (State.moderationExpiry s0_ t v) := by
  unfold State.moderationExpiry
  with_reducible repeat' first | assumption | decide | apply Keeps.ite | refine State.at__keeps (hw.mono ?_) ?_ | refine State.sendMsi_keeps (hw.mono ?_) ?_ | refine State.setHif_keeps (hw.mono ?_) ?_

theorem State.linkReset_keeps {W : List Part} {z0 : State} {s : State} (hw : Within [.hif, .regs] W)
    (h : Keeps W z0 s) :
    Keeps W z0 (State.linkReset s) := by
  exact Keeps.fields (fun p => by cases p <;> first | exact .inl (hw.mem rfl) | with_unfolding_all exact .inr rfl) (h.regs (hw.mem rfl) regs_wf_filter) rfl rfl

theorem State.pePerst_keeps {W : List Part} {z0 : State} {s : State} {low : Bool} (hw : Within [.hif, .regs] W)
    (h : Keeps W z0 s) :
    Keeps W z0 (State.pePerst s low) := by
  unfold State.pePerst
  with_reducible repeat' first | assumption | decide | apply Keeps.ite | refine State.setHif_keeps (hw.mono ?_) ?_ | refine State.linkReset_keeps (hw.mono ?_) ?_

theorem State.pcieLinkChange_keeps {W : List Part} {z0 : State} {s : State} {up : Bool} {speed : Nat} {width : Nat}
    (hw : Within [.regs] W) (h : Keeps W z0 s) :
    Keeps W z0 (State.pcieLinkChange s up speed width) := by
  unfold State.pcieLinkChange
  with_reducible repeat' first | assumption | decide | apply Keeps.ite | refine State.setReg_keeps (hw.mono ?_) ?_

theorem State.queEnd_keeps {W : List Part} {z0 : State} {s : State} {issuer : Issuer} {d : Desc} {st : Status}
    {q : Nat} {n : Nat} (hw : Within [.hif] W) (h : Keeps W z0 s) :
    Keeps W z0 (State.queEnd s issuer d st q n) := by
  unfold State.queEnd
  with_reducible repeat' first | assumption | decide | refine State.complete_keeps (hw.mono ?_) ?_ | split

theorem State.queCommand_keeps {W : List Part} {z0 : State} {s : State} {issuer : Issuer} {d : Desc} {rewind : Bool}
    {used : List Nat} {k : State → Nat → State × Status × Nat}
    (hw : Within [.evr, .hif, .que, .regs, .outbox, .free] W) (h : Keeps W z0 s)
    (h_k : ∀ b0 b1, Keeps W z0 b0 → Keeps W z0 (k b0 b1).1) :
    Keeps W z0 (State.queCommand s issuer d rewind used k) := by
  unfold State.queCommand
  with_reducible repeat' first | assumption | decide | apply Keeps.ite | apply h_k | refine State.queEnd_keeps (hw.mono ?_) ?_ | refine State.rejectNote_keeps (hw.mono ?_) ?_ | refine State.resetQueue_keeps (hw.mono ?_) ?_ ?_ | refine post_keeps (hw.mono ?_) ?_ | apply Keeps.foldl | (intro _; intros) | split

theorem State.queDropRest_keeps {W : List Part} {z0 : State} {s : State} {issuer : Issuer} {d : Desc}
    (hw : Within [.evr, .hif, .que, .regs, .outbox, .free] W) (h : Keeps W z0 s) :
    Keeps W z0 (State.queDropRest s issuer d) := by
  unfold State.queDropRest
  with_reducible repeat' first | assumption | decide | apply Keeps.iteFst | refine State.queCommand_keeps (hw.mono ?_) ?_ ?_ | refine State.setQueue_keeps (hw.mono ?_) ?_ | refine State.bumpBy_keeps (hw.mono ?_) ?_ | apply Keeps.foldl | apply Keeps.foldlFst | (intro _; intros) | split

theorem State.queMark_keeps {W : List Part} {z0 : State} {s : State} {issuer : Issuer} {d : Desc}
    (hw : Within [.evr, .hif, .que, .regs, .outbox, .free] W) (h : Keeps W z0 s) :
    Keeps W z0 (State.queMark s issuer d) := by
  unfold State.queMark
  with_reducible repeat' first | assumption | decide | refine State.queCommand_keeps (hw.mono ?_) ?_ ?_ | refine State.setQueue_keeps (hw.mono ?_) ?_ | apply Keeps.foldl | (intro _; intros) | split

theorem State.rewindQueue_keeps {W : List Part} {z0 : State} {s : State} {q : Nat} (hw : Within [.que] W)
    (h : Keeps W z0 s) :
    Keeps W z0 (State.rewindQueue s q) := by
  unfold State.rewindQueue
  with_reducible repeat' first | assumption | decide | refine State.setQueue_keeps (hw.mono ?_) ?_

theorem State.queRewind_keeps {W : List Part} {z0 : State} {s : State} {issuer : Issuer} {d : Desc}
    (hw : Within [.evr, .hif, .que, .regs, .outbox, .free] W) (h : Keeps W z0 s) :
    Keeps W z0 (State.queRewind s issuer d) := by
  unfold State.queRewind
  with_reducible repeat' first | assumption | decide | refine State.queCommand_keeps (hw.mono ?_) ?_ ?_ | refine State.rewindQueue_keeps (hw.mono ?_) ?_ | apply Keeps.foldl | (intro _; intros) | split

theorem State.releaseQueue_keeps {W : List Part} {z0 : State} {s : State} {q : Nat} {sq : BitVec 16} {t_}
    (hw : Within [.que, .regs] W) (e : (State.releaseQueue s q sq) = some t_) (h : Keeps W z0 s) :
    Keeps W z0 t_.1 := by
  unfold State.releaseQueue at e
  simp only [Option.map_eq_some_iff] at e
  obtain ⟨r, _, rfl⟩ := e
  exact State.setQueue_keeps (hw.mono rfl) (State.bumpBy_keeps (hw.mono rfl) h)

theorem State.queRelease_keeps {W : List Part} {z0 : State} {s : State} {issuer : Issuer} {d : Desc}
    (hw : Within [.evr, .hif, .que, .regs, .outbox, .free] W) (h : Keeps W z0 s) :
    Keeps W z0 (State.queRelease s issuer d) := by
  unfold State.queRelease
  with_reducible repeat' first | assumption | decide | refine State.queCommand_keeps (hw.mono ?_) ?_ ?_ | refine State.freeGaps_keeps (hw.mono ?_) ?_ | refine State.releaseQueue_keeps (hw.mono ?_) (by assumption) ?_ | apply Keeps.foldl | (intro _; intros) | split

theorem State.popFree_keeps {W : List Part} {z0 : State} {s : State} {q : Nat} (hw : Within [.que] W)
    (h : Keeps W z0 s) :
    Keeps W z0 (State.popFree s q) := by
  unfold State.popFree
  with_reducible repeat' first | assumption | decide | apply Keeps.ite | refine State.setQueue_keeps (hw.mono ?_) ?_

theorem State.quePop_keeps {W : List Part} {z0 : State} {s0_ : State} {q : Nat}
    (hw : Within [.evr, .hif, .que, .regs, .outbox, .free] W) (h : Keeps W z0 s0_) :
    Keeps W z0 (State.quePop s0_ q) := by
  unfold State.quePop
  dsimp only
  with_reducible repeat' first | assumption | decide | apply Keeps.ite | refine State.checkPointers_keeps (hw.mono ?_) ?_ ?_ | refine post_keeps (hw.mono ?_) ?_ | refine State.dropBroken_keeps (hw.mono ?_) ?_ | refine State.popFree_keeps (hw.mono ?_) ?_ | refine State.takeHead_keeps (hw.mono ?_) ?_ | refine State.setQueue_keeps (hw.mono ?_) ?_ | (refine Keeps.fields (fun p => by cases p <;> first | exact .inl (hw.mem (by decide)) | exact .inr rfl) ?_ ?_ ?_ <;> first | rfl | assumption) | apply Keeps.foldl | refine Keeps.ofFst (by assumption) ?_ | (intro _; intros) | split

theorem State.quePopFree_keeps {W : List Part} {z0 : State} {s0_ : State} {q : Nat}
    (hw : Within [.evr, .hif, .que, .regs, .outbox, .free] W) (h : Keeps W z0 s0_) :
    Keeps W z0 (State.quePopFree s0_ q) := by
  unfold State.quePopFree
  with_reducible repeat' first | assumption | decide | apply Keeps.ite | refine State.checkPointers_keeps (hw.mono ?_) ?_ ?_ | refine post_keeps (hw.mono ?_) ?_ | refine State.popFree_keeps (hw.mono ?_) ?_ | apply Keeps.foldl | (intro _; intros) | split

theorem State.rxDelivery_keeps {W : List Part} {z0 : State} {s : State} {r : Nat}
    (hw : Within [.evr, .hif, .que, .regs, .outbox, .free] W) (h : Keeps W z0 s) :
    Keeps W z0 (State.rxDelivery s r) := by
  unfold State.rxDelivery
  dsimp only
  with_reducible repeat' first | assumption | decide | apply Keeps.ite | refine State.resetQueue_keeps (hw.mono ?_) ?_ ?_ | refine post_keeps (hw.mono ?_) ?_ | refine State.skipGaps_keeps (hw.mono ?_) ?_ | refine State.dropBroken_keeps (hw.mono ?_) ?_ | refine State.takeHead_keeps (hw.mono ?_) ?_ | refine State.freeGaps_keeps (hw.mono ?_) ?_ | refine State.setReg_keeps (hw.mono ?_) ?_ | refine State.emit_keeps (hw.mono ?_) ?_ | refine State.rsbWrite_keeps (hw.mono ?_) ?_ | refine State.bump_keeps (hw.mono ?_) ?_ | refine State.raise_keeps (hw.mono ?_) ?_ | (refine Keeps.set_que (hw.mem (by decide)) ?_; first | assumption | apply Keeps.ite | refine State.resetQueue_keeps (hw.mono ?_) ?_ ?_ | refine post_keeps (hw.mono ?_) ?_ | refine State.skipGaps_keeps (hw.mono ?_) ?_ | refine State.dropBroken_keeps (hw.mono ?_) ?_ | refine State.takeHead_keeps (hw.mono ?_) ?_ | refine State.freeGaps_keeps (hw.mono ?_) ?_ | refine State.setReg_keeps (hw.mono ?_) ?_ | refine State.emit_keeps (hw.mono ?_) ?_ | refine State.rsbWrite_keeps (hw.mono ?_) ?_ | refine State.bump_keeps (hw.mono ?_) ?_ | refine State.raise_keeps (hw.mono ?_) ?_ | split) | apply Keeps.foldl | refine Keeps.ofFst (by assumption) ?_ | (intro _; intros) | split

theorem State.forgetDescs_keeps {W : List Part} {z0 : State} {s : State}
    (hw : Within [.hif, .que, .cip, .rf, .regs] W) (h : Keeps W z0 s) :
    Keeps W z0 (State.forgetDescs s) := by
  unfold State.forgetDescs
  with_reducible repeat' first | assumption | decide | refine State.txForget_keeps (hw.mono ?_) ?_ | apply Keeps.foldl | (intro _; intros) | split

theorem State.startLeap_keeps {W : List Part} {z0 : State} {s : State} (hw : Within [.rf] W) (h : Keeps W z0 s) :
    Keeps W z0 (State.startLeap s) := by
  unfold State.startLeap
  with_reducible repeat' first | assumption | decide | refine State.setRf_keeps (hw.mono ?_) ?_

theorem State.takeover_keeps {W : List Part} {z0 : State} {s : State} {cause : Nat}
    (hw : Within [.sys, .time, .evr, .hif, .que, .rf, .red, .regs, .outbox, .free] W) (h : Keeps W z0 s) :
    Keeps W z0 (State.takeover s cause) := by
  unfold State.takeover
  with_reducible repeat' first | assumption | decide | apply Keeps.ite | refine State.setRed_keeps (hw.mono ?_) ?_ | refine State.assertIlk_keeps (hw.mono ?_) ?_ | refine State.enter_keeps (hw.mono ?_) ?_ | refine post_keeps (hw.mono ?_) ?_ | refine State.startLeap_keeps (hw.mono ?_) ?_ | refine State.setReg_keeps (hw.mono ?_) ?_ | refine State.raise_keeps (hw.mono ?_) ?_ | refine State.bump_keeps (hw.mono ?_) ?_ | refine State.holdoverAtEntry_keeps (hw.mono ?_) ?_

theorem State.ilkInRelease_keeps {W : List Part} {z0 : State} {s0_ : State} {t : U64}
    (hw : Within [.sys, .time, .evr, .hif, .que, .rf, .red, .regs, .outbox, .free] W) (h : Keeps W z0 s0_) :
    Keeps W z0 (State.ilkInRelease s0_ t) := by
  unfold State.ilkInRelease
  with_reducible repeat' first | assumption | decide | apply Keeps.ite | refine State.at__keeps (hw.mono ?_) ?_ | refine State.setRed_keeps (hw.mono ?_) ?_ | refine State.setFld_keeps (hw.mono ?_) ?_ | refine State.takeover_keeps (hw.mono ?_) ?_ | (refine Keeps.set_sys (hw.mem (by decide)) ?_; first | assumption | apply Keeps.ite | refine State.at__keeps (hw.mono ?_) ?_ | refine State.setRed_keeps (hw.mono ?_) ?_ | refine State.setFld_keeps (hw.mono ?_) ?_ | refine State.takeover_keeps (hw.mono ?_) ?_ | split) | split

theorem State.preempted_keeps {W : List Part} {z0 : State} {s : State}
    (hw : Within [.sys, .evr, .hif, .que, .cip, .rf, .red, .regs, .outbox, .free] W) (h : Keeps W z0 s) :
    Keeps W z0 (State.preempted s) := by
  unfold State.preempted
  with_reducible repeat' first | assumption | decide | apply Keeps.ite | refine State.releaseIlk_keeps (hw.mono ?_) ?_ | refine State.bump_keeps (hw.mono ?_) ?_ | refine post_keeps (hw.mono ?_) ?_ | refine State.raise_keeps (hw.mono ?_) ?_ | refine State.setRed_keeps (hw.mono ?_) ?_ | refine State.forgetDescs_keeps (hw.mono ?_) ?_

theorem State.ilkInActive_keeps {W : List Part} {z0 : State} {s0_ : State} {t : U64}
    (hw : Within [.sys, .time, .evr, .hif, .spanc, .tbl, .que, .tol, .cip, .par, .cal, .rf, .red, .regs, .ctxs, .outbox, .free] W) (h : Keeps W z0 s0_) :
    Keeps W z0 (State.ilkInActive s0_ t) := by
  unfold State.ilkInActive
  with_reducible repeat' first | assumption | decide | apply Keeps.ite | refine State.at__keeps (hw.mono ?_) ?_ | refine State.interlockLost_keeps (hw.mono ?_) ?_ | refine State.preempted_keeps (hw.mono ?_) ?_ | refine State.forgetDescs_keeps (hw.mono ?_) ?_ | (refine Keeps.set_sys (hw.mem (by decide)) ?_; first | assumption | apply Keeps.ite | refine State.at__keeps (hw.mono ?_) ?_ | refine State.interlockLost_keeps (hw.mono ?_) ?_ | refine State.preempted_keeps (hw.mono ?_) ?_ | refine State.forgetDescs_keeps (hw.mono ?_) ?_ | split) | split

theorem State.stuckCheck_keeps {W : List Part} {z0 : State} {s0_ : State} {t : U64}
    (hw : Within [.time, .evr, .hif, .que, .regs, .outbox, .free] W) (h : Keeps W z0 s0_) :
    Keeps W z0 (State.stuckCheck s0_ t) := by
  unfold State.stuckCheck
  with_reducible repeat' first | assumption | decide | apply Keeps.ite | refine State.at__keeps (hw.mono ?_) ?_ | refine State.raise_keeps (hw.mono ?_) ?_ | refine post_keeps (hw.mono ?_) ?_ | refine State.setFld_keeps (hw.mono ?_) ?_

theorem State.heartbeatSend_keeps {W : List Part} {z0 : State} {s0_ : State} {t : U64} {written : Bool}
    (hw : Within [.time, .red, .ethA, .ethB, .regs, .outbox] W) (h : Keeps W z0 s0_) :
    Keeps W z0 (State.heartbeatSend s0_ t written) := by
  unfold State.heartbeatSend
  with_reducible repeat' first | assumption | decide | apply Keeps.ite | refine State.at__keeps (hw.mono ?_) ?_ | refine State.emit_keeps (hw.mono ?_) ?_ | refine State.sendMgmt_keeps (hw.mono ?_) ?_ | refine State.bump_keeps (hw.mono ?_) ?_ | refine State.setRed_keeps (hw.mono ?_) ?_

theorem State.aliveCheck_keeps {W : List Part} {z0 : State} {s : State} {p : Nat} {alive : Byte}
    (hw : Within [.chk, .regs] W) (h : Keeps W z0 s) :
    Keeps W z0 (State.aliveCheck s p alive).1 := by
  unfold State.aliveCheck
  with_reducible repeat' first | assumption | decide | apply Keeps.ite | refine State.setChan_keeps (hw.mono ?_) ?_ | refine State.bump_keeps (hw.mono ?_) ?_ | (refine Keeps.set_chk (hw.mem (by decide)) ?_; first | assumption | apply Keeps.ite | refine State.setChan_keeps (hw.mono ?_) ?_ | refine State.bump_keeps (hw.mono ?_) ?_ | split) | split

theorem State.heartbeatValid_keeps {W : List Part} {z0 : State} {s : State} {p : Nat} {b : List Byte}
    (hw : Within [.evr, .hif, .que, .red, .regs, .outbox, .free] W) (h : Keeps W z0 s) :
    Keeps W z0 (State.heartbeatValid s p b) := by
  unfold State.heartbeatValid
  with_reducible repeat' first | assumption | decide | apply Keeps.ite | refine State.setReg_keeps (hw.mono ?_) ?_ | refine post_keeps (hw.mono ?_) ?_ | refine State.setRed_keeps (hw.mono ?_) ?_

theorem State.heartbeatRx_keeps {W : List Part} {z0 : State} {s0_ : State} {t : U64} {p : Nat} {b : List Byte}
    (hw : Within [.time, .evr, .hif, .que, .red, .chk, .regs, .outbox, .free] W) (h : Keeps W z0 s0_) :
    Keeps W z0 (State.heartbeatRx s0_ t p b) := by
  unfold State.heartbeatRx
  with_reducible repeat' first | assumption | decide | apply Keeps.ite | refine State.at__keeps (hw.mono ?_) ?_ | refine State.bump_keeps (hw.mono ?_) ?_ | refine State.aliveCheck_keeps (hw.mono ?_) ?_ | refine State.heartbeatValid_keeps (hw.mono ?_) ?_

theorem State.heartbeatMiss_keeps {W : List Part} {z0 : State} {s0_ : State} {t : U64}
    (hw : Within [.sys, .time, .evr, .hif, .que, .rf, .red, .regs, .outbox, .free] W) (h : Keeps W z0 s0_) :
    Keeps W z0 (State.heartbeatMiss s0_ t) := by
  unfold State.heartbeatMiss
  with_reducible repeat' first | assumption | decide | apply Keeps.ite | refine State.at__keeps (hw.mono ?_) ?_ | refine State.setReg_keeps (hw.mono ?_) ?_ | refine State.bump_keeps (hw.mono ?_) ?_ | refine State.setRed_keeps (hw.mono ?_) ?_ | refine State.takeover_keeps (hw.mono ?_) ?_ | refine post_keeps (hw.mono ?_) ?_

theorem State.standbyArmed_keeps {W : List Part} {z0 : State} {s : State} (hw : Within [.red] W) (h : Keeps W z0 s) :
    Keeps W z0 (State.standbyArmed s) := by
  unfold State.standbyArmed
  with_reducible repeat' first | assumption | decide | apply Keeps.ite | refine State.setRed_keeps (hw.mono ?_) ?_

theorem State.recoverRing_keeps {W : List Part} {z0 : State} {rsb : List Byte} {tags : List (Nat × Nat × BitVec 16)}
    {s : State} {r : Nat} (hw : Within [.hif, .regs] W) (h : Keeps W z0 s) :
    Keeps W z0 (State.recoverRing rsb tags s r) := by
  unfold State.recoverRing
  exact Keeps.foldl (fun s j h => Keeps.ite h (State.bump_keeps (hw.mono rfl) (State.hold_keeps (hw.mono rfl) h))) h

theorem State.ringRecovery_keeps {W : List Part} {z0 : State} {s : State} {rsb : List Byte}
    {tags : List (Nat × Nat × BitVec 16)} (hw : Within [.hif, .red, .regs, .outbox] W) (h : Keeps W z0 s) :
    Keeps W z0 (State.ringRecovery s rsb tags) := by
  unfold State.ringRecovery
  refine Keeps.ite h
      (Keeps.foldl (fun s r h => State.recoverRing_keeps (hw.mono rfl) h) (State.rsbWrite_keeps (hw.mono rfl) (State.setRed_keeps (hw.mono rfl) ?_)))
  exact Keeps.foldl (fun s r h => State.setReg_keeps (hw.mono rfl) (State.setReg_keeps (hw.mono rfl) h)) h

theorem State.redTick_keeps {W : List Part} {z0 : State} {s : State} (hw : Within [.sys, .red, .regs, .outbox] W)
    (h : Keeps W z0 s) :
    Keeps W z0 (State.redTick s) := by
  unfold State.redTick
  with_reducible repeat' first | assumption | decide | apply Keeps.ite | refine State.setRed_keeps (hw.mono ?_) ?_ | refine State.setFld_keeps (hw.mono ?_) ?_ | refine State.normalAssert_keeps (hw.mono ?_) ?_ | refine State.rsbWrite_keeps (hw.mono ?_) ?_ | split

theorem State.startLeaving_keeps {W : List Part} {z0 : State} {s : State} {d : Desc}
    (hw : Within [.time, .evr, .hif, .spanc, .tbl, .que, .tol, .cip, .rf, .red, .regs, .ctxs, .outbox, .free] W)
    (h : Keeps W z0 s) :
    Keeps W z0 (State.startLeaving s d) := by
  unfold State.startLeaving
  with_reducible repeat' first | assumption | decide | refine State.settleAir_keeps (hw.mono ?_) ?_ | refine State.claimsForget_keeps (hw.mono ?_) ?_ | refine State.setRed_keeps (hw.mono ?_) ?_

theorem State.redSwitch_keeps {W : List Part} {z0 : State} {s : State} {d : Desc}
    (hw : Within [.time, .evr, .hif, .spanc, .tbl, .que, .tol, .cip, .rf, .red, .regs, .ctxs, .outbox, .free] W)
    (h : Keeps W z0 s) :
    Keeps W z0 (State.redSwitch s d) := by
  unfold State.redSwitch
  with_reducible repeat' first | assumption | decide | refine State.command_keeps (hw.mono ?_) ?_ ?_ | refine State.complete_keeps (hw.mono ?_) ?_ | refine State.startLeaving_keeps (hw.mono ?_) ?_ | apply Keeps.foldl | (intro _; intros) | split

theorem State.switchoverRelease_keeps {W : List Part} {z0 : State} {s0_ : State} {t : U64}
    (hw : Within [.sys, .time, .evr, .hif, .que, .cip, .rf, .red, .regs, .outbox, .free] W) (h : Keeps W z0 s0_) :
    Keeps W z0 (State.switchoverRelease s0_ t) := by
  unfold State.switchoverRelease
  with_reducible repeat' first | assumption | decide | apply Keeps.ite | refine State.at__keeps (hw.mono ?_) ?_ | refine State.enter_keeps (hw.mono ?_) ?_ | refine State.setRed_keeps (hw.mono ?_) ?_ | refine State.releaseIlk_keeps (hw.mono ?_) ?_ | refine State.forgetDescs_keeps (hw.mono ?_) ?_ | refine State.complete_keeps (hw.mono ?_) ?_ | refine State.standbyAtEntry_keeps (hw.mono ?_) ?_ | apply Keeps.foldl | (intro _; intros) | split

theorem State.sysServe_keeps {W : List Part} {z0 : State} {s : State} {d : Desc}
    (hw : Within [.sys, .time, .evr, .hif, .spanc, .tbl, .que, .tol, .cip, .rf, .red, .regs, .ctxs, .outbox, .free] W) (h : Keeps W z0 s) :
    Keeps W z0 (State.sysServe s d) := by
  unfold State.sysServe
  with_reducible repeat' first | assumption | decide | apply Keeps.ite | refine State.complete_keeps (hw.mono ?_) ?_ | refine State.rejectState_keeps (hw.mono ?_) ?_ | refine State.startLeaving_keeps (hw.mono ?_) ?_ | (refine Keeps.set_sys (hw.mem (by decide)) ?_; assumption)

theorem State.serveActive_keeps {W : List Part} {z0 : State} {s : State}
    (hw : Within [.sys, .time, .evr, .hif, .que, .rf, .red, .regs, .outbox, .free] W) (h : Keeps W z0 s) :
    Keeps W z0 (State.serveActive s) := by
  unfold State.serveActive
  with_reducible repeat' first | assumption | decide | apply Keeps.ite | refine State.normalAssert_keeps (hw.mono ?_) ?_ | refine State.enter_keeps (hw.mono ?_) ?_ | refine State.setRed_keeps (hw.mono ?_) ?_ | refine State.rsbInit_keeps (hw.mono ?_) ?_ | refine State.startLeap_keeps (hw.mono ?_) ?_ | refine State.holdoverAtEntry_keeps (hw.mono ?_) ?_

theorem State.serveOne_keeps {W : List Part} {z0 : State} {s : State} {x : Desc × Bool}
    (hw : Within [.sys, .time, .evr, .hif, .que, .rf, .red, .regs, .outbox, .free] W) (h : Keeps W z0 s) :
    Keeps W z0 (State.serveOne s x) := by
  unfold State.serveOne
  with_reducible repeat' first | assumption | decide | refine State.complete_keeps (hw.mono ?_) ?_ | refine State.serveActive_keeps (hw.mono ?_) ?_ | refine State.standbyAtEntry_keeps (hw.mono ?_) ?_ | refine State.enter_keeps (hw.mono ?_) ?_ | refine State.rejectState_keeps (hw.mono ?_) ?_ | split

theorem State.serveEntry_keeps {W : List Part} {z0 : State} {s : State}
    (hw : Within [.sys, .time, .evr, .hif, .que, .cip, .rf, .red, .regs, .ctxs, .outbox, .free] W)
    (h : Keeps W z0 s) :
    Keeps W z0 (State.serveEntry s) := by
  unfold State.serveEntry
  with_reducible repeat' first | assumption | decide | refine State.settleAir_keeps (hw.mono ?_) ?_ | refine State.serveOne_keeps (hw.mono ?_) ?_ | (refine Keeps.set_sys (hw.mem (by decide)) ?_; assumption) | apply Keeps.foldl | (intro _; intros) | split

theorem State.tblLockWrite_keeps {W : List Part} {z0 : State} {s : State} {t : Nat} {h_ : Nat} {v : Word}
    (hw : Within [.tbl, .regs] W) (h : Keeps W z0 s) :
    Keeps W z0 (State.tblLockWrite s t h_ v) := by
  unfold State.tblLockWrite
  with_reducible repeat' first | assumption | decide | apply Keeps.ite | refine State.writeLock_keeps (hw.mono ?_) ?_

theorem State.heldBack_keeps {W : List Part} {z0 : State} {s : State} {x : TxDesc} (hw : Within [.rf, .regs] W)
    (h : Keeps W z0 s) :
    Keeps W z0 (State.heldBack s x) := by
  unfold State.heldBack
  with_reducible repeat' first | assumption | decide | apply Keeps.ite | refine State.bump_keeps (hw.mono ?_) ?_ | refine State.setDesc_keeps (hw.mono ?_) ?_

theorem State.dedicatedReady_keeps {W : List Part} {z0 : State} {s : State} {b : Nat} {a : ActCell}
    {gone : List (Nat × Nat)} (hw : Within [.evr, .hif, .que, .rf, .regs, .ctxs, .outbox, .free] W)
    (h : Keeps W z0 s) :
    Keeps W z0 (State.dedicatedReady s b a gone).1 := by
  unfold State.dedicatedReady
  dsimp only
  with_reducible repeat' first | assumption | decide | apply Keeps.ite | refine State.fetchCtx_keeps (hw.mono ?_) ?_ | refine State.bump_keeps (hw.mono ?_) ?_ | refine State.heldBack_keeps (hw.mono ?_) ?_ | (refine Keeps.fields (fun p => by cases p <;> first | exact .inl (hw.mem (by decide)) | exact .inr rfl) ?_ ?_ ?_ <;> first | rfl | assumption) | refine Keeps.ofFst (by assumption) ?_ | split

theorem State.dropStrays_keeps {W : List Part} {z0 : State} {s : State} {q : Nat} (hw : Within [.que] W)
    (h : Keeps W z0 s) :
    Keeps W z0 (State.dropStrays s q) := by
  unfold State.dropStrays
  with_reducible repeat' first | assumption | decide | apply Keeps.ite | refine State.setQueue_keeps (hw.mono ?_) ?_

theorem State.sharedReady_keeps {W : List Part} {z0 : State} {s0_ : State} {a : ActCell} {gone : List (Nat × Nat)}
    (hw : Within [.evr, .hif, .que, .cip, .rf, .regs, .ctxs, .outbox, .free] W) (h : Keeps W z0 s0_) :
    Keeps W z0 (State.sharedReady s0_ a gone).1 := by
  unfold State.sharedReady
  dsimp only
  with_reducible repeat' first | assumption | decide | apply Keeps.ite | refine State.dropStrays_keeps (hw.mono ?_) ?_ | refine State.fetchCtx_keeps (hw.mono ?_) ?_ | refine State.txComplete_keeps (hw.mono ?_) ?_ | refine State.heldBack_keeps (hw.mono ?_) ?_ | (refine Keeps.fields (fun p => by cases p <;> first | exact .inl (hw.mem (by decide)) | with_unfolding_all exact .inr rfl) ?_ ?_ ?_ <;> first | rfl | assumption) | refine Keeps.ofFst (by assumption) ?_ | split

theorem State.cellReady_keeps {W : List Part} {z0 : State} {s : State} {b : Nat} {a : ActCell}
    {gone : List (Nat × Nat)} (hw : Within [.evr, .hif, .que, .cip, .rf, .regs, .ctxs, .outbox, .free] W)
    (h : Keeps W z0 s) :
    Keeps W z0 (State.cellReady s b a gone).1 := by
  unfold State.cellReady
  with_reducible repeat' first | assumption | decide | refine State.dedicatedReady_keeps (hw.mono ?_) ?_ | refine State.sharedReady_keeps (hw.mono ?_) ?_ | split

theorem State.candidates_keeps {W : List Part} {z0 : State} {s : State} {b : Nat} {l : List ActCell}
    (hw : Within [.evr, .hif, .que, .cip, .rf, .regs, .ctxs, .outbox, .free] W) (h : Keeps W z0 s) :
    Keeps W z0 (State.candidates s b l).1 := by
  unfold State.candidates
  dsimp only
  with_reducible repeat' first | assumption | decide | apply Keeps.ite | apply Keeps.iteFst | refine State.cellReady_keeps (hw.mono ?_) ?_ | (refine Keeps.fields (fun p => by cases p <;> first | exact .inl (hw.mem (by decide)) | exact .inr rfl) ?_ ?_ ?_ <;> first | rfl | assumption) | apply Keeps.foldl | apply Keeps.foldlFst | refine Keeps.ofFst (by assumption) ?_ | (intro _; intros) | split

theorem State.selectTwo_keeps {W : List Part} {z0 : State} {s : State} {b : Nat} {l : List (ActCell × CellSend)}
    (hw : Within [.regs] W) (h : Keeps W z0 s) :
    Keeps W z0 (State.selectTwo s b l).1 := by
  unfold State.selectTwo
  with_reducible repeat' first | assumption | decide | apply Keeps.iteFst | refine State.bump_keeps (hw.mono ?_) ?_ | apply Keeps.foldl | apply Keeps.foldlFst | (intro _; intros) | split

theorem State.takeFrame_keeps {W : List Part} {z0 : State} {s : State} {x : TxDesc} {k : Nat} {len : Nat}
    (hw : Within [.que, .tol, .rf, .regs] W) (h : Keeps W z0 s) :
    Keeps W z0 (State.takeFrame s x k len).1 := by
  unfold State.takeFrame
  with_reducible repeat' first | assumption | decide | apply Keeps.iteFst | refine State.setQueue_keeps (hw.mono ?_) ?_ | refine State.noteWait_keeps (hw.mono ?_) ?_ | refine State.police_keeps (hw.mono ?_) ?_ | refine State.setDesc_keeps (hw.mono ?_) ?_ | apply Keeps.foldl | apply Keeps.foldlFst | (intro _; intros) | split

theorem State.protect_keeps {W : List Part} {z0 : State} {s : State} {c : Claim}
    (hw : Within [.evr, .hif, .spanc, .tbl, .que, .tol, .cip, .rf, .regs, .ctxs, .outbox, .free] W)
    (h : Keeps W z0 s) :
    Keeps W z0 (State.protect s c) := by
  unfold State.protect
  with_reducible repeat' first | assumption | decide | apply Keeps.ite | refine State.setClaim_keeps (hw.mono ?_) ?_ | refine State.claimFails_keeps (hw.mono ?_) ?_ | refine State.countLate_keeps (hw.mono ?_) ?_ | refine State.queueJob_keeps (hw.mono ?_) ?_

theorem State.claimFor_keeps {W : List Part} {z0 : State} {s : State} {b : Nat} {a : ActCell} {x : CellSend}
    (hw : Within [.evr, .hif, .spanc, .tbl, .que, .tol, .cip, .rf, .regs, .ctxs, .outbox, .free] W)
    (h : Keeps W z0 s) :
    Keeps W z0 (State.claimFor s b a x).1 := by
  unfold State.claimFor
  dsimp only
  with_reducible repeat' first | assumption | decide | apply Keeps.ite | refine State.makeClaim_keeps (hw.mono ?_) ?_ | refine State.protect_keeps (hw.mono ?_) ?_ | refine State.beaconEnds_keeps (hw.mono ?_) ?_ | refine State.takeFrame_keeps (hw.mono ?_) ?_ | refine State.setRf_keeps (hw.mono ?_) ?_ | refine State.setDesc_keeps (hw.mono ?_) ?_ | refine State.cellEnds_keeps (hw.mono ?_) ?_ | (refine Keeps.fields (fun p => by cases p <;> first | exact .inl (hw.mem (by decide)) | exact .inr rfl) ?_ ?_ ?_ <;> first | rfl | assumption) | refine Keeps.ofFst (by assumption) ?_ | split

theorem State.capGuard_keeps {W : List Part} {z0 : State} {s : State} {b : Nat} {gmax : Nat} {fine : Nat}
    (hw : Within [.regs] W) (h : Keeps W z0 s) :
    Keeps W z0 (State.capGuard s b gmax fine).1 := by
  unfold State.capGuard
  exact Keeps.iteFst (State.bump_keeps (hw.mono rfl) h) h

theorem State.guardOf_keeps {W : List Part} {z0 : State} {s : State} {b : Nat} {a : ActCell} {standby : Bool}
    (hw : Within [.evr, .hif, .que, .regs, .ctxs, .outbox, .free] W) (h : Keeps W z0 s) :
    Keeps W z0 (State.guardOf s b a standby).1 := by
  unfold State.guardOf
  refine Keeps.iteFst (State.capGuard_keeps (hw.mono rfl) h)
      (Keeps.iteFst (State.capGuard_keeps (hw.mono rfl) h) (Keeps.iteFst (State.capGuard_keeps (hw.mono rfl) h) ?_))
  split
  · rename_i heq
    exact Keeps.ofFst heq (State.fetchCtx_keeps (hw.mono rfl) h)
  · rename_i heq
    exact State.capGuard_keeps (hw.mono rfl) (Keeps.ofFst heq (State.fetchCtx_keeps (hw.mono rfl) h))

theorem State.rxMember_keeps {W : List Part} {z0 : State} {s : State} {b : Nat} {a : ActCell} {standbyTx : Bool}
    (hw : Within [.evr, .hif, .que, .regs, .ctxs, .outbox, .free] W) (h : Keeps W z0 s) :
    Keeps W z0 (State.rxMember s b a standbyTx).1 := by
  unfold State.rxMember
  with_reducible repeat' first | assumption | decide | refine State.guardOf_keeps (hw.mono ?_) ?_

theorem State.waitUnserved_keeps {W : List Part} {z0 : State} {s : State} {id : Nat}
    (hw : Within [.hif, .que, .cip, .rf, .regs] W) (h : Keeps W z0 s) :
    Keeps W z0 (State.waitUnserved s id) := by
  unfold State.waitUnserved
  with_reducible repeat' first | assumption | decide | refine State.claimLate_keeps (hw.mono ?_) ?_ | split

theorem State.unopened_keeps {W : List Part} {z0 : State} {s : State} {b : Nat} {ms : List RxMember}
    (hw : Within [.hif, .que, .cip, .rf, .regs] W) (h : Keeps W z0 s) :
    Keeps W z0 (State.unopened s b ms) := by
  unfold State.unopened
  with_reducible repeat' first | assumption | decide | refine State.waitUnserved_keeps (hw.mono ?_) ?_ | refine State.bump_keeps (hw.mono ?_) ?_ | apply Keeps.foldl | (intro _; intros) | split

theorem State.assignPiers_keeps {W : List Part} {z0 : State} {s : State} {b : Nat} {l : List RxGroup}
    (hw : Within [.hif, .que, .cip, .rf, .regs] W) (h : Keeps W z0 s) :
    Keeps W z0 (State.assignPiers s b l).1 := by
  unfold State.assignPiers
  with_reducible repeat' first | assumption | decide | apply Keeps.iteFst | refine State.unopened_keeps (hw.mono ?_) ?_ | refine State.setPier_keeps (hw.mono ?_) ?_ | apply Keeps.foldl | apply Keeps.foldlFst | (intro _; intros) | split

theorem State.rxCells_keeps {W : List Part} {z0 : State} {s : State} {b : Nat} {l : List ActCell}
    {sent : List ActCell} (hw : Within [.evr, .hif, .que, .regs, .ctxs, .outbox, .free] W) (h : Keeps W z0 s) :
    Keeps W z0 (State.rxCells s b l sent).1 := by
  unfold State.rxCells
  with_reducible repeat' first | assumption | decide | apply Keeps.iteFst | refine State.rxMember_keeps (hw.mono ?_) ?_ | apply Keeps.foldl | apply Keeps.foldlFst | (intro _; intros) | split

theorem State.resolveRx_keeps {W : List Part} {z0 : State} {s : State} {b : Nat} {l : List ActCell}
    {sent : List ActCell} {waits : List Claim} {tx : Nat}
    (hw : Within [.evr, .hif, .que, .cip, .rf, .regs, .ctxs, .outbox, .free] W) (h : Keeps W z0 s) :
    Keeps W z0 (State.resolveRx s b l sent waits tx) := by
  unfold State.resolveRx
  with_reducible repeat' first | assumption | decide | refine State.rxCells_keeps (hw.mono ?_) ?_ | refine State.unopened_keeps (hw.mono ?_) ?_ | refine State.assignPiers_keeps (hw.mono ?_) ?_ | refine State.setReg_keeps (hw.mono ?_) ?_ | refine State.bumpBy_keeps (hw.mono ?_) ?_

theorem State.noteResolved_keeps {W : List Part} {z0 : State} {s : State} {b : Nat} (hw : Within [.sch, .rf] W)
    (h : Keeps W z0 s) :
    Keeps W z0 (State.noteResolved s b) := by
  unfold State.noteResolved
  with_reducible repeat' first | assumption | decide | refine State.setRf_keeps (hw.mono ?_) ?_ | (refine Keeps.set_sch (hw.mem (by decide)) ?_; assumption)

theorem State.resolveTx_keeps {W : List Part} {z0 : State} {s : State} {b : Nat}
    (hw : Within [.evr, .hif, .sch, .que, .cip, .rf, .regs, .ctxs, .outbox, .free] W) (h : Keeps W z0 s) :
    Keeps W z0 (State.resolveTx s b).1 := by
  unfold State.resolveTx
  with_reducible repeat' first | assumption | decide | refine State.bumpBy_keeps (hw.mono ?_) ?_ | refine State.noteResolved_keeps (hw.mono ?_) ?_ | refine State.candidates_keeps (hw.mono ?_) ?_ | refine State.selectTwo_keeps (hw.mono ?_) ?_ | split

theorem State.cellResolution_keeps {W : List Part} {z0 : State} {s0_ : State} {t : U64} {b : Nat}
    (hw : Within [.time, .evr, .hif, .spanc, .sch, .tbl, .que, .tol, .key, .cip, .rf, .red, .regs, .ctxs, .outbox, .free] W) (h : Keeps W z0 s0_) :
    Keeps W z0 (State.cellResolution s0_ t b) := by
  unfold State.cellResolution
  extract_lets s
  have hs : Keeps W z0 s := State.airAt_keeps (hw.mono rfl) h
  clear_value s
  refine Keeps.ite hs ?_
  have h1 := State.resolveTx_keeps (b := b) (hw.mono rfl) hs
  generalize s.resolveTx b = r at h1
  obtain ⟨s1, l, sel⟩ := r
  dsimp only
  refine State.settleAir_keeps (hw.mono rfl)
      (State.flushMac_keeps (hw.mono rfl) (State.resolveRx_keeps (hw.mono rfl) ?_))
  refine Keeps.foldlFst (fun p e hp => ?_) (State.bumpBy_keeps (hw.mono rfl) h1)
  split
  · rename_i heq
    exact Keeps.ofFst heq (State.claimFor_keeps (hw.mono rfl) hp)
  · rename_i heq
    exact Keeps.ofFst heq (State.claimFor_keeps (hw.mono rfl) hp)

theorem State.resolutionLate_keeps {W : List Part} {z0 : State} {s0_ : State} {t : U64} {b : Nat}
    (hw : Within [.time, .evr, .hif, .sch, .que, .cip, .rf, .red, .regs, .ctxs, .outbox, .free] W)
    (h : Keeps W z0 s0_) :
    Keeps W z0 (State.resolutionLate s0_ t b) := by
  unfold State.resolutionLate
  with_reducible repeat' first | assumption | decide | apply Keeps.ite | refine State.airAt_keeps (hw.mono ?_) ?_ | refine State.resolveTx_keeps (hw.mono ?_) ?_ | refine State.countLate_keeps (hw.mono ?_) ?_ | refine State.beaconEnds_keeps (hw.mono ?_) ?_ | refine State.cellEnds_keeps (hw.mono ?_) ?_ | refine State.rxCells_keeps (hw.mono ?_) ?_ | refine State.settleAir_keeps (hw.mono ?_) ?_ | refine State.bumpBy_keeps (hw.mono ?_) ?_ | apply Keeps.foldl | (intro _; intros) | split

theorem State.workItemLate_keeps {W : List Part} {z0 : State} {s : State} {t : U64} {x : LateItem}
    (hw : Within [.time, .evr, .hif, .spanc, .sch, .tbl, .que, .tol, .cip, .rf, .red, .regs, .ctxs, .mem, .outbox, .free] W) (h : Keeps W z0 s) :
    Keeps W z0 (State.workItemLate s t x) := by
  unfold State.workItemLate
  with_reducible repeat' first | assumption | decide | refine State.jobLate_keeps (hw.mono ?_) ?_ | refine State.resolutionLate_keeps (hw.mono ?_) ?_ | split

theorem State.schAsnRead_keeps {W : List Part} {z0 : State} {s : State} {b : Nat} (hw : Within [.regs] W)
    (h : Keeps W z0 s) :
    Keeps W z0 (State.schAsnRead s b) := by
  unfold State.schAsnRead
  with_reducible repeat' first | assumption | decide | refine State.setReg_keeps (hw.mono ?_) ?_

theorem State.schSfStartRead_keeps {W : List Part} {z0 : State} {s : State} (hw : Within [.regs] W)
    (h : Keeps W z0 s) :
    Keeps W z0 (State.schSfStartRead s) := by
  unfold State.schSfStartRead
  with_reducible repeat' first | assumption | decide | refine State.setReg_keeps (hw.mono ?_) ?_

theorem State.lockWaitApply_keeps {W : List Part} {z0 : State} {s : State} {t : Nat} {r : Nat}
    (hw : Within [.evr, .hif, .spanc, .tbl, .que, .regs, .outbox, .free] W) (h : Keeps W z0 s) :
    Keeps W z0 (State.lockWaitApply s t r) := by
  unfold State.lockWaitApply
  with_reducible repeat' first | assumption | decide | apply Keeps.ite | refine State.applyWaits_keeps (hw.mono ?_) ?_

theorem State.lockExpiry_keeps {W : List Part} {z0 : State} {s : State} {t : Nat} {r : Nat}
    (hw : Within [.evr, .hif, .tbl, .que, .regs, .outbox, .free] W) (h : Keeps W z0 s) :
    Keeps W z0 (State.lockExpiry s t r) := by
  unfold State.lockExpiry
  with_reducible repeat' first | assumption | decide | refine State.raise_keeps (hw.mono ?_) ?_ | refine post_keeps (hw.mono ?_) ?_ | refine State.bump_keeps (hw.mono ?_) ?_ | refine State.unlock_keeps (hw.mono ?_) ?_ | split

theorem State.seenAgeOut_keeps {W : List Part} {z0 : State} {s : State} (hw : Within [.spanc] W) (h : Keeps W z0 s) :
    Keeps W z0 (State.seenAgeOut s) := by
  unfold State.seenAgeOut
  with_reducible repeat' first | assumption | decide | refine State.ageOut_keeps (hw.mono ?_) ?_ | apply Keeps.foldl | (intro _; intros) | split

theorem State.overflowDrain_keeps {W : List Part} {z0 : State} {s : State} (hw : Within [.tbl, .regs] W)
    (h : Keeps W z0 s) :
    Keeps W z0 (State.overflowDrain s) := by
  unfold State.overflowDrain
  with_reducible repeat' first | assumption | decide | refine State.drainOverflow_keeps (hw.mono ?_) ?_

end Sys2Proof.Machine
end

