-- ==== Sys2Proof/Laws/KeepsSystem.lean ====
section
/-! SUPPORT. One lemma per operation on updates, the truss, activation, reset, boot, register writes and the tick:
it keeps the waiting commands and the canonical stores, and changes the parts listed at most. -/

namespace Sys2Proof.Machine

theorem State.commitWindowClose_keeps {W : List Part} {z0 : State} {s0_ : State} {t : U64}
    (hw : Within [.time, .truss, .evr, .hif, .spanc, .sch, .tbl, .que, .tol, .key, .cip, .cal, .rf, .red, .boot, .regs, .ctxs, .mem, .outbox, .free] W) (h : Keeps W z0 s0_) :
    Keeps W z0 (State.commitWindowClose s0_ t) := by
  unfold State.commitWindowClose
  with_reducible repeat' first | assumption | decide | refine State.settleAir_keeps (hw.mono ?_) ?_ | refine State.calRepend_keeps (hw.mono ?_) ?_ | refine State.flushMac_keeps (hw.mono ?_) ?_ | refine State.applyHeldAll_keeps (hw.mono ?_) ?_ | refine State.commitSpans_keeps (hw.mono ?_) ?_ ?_ | refine State.endQueued_keeps (hw.mono ?_) ?_ | refine State.at__keeps (hw.mono ?_) ?_ | apply Keeps.foldl | (intro _; intros) | split

theorem State.setUpd_keeps {W : List Part} {z0 : State} {s : State} {f : UpdSt → UpdSt} (hw : Within [.upd] W)
    (h : Keeps W z0 s) :
    Keeps W z0 (State.setUpd s f) := by
  unfold State.setUpd
  with_reducible repeat' first | assumption | decide | (refine Keeps.set_upd (hw.mem (by decide)) ?_; assumption)

theorem State.writeDefaults_keeps {W : List Part} {z0 : State} {s : State} {old : Nat} {m : Manifest} {ver : Word}
    (hw : Within [.evr, .hif, .que, .upd, .flash, .regs, .outbox, .free] W) (h : Keeps W z0 s) :
    Keeps W z0 (State.writeDefaults s old m ver) := by
  unfold State.writeDefaults
  exact post_keeps (hw.mono rfl)
      (State.setUpd_keeps (hw.mono rfl) (State.flashWrite_keeps (hw.mono rfl) (h.flash (hw.mem rfl) flash_wf_erase)))

theorem State.restartAudit_keeps {W : List Part} {z0 : State} {s : State} {m : Manifest} {fw : List Byte}
    (hw : Within [.evr, .hif, .que, .regs, .outbox, .free] W) (h : Keeps W z0 s) :
    Keeps W z0 (State.restartAudit s m fw) := by
  unfold State.restartAudit
  with_reducible repeat' first | assumption | decide | refine post_keeps (hw.mono ?_) ?_

theorem State.dropExtension_keeps {W : List Part} {z0 : State} {s : State} (hw : Within [.evr] W) (h : Keeps W z0 s) :
    Keeps W z0 (State.dropExtension s).1 := by
  unfold State.dropExtension
  dsimp only
  with_reducible repeat' first | assumption | decide | apply Keeps.ite | (refine Keeps.set_evr (hw.mem (by decide)) ?_; assumption) | split

theorem State.setTruss_keeps {W : List Part} {z0 : State} {s : State} {f : TrussSt → TrussSt}
    (hw : Within [.truss] W) (h : Keeps W z0 s) :
    Keeps W z0 (State.setTruss s f) := by
  unfold State.setTruss
  with_reducible repeat' first | assumption | decide | (refine Keeps.set_truss (hw.mem (by decide)) ?_; assumption)

theorem State.reloadQueue_keeps {W : List Part} {z0 : State} {s : State} {p : TrussParams} {q : Nat}
    (hw : Within [.evr, .hif, .que, .regs, .outbox, .free] W) (h : Keeps W z0 s) :
    Keeps W z0 (State.reloadQueue s p q) := by
  unfold State.reloadQueue
  with_reducible repeat' first | assumption | decide | apply Keeps.ite | refine State.setQueue_keeps (hw.mono ?_) ?_ | refine State.resetQueue_keeps (hw.mono ?_) ?_ ?_ | refine post_keeps (hw.mono ?_) ?_ | (refine Keeps.set_que (hw.mem (by decide)) ?_; first | assumption | apply Keeps.ite | refine State.setQueue_keeps (hw.mono ?_) ?_ | refine State.resetQueue_keeps (hw.mono ?_) ?_ ?_ | refine post_keeps (hw.mono ?_) ?_ | split) | apply Keeps.foldl | (intro _; intros) | split

theorem State.reloadQueues_keeps {W : List Part} {z0 : State} {s : State} {old : Truss} {new : Truss}
    (hw : Within [.evr, .hif, .que, .regs, .outbox, .free] W) (h : Keeps W z0 s) :
    Keeps W z0 (State.reloadQueues s old new) := by
  unfold State.reloadQueues
  with_reducible repeat' first | assumption | decide | refine State.reloadQueue_keeps (hw.mono ?_) ?_ | apply Keeps.foldl | (intro _; intros) | split

theorem State.reloadTables_keeps {W : List Part} {z0 : State} {s : State} {old : Truss} {new : Truss}
    (hw : Within [.tbl] W) (h : Keeps W z0 s) :
    Keeps W z0 (State.reloadTables s old new) := by
  unfold State.reloadTables
  with_reducible repeat' first | assumption | decide | apply Keeps.ite | (refine Keeps.set_tbl (hw.mem (by decide)) ?_; assumption)

theorem State.reloadMemory_keeps {W : List Part} {z0 : State} {s : State} {old : TrussParams} {new : TrussParams}
    (hw : Within [.sch, .ctxs, .mem] W) (h : Keeps W z0 s) :
    Keeps W z0 (State.reloadMemory s old new) := by
  have hm : ∀ (l : List Partition) (m : List Host.Cell), Memory.wf m = true →
      Memory.wf (l.foldl (fun m p => memZero m p.base p.size) m) = true := by
    intro l
    induction l with
    | nil => exact fun _ h => h
    | cons p r ih => exact fun m h => ih _ (memory_wf_zero h)
  unfold State.reloadMemory
  have h1 := h.mem (hw.mem rfl) (hm (changedPartitions old new) s.mem)
  have h2 : Keeps W z0 { s with
      mem := (changedPartitions old new).foldl (fun m p => memZero m p.base p.size) s.mem,
      ctxs := if old.contexts = new.contexts then s.ctxs else [] } := by
    refine h1.ctxs (hw.mem rfl) (fun hc => ?_)
    split
    · exact hc
    · rfl
  exact Keeps.fields (fun p => by cases p <;> first | exact .inl (hw.mem rfl) | with_unfolding_all exact .inr rfl) h2 rfl rfl

theorem State.noteDiscard_keeps {W : List Part} {z0 : State} {s : State} {x : Option (Word × Word)}
    (hw : Within [.evr, .hif, .que, .regs, .outbox, .free] W) (h : Keeps W z0 s) :
    Keeps W z0 (State.noteDiscard s x) := by
  unfold State.noteDiscard
  with_reducible repeat' first | assumption | decide | refine post_keeps (hw.mono ?_) ?_ | split

theorem State.sendVia_keeps {W : List Part} {z0 : State} {s : State} {dst : List Byte} {msg : Nat}
    {fields : List (List Byte)} (hw : Within [.ethA, .ethB] W) (h : Keeps W z0 s) :
    Keeps W z0 (State.sendVia s dst msg fields) := by
  unfold State.sendVia
  with_reducible repeat' first | assumption | decide | refine State.sendMgmt_keeps (hw.mono ?_) ?_

theorem State.reportHop_keeps {W : List Part} {z0 : State} {s : State} {left : Nat} {st : Status}
    (hw : Within [.ethA, .ethB, .regs] W) (h : Keeps W z0 s) :
    Keeps W z0 (State.reportHop s left st) := by
  unfold State.reportHop
  with_reducible repeat' first | assumption | decide | apply Keeps.ite | refine State.setFld_keeps (hw.mono ?_) ?_ | refine State.sendVia_keeps (hw.mono ?_) ?_

theorem State.sessionOutcome_keeps {W : List Part} {z0 : State} {s : State} {st : Status} {tell : Bool}
    (hw : Within [.hif, .upd, .ethA, .ethB, .regs, .outbox] W) (h : Keeps W z0 s) :
    Keeps W z0 (State.sessionOutcome s st tell) := by
  unfold State.sessionOutcome
  with_reducible repeat' first | assumption | decide | refine State.setUpd_keeps (hw.mono ?_) ?_ | refine State.complete_keeps (hw.mono ?_) ?_ | refine State.reportHop_keeps (hw.mono ?_) ?_ | refine State.raise_keeps (hw.mono ?_) ?_ | split

theorem State.clearFeed_keeps {W : List Part} {z0 : State} {s : State} (hw : Within [.que] W) (h : Keeps W z0 s) :
    Keeps W z0 (State.clearFeed s) := by
  unfold State.clearFeed
  with_reducible repeat' first | assumption | decide | apply Keeps.ite | refine State.setQueue_keeps (hw.mono ?_) ?_

theorem State.sessionEnd_keeps {W : List Part} {z0 : State} {s : State} {st : Status} {tell : Bool} {next : Session}
    (hw : Within [.hif, .que, .upd, .ethA, .ethB, .regs, .outbox] W) (h : Keeps W z0 s) :
    Keeps W z0 (State.sessionEnd s st tell next) := by
  unfold State.sessionEnd
  with_reducible repeat' first | assumption | decide | refine State.sessionOutcome_keeps (hw.mono ?_) ?_ | refine State.setUpd_keeps (hw.mono ?_) ?_ | refine State.clearFeed_keeps (hw.mono ?_) ?_

theorem State.applyTruss_keeps {W : List Part} {z0 : State} {s0_ : State} {src : TrussSource} {new : Truss}
    (hw : Within [.time, .truss, .evr, .hif, .spanc, .sch, .tbl, .que, .cal, .rf, .boot, .upd, .ethA, .ethB, .regs, .ctxs, .mem, .outbox, .free] W) (h : Keeps W z0 s0_) :
    Keeps W z0 (State.applyTruss s0_ src new) := by
  unfold State.applyTruss
  with_reducible repeat' first | assumption | decide | apply Keeps.ite | refine State.abortSpans_keeps (hw.mono ?_) ?_ | refine State.dropExtension_keeps (hw.mono ?_) ?_ | refine State.setTruss_keeps (hw.mono ?_) ?_ | refine State.reloadQueues_keeps (hw.mono ?_) ?_ | refine State.reloadTables_keeps (hw.mono ?_) ?_ | refine State.reloadMemory_keeps (hw.mono ?_) ?_ | refine State.setTime_keeps (hw.mono ?_) ?_ | refine State.setReg_keeps (hw.mono ?_) ?_ | refine State.newRole_keeps (hw.mono ?_) ?_ | refine State.calEmpty_keeps (hw.mono ?_) ?_ | refine State.mrExtend_keeps (hw.mono ?_) ?_ | refine State.noteDiscard_keeps (hw.mono ?_) ?_ | refine State.assignRoles_keeps (hw.mono ?_) ?_ | refine post_keeps (hw.mono ?_) ?_ | refine State.sessionEnd_keeps (hw.mono ?_) ?_ | (refine Keeps.set_evr (hw.mem (by decide)) ?_; first | assumption | apply Keeps.ite | refine State.abortSpans_keeps (hw.mono ?_) ?_ | refine State.dropExtension_keeps (hw.mono ?_) ?_ | refine State.setTruss_keeps (hw.mono ?_) ?_ | refine State.reloadQueues_keeps (hw.mono ?_) ?_ | refine State.reloadTables_keeps (hw.mono ?_) ?_ | refine State.reloadMemory_keeps (hw.mono ?_) ?_ | refine State.setTime_keeps (hw.mono ?_) ?_ | refine State.setReg_keeps (hw.mono ?_) ?_ | refine State.newRole_keeps (hw.mono ?_) ?_ | refine State.calEmpty_keeps (hw.mono ?_) ?_ | refine State.mrExtend_keeps (hw.mono ?_) ?_ | refine State.noteDiscard_keeps (hw.mono ?_) ?_ | refine State.assignRoles_keeps (hw.mono ?_) ?_ | refine post_keeps (hw.mono ?_) ?_ | refine State.sessionEnd_keeps (hw.mono ?_) ?_ | split) | split

theorem State.restartOn_keeps {W : List Part} {z0 : State} {s : State} {d : Desc} {m : Manifest} {new : Truss}
    {fw : List Byte} {keep : Bool} {old : Nat}
    (hw : Within [.time, .truss, .evr, .hif, .spanc, .sch, .tbl, .que, .cal, .rf, .boot, .upd, .flash, .ethA, .ethB, .regs, .ctxs, .mem, .outbox, .free] W) (h : Keeps W z0 s) :
    Keeps W z0 (State.restartOn s d m new fw keep old) := by
  unfold State.restartOn
  with_reducible repeat' first | assumption | decide | apply Keeps.ite | refine State.applyTruss_keeps (hw.mono ?_) ?_ | refine State.setUpd_keeps (hw.mono ?_) ?_ | refine State.setBoot_keeps (hw.mono ?_) ?_ | refine State.writeDefaults_keeps (hw.mono ?_) ?_ | refine State.restartAudit_keeps (hw.mono ?_) ?_

theorem State.afterMigration_keeps {W : List Part} {z0 : State} {s : State} {d : Desc} {k : State → State}
    (hw : Within [.tbl] W) (h : Keeps W z0 s) (h_k : ∀ b0, Keeps W z0 b0 → Keeps W z0 (k b0)) :
    Keeps W z0 (State.afterMigration s d k) := by
  unfold State.afterMigration
  with_reducible repeat' first | assumption | decide | apply h_k | (refine Keeps.set_tbl (hw.mem (by decide)) ?_; assumption) | split

theorem State.enterMaintenance_keeps {W : List Part} {z0 : State} {s : State}
    (hw : Within [.sys, .time, .evr, .hif, .spanc, .tbl, .que, .tol, .cip, .cal, .rf, .red, .regs, .ctxs, .outbox, .free] W) (h : Keeps W z0 s) :
    Keeps W z0 (State.enterMaintenance s) := by
  unfold State.enterMaintenance
  with_reducible repeat' first | assumption | decide | refine State.enter_keeps (hw.mono ?_) ?_ | refine State.settleAir_keeps (hw.mono ?_) ?_ | refine State.releaseIlk_keeps (hw.mono ?_) ?_ | refine State.maintenanceTime_keeps (hw.mono ?_) ?_ | refine State.stopPiers_keeps (hw.mono ?_) ?_ | refine State.claimsLate_keeps (hw.mono ?_) ?_ | refine State.undecideSpans_keeps (hw.mono ?_) ?_ | (refine Keeps.set_sys (hw.mem (by decide)) ?_; assumption)

theorem State.refuseTruss_keeps {W : List Part} {z0 : State} {s : State} {r : Refused}
    (hw : Within [.truss, .regs] W) (h : Keeps W z0 s) :
    Keeps W z0 (State.refuseTruss s r) := by
  unfold State.refuseTruss
  with_reducible repeat' first | assumption | decide | refine State.setTruss_keeps (hw.mono ?_) ?_ | refine State.setReg_keeps (hw.mono ?_) ?_

theorem State.updActivate_keeps {W : List Part} {z0 : State} {s : State} {d : Desc}
    (hw : Within [.sys, .time, .truss, .evr, .hif, .spanc, .sch, .tbl, .que, .tol, .cip, .cal, .rf, .red, .boot, .upd, .flash, .ethA, .ethB, .regs, .ctxs, .mem, .outbox, .free] W) (h : Keeps W z0 s) :
    Keeps W z0 (State.updActivate s d) := by
  unfold State.updActivate
  dsimp only
  with_reducible repeat' first | assumption | decide | apply Keeps.ite | refine State.command_keeps (hw.mono ?_) ?_ ?_ | refine State.complete_keeps (hw.mono ?_) ?_ | refine State.afterMigration_keeps (hw.mono ?_) ?_ ?_ | refine State.enterMaintenance_keeps (hw.mono ?_) ?_ | refine State.writeBankRec_keeps (hw.mono ?_) ?_ | refine State.setUpd_keeps (hw.mono ?_) ?_ | refine State.setTruss_keeps (hw.mono ?_) ?_ | refine State.refuseTruss_keeps (hw.mono ?_) ?_ | refine State.restartOn_keeps (hw.mono ?_) ?_ | (refine Keeps.fields (fun p => by cases p <;> first | exact .inl (hw.mem (by decide)) | with_unfolding_all exact .inr rfl) ?_ ?_ ?_ <;> first | rfl | assumption) | apply Keeps.foldl | refine Keeps.ofFst (by assumption) ?_ | (intro _; intros) | split

theorem State.trussReload_keeps {W : List Part} {z0 : State} {s : State} {d : Desc}
    (hw : Within [.sys, .time, .truss, .evr, .hif, .spanc, .tbl, .que, .tol, .cip, .cal, .rf, .red, .regs, .ctxs, .outbox, .free] W) (h : Keeps W z0 s) :
    Keeps W z0 (State.trussReload s d) := by
  unfold State.trussReload
  with_reducible repeat' first | assumption | decide | apply Keeps.ite | refine State.command_keeps (hw.mono ?_) ?_ ?_ | refine State.complete_keeps (hw.mono ?_) ?_ | refine State.afterMigration_keeps (hw.mono ?_) ?_ ?_ | refine State.setTruss_keeps (hw.mono ?_) ?_ | refine State.enterMaintenance_keeps (hw.mono ?_) ?_ | apply Keeps.foldl | (intro _; intros) | split

theorem State.migrationEnd_keeps {W : List Part} {z0 : State} {s0_ : State} {t : U64}
    (hw : Within [.sys, .time, .truss, .evr, .hif, .spanc, .sch, .tbl, .que, .tol, .cip, .cal, .rf, .red, .boot, .upd, .flash, .ethA, .ethB, .regs, .ctxs, .mem, .outbox, .free] W) (h : Keeps W z0 s0_) :
    Keeps W z0 (State.migrationEnd s0_ t) := by
  unfold State.migrationEnd
  with_reducible repeat' first | assumption | decide | refine State.at__keeps (hw.mono ?_) ?_ | refine State.updActivate_keeps (hw.mono ?_) ?_ | refine State.trussReload_keeps (hw.mono ?_) ?_ | refine State.endMigration_keeps (hw.mono ?_) ?_ | apply Keeps.foldl | (intro _; intros) | split

theorem State.startTrial_keeps {W : List Part} {z0 : State} {s : State} (hw : Within [.hif, .upd, .regs, .outbox] W)
    (h : Keeps W z0 s) :
    Keeps W z0 (State.startTrial s) := by
  unfold State.startTrial
  with_reducible repeat' first | assumption | decide | refine State.raise_keeps (hw.mono ?_) ?_ | refine State.setUpd_keeps (hw.mono ?_) ?_

theorem State.resumeService_keeps {W : List Part} {z0 : State} {s : State}
    (hw : Within [.sys, .time, .evr, .hif, .que, .cip, .rf, .red, .regs, .ctxs, .outbox, .free] W)
    (h : Keeps W z0 s) :
    Keeps W z0 (State.resumeService s) := by
  unfold State.resumeService
  with_reducible repeat' first | assumption | decide | refine State.enter_keeps (hw.mono ?_) ?_ | refine State.lateRelease_keeps (hw.mono ?_) ?_ | refine State.settleAir_keeps (hw.mono ?_) ?_ | refine State.holdoverAtEntry_keeps (hw.mono ?_) ?_ | refine State.normalAssert_keeps (hw.mono ?_) ?_ | refine State.standbyAtEntry_keeps (hw.mono ?_) ?_ | split

theorem State.activationResume_keeps {W : List Part} {z0 : State} {s0_ : State} {t : U64}
    (hw : Within [.sys, .time, .evr, .hif, .que, .cip, .rf, .red, .upd, .regs, .ctxs, .outbox, .free] W)
    (h : Keeps W z0 s0_) :
    Keeps W z0 (State.activationResume s0_ t) := by
  unfold State.activationResume
  dsimp only
  with_reducible repeat' first | assumption | decide | apply Keeps.ite | refine State.at__keeps (hw.mono ?_) ?_ | refine State.resumeService_keeps (hw.mono ?_) ?_ | refine State.setUpd_keeps (hw.mono ?_) ?_ | refine State.startTrial_keeps (hw.mono ?_) ?_ | refine State.complete_keeps (hw.mono ?_) ?_ | split

theorem State.updConfirm_keeps {W : List Part} {z0 : State} {s : State} {d : Desc}
    (hw : Within [.evr, .hif, .que, .upd, .flash, .regs, .outbox, .free] W) (h : Keeps W z0 s) :
    Keeps W z0 (State.updConfirm s d) := by
  unfold State.updConfirm
  with_reducible repeat' first | assumption | decide | apply Keeps.ite | refine State.command_keeps (hw.mono ?_) ?_ ?_ | refine State.complete_keeps (hw.mono ?_) ?_ | refine State.postAsk_keeps (hw.mono ?_) ?_ | refine State.setUpd_keeps (hw.mono ?_) ?_ | refine State.writeBankRec_keeps (hw.mono ?_) ?_ | refine State.raise_keeps (hw.mono ?_) ?_ | refine State.setFld_keeps (hw.mono ?_) ?_ | apply Keeps.foldl | refine Keeps.ofFst (by assumption) ?_ | (intro _; intros) | split

theorem State.pauseTrial_keeps {W : List Part} {z0 : State} {s : State} (hw : Within [.upd] W) (h : Keeps W z0 s) :
    Keeps W z0 (State.pauseTrial s) := by
  unfold State.pauseTrial
  with_reducible repeat' first | assumption | decide | refine State.setUpd_keeps (hw.mono ?_) ?_ | split

theorem State.startRecorder_keeps {W : List Part} {z0 : State} {s : State}
    (hw : Within [.evr, .hif, .que, .boot, .regs, .outbox, .free] W) (h : Keeps W z0 s) :
    Keeps W z0 (State.startRecorder s) := by
  unfold State.startRecorder
  with_reducible repeat' first | assumption | decide | apply Keeps.ite | refine post_keeps (hw.mono ?_) ?_ | (refine Keeps.set_evr (hw.mem (by decide)) ?_; assumption) | (refine Keeps.set_boot (hw.mem (by decide)) ?_; assumption) | (refine Keeps.fields (fun p => by cases p <;> first | exact .inl (hw.mem (by decide)) | with_unfolding_all exact .inr rfl) ?_ ?_ ?_ <;> first | rfl | assumption) | apply Keeps.foldl | (intro _; intros) | split

theorem State.alarmAtSense_keeps {W : List Part} {z0 : State} {s : State}
    (hw : Within [.sys, .hif, .key, .regs, .outbox] W) (h : Keeps W z0 s) :
    Keeps W z0 (State.alarmAtSense s) := by
  unfold State.alarmAtSense
  with_reducible repeat' first | assumption | decide | refine State.raise_keeps (hw.mono ?_) ?_ | refine State.enter_keeps (hw.mono ?_) ?_ | (refine Keeps.fields (fun p => by cases p <;> first | exact .inl (hw.mem (by decide)) | with_unfolding_all exact .inr rfl) ?_ ?_ ?_ <;> first | rfl | assumption)

theorem State.emptyQueues_keeps {W : List Part} {z0 : State} {s : State} (hw : Within [.que] W) (h : Keeps W z0 s) :
    Keeps W z0 (State.emptyQueues s) := by
  unfold State.emptyQueues
  with_reducible repeat' first | assumption | decide | (refine Keeps.set_que (hw.mem (by decide)) ?_; assumption)

theorem State.silence_keeps {W : List Part} {z0 : State} {s : State} (hw : Within [.sys, .cip, .rf, .red, .regs] W)
    (h : Keeps W z0 s) :
    Keeps W z0 (State.silence s) := by
  unfold State.silence
  with_reducible repeat' first | assumption | decide | refine State.stopPiers_keeps (hw.mono ?_) ?_ | refine State.releaseIlk_keeps (hw.mono ?_) ?_

theorem State.writeOut_keeps {W : List Part} {z0 : State} {s : State}
    (hw : Within [.hif, .spanc, .red, .regs, .mem, .outbox] W) (h : Keeps W z0 s) :
    Keeps W z0 (State.writeOut s) := by
  unfold State.writeOut
  with_reducible repeat' first | assumption | decide | refine State.spanOutcome_keeps (hw.mono ?_) ?_ | refine State.writeHeld_keeps (hw.mono ?_) ?_ | apply Keeps.foldl | (intro _; intros) | split

theorem State.lcTear_keeps {W : List Part} {z0 : State} {s : State} (hw : Within [.key] W) (h : Keeps W z0 s) :
    Keeps W z0 (State.lcTear s) := by
  unfold State.lcTear
  with_reducible repeat' first | assumption | decide | (refine Keeps.fields (fun p => by cases p <;> first | exact .inl (hw.mem (by decide)) | with_unfolding_all exact .inr rfl) ?_ ?_ ?_ <;> first | rfl | assumption) | split

theorem State.endBurns_keeps {W : List Part} {z0 : State} {s : State} {st : Status}
    (hw : Within [.hif, .key, .par, .regs, .free] W) (h : Keeps W z0 s) :
    Keeps W z0 (State.endBurns s st) := by
  unfold State.endBurns
  dsimp only
  with_reducible repeat' first | assumption | decide | apply Keeps.ite | refine State.parEnd_keeps (hw.mono ?_) ?_ | refine State.parTear_keeps (hw.mono ?_) ?_ | refine State.lcEnd_keeps (hw.mono ?_) ?_ | refine State.lcTear_keeps (hw.mono ?_) ?_ | split

theorem State.endCommands_keeps {W : List Part} {z0 : State} {s : State} {st : Status}
    (hw : Within [.sys, .hif, .red, .ethA, .ethB] W) (h : Keeps W z0 s) :
    Keeps W z0 (State.endCommands s st) := by
  unfold State.endCommands
  with_reducible repeat' first | assumption | decide | apply Keeps.ite | refine State.complete_keeps (hw.mono ?_) ?_ | (refine Keeps.set_sys (hw.mem (by decide)) ?_; assumption) | (refine Keeps.set_red (hw.mem (by decide)) ?_; assumption) | (refine Keeps.set_ethA (hw.mem (by decide)) ?_; assumption) | (refine Keeps.set_ethB (hw.mem (by decide)) ?_; assumption) | (refine Keeps.fields (fun p => by cases p <;> first | exact .inl (hw.mem (by decide)) | with_unfolding_all exact .inr rfl) ?_ ?_ ?_ <;> first | rfl | assumption) | apply Keeps.foldl | (intro _; intros) | split

theorem State.endUpdates_keeps {W : List Part} {z0 : State} {s : State} {st : Status}
    (hw : Within [.truss, .hif, .que, .upd, .ethA, .ethB, .regs, .outbox] W) (h : Keeps W z0 s) :
    Keeps W z0 (State.endUpdates s st) := by
  unfold State.endUpdates
  dsimp only
  with_reducible repeat' first | assumption | decide | apply Keeps.ite | refine State.sessionEnd_keeps (hw.mono ?_) ?_ | refine State.complete_keeps (hw.mono ?_) ?_ | refine State.setUpd_keeps (hw.mono ?_) ?_ | refine State.setTruss_keeps (hw.mono ?_) ?_ | split

theorem State.endChecks_keeps {W : List Part} {z0 : State} {s : State} {st : Status} (hw : Within [.hif, .chk] W)
    (h : Keeps W z0 s) :
    Keeps W z0 (State.endChecks s st) := by
  unfold State.endChecks
  with_reducible repeat' first | assumption | decide | refine State.complete_keeps (hw.mono ?_) ?_ | refine State.setChan_keeps (hw.mono ?_) ?_ | apply Keeps.foldl | (intro _; intros) | split

theorem State.endInFlight_keeps {W : List Part} {z0 : State} {s : State} {st : Status}
    (hw : Within [.sys, .truss, .evr, .hif, .spanc, .tbl, .que, .tol, .key, .cip, .par, .cal, .rf, .red, .chk, .boot, .upd, .ethA, .ethB, .regs, .mem, .outbox, .free] W) (h : Keeps W z0 s) :
    Keeps W z0 (State.endInFlight s st) := by
  unfold State.endInFlight
  extract_lets s1 s2
  have h1 : Keeps W z0 s1 := State.endCalJobs_keeps (hw.mono rfl)
      (State.attestFlush_keeps (hw.mono rfl) (State.endAllJobs_keeps (hw.mono rfl) (State.endAllTx_keeps (hw.mono rfl)
    (State.endBurns_keeps (hw.mono rfl) h))))
  have h2 : Keeps W z0 s2 := State.endCommands_keeps (hw.mono rfl)
      (State.endUpdates_keeps (hw.mono rfl) (State.endChecks_keeps (hw.mono rfl) (State.abortSpans_keeps (hw.mono rfl)
    h1)))
  clear_value s2
  exact Keeps.fields (fun p => by cases p <;> first | exact .inl (hw.mem rfl) | with_unfolding_all exact .inr rfl) (State.setRf_keeps (hw.mono rfl) h2) rfl rfl

theorem State.dropOutcomes_keeps {W : List Part} {z0 : State} {s : State} (hw : Within [.hif, .spanc] W)
    (h : Keeps W z0 s) :
    Keeps W z0 (State.dropOutcomes s) := by
  unfold State.dropOutcomes
  with_reducible repeat' first | assumption | decide | (refine Keeps.set_hif (hw.mem (by decide)) ?_; assumption) | (refine Keeps.set_spanc (hw.mem (by decide)) ?_; assumption) | (refine Keeps.fields (fun p => by cases p <;> first | exact .inl (hw.mem (by decide)) | with_unfolding_all exact .inr rfl) ?_ ?_ ?_ <;> first | rfl | assumption)

theorem State.fault_keeps {W : List Part} {z0 : State} {s : State} {block : Nat} {cause : Nat}
    (hw : Within [.sys, .truss, .evr, .hif, .spanc, .tbl, .que, .tol, .key, .cip, .par, .cal, .rf, .red, .chk, .boot, .upd, .ethA, .ethB, .regs, .mem, .outbox, .free] W) (h : Keeps W z0 s) :
    Keeps W z0 (State.fault s block cause) := by
  unfold State.fault
  extract_lets seen s1 s2
  have h2 : Keeps W z0 s2 := State.enter_keeps (hw.mono rfl)
      (State.setReg_keeps (hw.mono rfl) (State.emptyQueues_keeps (hw.mono rfl) (State.silence_keeps (hw.mono rfl)
    (State.writeOut_keeps (hw.mono rfl) (State.endInFlight_keeps (hw.mono rfl) (State.dropOutcomes_keeps (hw.mono rfl) h))))))
  clear_value s2
  exact Keeps.fields (fun p => by cases p <;> first | exact .inl (hw.mem rfl) | with_unfolding_all exact .inr rfl) h2 rfl rfl

theorem State.resetRelease_keeps {W : List Part} {z0 : State} {s0_ : State} {fuseOk : Bool}
    (hw : Within [.sys, .time, .truss, .evr, .hif, .spanc, .tbl, .que, .tol, .key, .cip, .par, .cal, .rf, .red, .chk, .boot, .upd, .ethA, .ethB, .regs, .mem, .outbox, .free] W) (h : Keeps W z0 s0_) :
    Keeps W z0 (State.resetRelease s0_ fuseOk) := by
  unfold State.resetRelease
  with_reducible repeat' first | assumption | decide | apply Keeps.ite | refine State.enter_keeps (hw.mono ?_) ?_ | refine State.alarmAtSense_keeps (hw.mono ?_) ?_ | refine State.fault_keeps (hw.mono ?_) ?_ | refine State.startRecorder_keeps (hw.mono ?_) ?_ | refine State.setBoot_keeps (hw.mono ?_) ?_ | refine State.mrExtend_keeps (hw.mono ?_) ?_ | (refine Keeps.set_time (hw.mem (by decide)) ?_; assumption) | split

theorem State.restoreRetained_keeps {W : List Part} {z0 : State} {s : State} (hw : Within [.key] W)
    (h : Keeps W z0 s) :
    Keeps W z0 (State.restoreRetained s) := by
  unfold State.restoreRetained
  with_reducible repeat' first | assumption | decide | refine State.setSlot_keeps (hw.mono ?_) ?_ | apply Keeps.foldl | (intro _; intros) | split

theorem State.enterStructured_keeps {W : List Part} {z0 : State} {s : State} {b : Nat} {t : Truss}
    {tests : List Bool}
    (hw : Within [.sys, .time, .truss, .evr, .hif, .sch, .tbl, .que, .tol, .key, .cip, .par, .cal, .rf, .boot, .regs, .ctxs, .outbox] W) (h : Keeps W z0 s) :
    Keeps W z0 (State.enterStructured s b t tests) := by
  unfold State.enterStructured
  extract_lets us p src src2 s1 s1a s2 s3 dflt s4
  have h1 : Keeps W z0 s1 := Keeps.fields (fun p => by
    cases p <;> first | exact .inl (hw.mem rfl) | with_unfolding_all exact .inr rfl)
    (h.ctxs (hw.mem rfl) (x := []) fun _ => rfl) rfl rfl
  have h1a : Keeps W z0 s1a := Keeps.foldl (fun _ _ h => State.setFld_keeps (hw.mono rfl) h) h1
  have h2 : Keeps W z0 s2 := State.setBoot_keeps (hw.mono rfl) (State.setReg_keeps (hw.mono rfl) h1a)
  have h3 : Keeps W z0 s3 := Keeps.foldl (fun _ _ h => State.setReg_keeps (hw.mono rfl) h) h2
  have hd : ∀ (s : State) (b : Nat), Keeps W z0 s → Keeps W z0 (dflt s b) :=
    fun s b h => Keeps.ite (State.setFld_keeps (hw.mono rfl) h) h
  clear_value s3 dflt
  exact State.searchRefresh_keeps (hw.mono rfl)
      (State.enter_keeps (hw.mono rfl) (State.calAtStructured_keeps (hw.mono rfl)
    (State.assignRoles_keeps (hw.mono rfl) (State.tollAtStructured_keeps (hw.mono rfl) (State.parFill_keeps (hw.mono rfl)
    (State.restoreRetained_keeps (hw.mono rfl) (State.deriveLevel2_keeps (hw.mono rfl) (hd _ 1 (hd _ 0 h3)))))))))

theorem State.bankFail_keeps {W : List Part} {z0 : State} {s : State} {b : Nat} {e_ : Nat ⊕ Refused}
    (hw : Within [.truss, .regs] W) (h : Keeps W z0 s) :
    Keeps W z0 (State.bankFail s b e_) := by
  unfold State.bankFail
  with_reducible repeat' first | assumption | decide | refine State.setReg_keeps (hw.mono ?_) ?_ | refine State.refuseTruss_keeps (hw.mono ?_) ?_ | split

theorem State.bankError_keeps {W : List Part} {z0 : State} {s : State} {b : Nat}
    (hw : Within [.evr, .hif, .que, .regs, .outbox, .free] W) (h : Keeps W z0 s) :
    Keeps W z0 (State.bankError s b) := by
  unfold State.bankError
  with_reducible repeat' first | assumption | decide | refine post_keeps (hw.mono ?_) ?_

theorem State.bootBank_keeps {W : List Part} {z0 : State} {s : State} {b : Nat} {t : Truss} {failed : List Nat}
    {tests : List Bool}
    (hw : Within [.sys, .time, .truss, .evr, .hif, .sch, .tbl, .que, .tol, .key, .cip, .par, .cal, .rf, .boot, .upd, .regs, .ctxs, .outbox, .free] W) (h : Keeps W z0 s) :
    Keeps W z0 (State.bootBank s b t failed tests) := by
  unfold State.bootBank
  with_reducible repeat' first | assumption | decide | apply Keeps.ite | refine State.mrExtend_keeps (hw.mono ?_) ?_ | refine State.setBoot_keeps (hw.mono ?_) ?_ | refine State.bankError_keeps (hw.mono ?_) ?_ | refine State.enterStructured_keeps (hw.mono ?_) ?_ | refine State.startTrial_keeps (hw.mono ?_) ?_ | apply Keeps.foldl | (intro _; intros) | split

theorem State.bootBanks_keeps {W : List Part} {z0 : State} {s : State} {tests : List Bool}
    (hw : Within [.sys, .time, .truss, .evr, .hif, .sch, .tbl, .que, .tol, .key, .cip, .par, .cal, .rf, .boot, .upd, .regs, .ctxs, .outbox, .free] W) (h : Keeps W z0 s) :
    Keeps W z0 (State.bootBanks s tests) := by
  unfold State.bootBanks
  dsimp only
  with_reducible repeat' first | assumption | decide | apply Keeps.ite | refine State.bootBank_keeps (hw.mono ?_) ?_ | refine State.bankFail_keeps (hw.mono ?_) ?_ | refine State.bankError_keeps (hw.mono ?_) ?_ | refine State.setBoot_keeps (hw.mono ?_) ?_ | split

theorem State.writeBank_keeps {W : List Part} {z0 : State} {s : State} {b : Nat} {x : Built}
    (hw : Within [.flash] W) (h : Keeps W z0 s) :
    Keeps W z0 (State.writeBank s b x) := by
  unfold State.writeBank
  exact State.flashWrite_keeps (hw.mono rfl)
      (State.flashWrite_keeps (hw.mono rfl) (h.flash (hw.mem rfl) flash_wf_erase))

theorem State.residentWrite_keeps {W : List Part} {z0 : State} {s : State} {b : Nat} {base : Nat}
    (hw : Within [.flash] W) (h : Keeps W z0 s) :
    Keeps W z0 (State.residentWrite s b base).1 := by
  unfold State.residentWrite
  dsimp only
  with_reducible repeat' first | assumption | decide | apply Keeps.ite | refine State.writeBank_keeps (hw.mono ?_) ?_ | split

theorem State.residentLoad_keeps {W : List Part} {z0 : State} {s : State} {b : Nat} {base : Nat}
    (hw : Within [.flash] W) (h : Keeps W z0 s) :
    Keeps W z0 (State.residentLoad s b base).1 := by
  unfold State.residentLoad
  with_reducible repeat' first | assumption | decide | apply Keeps.ite | refine State.residentWrite_keeps (hw.mono ?_) ?_ | refine State.writeBankRec_keeps (hw.mono ?_) ?_ | apply Keeps.foldl | refine Keeps.ofFst (by assumption) ?_ | (intro _; intros) | split

theorem State.resetCause_keeps {W : List Part} {z0 : State} {s : State} {c : Nat} (hw : Within [.regs] W)
    (h : Keeps W z0 s) :
    Keeps W z0 (State.resetCause s c) := by
  unfold State.resetCause
  with_reducible repeat' first | assumption | decide | refine State.setReg_keeps (hw.mono ?_) ?_

theorem State.toReset_keeps {W : List Part} {z0 : State} {s : State} {cold : Bool}
    (hw : Within [.sys, .time, .truss, .evr, .hif, .spanc, .sch, .tbl, .que, .tol, .key, .cip, .par, .cal, .rf, .red, .chk, .boot, .upd, .ethA, .ethB, .regs, .regWrites, .ctxs, .mem] W) (h : Keeps W z0 s) :
    Keeps W z0 (State.toReset s cold) := by
  unfold State.toReset
  refine ⟨h.1, fun x => ?_, OnlyIn.step h.2.2 fun p => ?_⟩
  · have y := h.2.1 x
    refine ⟨?_, y.2.1, ?_, rfl, rfl, rfl⟩
    · show Memory.wf (if cold then [] else s.mem) = true
      split
      · rfl
      · exact y.1
    · show Regs.wf (s.resetRegs cold) = true
      unfold State.resetRegs
      split
      · rfl
      · have hr := y.2.2.1
        simp only [Regs.wf, Bool.and_eq_true] at hr ⊢
        refine ⟨rising_filter (rising_map hr.1), ?_⟩
        rw [List.all_eq_true]
        intro e he
        simpa using (List.mem_filter.1 he).2
  · cases p <;> first | exact .inl (hw.mem (by decide)) | exact .inr rfl

theorem State.warmBoot_keeps {W : List Part} {z0 : State} {s : State} {cause : Nat}
    (hw : Within [.sys, .time, .truss, .evr, .hif, .spanc, .sch, .tbl, .que, .tol, .key, .cip, .par, .cal, .rf, .red, .chk, .boot, .upd, .ethA, .ethB, .regs, .regWrites, .ctxs, .mem, .outbox, .free] W) (h : Keeps W z0 s) :
    Keeps W z0 (State.warmBoot s cause) := by
  unfold State.warmBoot
  with_reducible repeat' first | assumption | decide | apply Keeps.ite | refine State.writeOut_keeps (hw.mono ?_) ?_ | refine State.endInFlight_keeps (hw.mono ?_) ?_ | refine State.dropOutcomes_keeps (hw.mono ?_) ?_ | refine State.resetCause_keeps (hw.mono ?_) ?_ | refine State.toReset_keeps (hw.mono ?_) ?_

theorem State.updResident_keeps {W : List Part} {z0 : State} {s : State} {d : Desc} {tests : List Bool}
    (hw : Within [.sys, .time, .truss, .evr, .hif, .spanc, .sch, .tbl, .que, .tol, .key, .cip, .par, .cal, .rf, .red, .chk, .boot, .upd, .flash, .ethA, .ethB, .regs, .regWrites, .ctxs, .mem, .outbox, .free] W) (h : Keeps W z0 s) :
    Keeps W z0 (State.updResident s d tests) := by
  unfold State.updResident
  with_reducible repeat' first | assumption | decide | apply Keeps.ite | refine State.complete_keeps (hw.mono ?_) ?_ | refine State.rejectState_keeps (hw.mono ?_) ?_ | refine State.residentLoad_keeps (hw.mono ?_) ?_ | refine State.bootBanks_keeps (hw.mono ?_) ?_ | refine State.setUpd_keeps (hw.mono ?_) ?_ | refine State.writeBankRec_keeps (hw.mono ?_) ?_ | refine State.warmBoot_keeps (hw.mono ?_) ?_

theorem State.trialAtBoot_keeps {W : List Part} {z0 : State} {s : State}
    (hw : Within [.evr, .hif, .que, .flash, .regs, .outbox, .free] W) (h : Keeps W z0 s) :
    Keeps W z0 (State.trialAtBoot s) := by
  unfold State.trialAtBoot
  with_reducible repeat' first | assumption | decide | apply Keeps.ite | refine post_keeps (hw.mono ?_) ?_ | refine State.raise_keeps (hw.mono ?_) ?_ | refine State.setFld_keeps (hw.mono ?_) ?_ | refine State.writeBankRec_keeps (hw.mono ?_) ?_

theorem State.residentAtBoot_keeps {W : List Part} {z0 : State} {s : State} (hw : Within [.upd, .flash] W)
    (h : Keeps W z0 s) :
    Keeps W z0 (State.residentAtBoot s) := by
  unfold State.residentAtBoot
  with_reducible repeat' first | assumption | decide | refine State.residentLoad_keeps (hw.mono ?_) ?_ | refine State.writeBankRec_keeps (hw.mono ?_) ?_ | refine State.setUpd_keeps (hw.mono ?_) ?_ | split

theorem State.loaderStart_keeps {W : List Part} {z0 : State} {s : State}
    (hw : Within [.evr, .hif, .que, .par, .boot, .upd, .flash, .regs, .outbox, .free] W) (h : Keeps W z0 s) :
    Keeps W z0 (State.loaderStart s) := by
  unfold State.loaderStart
  with_reducible repeat' first | assumption | decide | refine State.trialAtBoot_keeps (hw.mono ?_) ?_ | refine State.startRecorder_keeps (hw.mono ?_) ?_ | refine State.parAtBoot_keeps (hw.mono ?_) ?_ | refine State.residentAtBoot_keeps (hw.mono ?_) ?_ | refine State.mrExtend_keeps (hw.mono ?_) ?_

theorem State.loaderBoot_keeps {W : List Part} {z0 : State} {s0_ : State} {t : U64} {trained : Bool}
    {tests : List Bool}
    (hw : Within [.sys, .time, .truss, .evr, .hif, .spanc, .sch, .tbl, .que, .tol, .key, .cip, .par, .cal, .rf, .red, .chk, .boot, .upd, .flash, .ethA, .ethB, .regs, .ctxs, .mem, .outbox, .free] W) (h : Keeps W z0 s0_) :
    Keeps W z0 (State.loaderBoot s0_ t trained tests) := by
  unfold State.loaderBoot
  with_reducible repeat' first | assumption | decide | apply Keeps.ite | refine State.at__keeps (hw.mono ?_) ?_ | refine State.fault_keeps (hw.mono ?_) ?_ | refine State.bootBanks_keeps (hw.mono ?_) ?_ | refine State.loaderStart_keeps (hw.mono ?_) ?_

theorem State.writeSide_keeps {W : List Part} {z0 : State} {s : State} {a : Nat} {v : Word}
    (hw : Within [.que, .tol, .cal, .rf, .regs, .outbox] W) (h : Keeps W z0 s) :
    Keeps W z0 (State.writeSide s a v) := by
  unfold State.writeSide
  with_reducible repeat' first | assumption | decide | apply Keeps.ite | refine State.setQueue_keeps (hw.mono ?_) ?_ | refine State.setPolicer_keeps (hw.mono ?_) ?_ | refine State.sendMsi_keeps (hw.mono ?_) ?_ | refine State.setFld_keeps (hw.mono ?_) ?_ | refine State.setReg_keeps (hw.mono ?_) ?_ | refine State.askGain_keeps (hw.mono ?_) ?_ | refine State.setCalSt_keeps (hw.mono ?_) ?_

theorem State.applyWrite_keeps {W : List Part} {z0 : State} {s : State} {a : Nat} {v : Word}
    (hw : Within [.que, .tol, .cal, .rf, .regs, .outbox] W) (h : Keeps W z0 s) :
    Keeps W z0 (State.applyWrite s a v) := by
  unfold State.applyWrite
  with_reducible repeat' first | assumption | decide | refine State.shapeNow_keeps (hw.mono ?_) ?_ | refine State.writeSide_keeps (hw.mono ?_) ?_ | refine State.setReg_keeps (hw.mono ?_) ?_ | split

theorem State.applyEdgeWrites_keeps {W : List Part} {z0 : State} {s : State}
    (hw : Within [.que, .tol, .cal, .rf, .regs, .regWrites, .outbox] W) (h : Keeps W z0 s) :
    Keeps W z0 (State.applyEdgeWrites s) := by
  unfold State.applyEdgeWrites
  with_reducible repeat' first | assumption | decide | refine State.applyWrite_keeps (hw.mono ?_) ?_ | (refine Keeps.set_regWrites (hw.mem (by decide)) ?_; assumption) | apply Keeps.foldl | (intro _; intros) | split

theorem State.warmReset_keeps {W : List Part} {z0 : State} {s : State} {v : Word}
    (hw : Within [.sys, .time, .truss, .evr, .hif, .spanc, .sch, .tbl, .que, .tol, .key, .cip, .par, .cal, .rf, .red, .chk, .boot, .upd, .ethA, .ethB, .regs, .regWrites, .ctxs, .mem, .outbox, .free] W) (h : Keeps W z0 s) :
    Keeps W z0 (State.warmReset s v) := by
  unfold State.warmReset
  with_reducible repeat' first | assumption | decide | apply Keeps.ite | refine State.notice_keeps (hw.mono ?_) ?_ | refine State.warmBoot_keeps (hw.mono ?_) ?_

theorem State.ownWrite_keeps {W : List Part} {z0 : State} {s : State} {a : Nat} {v : Word} {t_}
    (hw : Within [.sys, .time, .truss, .evr, .hif, .spanc, .sch, .tbl, .que, .tol, .key, .cip, .par, .cal, .rf, .red, .chk, .boot, .upd, .ethA, .ethB, .regs, .regWrites, .ctxs, .mem, .outbox, .free] W) (e : (State.ownWrite s a v) = some t_) (h : Keeps W z0 s) :
    Keeps W z0 t_ := by
  unfold State.ownWrite at e
  repeat' split at e
  all_goals first | (cases e; done) | cases e | skip
  with_reducible repeat' first | assumption | decide | refine State.warmReset_keeps (hw.mono ?_) ?_ | refine State.hostProdWrite_keeps (hw.mono ?_) ?_ | refine State.hostConsWrite_keeps (hw.mono ?_) ?_ | refine State.tblLockWrite_keeps (hw.mono ?_) ?_ | refine State.chkCfgWrite_keeps (hw.mono ?_) ?_ | refine State.ethCtrlWrite_keeps (hw.mono ?_) ?_

theorem State.registerWrite_keeps {W : List Part} {z0 : State} {s : State} {a : Nat} {width : Nat} {v : Word}
    (hw : Within [.sys, .time, .truss, .evr, .hif, .spanc, .sch, .tbl, .que, .tol, .key, .cip, .par, .cal, .rf, .red, .chk, .boot, .upd, .ethA, .ethB, .regs, .regWrites, .ctxs, .mem, .outbox, .free] W) (h : Keeps W z0 s) :
    Keeps W z0 (State.registerWrite s a width v) := by
  unfold State.registerWrite
  with_reducible repeat' first | assumption | decide | refine State.notice_keeps (hw.mono ?_) ?_ | refine State.applyWrite_keeps (hw.mono ?_) ?_ | refine State.ownWrite_keeps (hw.mono ?_) (by assumption) ?_ | (refine Keeps.set_regWrites (hw.mem (by decide)) ?_; assumption) | split

theorem State.bar2Access_keeps {W : List Part} {z0 : State} {s : State} {write : Bool} {o : Nat} {bs : List Byte}
    (hw : Within [.hif, .regs, .mem, .outbox] W) (h : Keeps W z0 s) :
    Keeps W z0 (State.bar2Access s write o bs) := by
  unfold State.bar2Access
  with_reducible repeat' first | assumption | decide | apply Keeps.ite | refine State.raise_keeps (hw.mono ?_) ?_ | refine State.bump_keeps (hw.mono ?_) ?_ | refine State.writeWin_keeps (hw.mono ?_) ?_

theorem State.trussReloadComplete_keeps {W : List Part} {z0 : State} {s0_ : State} {t : U64}
    (hw : Within [.time, .truss, .evr, .hif, .spanc, .sch, .tbl, .que, .cal, .rf, .boot, .upd, .ethA, .ethB, .regs, .ctxs, .mem, .outbox, .free] W) (h : Keeps W z0 s0_) :
    Keeps W z0 (State.trussReloadComplete s0_ t) := by
  unfold State.trussReloadComplete
  dsimp only
  with_reducible repeat' first | assumption | decide | apply Keeps.ite | refine State.at__keeps (hw.mono ?_) ?_ | refine State.setTruss_keeps (hw.mono ?_) ?_ | refine State.complete_keeps (hw.mono ?_) ?_ | refine State.refuseTruss_keeps (hw.mono ?_) ?_ | refine State.applyTruss_keeps (hw.mono ?_) ?_ | split

theorem State.trussRead_keeps {W : List Part} {z0 : State} {s : State} {d : Desc}
    (hw : Within [.evr, .hif, .que, .regs, .mem, .outbox, .free] W) (h : Keeps W z0 s) :
    Keeps W z0 (State.trussRead s d) := by
  unfold State.trussRead
  with_reducible repeat' first | assumption | decide | apply Keeps.ite | refine State.command_keeps (hw.mono ?_) ?_ ?_ | refine State.complete_keeps (hw.mono ?_) ?_ | refine State.writeWin_keeps (hw.mono ?_) ?_ | apply Keeps.foldl | (intro _; intros) | split

theorem State.latchAlarm_keeps {W : List Part} {z0 : State} {s : State} {cause : Nat} (hw : Within [.key] W)
    (h : Keeps W z0 s) :
    Keeps W z0 (State.latchAlarm s cause) := by
  unfold State.latchAlarm
  with_reducible repeat' first | assumption | decide | (refine Keeps.fields (fun p => by cases p <;> first | exact .inl (hw.mem (by decide)) | with_unfolding_all exact .inr rfl) ?_ ?_ ?_ <;> first | rfl | assumption)

theorem State.alarm_keeps {W : List Part} {z0 : State} {s : State} {cause : Nat}
    (hw : Within [.sys, .truss, .evr, .hif, .spanc, .tbl, .que, .tol, .key, .cip, .par, .cal, .rf, .red, .chk, .boot, .upd, .ethA, .ethB, .regs, .mem, .outbox, .free] W) (h : Keeps W z0 s) :
    Keeps W z0 (State.alarm s cause) := by
  unfold State.alarm
  with_reducible repeat' first | assumption | decide | apply Keeps.ite | refine State.latchAlarm_keeps (hw.mono ?_) ?_ | refine State.eraseKeys_keeps (hw.mono ?_) ?_ | refine State.setFld_keeps (hw.mono ?_) ?_ | refine post_keeps (hw.mono ?_) ?_ | refine State.raise_keeps (hw.mono ?_) ?_ | refine State.enter_keeps (hw.mono ?_) ?_ | refine State.silence_keeps (hw.mono ?_) ?_ | refine State.endInFlight_keeps (hw.mono ?_) ?_ | refine State.pauseTrial_keeps (hw.mono ?_) ?_ | (refine Keeps.set_sys (hw.mem (by decide)) ?_; first | assumption | apply Keeps.ite | refine State.latchAlarm_keeps (hw.mono ?_) ?_ | refine State.eraseKeys_keeps (hw.mono ?_) ?_ | refine State.setFld_keeps (hw.mono ?_) ?_ | refine post_keeps (hw.mono ?_) ?_ | refine State.raise_keeps (hw.mono ?_) ?_ | refine State.enter_keeps (hw.mono ?_) ?_ | refine State.silence_keeps (hw.mono ?_) ?_ | refine State.endInFlight_keeps (hw.mono ?_) ?_ | refine State.pauseTrial_keeps (hw.mono ?_) ?_ | split) | split

theorem State.alarmLevel_keeps {W : List Part} {z0 : State} {s : State} {n : Nat} {active : Bool}
    (hw : Within [.sys, .truss, .evr, .hif, .spanc, .tbl, .que, .tol, .key, .cip, .par, .cal, .rf, .red, .chk, .boot, .upd, .ethA, .ethB, .regs, .mem, .outbox, .free] W) (h : Keeps W z0 s) :
    Keeps W z0 (State.alarmLevel s n active) := by
  unfold State.alarmLevel
  with_reducible repeat' first | assumption | decide | refine State.alarm_keeps (hw.mono ?_) ?_ | (refine Keeps.fields (fun p => by cases p <;> first | exact .inl (hw.mem (by decide)) | with_unfolding_all exact .inr rfl) ?_ ?_ ?_ <;> first | rfl | assumption) | split

theorem State.tamper_keeps {W : List Part} {z0 : State} {s0_ : State} {t : U64} {n : Nat} {active : Bool}
    (hw : Within [.sys, .time, .truss, .evr, .hif, .spanc, .tbl, .que, .tol, .key, .cip, .par, .cal, .rf, .red, .chk, .boot, .upd, .ethA, .ethB, .regs, .mem, .outbox, .free] W) (h : Keeps W z0 s0_) :
    Keeps W z0 (State.tamper s0_ t n active) := by
  unfold State.tamper
  with_reducible repeat' first | assumption | decide | refine State.alarmLevel_keeps (hw.mono ?_) ?_ | refine State.at__keeps (hw.mono ?_) ?_

theorem State.overTemperature_keeps {W : List Part} {z0 : State} {s0_ : State} {t : U64} {active : Bool}
    (hw : Within [.sys, .time, .truss, .evr, .hif, .spanc, .tbl, .que, .tol, .key, .cip, .par, .cal, .rf, .red, .chk, .boot, .upd, .ethA, .ethB, .regs, .mem, .outbox, .free] W) (h : Keeps W z0 s0_) :
    Keeps W z0 (State.overTemperature s0_ t active) := by
  unfold State.overTemperature
  with_reducible repeat' first | assumption | decide | refine State.alarmLevel_keeps (hw.mono ?_) ?_ | refine State.at__keeps (hw.mono ?_) ?_

theorem State.clockLoss_keeps {W : List Part} {z0 : State} {s0_ : State} {t : U64} {active : Bool}
    (hw : Within [.sys, .time, .truss, .evr, .hif, .spanc, .tbl, .que, .tol, .key, .cip, .par, .cal, .rf, .red, .chk, .boot, .upd, .ethA, .ethB, .regs, .mem, .outbox, .free] W) (h : Keeps W z0 s0_) :
    Keeps W z0 (State.clockLoss s0_ t active) := by
  unfold State.clockLoss
  dsimp only
  with_reducible repeat' first | assumption | decide | apply Keeps.ite | refine State.at__keeps (hw.mono ?_) ?_ | refine State.alarmLevel_keeps (hw.mono ?_) ?_ | (refine Keeps.fields (fun p => by cases p <;> first | exact .inl (hw.mem (by decide)) | with_unfolding_all exact .inr rfl) ?_ ?_ ?_ <;> first | rfl | assumption | apply Keeps.ite | refine State.at__keeps (hw.mono ?_) ?_ | refine State.alarmLevel_keeps (hw.mono ?_) ?_ | refine Keeps.ofFst (by assumption) ?_ | apply Keeps.foldl | apply Keeps.foldlFst | split) | split

theorem State.supplyGlitch_keeps {W : List Part} {z0 : State} {s0_ : State} {t : U64} {e_ : SupplyEvent}
    (hw : Within [.sys, .time, .truss, .evr, .hif, .spanc, .tbl, .que, .tol, .key, .cip, .par, .cal, .rf, .red, .chk, .boot, .upd, .ethA, .ethB, .regs, .mem, .outbox, .free] W) (h : Keeps W z0 s0_) :
    Keeps W z0 (State.supplyGlitch s0_ t e_) := by
  unfold State.supplyGlitch
  with_reducible repeat' first | assumption | decide | apply Keeps.ite | refine State.at__keeps (hw.mono ?_) ?_ | refine State.alarmLevel_keeps (hw.mono ?_) ?_ | refine State.alarm_keeps (hw.mono ?_) ?_ | split

theorem State.keyAlarmAck_keeps {W : List Part} {z0 : State} {s : State} {d : Desc}
    (hw : Within [.evr, .hif, .que, .key, .boot, .regs, .outbox, .free] W) (h : Keeps W z0 s) :
    Keeps W z0 (State.keyAlarmAck s d) := by
  unfold State.keyAlarmAck
  dsimp only
  with_reducible repeat' first | assumption | decide | apply Keeps.ite | refine State.command_keeps (hw.mono ?_) ?_ ?_ | refine State.rejectState_keeps (hw.mono ?_) ?_ | refine State.complete_keeps (hw.mono ?_) ?_ | refine State.postAsk_keeps (hw.mono ?_) ?_ | (refine Keeps.set_boot (hw.mem (by decide)) ?_; assumption) | (refine Keeps.fields (fun p => by cases p <;> first | exact .inl (hw.mem (by decide)) | with_unfolding_all exact .inr rfl) ?_ ?_ ?_ <;> first | rfl | assumption | apply Keeps.ite | refine State.command_keeps (hw.mono ?_) ?_ ?_ | refine State.rejectState_keeps (hw.mono ?_) ?_ | refine State.complete_keeps (hw.mono ?_) ?_ | refine State.postAsk_keeps (hw.mono ?_) ?_ | refine Keeps.ofFst (by assumption) ?_ | apply Keeps.foldl | apply Keeps.foldlFst | split) | apply Keeps.foldl | refine Keeps.ofFst (by assumption) ?_ | (intro _; intros) | split

theorem State.attestDrop_keeps {W : List Part} {z0 : State} {s : State} {st : Status}
    (hw : Within [.hif, .cip, .boot, .mem] W) (h : Keeps W z0 s) :
    Keeps W z0 (State.attestDrop s st) := by
  unfold State.attestDrop
  with_reducible repeat' first | assumption | decide | apply Keeps.ite | refine State.setBoot_keeps (hw.mono ?_) ?_ | refine State.attestFail_keeps (hw.mono ?_) ?_ | (refine Keeps.set_cip (hw.mem (by decide)) ?_; first | assumption | apply Keeps.ite | refine State.setBoot_keeps (hw.mono ?_) ?_ | refine State.attestFail_keeps (hw.mono ?_) ?_ | split) | apply Keeps.foldl | (intro _; intros) | split

theorem State.lcStart_keeps {W : List Part} {z0 : State} {d : Desc} {s : State} {target : LifeCycle}
    {arg : List Byte}
    (hw : Within [.evr, .hif, .spanc, .tbl, .que, .tol, .key, .cip, .rf, .boot, .regs, .ctxs, .mem, .outbox, .free] W) (h : Keeps W z0 s) :
    Keeps W z0 (State.lcStart d s target arg) := by
  unfold State.lcStart
  extract_lets s1 gone src2 s2 s3 src
  have h1 : Keeps W z0 s1 := State.attestDrop_keeps (hw.mono rfl) (State.eraseKeys_keeps (hw.mono rfl) h)
  have h2 : Keeps W z0 s2 := Keeps.foldl (fun _ _ h => State.endQueued_keeps (hw.mono rfl) h) (Keeps.fields (fun p => by cases p <;> first | exact .inl (hw.mem rfl) | with_unfolding_all exact .inr rfl) h1 rfl rfl)
  have h3 : Keeps W z0 s3 := Keeps.foldl (fun _ _ h => Keeps.ite (State.abortSpan_keeps (hw.mono rfl) h) h) h2
  clear_value s3
  exact Keeps.ite (State.rejectState_keeps (hw.mono rfl) h) (Keeps.ite (State.lcEnd_keeps (hw.mono rfl) h) (Keeps.fields (fun p => by cases p <;> first | exact .inl (hw.mem rfl) | with_unfolding_all exact .inr rfl) h3 rfl rfl))

theorem State.keyLcCommand_keeps {W : List Part} {z0 : State} {s : State} {d : Desc}
    (hw : Within [.evr, .hif, .spanc, .tbl, .que, .tol, .key, .cip, .rf, .boot, .regs, .ctxs, .mem, .outbox, .free] W) (h : Keeps W z0 s) :
    Keeps W z0 (State.keyLcCommand s d) := by
  unfold State.keyLcCommand
  with_reducible repeat' first | assumption | decide | refine State.keyLcSet_keeps (hw.mono ?_) ?_ ?_ | refine State.lcStart_keeps (hw.mono ?_) ?_ | apply Keeps.foldl | (intro _; intros) | split

theorem State.lcBurnComplete_keeps {W : List Part} {z0 : State} {s : State} {readBack : Bool}
    (hw : Within [.evr, .hif, .que, .key, .regs, .outbox, .free] W) (h : Keeps W z0 s) :
    Keeps W z0 (State.lcBurnComplete s readBack) := by
  unfold State.lcBurnComplete
  with_reducible repeat' first | assumption | decide | refine State.lcEnd_keeps (hw.mono ?_) ?_ | refine State.lcTear_keeps (hw.mono ?_) ?_ | refine post_keeps (hw.mono ?_) ?_ | refine State.deriveLevel2_keeps (hw.mono ?_) ?_ | (refine Keeps.fields (fun p => by cases p <;> first | exact .inl (hw.mem (by decide)) | with_unfolding_all exact .inr rfl) ?_ ?_ ?_ <;> first | rfl | assumption) | split

theorem State.uncorrectableError_keeps {W : List Part} {z0 : State} {s0_ : State} {t : U64} {block : Nat}
    {cause : Nat}
    (hw : Within [.sys, .time, .truss, .evr, .hif, .spanc, .tbl, .que, .tol, .key, .cip, .par, .cal, .rf, .red, .chk, .boot, .upd, .ethA, .ethB, .regs, .mem, .outbox, .free] W) (h : Keeps W z0 s0_) :
    Keeps W z0 (State.uncorrectableError s0_ t block cause) := by
  unfold State.uncorrectableError
  with_reducible repeat' first | assumption | decide | apply Keeps.ite | refine State.at__keeps (hw.mono ?_) ?_ | refine State.fault_keeps (hw.mono ?_) ?_

theorem State.watchdogExpiry_keeps {W : List Part} {z0 : State} {s0_ : State} {t : U64}
    (hw : Within [.sys, .time, .truss, .evr, .hif, .spanc, .sch, .tbl, .que, .tol, .key, .cip, .par, .cal, .rf, .red, .chk, .boot, .upd, .ethA, .ethB, .regs, .regWrites, .ctxs, .mem, .outbox, .free] W) (h : Keeps W z0 s0_) :
    Keeps W z0 (State.watchdogExpiry s0_ t) := by
  unfold State.watchdogExpiry
  with_reducible repeat' first | assumption | decide | apply Keeps.ite | refine State.at__keeps (hw.mono ?_) ?_ | refine State.warmBoot_keeps (hw.mono ?_) ?_

theorem State.supplyLoss_keeps {W : List Part} {z0 : State} {s : State} (hw : Within [.key, .par, .free] W)
    (h : Keeps W z0 s) :
    Keeps W z0 (State.supplyLoss s) := by
  unfold State.supplyLoss
  with_reducible repeat' first | assumption | decide | refine State.lcTear_keeps (hw.mono ?_) ?_ | refine State.parTear_keeps (hw.mono ?_) ?_

theorem State.writeRetention_keeps {W : List Part} {z0 : State} {s : State} (hw : Within [.key] W)
    (h : Keeps W z0 s) :
    Keeps W z0 (State.writeRetention s) := by
  unfold State.writeRetention
  with_reducible repeat' first | assumption | decide | (refine Keeps.fields (fun p => by cases p <;> first | exact .inl (hw.mem (by decide)) | with_unfolding_all exact .inr rfl) ?_ ?_ ?_ <;> first | rfl | assumption) | split

theorem State.coldReset_keeps {W : List Part} {z0 : State} {s : State} {ramp : Bool}
    (hw : Within [.sys, .time, .truss, .evr, .hif, .spanc, .sch, .tbl, .que, .tol, .key, .cip, .par, .cal, .rf, .red, .chk, .boot, .upd, .ethA, .ethB, .regs, .regWrites, .ctxs, .mem, .free] W) (h : Keeps W z0 s) :
    Keeps W z0 (State.coldReset s ramp) := by
  unfold State.coldReset
  with_reducible repeat' first | assumption | decide | apply Keeps.ite | refine State.supplyLoss_keeps (hw.mono ?_) ?_ | refine State.writeRetention_keeps (hw.mono ?_) ?_ | refine State.resetCause_keeps (hw.mono ?_) ?_ | refine State.toReset_keeps (hw.mono ?_) ?_

theorem State.brownOut_keeps {W : List Part} {z0 : State} {s : State}
    (hw : Within [.sys, .time, .truss, .evr, .hif, .spanc, .sch, .tbl, .que, .tol, .key, .cip, .par, .cal, .rf, .red, .chk, .boot, .upd, .ethA, .ethB, .regs, .regWrites, .ctxs, .mem, .free] W) (h : Keeps W z0 s) :
    Keeps W z0 (State.brownOut s) := by
  unfold State.brownOut
  dsimp only
  with_reducible repeat' first | assumption | decide | apply Keeps.ite | refine State.supplyLoss_keeps (hw.mono ?_) ?_ | refine State.resetCause_keeps (hw.mono ?_) ?_ | refine State.toReset_keeps (hw.mono ?_) ?_ | (refine Keeps.fields (fun p => by cases p <;> first | exact .inl (hw.mem (by decide)) | with_unfolding_all exact .inr rfl) ?_ ?_ ?_ <;> first | rfl | assumption | apply Keeps.ite | refine State.supplyLoss_keeps (hw.mono ?_) ?_ | refine State.resetCause_keeps (hw.mono ?_) ?_ | refine State.toReset_keeps (hw.mono ?_) ?_ | refine Keeps.ofFst (by assumption) ?_ | apply Keeps.foldl | apply Keeps.foldlFst | split) | split

theorem State.aonReset_keeps {W : List Part} {z0 : State} {s : State} (hw : Within [.key] W) (h : Keeps W z0 s) :
    Keeps W z0 (State.aonReset s) := by
  unfold State.aonReset
  with_reducible repeat' first | assumption | decide | (refine Keeps.fields (fun p => by cases p <;> first | exact .inl (hw.mem (by decide)) | with_unfolding_all exact .inr rfl) ?_ ?_ ?_ <;> first | rfl | assumption) | split

theorem State.trialExpiry_keeps {W : List Part} {z0 : State} {s0_ : State} {t : U64}
    (hw : Within [.sys, .time, .truss, .evr, .hif, .spanc, .sch, .tbl, .que, .tol, .key, .cip, .par, .cal, .rf, .red, .chk, .boot, .upd, .flash, .ethA, .ethB, .regs, .regWrites, .ctxs, .mem, .outbox, .free] W) (h : Keeps W z0 s0_) :
    Keeps W z0 (State.trialExpiry s0_ t) := by
  unfold State.trialExpiry
  with_reducible repeat' first | assumption | decide | apply Keeps.ite | refine State.at__keeps (hw.mono ?_) ?_ | refine State.raise_keeps (hw.mono ?_) ?_ | refine State.setFld_keeps (hw.mono ?_) ?_ | refine State.writeBankRec_keeps (hw.mono ?_) ?_ | refine State.setBoot_keeps (hw.mono ?_) ?_ | refine State.warmBoot_keeps (hw.mono ?_) ?_

theorem State.toEdge_keeps {W : List Part} {z0 : State} {s : State} (hw : Within [.time] W) (h : Keeps W z0 s) :
    Keeps W z0 (State.toEdge s) := by
  unfold State.toEdge
  with_reducible repeat' first | assumption | decide | refine State.setTime_keeps (hw.mono ?_) ?_

theorem State.queueEdge_keeps {W : List Part} {z0 : State} {s : State} {q : Nat} (hw : Within [.que, .regs] W)
    (h : Keeps W z0 s) :
    Keeps W z0 (State.queueEdge s q) := by
  unfold State.queueEdge
  dsimp only
  with_reducible repeat' first | assumption | decide | apply Keeps.ite | refine State.setQueue_keeps (hw.mono ?_) ?_ | refine State.freeGaps_keeps (hw.mono ?_) ?_ | refine State.bump_keeps (hw.mono ?_) ?_ | split

theorem State.queuesEdge_keeps {W : List Part} {z0 : State} {s : State} (hw : Within [.que, .regs] W)
    (h : Keeps W z0 s) :
    Keeps W z0 (State.queuesEdge s) := by
  unfold State.queuesEdge
  with_reducible repeat' first | assumption | decide | refine State.queueEdge_keeps (hw.mono ?_) ?_ | apply Keeps.foldl | (intro _; intros) | split

theorem State.upsetQueue_keeps {W : List Part} {z0 : State} {s : State} {q : Nat} (hw : Within [.que] W)
    (h : Keeps W z0 s) :
    Keeps W z0 (State.upsetQueue s q) := by
  unfold State.upsetQueue
  with_reducible repeat' first | assumption | decide | apply Keeps.ite | refine State.setQueue_keeps (hw.mono ?_) ?_

theorem State.setFloor_keeps {W : List Part} {z0 : State} {s : State} {p : Nat} {v : Int} (hw : Within [.rf] W)
    (h : Keeps W z0 s) :
    Keeps W z0 (State.setFloor s p v) := by
  unfold State.setFloor
  with_reducible repeat' first | assumption | decide | apply Keeps.ite | refine State.setPier_keeps (hw.mono ?_) ?_

theorem State.floorsAgain_keeps {W : List Part} {z0 : State} {s : State} (hw : Within [.rf] W) (h : Keeps W z0 s) :
    Keeps W z0 (State.floorsAgain s) := by
  unfold State.floorsAgain
  with_reducible repeat' first | assumption | decide | refine State.setRf_keeps (hw.mono ?_) ?_

theorem State.resumeEdge_keeps {W : List Part} {z0 : State} {s : State}
    (hw : Within [.sys, .time, .truss, .evr, .hif, .que, .cip, .rf, .red, .regs, .ctxs, .outbox, .free] W)
    (h : Keeps W z0 s) :
    Keeps W z0 (State.resumeEdge s) := by
  unfold State.resumeEdge
  with_reducible repeat' first | assumption | decide | apply Keeps.ite | refine State.resumeService_keeps (hw.mono ?_) ?_ | (refine Keeps.set_truss (hw.mem (by decide)) ?_; assumption)

theorem State.crowdCount_keeps {W : List Part} {z0 : State} {s : State} (hw : Within [.cal] W) (h : Keeps W z0 s) :
    Keeps W z0 (State.crowdCount s) := by
  unfold State.crowdCount
  with_reducible repeat' first | assumption | decide | apply Keeps.ite | refine State.setCalSt_keeps (hw.mono ?_) ?_

theorem State.edgeSettings_keeps {W : List Part} {z0 : State} {s : State}
    (hw : Within [.sys, .time, .truss, .evr, .hif, .que, .tol, .cip, .par, .cal, .rf, .red, .regs, .regWrites, .ctxs, .outbox, .free] W) (h : Keeps W z0 s) :
    Keeps W z0 (State.edgeSettings s) := by
  unfold State.edgeSettings
  with_reducible repeat' first | assumption | decide | apply Keeps.ite | refine State.applyEdgeWrites_keeps (hw.mono ?_) ?_ | refine State.lateRelease_keeps (hw.mono ?_) ?_ | refine State.resumeEdge_keeps (hw.mono ?_) ?_ | refine State.queuesEdge_keeps (hw.mono ?_) ?_ | refine State.guardTick_keeps (hw.mono ?_) ?_ | refine State.lockTick_keeps (hw.mono ?_) ?_ | refine State.redTick_keeps (hw.mono ?_) ?_ | refine State.parTick_keeps (hw.mono ?_) ?_

theorem State.edgeRadio_keeps {W : List Part} {z0 : State} {s : State} {x : TickSample}
    (hw : Within [.cal, .rf, .regs] W) (h : Keeps W z0 s) :
    Keeps W z0 (State.edgeRadio s x) := by
  unfold State.edgeRadio
  with_reducible repeat' first | assumption | decide | refine State.iqTick_keeps (hw.mono ?_) ?_ | refine State.calTick_keeps (hw.mono ?_) ?_ | refine State.headroomTick_keeps (hw.mono ?_) ?_ | refine State.floorsAgain_keeps (hw.mono ?_) ?_ | refine State.setFloor_keeps (hw.mono ?_) ?_ | refine State.crowdTick_keeps (hw.mono ?_) ?_ | apply Keeps.foldl | (intro _; intros) | split

theorem State.tickEdge_keeps {W : List Part} {z0 : State} {s : State} {x : TickSample}
    (hw : Within [.sys, .time, .truss, .evr, .hif, .spanc, .que, .tol, .cip, .par, .cal, .rf, .red, .regs, .regWrites, .ctxs, .outbox, .free] W) (h : Keeps W z0 s) :
    Keeps W z0 (State.tickEdge s x) := by
  unfold State.tickEdge
  with_reducible repeat' first | assumption | decide | refine State.decideSpans_keeps (hw.mono ?_) ?_ | refine State.edgeRadio_keeps (hw.mono ?_) ?_ | refine State.edgeSettings_keeps (hw.mono ?_) ?_ | refine State.crowdCount_keeps (hw.mono ?_) ?_ | refine State.toEdge_keeps (hw.mono ?_) ?_ | refine State.lateCalJobs_keeps (hw.mono ?_) ?_ | refine State.settleOrphans_keeps (hw.mono ?_) ?_ | refine State.settleAir_keeps (hw.mono ?_) ?_ | refine State.upsetQueue_keeps (hw.mono ?_) ?_ | apply Keeps.foldl | (intro _; intros) | split

theorem State.endForward_keeps {W : List Part} {z0 : State} {s : State} (hw : Within [.que, .upd] W)
    (h : Keeps W z0 s) :
    Keeps W z0 (State.endForward s) := by
  unfold State.endForward
  with_reducible repeat' first | assumption | decide | refine State.setUpd_keeps (hw.mono ?_) ?_ | refine State.clearFeed_keeps (hw.mono ?_) ?_

theorem State.offerNext_keeps {W : List Part} {z0 : State} {s : State} (hw : Within [.que, .upd, .ethA, .ethB] W)
    (h : Keeps W z0 s) :
    Keeps W z0 (State.offerNext s) := by
  unfold State.offerNext
  with_reducible repeat' first | assumption | decide | refine State.endForward_keeps (hw.mono ?_) ?_ | refine State.sendVia_keeps (hw.mono ?_) ?_ | refine State.setUpd_keeps (hw.mono ?_) ?_ | split

theorem State.skipHop_keeps {W : List Part} {z0 : State} {s : State} {st : Status}
    (hw : Within [.evr, .hif, .que, .upd, .ethA, .ethB, .regs, .outbox, .free] W) (h : Keeps W z0 s) :
    Keeps W z0 (State.skipHop s st) := by
  unfold State.skipHop
  with_reducible repeat' first | assumption | decide | refine State.clearFeed_keeps (hw.mono ?_) ?_ | refine State.bump_keeps (hw.mono ?_) ?_ | refine State.reportHop_keeps (hw.mono ?_) ?_ | refine post_keeps (hw.mono ?_) ?_ | refine State.offerNext_keeps (hw.mono ?_) ?_ | refine State.setUpd_keeps (hw.mono ?_) ?_ | split

theorem State.viaAccept_keeps {W : List Part} {z0 : State} {s0_ : State} {t : U64} {mac : List Byte} {id : Word}
    {next : Nat} (hw : Within [.time, .que, .upd] W) (h : Keeps W z0 s0_) :
    Keeps W z0 (State.viaAccept s0_ t mac id next) := by
  unfold State.viaAccept
  with_reducible repeat' first | assumption | decide | apply Keeps.ite | refine State.at__keeps (hw.mono ?_) ?_ | refine State.setUpd_keeps (hw.mono ?_) ?_ | refine State.clearFeed_keeps (hw.mono ?_) ?_ | refine State.endForward_keeps (hw.mono ?_) ?_

theorem State.viaRefuse_keeps {W : List Part} {z0 : State} {s0_ : State} {t : U64} {mac : List Byte} {id : Word}
    {reason : Nat} (hw : Within [.time, .evr, .hif, .que, .upd, .ethA, .ethB, .regs, .outbox, .free] W)
    (h : Keeps W z0 s0_) :
    Keeps W z0 (State.viaRefuse s0_ t mac id reason) := by
  unfold State.viaRefuse
  with_reducible repeat' first | assumption | decide | apply Keeps.ite | refine State.at__keeps (hw.mono ?_) ?_ | refine State.skipHop_keeps (hw.mono ?_) ?_ | refine State.bump_keeps (hw.mono ?_) ?_

theorem State.viaBlockSend_keeps {W : List Part} {z0 : State} {s0_ : State} {t : U64}
    (hw : Within [.time, .evr, .hif, .que, .upd, .ethA, .ethB, .regs, .outbox, .free] W) (h : Keeps W z0 s0_) :
    Keeps W z0 (State.viaBlockSend s0_ t) := by
  unfold State.viaBlockSend
  with_reducible repeat' first | assumption | decide | apply Keeps.ite | refine State.at__keeps (hw.mono ?_) ?_ | refine State.setUpd_keeps (hw.mono ?_) ?_ | refine State.resetQueue_keeps (hw.mono ?_) ?_ ?_ | refine post_keeps (hw.mono ?_) ?_ | refine State.setQueue_keeps (hw.mono ?_) ?_ | refine State.enqueue_keeps (hw.mono ?_) ?_ | refine State.takeHead_keeps (hw.mono ?_) ?_ | refine State.sendVia_keeps (hw.mono ?_) ?_ | refine State.bump_keeps (hw.mono ?_) ?_ | apply Keeps.foldl | refine Keeps.ofFst (by assumption) ?_ | (intro _; intros) | split

theorem State.viaAck_keeps {W : List Part} {z0 : State} {s0_ : State} {t : U64} {mac : List Byte} {id : Word}
    {next : Nat} (hw : Within [.time, .que, .upd, .regs] W) (h : Keeps W z0 s0_) :
    Keeps W z0 (State.viaAck s0_ t mac id next) := by
  unfold State.viaAck
  with_reducible repeat' first | assumption | decide | apply Keeps.ite | refine State.at__keeps (hw.mono ?_) ?_ | refine State.setQueue_keeps (hw.mono ?_) ?_ | refine State.bumpBy_keeps (hw.mono ?_) ?_ | refine State.setUpd_keeps (hw.mono ?_) ?_ | refine State.endForward_keeps (hw.mono ?_) ?_

theorem State.viaRetransmit_keeps {W : List Part} {z0 : State} {s0_ : State} {t : U64}
    (hw : Within [.time, .que, .upd, .regs] W) (h : Keeps W z0 s0_) :
    Keeps W z0 (State.viaRetransmit s0_ t) := by
  unfold State.viaRetransmit
  with_reducible repeat' first | assumption | decide | apply Keeps.ite | refine State.at__keeps (hw.mono ?_) ?_ | refine State.setUpd_keeps (hw.mono ?_) ?_ | refine State.bump_keeps (hw.mono ?_) ?_ | refine State.rewindQueue_keeps (hw.mono ?_) ?_

theorem State.hopSkip_keeps {W : List Part} {z0 : State} {s0_ : State} {t : U64}
    (hw : Within [.time, .evr, .hif, .que, .upd, .ethA, .ethB, .regs, .outbox, .free] W) (h : Keeps W z0 s0_) :
    Keeps W z0 (State.hopSkip s0_ t) := by
  unfold State.hopSkip
  with_reducible repeat' first | assumption | decide | apply Keeps.ite | refine State.at__keeps (hw.mono ?_) ?_ | refine State.skipHop_keeps (hw.mono ?_) ?_

theorem State.buildFails_keeps {W : List Part} {z0 : State} {s : State} {st : Status}
    (hw : Within [.hif, .upd, .ethA, .ethB, .regs, .outbox] W) (h : Keeps W z0 s) :
    Keeps W z0 (State.buildFails s st) := by
  unfold State.buildFails
  with_reducible repeat' first | assumption | decide | refine State.sessionOutcome_keeps (hw.mono ?_) ?_ | refine State.setUpd_keeps (hw.mono ?_) ?_

theorem State.viaOffer_keeps {W : List Part} {z0 : State} {s0_ : State} {t : U64} {mac : List Byte} {id : Word}
    {total : Nat} {mb : Nat} {headMac : List Byte} {chain : List HopEntry}
    (hw : Within [.time, .que, .upd, .ethA, .ethB] W) (h : Keeps W z0 s0_) :
    Keeps W z0 (State.viaOffer s0_ t mac id total mb headMac chain) := by
  unfold State.viaOffer
  dsimp only
  with_reducible repeat' first | assumption | decide | apply Keeps.ite | refine State.at__keeps (hw.mono ?_) ?_ | refine State.sendMgmt_keeps (hw.mono ?_) ?_ | refine State.setUpd_keeps (hw.mono ?_) ?_ | refine State.offerNext_keeps (hw.mono ?_) ?_ | refine State.sendVia_keeps (hw.mono ?_) ?_ | split

theorem State.manifestDone_keeps {W : List Part} {z0 : State} {s : State} (hw : Within [.que, .upd, .ethA, .ethB] W)
    (h : Keeps W z0 s) :
    Keeps W z0 (State.manifestDone s).1 := by
  unfold State.manifestDone
  dsimp only
  with_reducible repeat' first | assumption | decide | apply Keeps.ite | refine State.offerNext_keeps (hw.mono ?_) ?_ | refine State.setUpd_keeps (hw.mono ?_) ?_ | split

theorem State.stageBlock_keeps {W : List Part} {z0 : State} {s : State} {b : List Byte}
    (hw : Within [.que, .upd, .ethA, .ethB, .regs, .mem] W) (h : Keeps W z0 s) :
    Keeps W z0 (State.stageBlock s b).1 := by
  unfold State.stageBlock
  dsimp only
  with_reducible repeat' first | assumption | decide | apply Keeps.ite | refine State.bump_keeps (hw.mono ?_) ?_ | refine State.writeMem_keeps (hw.mono ?_) ?_ | refine State.manifestDone_keeps (hw.mono ?_) ?_ | refine State.setUpd_keeps (hw.mono ?_) ?_ | (refine Keeps.fields (fun p => by cases p <;> first | exact .inl (hw.mem (by decide)) | exact .inr rfl) ?_ ?_ ?_ <;> first | rfl | assumption) | refine Keeps.ofFst (by assumption) ?_ | split

theorem State.viaBlock_keeps {W : List Part} {z0 : State} {s0_ : State} {t : U64} {b : List Byte}
    (hw : Within [.time, .hif, .que, .upd, .ethA, .ethB, .regs, .mem, .outbox] W) (h : Keeps W z0 s0_) :
    Keeps W z0 (State.viaBlock s0_ t b) := by
  unfold State.viaBlock
  with_reducible repeat' first | assumption | decide | apply Keeps.ite | refine State.at__keeps (hw.mono ?_) ?_ | refine State.bump_keeps (hw.mono ?_) ?_ | refine State.stageBlock_keeps (hw.mono ?_) ?_ | refine State.sessionEnd_keeps (hw.mono ?_) ?_ | refine State.sendVia_keeps (hw.mono ?_) ?_ | apply Keeps.foldl | refine Keeps.ofFst (by assumption) ?_ | (intro _; intros) | split

theorem State.viaReport_keeps {W : List Part} {z0 : State} {s0_ : State} {t : U64} {id : Word} {n : Nat} {st : Nat}
    (hw : Within [.time, .regs] W) (h : Keeps W z0 s0_) :
    Keeps W z0 (State.viaReport s0_ t id n st) := by
  unfold State.viaReport
  with_reducible repeat' first | assumption | decide | apply Keeps.ite | refine State.at__keeps (hw.mono ?_) ?_ | refine State.setFld_keeps (hw.mono ?_) ?_

theorem State.sessionIdleTimeout_keeps {W : List Part} {z0 : State} {s0_ : State} {t : U64}
    (hw : Within [.time, .hif, .que, .upd, .ethA, .ethB, .regs, .outbox] W) (h : Keeps W z0 s0_) :
    Keeps W z0 (State.sessionIdleTimeout s0_ t) := by
  unfold State.sessionIdleTimeout
  with_reducible repeat' first | assumption | decide | apply Keeps.ite | refine State.at__keeps (hw.mono ?_) ?_ | refine State.sessionEnd_keeps (hw.mono ?_) ?_

theorem State.takeBlock_keeps {W : List Part} {z0 : State} {s : State} {b : List Byte}
    (hw : Within [.que, .upd, .ethA, .ethB, .regs, .mem] W) (h : Keeps W z0 s) :
    Keeps W z0 (State.takeBlock s b).1 := by
  unfold State.takeBlock
  with_reducible repeat' first | assumption | decide | refine State.bump_keeps (hw.mono ?_) ?_ | refine State.stageBlock_keeps (hw.mono ?_) ?_ | split

theorem State.takeBlocks_keeps {W : List Part} {z0 : State} {s : State} {size : Nat} {o : Nat} {i : Nat}
    {fuel : Nat} (hw : Within [.que, .upd, .ethA, .ethB, .regs, .mem] W) (h : Keeps W z0 s) :
    Keeps W z0 (State.takeBlocks s size o i fuel).1 := by
  induction fuel generalizing s i with
  | zero => exact h
  | succ k ih =>
    unfold State.takeBlocks
    split
    · rename_i heq
      exact Keeps.ofFst heq (State.takeBlock_keeps (hw.mono rfl) h)
    · rename_i heq
      exact ih (Keeps.ofFst heq (State.takeBlock_keeps (hw.mono rfl) h))

theorem State.setHops_keeps {W : List Part} {z0 : State} {s : State} {l : List HopEntry} (hw : Within [.regs] W)
    (h : Keeps W z0 s) :
    Keeps W z0 (State.setHops s l) := by
  unfold State.setHops
  with_reducible repeat' first | assumption | decide | refine State.setReg_keeps (hw.mono ?_) ?_ | apply Keeps.foldl | (intro _; intros) | split

theorem State.updStart_keeps {W : List Part} {z0 : State} {s : State} {d : Desc}
    (hw : Within [.evr, .hif, .que, .upd, .ethA, .ethB, .regs, .mem, .outbox, .free] W) (h : Keeps W z0 s) :
    Keeps W z0 (State.updStart s d) := by
  unfold State.updStart
  dsimp only
  with_reducible repeat' first | assumption | decide | apply Keeps.ite | refine State.command_keeps (hw.mono ?_) ?_ ?_ | refine State.complete_keeps (hw.mono ?_) ?_ | refine State.rejectState_keeps (hw.mono ?_) ?_ | refine State.setUpd_keeps (hw.mono ?_) ?_ | refine State.setHops_keeps (hw.mono ?_) ?_ | refine State.takeBlocks_keeps (hw.mono ?_) ?_ | refine State.sessionEnd_keeps (hw.mono ?_) ?_ | (refine Keeps.fields (fun p => by cases p <;> first | exact .inl (hw.mem (by decide)) | with_unfolding_all exact .inr rfl) ?_ ?_ ?_ <;> first | rfl | assumption) | apply Keeps.foldl | refine Keeps.ofFst (by assumption) ?_ | (intro _; intros) | split

theorem State.updAbort_keeps {W : List Part} {z0 : State} {s : State} {d : Desc}
    (hw : Within [.evr, .hif, .que, .upd, .ethA, .ethB, .regs, .outbox, .free] W) (h : Keeps W z0 s) :
    Keeps W z0 (State.updAbort s d) := by
  unfold State.updAbort
  with_reducible repeat' first | assumption | decide | refine State.command_keeps (hw.mono ?_) ?_ ?_ | refine State.complete_keeps (hw.mono ?_) ?_ | refine State.sessionEnd_keeps (hw.mono ?_) ?_ | apply Keeps.foldl | (intro _; intros) | split

theorem State.eraseSlot15_keeps {W : List Part} {z0 : State} {s : State} {m : Manifest} (hw : Within [.key] W)
    (h : Keeps W z0 s) :
    Keeps W z0 (State.eraseSlot15 s m) := by
  unfold State.eraseSlot15
  with_reducible repeat' first | assumption | decide | apply Keeps.ite | refine State.setSlot_keeps (hw.mono ?_) ?_

theorem State.imageBuild_keeps {W : List Part} {z0 : State} {s0_ : State} {t : U64} {flashOk : Bool}
    (hw : Within [.time, .hif, .key, .upd, .flash, .ethA, .ethB, .regs, .outbox] W) (h : Keeps W z0 s0_) :
    Keeps W z0 (State.imageBuild s0_ t flashOk) := by
  unfold State.imageBuild
  with_reducible repeat' first | assumption | decide | apply Keeps.ite | refine State.at__keeps (hw.mono ?_) ?_ | refine State.buildFails_keeps (hw.mono ?_) ?_ | refine State.eraseSlot15_keeps (hw.mono ?_) ?_ | refine State.writeBank_keeps (hw.mono ?_) ?_ | refine State.setUpd_keeps (hw.mono ?_) ?_ | split

theorem State.imageVerify_keeps {W : List Part} {z0 : State} {s0_ : State} {t : U64}
    (hw : Within [.time, .evr, .hif, .que, .upd, .ethA, .ethB, .regs, .mem, .outbox, .free] W) (h : Keeps W z0 s0_) :
    Keeps W z0 (State.imageVerify s0_ t) := by
  unfold State.imageVerify
  dsimp only
  with_reducible repeat' first | assumption | decide | apply Keeps.ite | refine State.at__keeps (hw.mono ?_) ?_ | refine State.setUpd_keeps (hw.mono ?_) ?_ | refine State.writeMem_keeps (hw.mono ?_) ?_ | refine State.sessionEnd_keeps (hw.mono ?_) ?_ | refine post_keeps (hw.mono ?_) ?_ | split

end Sys2Proof.Machine
end

