-- ==== Sys2Proof/Laws/State.lean ====
section
/-! SUPPORT. One lemma per field of State for each update that has a name: what it leaves, and what it sets. -/

namespace Sys2Proof.Machine

@[simp] theorem State.setReg_pending (s : State) (a : Nat) (v : Word) : (s.setReg a v).pending = s.pending := rfl
@[simp] theorem State.setReg_sys (s : State) (a : Nat) (v : Word) : (s.setReg a v).sys = s.sys := rfl
@[simp] theorem State.setReg_time (s : State) (a : Nat) (v : Word) : (s.setReg a v).time = s.time := rfl
@[simp] theorem State.setReg_truss (s : State) (a : Nat) (v : Word) : (s.setReg a v).truss = s.truss := rfl
@[simp] theorem State.setReg_evr (s : State) (a : Nat) (v : Word) : (s.setReg a v).evr = s.evr := rfl
@[simp] theorem State.setReg_hif (s : State) (a : Nat) (v : Word) : (s.setReg a v).hif = s.hif := rfl
@[simp] theorem State.setReg_spanc (s : State) (a : Nat) (v : Word) : (s.setReg a v).spanc = s.spanc := rfl
@[simp] theorem State.setReg_sch (s : State) (a : Nat) (v : Word) : (s.setReg a v).sch = s.sch := rfl
@[simp] theorem State.setReg_tbl (s : State) (a : Nat) (v : Word) : (s.setReg a v).tbl = s.tbl := rfl
@[simp] theorem State.setReg_que (s : State) (a : Nat) (v : Word) : (s.setReg a v).que = s.que := rfl
@[simp] theorem State.setReg_tol (s : State) (a : Nat) (v : Word) : (s.setReg a v).tol = s.tol := rfl
@[simp] theorem State.setReg_key (s : State) (a : Nat) (v : Word) : (s.setReg a v).key = s.key := rfl
@[simp] theorem State.setReg_cip (s : State) (a : Nat) (v : Word) : (s.setReg a v).cip = s.cip := rfl
@[simp] theorem State.setReg_par (s : State) (a : Nat) (v : Word) : (s.setReg a v).par = s.par := rfl
@[simp] theorem State.setReg_cal (s : State) (a : Nat) (v : Word) : (s.setReg a v).cal = s.cal := rfl
@[simp] theorem State.setReg_rf (s : State) (a : Nat) (v : Word) : (s.setReg a v).rf = s.rf := rfl
@[simp] theorem State.setReg_red (s : State) (a : Nat) (v : Word) : (s.setReg a v).red = s.red := rfl
@[simp] theorem State.setReg_chk (s : State) (a : Nat) (v : Word) : (s.setReg a v).chk = s.chk := rfl
@[simp] theorem State.setReg_boot (s : State) (a : Nat) (v : Word) : (s.setReg a v).boot = s.boot := rfl
@[simp] theorem State.setReg_upd (s : State) (a : Nat) (v : Word) : (s.setReg a v).upd = s.upd := rfl
@[simp] theorem State.setReg_flash (s : State) (a : Nat) (v : Word) : (s.setReg a v).flash = s.flash := rfl
@[simp] theorem State.setReg_ethA (s : State) (a : Nat) (v : Word) : (s.setReg a v).ethA = s.ethA := rfl
@[simp] theorem State.setReg_ethB (s : State) (a : Nat) (v : Word) : (s.setReg a v).ethB = s.ethB := rfl
@[simp] theorem State.setReg_regs (s : State) (a : Nat) (v : Word) : (s.setReg a v).regs = aset (resetOf a) s.regs a v := rfl
@[simp] theorem State.setReg_regWrites (s : State) (a : Nat) (v : Word) : (s.setReg a v).regWrites = s.regWrites := rfl
@[simp] theorem State.setReg_ctxs (s : State) (a : Nat) (v : Word) : (s.setReg a v).ctxs = s.ctxs := rfl
@[simp] theorem State.setReg_mem (s : State) (a : Nat) (v : Word) : (s.setReg a v).mem = s.mem := rfl
@[simp] theorem State.setReg_outbox (s : State) (a : Nat) (v : Word) : (s.setReg a v).outbox = s.outbox := rfl
@[simp] theorem State.setReg_free (s : State) (a : Nat) (v : Word) : (s.setReg a v).free = s.free := rfl

@[simp] theorem State.writeMem_pending (s : State) (a : Nat) (bs : List Byte) : (s.writeMem a bs).pending = s.pending := rfl
@[simp] theorem State.writeMem_sys (s : State) (a : Nat) (bs : List Byte) : (s.writeMem a bs).sys = s.sys := rfl
@[simp] theorem State.writeMem_time (s : State) (a : Nat) (bs : List Byte) : (s.writeMem a bs).time = s.time := rfl
@[simp] theorem State.writeMem_truss (s : State) (a : Nat) (bs : List Byte) : (s.writeMem a bs).truss = s.truss := rfl
@[simp] theorem State.writeMem_evr (s : State) (a : Nat) (bs : List Byte) : (s.writeMem a bs).evr = s.evr := rfl
@[simp] theorem State.writeMem_hif (s : State) (a : Nat) (bs : List Byte) : (s.writeMem a bs).hif = s.hif := rfl
@[simp] theorem State.writeMem_spanc (s : State) (a : Nat) (bs : List Byte) : (s.writeMem a bs).spanc = s.spanc := rfl
@[simp] theorem State.writeMem_sch (s : State) (a : Nat) (bs : List Byte) : (s.writeMem a bs).sch = s.sch := rfl
@[simp] theorem State.writeMem_tbl (s : State) (a : Nat) (bs : List Byte) : (s.writeMem a bs).tbl = s.tbl := rfl
@[simp] theorem State.writeMem_que (s : State) (a : Nat) (bs : List Byte) : (s.writeMem a bs).que = s.que := rfl
@[simp] theorem State.writeMem_tol (s : State) (a : Nat) (bs : List Byte) : (s.writeMem a bs).tol = s.tol := rfl
@[simp] theorem State.writeMem_key (s : State) (a : Nat) (bs : List Byte) : (s.writeMem a bs).key = s.key := rfl
@[simp] theorem State.writeMem_cip (s : State) (a : Nat) (bs : List Byte) : (s.writeMem a bs).cip = s.cip := rfl
@[simp] theorem State.writeMem_par (s : State) (a : Nat) (bs : List Byte) : (s.writeMem a bs).par = s.par := rfl
@[simp] theorem State.writeMem_cal (s : State) (a : Nat) (bs : List Byte) : (s.writeMem a bs).cal = s.cal := rfl
@[simp] theorem State.writeMem_rf (s : State) (a : Nat) (bs : List Byte) : (s.writeMem a bs).rf = s.rf := rfl
@[simp] theorem State.writeMem_red (s : State) (a : Nat) (bs : List Byte) : (s.writeMem a bs).red = s.red := rfl
@[simp] theorem State.writeMem_chk (s : State) (a : Nat) (bs : List Byte) : (s.writeMem a bs).chk = s.chk := rfl
@[simp] theorem State.writeMem_boot (s : State) (a : Nat) (bs : List Byte) : (s.writeMem a bs).boot = s.boot := rfl
@[simp] theorem State.writeMem_upd (s : State) (a : Nat) (bs : List Byte) : (s.writeMem a bs).upd = s.upd := rfl
@[simp] theorem State.writeMem_flash (s : State) (a : Nat) (bs : List Byte) : (s.writeMem a bs).flash = s.flash := rfl
@[simp] theorem State.writeMem_ethA (s : State) (a : Nat) (bs : List Byte) : (s.writeMem a bs).ethA = s.ethA := rfl
@[simp] theorem State.writeMem_ethB (s : State) (a : Nat) (bs : List Byte) : (s.writeMem a bs).ethB = s.ethB := rfl
@[simp] theorem State.writeMem_regs (s : State) (a : Nat) (bs : List Byte) : (s.writeMem a bs).regs = s.regs := rfl
@[simp] theorem State.writeMem_regWrites (s : State) (a : Nat) (bs : List Byte) : (s.writeMem a bs).regWrites = s.regWrites := rfl
@[simp] theorem State.writeMem_ctxs (s : State) (a : Nat) (bs : List Byte) : (s.writeMem a bs).ctxs = s.ctxs := rfl
@[simp] theorem State.writeMem_mem (s : State) (a : Nat) (bs : List Byte) : (s.writeMem a bs).mem = memWrite s.mem a bs := rfl
@[simp] theorem State.writeMem_outbox (s : State) (a : Nat) (bs : List Byte) : (s.writeMem a bs).outbox = s.outbox := rfl
@[simp] theorem State.writeMem_free (s : State) (a : Nat) (bs : List Byte) : (s.writeMem a bs).free = s.free := rfl

@[simp] theorem State.emit_pending (s : State) (o : Output) : (s.emit o).pending = s.pending := rfl
@[simp] theorem State.emit_sys (s : State) (o : Output) : (s.emit o).sys = s.sys := rfl
@[simp] theorem State.emit_time (s : State) (o : Output) : (s.emit o).time = s.time := rfl
@[simp] theorem State.emit_truss (s : State) (o : Output) : (s.emit o).truss = s.truss := rfl
@[simp] theorem State.emit_evr (s : State) (o : Output) : (s.emit o).evr = s.evr := rfl
@[simp] theorem State.emit_hif (s : State) (o : Output) : (s.emit o).hif = s.hif := rfl
@[simp] theorem State.emit_spanc (s : State) (o : Output) : (s.emit o).spanc = s.spanc := rfl
@[simp] theorem State.emit_sch (s : State) (o : Output) : (s.emit o).sch = s.sch := rfl
@[simp] theorem State.emit_tbl (s : State) (o : Output) : (s.emit o).tbl = s.tbl := rfl
@[simp] theorem State.emit_que (s : State) (o : Output) : (s.emit o).que = s.que := rfl
@[simp] theorem State.emit_tol (s : State) (o : Output) : (s.emit o).tol = s.tol := rfl
@[simp] theorem State.emit_key (s : State) (o : Output) : (s.emit o).key = s.key := rfl
@[simp] theorem State.emit_cip (s : State) (o : Output) : (s.emit o).cip = s.cip := rfl
@[simp] theorem State.emit_par (s : State) (o : Output) : (s.emit o).par = s.par := rfl
@[simp] theorem State.emit_cal (s : State) (o : Output) : (s.emit o).cal = s.cal := rfl
@[simp] theorem State.emit_rf (s : State) (o : Output) : (s.emit o).rf = s.rf := rfl
@[simp] theorem State.emit_red (s : State) (o : Output) : (s.emit o).red = s.red := rfl
@[simp] theorem State.emit_chk (s : State) (o : Output) : (s.emit o).chk = s.chk := rfl
@[simp] theorem State.emit_boot (s : State) (o : Output) : (s.emit o).boot = s.boot := rfl
@[simp] theorem State.emit_upd (s : State) (o : Output) : (s.emit o).upd = s.upd := rfl
@[simp] theorem State.emit_flash (s : State) (o : Output) : (s.emit o).flash = s.flash := rfl
@[simp] theorem State.emit_ethA (s : State) (o : Output) : (s.emit o).ethA = s.ethA := rfl
@[simp] theorem State.emit_ethB (s : State) (o : Output) : (s.emit o).ethB = s.ethB := rfl
@[simp] theorem State.emit_regs (s : State) (o : Output) : (s.emit o).regs = s.regs := rfl
@[simp] theorem State.emit_regWrites (s : State) (o : Output) : (s.emit o).regWrites = s.regWrites := rfl
@[simp] theorem State.emit_ctxs (s : State) (o : Output) : (s.emit o).ctxs = s.ctxs := rfl
@[simp] theorem State.emit_mem (s : State) (o : Output) : (s.emit o).mem = s.mem := rfl
@[simp] theorem State.emit_outbox (s : State) (o : Output) : (s.emit o).outbox = s.outbox ++ [o] := rfl
@[simp] theorem State.emit_free (s : State) (o : Output) : (s.emit o).free = s.free := rfl

@[simp] theorem State.nextFree_pending (s : State) : (s.nextFree).pending = s.pending := rfl
@[simp] theorem State.nextFree_sys (s : State) : (s.nextFree).sys = s.sys := rfl
@[simp] theorem State.nextFree_time (s : State) : (s.nextFree).time = s.time := rfl
@[simp] theorem State.nextFree_truss (s : State) : (s.nextFree).truss = s.truss := rfl
@[simp] theorem State.nextFree_evr (s : State) : (s.nextFree).evr = s.evr := rfl
@[simp] theorem State.nextFree_hif (s : State) : (s.nextFree).hif = s.hif := rfl
@[simp] theorem State.nextFree_spanc (s : State) : (s.nextFree).spanc = s.spanc := rfl
@[simp] theorem State.nextFree_sch (s : State) : (s.nextFree).sch = s.sch := rfl
@[simp] theorem State.nextFree_tbl (s : State) : (s.nextFree).tbl = s.tbl := rfl
@[simp] theorem State.nextFree_que (s : State) : (s.nextFree).que = s.que := rfl
@[simp] theorem State.nextFree_tol (s : State) : (s.nextFree).tol = s.tol := rfl
@[simp] theorem State.nextFree_key (s : State) : (s.nextFree).key = s.key := rfl
@[simp] theorem State.nextFree_cip (s : State) : (s.nextFree).cip = s.cip := rfl
@[simp] theorem State.nextFree_par (s : State) : (s.nextFree).par = s.par := rfl
@[simp] theorem State.nextFree_cal (s : State) : (s.nextFree).cal = s.cal := rfl
@[simp] theorem State.nextFree_rf (s : State) : (s.nextFree).rf = s.rf := rfl
@[simp] theorem State.nextFree_red (s : State) : (s.nextFree).red = s.red := rfl
@[simp] theorem State.nextFree_chk (s : State) : (s.nextFree).chk = s.chk := rfl
@[simp] theorem State.nextFree_boot (s : State) : (s.nextFree).boot = s.boot := rfl
@[simp] theorem State.nextFree_upd (s : State) : (s.nextFree).upd = s.upd := rfl
@[simp] theorem State.nextFree_flash (s : State) : (s.nextFree).flash = s.flash := rfl
@[simp] theorem State.nextFree_ethA (s : State) : (s.nextFree).ethA = s.ethA := rfl
@[simp] theorem State.nextFree_ethB (s : State) : (s.nextFree).ethB = s.ethB := rfl
@[simp] theorem State.nextFree_regs (s : State) : (s.nextFree).regs = s.regs := rfl
@[simp] theorem State.nextFree_regWrites (s : State) : (s.nextFree).regWrites = s.regWrites := rfl
@[simp] theorem State.nextFree_ctxs (s : State) : (s.nextFree).ctxs = s.ctxs := rfl
@[simp] theorem State.nextFree_mem (s : State) : (s.nextFree).mem = s.mem := rfl
@[simp] theorem State.nextFree_outbox (s : State) : (s.nextFree).outbox = s.outbox := rfl
@[simp] theorem State.nextFree_free (s : State) : (s.nextFree).free = s.free + 1 := rfl

@[simp] theorem State.hold_pending (s : State) (c : Completion) : (s.hold c).pending = s.pending := rfl
@[simp] theorem State.hold_sys (s : State) (c : Completion) : (s.hold c).sys = s.sys := rfl
@[simp] theorem State.hold_time (s : State) (c : Completion) : (s.hold c).time = s.time := rfl
@[simp] theorem State.hold_truss (s : State) (c : Completion) : (s.hold c).truss = s.truss := rfl
@[simp] theorem State.hold_evr (s : State) (c : Completion) : (s.hold c).evr = s.evr := rfl
@[simp] theorem State.hold_hif (s : State) (c : Completion) : (s.hold c).hif = { s.hif with held := s.hif.held ++ [c] } := rfl
@[simp] theorem State.hold_spanc (s : State) (c : Completion) : (s.hold c).spanc = s.spanc := rfl
@[simp] theorem State.hold_sch (s : State) (c : Completion) : (s.hold c).sch = s.sch := rfl
@[simp] theorem State.hold_tbl (s : State) (c : Completion) : (s.hold c).tbl = s.tbl := rfl
@[simp] theorem State.hold_que (s : State) (c : Completion) : (s.hold c).que = s.que := rfl
@[simp] theorem State.hold_tol (s : State) (c : Completion) : (s.hold c).tol = s.tol := rfl
@[simp] theorem State.hold_key (s : State) (c : Completion) : (s.hold c).key = s.key := rfl
@[simp] theorem State.hold_cip (s : State) (c : Completion) : (s.hold c).cip = s.cip := rfl
@[simp] theorem State.hold_par (s : State) (c : Completion) : (s.hold c).par = s.par := rfl
@[simp] theorem State.hold_cal (s : State) (c : Completion) : (s.hold c).cal = s.cal := rfl
@[simp] theorem State.hold_rf (s : State) (c : Completion) : (s.hold c).rf = s.rf := rfl
@[simp] theorem State.hold_red (s : State) (c : Completion) : (s.hold c).red = s.red := rfl
@[simp] theorem State.hold_chk (s : State) (c : Completion) : (s.hold c).chk = s.chk := rfl
@[simp] theorem State.hold_boot (s : State) (c : Completion) : (s.hold c).boot = s.boot := rfl
@[simp] theorem State.hold_upd (s : State) (c : Completion) : (s.hold c).upd = s.upd := rfl
@[simp] theorem State.hold_flash (s : State) (c : Completion) : (s.hold c).flash = s.flash := rfl
@[simp] theorem State.hold_ethA (s : State) (c : Completion) : (s.hold c).ethA = s.ethA := rfl
@[simp] theorem State.hold_ethB (s : State) (c : Completion) : (s.hold c).ethB = s.ethB := rfl
@[simp] theorem State.hold_regs (s : State) (c : Completion) : (s.hold c).regs = s.regs := rfl
@[simp] theorem State.hold_regWrites (s : State) (c : Completion) : (s.hold c).regWrites = s.regWrites := rfl
@[simp] theorem State.hold_ctxs (s : State) (c : Completion) : (s.hold c).ctxs = s.ctxs := rfl
@[simp] theorem State.hold_mem (s : State) (c : Completion) : (s.hold c).mem = s.mem := rfl
@[simp] theorem State.hold_outbox (s : State) (c : Completion) : (s.hold c).outbox = s.outbox := rfl
@[simp] theorem State.hold_free (s : State) (c : Completion) : (s.hold c).free = s.free := rfl

@[simp] theorem State.setHif_pending (s : State) (f : HifSt → HifSt) : (s.setHif f).pending = s.pending := rfl
@[simp] theorem State.setHif_sys (s : State) (f : HifSt → HifSt) : (s.setHif f).sys = s.sys := rfl
@[simp] theorem State.setHif_time (s : State) (f : HifSt → HifSt) : (s.setHif f).time = s.time := rfl
@[simp] theorem State.setHif_truss (s : State) (f : HifSt → HifSt) : (s.setHif f).truss = s.truss := rfl
@[simp] theorem State.setHif_evr (s : State) (f : HifSt → HifSt) : (s.setHif f).evr = s.evr := rfl
@[simp] theorem State.setHif_hif (s : State) (f : HifSt → HifSt) : (s.setHif f).hif = f s.hif := rfl
@[simp] theorem State.setHif_spanc (s : State) (f : HifSt → HifSt) : (s.setHif f).spanc = s.spanc := rfl
@[simp] theorem State.setHif_sch (s : State) (f : HifSt → HifSt) : (s.setHif f).sch = s.sch := rfl
@[simp] theorem State.setHif_tbl (s : State) (f : HifSt → HifSt) : (s.setHif f).tbl = s.tbl := rfl
@[simp] theorem State.setHif_que (s : State) (f : HifSt → HifSt) : (s.setHif f).que = s.que := rfl
@[simp] theorem State.setHif_tol (s : State) (f : HifSt → HifSt) : (s.setHif f).tol = s.tol := rfl
@[simp] theorem State.setHif_key (s : State) (f : HifSt → HifSt) : (s.setHif f).key = s.key := rfl
@[simp] theorem State.setHif_cip (s : State) (f : HifSt → HifSt) : (s.setHif f).cip = s.cip := rfl
@[simp] theorem State.setHif_par (s : State) (f : HifSt → HifSt) : (s.setHif f).par = s.par := rfl
@[simp] theorem State.setHif_cal (s : State) (f : HifSt → HifSt) : (s.setHif f).cal = s.cal := rfl
@[simp] theorem State.setHif_rf (s : State) (f : HifSt → HifSt) : (s.setHif f).rf = s.rf := rfl
@[simp] theorem State.setHif_red (s : State) (f : HifSt → HifSt) : (s.setHif f).red = s.red := rfl
@[simp] theorem State.setHif_chk (s : State) (f : HifSt → HifSt) : (s.setHif f).chk = s.chk := rfl
@[simp] theorem State.setHif_boot (s : State) (f : HifSt → HifSt) : (s.setHif f).boot = s.boot := rfl
@[simp] theorem State.setHif_upd (s : State) (f : HifSt → HifSt) : (s.setHif f).upd = s.upd := rfl
@[simp] theorem State.setHif_flash (s : State) (f : HifSt → HifSt) : (s.setHif f).flash = s.flash := rfl
@[simp] theorem State.setHif_ethA (s : State) (f : HifSt → HifSt) : (s.setHif f).ethA = s.ethA := rfl
@[simp] theorem State.setHif_ethB (s : State) (f : HifSt → HifSt) : (s.setHif f).ethB = s.ethB := rfl
@[simp] theorem State.setHif_regs (s : State) (f : HifSt → HifSt) : (s.setHif f).regs = s.regs := rfl
@[simp] theorem State.setHif_regWrites (s : State) (f : HifSt → HifSt) : (s.setHif f).regWrites = s.regWrites := rfl
@[simp] theorem State.setHif_ctxs (s : State) (f : HifSt → HifSt) : (s.setHif f).ctxs = s.ctxs := rfl
@[simp] theorem State.setHif_mem (s : State) (f : HifSt → HifSt) : (s.setHif f).mem = s.mem := rfl
@[simp] theorem State.setHif_outbox (s : State) (f : HifSt → HifSt) : (s.setHif f).outbox = s.outbox := rfl
@[simp] theorem State.setHif_free (s : State) (f : HifSt → HifSt) : (s.setHif f).free = s.free := rfl

@[simp] theorem State.setTime_pending (s : State) (f : TimeSt → TimeSt) : (s.setTime f).pending = s.pending := rfl
@[simp] theorem State.setTime_sys (s : State) (f : TimeSt → TimeSt) : (s.setTime f).sys = s.sys := rfl
@[simp] theorem State.setTime_time (s : State) (f : TimeSt → TimeSt) : (s.setTime f).time = f s.time := rfl
@[simp] theorem State.setTime_truss (s : State) (f : TimeSt → TimeSt) : (s.setTime f).truss = s.truss := rfl
@[simp] theorem State.setTime_evr (s : State) (f : TimeSt → TimeSt) : (s.setTime f).evr = s.evr := rfl
@[simp] theorem State.setTime_hif (s : State) (f : TimeSt → TimeSt) : (s.setTime f).hif = s.hif := rfl
@[simp] theorem State.setTime_spanc (s : State) (f : TimeSt → TimeSt) : (s.setTime f).spanc = s.spanc := rfl
@[simp] theorem State.setTime_sch (s : State) (f : TimeSt → TimeSt) : (s.setTime f).sch = s.sch := rfl
@[simp] theorem State.setTime_tbl (s : State) (f : TimeSt → TimeSt) : (s.setTime f).tbl = s.tbl := rfl
@[simp] theorem State.setTime_que (s : State) (f : TimeSt → TimeSt) : (s.setTime f).que = s.que := rfl
@[simp] theorem State.setTime_tol (s : State) (f : TimeSt → TimeSt) : (s.setTime f).tol = s.tol := rfl
@[simp] theorem State.setTime_key (s : State) (f : TimeSt → TimeSt) : (s.setTime f).key = s.key := rfl
@[simp] theorem State.setTime_cip (s : State) (f : TimeSt → TimeSt) : (s.setTime f).cip = s.cip := rfl
@[simp] theorem State.setTime_par (s : State) (f : TimeSt → TimeSt) : (s.setTime f).par = s.par := rfl
@[simp] theorem State.setTime_cal (s : State) (f : TimeSt → TimeSt) : (s.setTime f).cal = s.cal := rfl
@[simp] theorem State.setTime_rf (s : State) (f : TimeSt → TimeSt) : (s.setTime f).rf = s.rf := rfl
@[simp] theorem State.setTime_red (s : State) (f : TimeSt → TimeSt) : (s.setTime f).red = s.red := rfl
@[simp] theorem State.setTime_chk (s : State) (f : TimeSt → TimeSt) : (s.setTime f).chk = s.chk := rfl
@[simp] theorem State.setTime_boot (s : State) (f : TimeSt → TimeSt) : (s.setTime f).boot = s.boot := rfl
@[simp] theorem State.setTime_upd (s : State) (f : TimeSt → TimeSt) : (s.setTime f).upd = s.upd := rfl
@[simp] theorem State.setTime_flash (s : State) (f : TimeSt → TimeSt) : (s.setTime f).flash = s.flash := rfl
@[simp] theorem State.setTime_ethA (s : State) (f : TimeSt → TimeSt) : (s.setTime f).ethA = s.ethA := rfl
@[simp] theorem State.setTime_ethB (s : State) (f : TimeSt → TimeSt) : (s.setTime f).ethB = s.ethB := rfl
@[simp] theorem State.setTime_regs (s : State) (f : TimeSt → TimeSt) : (s.setTime f).regs = s.regs := rfl
@[simp] theorem State.setTime_regWrites (s : State) (f : TimeSt → TimeSt) : (s.setTime f).regWrites = s.regWrites := rfl
@[simp] theorem State.setTime_ctxs (s : State) (f : TimeSt → TimeSt) : (s.setTime f).ctxs = s.ctxs := rfl
@[simp] theorem State.setTime_mem (s : State) (f : TimeSt → TimeSt) : (s.setTime f).mem = s.mem := rfl
@[simp] theorem State.setTime_outbox (s : State) (f : TimeSt → TimeSt) : (s.setTime f).outbox = s.outbox := rfl
@[simp] theorem State.setTime_free (s : State) (f : TimeSt → TimeSt) : (s.setTime f).free = s.free := rfl

@[simp] theorem State.setRf_pending (s : State) (f : RfSt → RfSt) : (s.setRf f).pending = s.pending := rfl
@[simp] theorem State.setRf_sys (s : State) (f : RfSt → RfSt) : (s.setRf f).sys = s.sys := rfl
@[simp] theorem State.setRf_time (s : State) (f : RfSt → RfSt) : (s.setRf f).time = s.time := rfl
@[simp] theorem State.setRf_truss (s : State) (f : RfSt → RfSt) : (s.setRf f).truss = s.truss := rfl
@[simp] theorem State.setRf_evr (s : State) (f : RfSt → RfSt) : (s.setRf f).evr = s.evr := rfl
@[simp] theorem State.setRf_hif (s : State) (f : RfSt → RfSt) : (s.setRf f).hif = s.hif := rfl
@[simp] theorem State.setRf_spanc (s : State) (f : RfSt → RfSt) : (s.setRf f).spanc = s.spanc := rfl
@[simp] theorem State.setRf_sch (s : State) (f : RfSt → RfSt) : (s.setRf f).sch = s.sch := rfl
@[simp] theorem State.setRf_tbl (s : State) (f : RfSt → RfSt) : (s.setRf f).tbl = s.tbl := rfl
@[simp] theorem State.setRf_que (s : State) (f : RfSt → RfSt) : (s.setRf f).que = s.que := rfl
@[simp] theorem State.setRf_tol (s : State) (f : RfSt → RfSt) : (s.setRf f).tol = s.tol := rfl
@[simp] theorem State.setRf_key (s : State) (f : RfSt → RfSt) : (s.setRf f).key = s.key := rfl
@[simp] theorem State.setRf_cip (s : State) (f : RfSt → RfSt) : (s.setRf f).cip = s.cip := rfl
@[simp] theorem State.setRf_par (s : State) (f : RfSt → RfSt) : (s.setRf f).par = s.par := rfl
@[simp] theorem State.setRf_cal (s : State) (f : RfSt → RfSt) : (s.setRf f).cal = s.cal := rfl
@[simp] theorem State.setRf_rf (s : State) (f : RfSt → RfSt) : (s.setRf f).rf = f s.rf := rfl
@[simp] theorem State.setRf_red (s : State) (f : RfSt → RfSt) : (s.setRf f).red = s.red := rfl
@[simp] theorem State.setRf_chk (s : State) (f : RfSt → RfSt) : (s.setRf f).chk = s.chk := rfl
@[simp] theorem State.setRf_boot (s : State) (f : RfSt → RfSt) : (s.setRf f).boot = s.boot := rfl
@[simp] theorem State.setRf_upd (s : State) (f : RfSt → RfSt) : (s.setRf f).upd = s.upd := rfl
@[simp] theorem State.setRf_flash (s : State) (f : RfSt → RfSt) : (s.setRf f).flash = s.flash := rfl
@[simp] theorem State.setRf_ethA (s : State) (f : RfSt → RfSt) : (s.setRf f).ethA = s.ethA := rfl
@[simp] theorem State.setRf_ethB (s : State) (f : RfSt → RfSt) : (s.setRf f).ethB = s.ethB := rfl
@[simp] theorem State.setRf_regs (s : State) (f : RfSt → RfSt) : (s.setRf f).regs = s.regs := rfl
@[simp] theorem State.setRf_regWrites (s : State) (f : RfSt → RfSt) : (s.setRf f).regWrites = s.regWrites := rfl
@[simp] theorem State.setRf_ctxs (s : State) (f : RfSt → RfSt) : (s.setRf f).ctxs = s.ctxs := rfl
@[simp] theorem State.setRf_mem (s : State) (f : RfSt → RfSt) : (s.setRf f).mem = s.mem := rfl
@[simp] theorem State.setRf_outbox (s : State) (f : RfSt → RfSt) : (s.setRf f).outbox = s.outbox := rfl
@[simp] theorem State.setRf_free (s : State) (f : RfSt → RfSt) : (s.setRf f).free = s.free := rfl

@[simp] theorem State.setRed_pending (s : State) (f : RedSt → RedSt) : (s.setRed f).pending = s.pending := rfl
@[simp] theorem State.setRed_sys (s : State) (f : RedSt → RedSt) : (s.setRed f).sys = s.sys := rfl
@[simp] theorem State.setRed_time (s : State) (f : RedSt → RedSt) : (s.setRed f).time = s.time := rfl
@[simp] theorem State.setRed_truss (s : State) (f : RedSt → RedSt) : (s.setRed f).truss = s.truss := rfl
@[simp] theorem State.setRed_evr (s : State) (f : RedSt → RedSt) : (s.setRed f).evr = s.evr := rfl
@[simp] theorem State.setRed_hif (s : State) (f : RedSt → RedSt) : (s.setRed f).hif = s.hif := rfl
@[simp] theorem State.setRed_spanc (s : State) (f : RedSt → RedSt) : (s.setRed f).spanc = s.spanc := rfl
@[simp] theorem State.setRed_sch (s : State) (f : RedSt → RedSt) : (s.setRed f).sch = s.sch := rfl
@[simp] theorem State.setRed_tbl (s : State) (f : RedSt → RedSt) : (s.setRed f).tbl = s.tbl := rfl
@[simp] theorem State.setRed_que (s : State) (f : RedSt → RedSt) : (s.setRed f).que = s.que := rfl
@[simp] theorem State.setRed_tol (s : State) (f : RedSt → RedSt) : (s.setRed f).tol = s.tol := rfl
@[simp] theorem State.setRed_key (s : State) (f : RedSt → RedSt) : (s.setRed f).key = s.key := rfl
@[simp] theorem State.setRed_cip (s : State) (f : RedSt → RedSt) : (s.setRed f).cip = s.cip := rfl
@[simp] theorem State.setRed_par (s : State) (f : RedSt → RedSt) : (s.setRed f).par = s.par := rfl
@[simp] theorem State.setRed_cal (s : State) (f : RedSt → RedSt) : (s.setRed f).cal = s.cal := rfl
@[simp] theorem State.setRed_rf (s : State) (f : RedSt → RedSt) : (s.setRed f).rf = s.rf := rfl
@[simp] theorem State.setRed_red (s : State) (f : RedSt → RedSt) : (s.setRed f).red = f s.red := rfl
@[simp] theorem State.setRed_chk (s : State) (f : RedSt → RedSt) : (s.setRed f).chk = s.chk := rfl
@[simp] theorem State.setRed_boot (s : State) (f : RedSt → RedSt) : (s.setRed f).boot = s.boot := rfl
@[simp] theorem State.setRed_upd (s : State) (f : RedSt → RedSt) : (s.setRed f).upd = s.upd := rfl
@[simp] theorem State.setRed_flash (s : State) (f : RedSt → RedSt) : (s.setRed f).flash = s.flash := rfl
@[simp] theorem State.setRed_ethA (s : State) (f : RedSt → RedSt) : (s.setRed f).ethA = s.ethA := rfl
@[simp] theorem State.setRed_ethB (s : State) (f : RedSt → RedSt) : (s.setRed f).ethB = s.ethB := rfl
@[simp] theorem State.setRed_regs (s : State) (f : RedSt → RedSt) : (s.setRed f).regs = s.regs := rfl
@[simp] theorem State.setRed_regWrites (s : State) (f : RedSt → RedSt) : (s.setRed f).regWrites = s.regWrites := rfl
@[simp] theorem State.setRed_ctxs (s : State) (f : RedSt → RedSt) : (s.setRed f).ctxs = s.ctxs := rfl
@[simp] theorem State.setRed_mem (s : State) (f : RedSt → RedSt) : (s.setRed f).mem = s.mem := rfl
@[simp] theorem State.setRed_outbox (s : State) (f : RedSt → RedSt) : (s.setRed f).outbox = s.outbox := rfl
@[simp] theorem State.setRed_free (s : State) (f : RedSt → RedSt) : (s.setRed f).free = s.free := rfl

@[simp] theorem State.setTruss_pending (s : State) (f : TrussSt → TrussSt) : (s.setTruss f).pending = s.pending := rfl
@[simp] theorem State.setTruss_sys (s : State) (f : TrussSt → TrussSt) : (s.setTruss f).sys = s.sys := rfl
@[simp] theorem State.setTruss_time (s : State) (f : TrussSt → TrussSt) : (s.setTruss f).time = s.time := rfl
@[simp] theorem State.setTruss_truss (s : State) (f : TrussSt → TrussSt) : (s.setTruss f).truss = f s.truss := rfl
@[simp] theorem State.setTruss_evr (s : State) (f : TrussSt → TrussSt) : (s.setTruss f).evr = s.evr := rfl
@[simp] theorem State.setTruss_hif (s : State) (f : TrussSt → TrussSt) : (s.setTruss f).hif = s.hif := rfl
@[simp] theorem State.setTruss_spanc (s : State) (f : TrussSt → TrussSt) : (s.setTruss f).spanc = s.spanc := rfl
@[simp] theorem State.setTruss_sch (s : State) (f : TrussSt → TrussSt) : (s.setTruss f).sch = s.sch := rfl
@[simp] theorem State.setTruss_tbl (s : State) (f : TrussSt → TrussSt) : (s.setTruss f).tbl = s.tbl := rfl
@[simp] theorem State.setTruss_que (s : State) (f : TrussSt → TrussSt) : (s.setTruss f).que = s.que := rfl
@[simp] theorem State.setTruss_tol (s : State) (f : TrussSt → TrussSt) : (s.setTruss f).tol = s.tol := rfl
@[simp] theorem State.setTruss_key (s : State) (f : TrussSt → TrussSt) : (s.setTruss f).key = s.key := rfl
@[simp] theorem State.setTruss_cip (s : State) (f : TrussSt → TrussSt) : (s.setTruss f).cip = s.cip := rfl
@[simp] theorem State.setTruss_par (s : State) (f : TrussSt → TrussSt) : (s.setTruss f).par = s.par := rfl
@[simp] theorem State.setTruss_cal (s : State) (f : TrussSt → TrussSt) : (s.setTruss f).cal = s.cal := rfl
@[simp] theorem State.setTruss_rf (s : State) (f : TrussSt → TrussSt) : (s.setTruss f).rf = s.rf := rfl
@[simp] theorem State.setTruss_red (s : State) (f : TrussSt → TrussSt) : (s.setTruss f).red = s.red := rfl
@[simp] theorem State.setTruss_chk (s : State) (f : TrussSt → TrussSt) : (s.setTruss f).chk = s.chk := rfl
@[simp] theorem State.setTruss_boot (s : State) (f : TrussSt → TrussSt) : (s.setTruss f).boot = s.boot := rfl
@[simp] theorem State.setTruss_upd (s : State) (f : TrussSt → TrussSt) : (s.setTruss f).upd = s.upd := rfl
@[simp] theorem State.setTruss_flash (s : State) (f : TrussSt → TrussSt) : (s.setTruss f).flash = s.flash := rfl
@[simp] theorem State.setTruss_ethA (s : State) (f : TrussSt → TrussSt) : (s.setTruss f).ethA = s.ethA := rfl
@[simp] theorem State.setTruss_ethB (s : State) (f : TrussSt → TrussSt) : (s.setTruss f).ethB = s.ethB := rfl
@[simp] theorem State.setTruss_regs (s : State) (f : TrussSt → TrussSt) : (s.setTruss f).regs = s.regs := rfl
@[simp] theorem State.setTruss_regWrites (s : State) (f : TrussSt → TrussSt) : (s.setTruss f).regWrites = s.regWrites := rfl
@[simp] theorem State.setTruss_ctxs (s : State) (f : TrussSt → TrussSt) : (s.setTruss f).ctxs = s.ctxs := rfl
@[simp] theorem State.setTruss_mem (s : State) (f : TrussSt → TrussSt) : (s.setTruss f).mem = s.mem := rfl
@[simp] theorem State.setTruss_outbox (s : State) (f : TrussSt → TrussSt) : (s.setTruss f).outbox = s.outbox := rfl
@[simp] theorem State.setTruss_free (s : State) (f : TrussSt → TrussSt) : (s.setTruss f).free = s.free := rfl

@[simp] theorem State.setBoot_pending (s : State) (f : BootSt → BootSt) : (s.setBoot f).pending = s.pending := rfl
@[simp] theorem State.setBoot_sys (s : State) (f : BootSt → BootSt) : (s.setBoot f).sys = s.sys := rfl
@[simp] theorem State.setBoot_time (s : State) (f : BootSt → BootSt) : (s.setBoot f).time = s.time := rfl
@[simp] theorem State.setBoot_truss (s : State) (f : BootSt → BootSt) : (s.setBoot f).truss = s.truss := rfl
@[simp] theorem State.setBoot_evr (s : State) (f : BootSt → BootSt) : (s.setBoot f).evr = s.evr := rfl
@[simp] theorem State.setBoot_hif (s : State) (f : BootSt → BootSt) : (s.setBoot f).hif = s.hif := rfl
@[simp] theorem State.setBoot_spanc (s : State) (f : BootSt → BootSt) : (s.setBoot f).spanc = s.spanc := rfl
@[simp] theorem State.setBoot_sch (s : State) (f : BootSt → BootSt) : (s.setBoot f).sch = s.sch := rfl
@[simp] theorem State.setBoot_tbl (s : State) (f : BootSt → BootSt) : (s.setBoot f).tbl = s.tbl := rfl
@[simp] theorem State.setBoot_que (s : State) (f : BootSt → BootSt) : (s.setBoot f).que = s.que := rfl
@[simp] theorem State.setBoot_tol (s : State) (f : BootSt → BootSt) : (s.setBoot f).tol = s.tol := rfl
@[simp] theorem State.setBoot_key (s : State) (f : BootSt → BootSt) : (s.setBoot f).key = s.key := rfl
@[simp] theorem State.setBoot_cip (s : State) (f : BootSt → BootSt) : (s.setBoot f).cip = s.cip := rfl
@[simp] theorem State.setBoot_par (s : State) (f : BootSt → BootSt) : (s.setBoot f).par = s.par := rfl
@[simp] theorem State.setBoot_cal (s : State) (f : BootSt → BootSt) : (s.setBoot f).cal = s.cal := rfl
@[simp] theorem State.setBoot_rf (s : State) (f : BootSt → BootSt) : (s.setBoot f).rf = s.rf := rfl
@[simp] theorem State.setBoot_red (s : State) (f : BootSt → BootSt) : (s.setBoot f).red = s.red := rfl
@[simp] theorem State.setBoot_chk (s : State) (f : BootSt → BootSt) : (s.setBoot f).chk = s.chk := rfl
@[simp] theorem State.setBoot_boot (s : State) (f : BootSt → BootSt) : (s.setBoot f).boot = f s.boot := rfl
@[simp] theorem State.setBoot_upd (s : State) (f : BootSt → BootSt) : (s.setBoot f).upd = s.upd := rfl
@[simp] theorem State.setBoot_flash (s : State) (f : BootSt → BootSt) : (s.setBoot f).flash = s.flash := rfl
@[simp] theorem State.setBoot_ethA (s : State) (f : BootSt → BootSt) : (s.setBoot f).ethA = s.ethA := rfl
@[simp] theorem State.setBoot_ethB (s : State) (f : BootSt → BootSt) : (s.setBoot f).ethB = s.ethB := rfl
@[simp] theorem State.setBoot_regs (s : State) (f : BootSt → BootSt) : (s.setBoot f).regs = s.regs := rfl
@[simp] theorem State.setBoot_regWrites (s : State) (f : BootSt → BootSt) : (s.setBoot f).regWrites = s.regWrites := rfl
@[simp] theorem State.setBoot_ctxs (s : State) (f : BootSt → BootSt) : (s.setBoot f).ctxs = s.ctxs := rfl
@[simp] theorem State.setBoot_mem (s : State) (f : BootSt → BootSt) : (s.setBoot f).mem = s.mem := rfl
@[simp] theorem State.setBoot_outbox (s : State) (f : BootSt → BootSt) : (s.setBoot f).outbox = s.outbox := rfl
@[simp] theorem State.setBoot_free (s : State) (f : BootSt → BootSt) : (s.setBoot f).free = s.free := rfl

@[simp] theorem State.setUpd_pending (s : State) (f : UpdSt → UpdSt) : (s.setUpd f).pending = s.pending := rfl
@[simp] theorem State.setUpd_sys (s : State) (f : UpdSt → UpdSt) : (s.setUpd f).sys = s.sys := rfl
@[simp] theorem State.setUpd_time (s : State) (f : UpdSt → UpdSt) : (s.setUpd f).time = s.time := rfl
@[simp] theorem State.setUpd_truss (s : State) (f : UpdSt → UpdSt) : (s.setUpd f).truss = s.truss := rfl
@[simp] theorem State.setUpd_evr (s : State) (f : UpdSt → UpdSt) : (s.setUpd f).evr = s.evr := rfl
@[simp] theorem State.setUpd_hif (s : State) (f : UpdSt → UpdSt) : (s.setUpd f).hif = s.hif := rfl
@[simp] theorem State.setUpd_spanc (s : State) (f : UpdSt → UpdSt) : (s.setUpd f).spanc = s.spanc := rfl
@[simp] theorem State.setUpd_sch (s : State) (f : UpdSt → UpdSt) : (s.setUpd f).sch = s.sch := rfl
@[simp] theorem State.setUpd_tbl (s : State) (f : UpdSt → UpdSt) : (s.setUpd f).tbl = s.tbl := rfl
@[simp] theorem State.setUpd_que (s : State) (f : UpdSt → UpdSt) : (s.setUpd f).que = s.que := rfl
@[simp] theorem State.setUpd_tol (s : State) (f : UpdSt → UpdSt) : (s.setUpd f).tol = s.tol := rfl
@[simp] theorem State.setUpd_key (s : State) (f : UpdSt → UpdSt) : (s.setUpd f).key = s.key := rfl
@[simp] theorem State.setUpd_cip (s : State) (f : UpdSt → UpdSt) : (s.setUpd f).cip = s.cip := rfl
@[simp] theorem State.setUpd_par (s : State) (f : UpdSt → UpdSt) : (s.setUpd f).par = s.par := rfl
@[simp] theorem State.setUpd_cal (s : State) (f : UpdSt → UpdSt) : (s.setUpd f).cal = s.cal := rfl
@[simp] theorem State.setUpd_rf (s : State) (f : UpdSt → UpdSt) : (s.setUpd f).rf = s.rf := rfl
@[simp] theorem State.setUpd_red (s : State) (f : UpdSt → UpdSt) : (s.setUpd f).red = s.red := rfl
@[simp] theorem State.setUpd_chk (s : State) (f : UpdSt → UpdSt) : (s.setUpd f).chk = s.chk := rfl
@[simp] theorem State.setUpd_boot (s : State) (f : UpdSt → UpdSt) : (s.setUpd f).boot = s.boot := rfl
@[simp] theorem State.setUpd_upd (s : State) (f : UpdSt → UpdSt) : (s.setUpd f).upd = f s.upd := rfl
@[simp] theorem State.setUpd_flash (s : State) (f : UpdSt → UpdSt) : (s.setUpd f).flash = s.flash := rfl
@[simp] theorem State.setUpd_ethA (s : State) (f : UpdSt → UpdSt) : (s.setUpd f).ethA = s.ethA := rfl
@[simp] theorem State.setUpd_ethB (s : State) (f : UpdSt → UpdSt) : (s.setUpd f).ethB = s.ethB := rfl
@[simp] theorem State.setUpd_regs (s : State) (f : UpdSt → UpdSt) : (s.setUpd f).regs = s.regs := rfl
@[simp] theorem State.setUpd_regWrites (s : State) (f : UpdSt → UpdSt) : (s.setUpd f).regWrites = s.regWrites := rfl
@[simp] theorem State.setUpd_ctxs (s : State) (f : UpdSt → UpdSt) : (s.setUpd f).ctxs = s.ctxs := rfl
@[simp] theorem State.setUpd_mem (s : State) (f : UpdSt → UpdSt) : (s.setUpd f).mem = s.mem := rfl
@[simp] theorem State.setUpd_outbox (s : State) (f : UpdSt → UpdSt) : (s.setUpd f).outbox = s.outbox := rfl
@[simp] theorem State.setUpd_free (s : State) (f : UpdSt → UpdSt) : (s.setUpd f).free = s.free := rfl

@[simp] theorem State.setCalSt_pending (s : State) (f : CalSt → CalSt) : (s.setCalSt f).pending = s.pending := rfl
@[simp] theorem State.setCalSt_sys (s : State) (f : CalSt → CalSt) : (s.setCalSt f).sys = s.sys := rfl
@[simp] theorem State.setCalSt_time (s : State) (f : CalSt → CalSt) : (s.setCalSt f).time = s.time := rfl
@[simp] theorem State.setCalSt_truss (s : State) (f : CalSt → CalSt) : (s.setCalSt f).truss = s.truss := rfl
@[simp] theorem State.setCalSt_evr (s : State) (f : CalSt → CalSt) : (s.setCalSt f).evr = s.evr := rfl
@[simp] theorem State.setCalSt_hif (s : State) (f : CalSt → CalSt) : (s.setCalSt f).hif = s.hif := rfl
@[simp] theorem State.setCalSt_spanc (s : State) (f : CalSt → CalSt) : (s.setCalSt f).spanc = s.spanc := rfl
@[simp] theorem State.setCalSt_sch (s : State) (f : CalSt → CalSt) : (s.setCalSt f).sch = s.sch := rfl
@[simp] theorem State.setCalSt_tbl (s : State) (f : CalSt → CalSt) : (s.setCalSt f).tbl = s.tbl := rfl
@[simp] theorem State.setCalSt_que (s : State) (f : CalSt → CalSt) : (s.setCalSt f).que = s.que := rfl
@[simp] theorem State.setCalSt_tol (s : State) (f : CalSt → CalSt) : (s.setCalSt f).tol = s.tol := rfl
@[simp] theorem State.setCalSt_key (s : State) (f : CalSt → CalSt) : (s.setCalSt f).key = s.key := rfl
@[simp] theorem State.setCalSt_cip (s : State) (f : CalSt → CalSt) : (s.setCalSt f).cip = s.cip := rfl
@[simp] theorem State.setCalSt_par (s : State) (f : CalSt → CalSt) : (s.setCalSt f).par = s.par := rfl
@[simp] theorem State.setCalSt_cal (s : State) (f : CalSt → CalSt) : (s.setCalSt f).cal = f s.cal := rfl
@[simp] theorem State.setCalSt_rf (s : State) (f : CalSt → CalSt) : (s.setCalSt f).rf = s.rf := rfl
@[simp] theorem State.setCalSt_red (s : State) (f : CalSt → CalSt) : (s.setCalSt f).red = s.red := rfl
@[simp] theorem State.setCalSt_chk (s : State) (f : CalSt → CalSt) : (s.setCalSt f).chk = s.chk := rfl
@[simp] theorem State.setCalSt_boot (s : State) (f : CalSt → CalSt) : (s.setCalSt f).boot = s.boot := rfl
@[simp] theorem State.setCalSt_upd (s : State) (f : CalSt → CalSt) : (s.setCalSt f).upd = s.upd := rfl
@[simp] theorem State.setCalSt_flash (s : State) (f : CalSt → CalSt) : (s.setCalSt f).flash = s.flash := rfl
@[simp] theorem State.setCalSt_ethA (s : State) (f : CalSt → CalSt) : (s.setCalSt f).ethA = s.ethA := rfl
@[simp] theorem State.setCalSt_ethB (s : State) (f : CalSt → CalSt) : (s.setCalSt f).ethB = s.ethB := rfl
@[simp] theorem State.setCalSt_regs (s : State) (f : CalSt → CalSt) : (s.setCalSt f).regs = s.regs := rfl
@[simp] theorem State.setCalSt_regWrites (s : State) (f : CalSt → CalSt) : (s.setCalSt f).regWrites = s.regWrites := rfl
@[simp] theorem State.setCalSt_ctxs (s : State) (f : CalSt → CalSt) : (s.setCalSt f).ctxs = s.ctxs := rfl
@[simp] theorem State.setCalSt_mem (s : State) (f : CalSt → CalSt) : (s.setCalSt f).mem = s.mem := rfl
@[simp] theorem State.setCalSt_outbox (s : State) (f : CalSt → CalSt) : (s.setCalSt f).outbox = s.outbox := rfl
@[simp] theorem State.setCalSt_free (s : State) (f : CalSt → CalSt) : (s.setCalSt f).free = s.free := rfl

@[simp] theorem State.setQueue_pending (s : State) (q : Nat) (x : Queue) : (s.setQueue q x).pending = s.pending := rfl
@[simp] theorem State.setQueue_sys (s : State) (q : Nat) (x : Queue) : (s.setQueue q x).sys = s.sys := rfl
@[simp] theorem State.setQueue_time (s : State) (q : Nat) (x : Queue) : (s.setQueue q x).time = s.time := rfl
@[simp] theorem State.setQueue_truss (s : State) (q : Nat) (x : Queue) : (s.setQueue q x).truss = s.truss := rfl
@[simp] theorem State.setQueue_evr (s : State) (q : Nat) (x : Queue) : (s.setQueue q x).evr = s.evr := rfl
@[simp] theorem State.setQueue_hif (s : State) (q : Nat) (x : Queue) : (s.setQueue q x).hif = s.hif := rfl
@[simp] theorem State.setQueue_spanc (s : State) (q : Nat) (x : Queue) : (s.setQueue q x).spanc = s.spanc := rfl
@[simp] theorem State.setQueue_sch (s : State) (q : Nat) (x : Queue) : (s.setQueue q x).sch = s.sch := rfl
@[simp] theorem State.setQueue_tbl (s : State) (q : Nat) (x : Queue) : (s.setQueue q x).tbl = s.tbl := rfl
@[simp] theorem State.setQueue_que (s : State) (q : Nat) (x : Queue) : (s.setQueue q x).que = { s.que with queues := aset {} s.que.queues q x } := rfl
@[simp] theorem State.setQueue_tol (s : State) (q : Nat) (x : Queue) : (s.setQueue q x).tol = s.tol := rfl
@[simp] theorem State.setQueue_key (s : State) (q : Nat) (x : Queue) : (s.setQueue q x).key = s.key := rfl
@[simp] theorem State.setQueue_cip (s : State) (q : Nat) (x : Queue) : (s.setQueue q x).cip = s.cip := rfl
@[simp] theorem State.setQueue_par (s : State) (q : Nat) (x : Queue) : (s.setQueue q x).par = s.par := rfl
@[simp] theorem State.setQueue_cal (s : State) (q : Nat) (x : Queue) : (s.setQueue q x).cal = s.cal := rfl
@[simp] theorem State.setQueue_rf (s : State) (q : Nat) (x : Queue) : (s.setQueue q x).rf = s.rf := rfl
@[simp] theorem State.setQueue_red (s : State) (q : Nat) (x : Queue) : (s.setQueue q x).red = s.red := rfl
@[simp] theorem State.setQueue_chk (s : State) (q : Nat) (x : Queue) : (s.setQueue q x).chk = s.chk := rfl
@[simp] theorem State.setQueue_boot (s : State) (q : Nat) (x : Queue) : (s.setQueue q x).boot = s.boot := rfl
@[simp] theorem State.setQueue_upd (s : State) (q : Nat) (x : Queue) : (s.setQueue q x).upd = s.upd := rfl
@[simp] theorem State.setQueue_flash (s : State) (q : Nat) (x : Queue) : (s.setQueue q x).flash = s.flash := rfl
@[simp] theorem State.setQueue_ethA (s : State) (q : Nat) (x : Queue) : (s.setQueue q x).ethA = s.ethA := rfl
@[simp] theorem State.setQueue_ethB (s : State) (q : Nat) (x : Queue) : (s.setQueue q x).ethB = s.ethB := rfl
@[simp] theorem State.setQueue_regs (s : State) (q : Nat) (x : Queue) : (s.setQueue q x).regs = s.regs := rfl
@[simp] theorem State.setQueue_regWrites (s : State) (q : Nat) (x : Queue) : (s.setQueue q x).regWrites = s.regWrites := rfl
@[simp] theorem State.setQueue_ctxs (s : State) (q : Nat) (x : Queue) : (s.setQueue q x).ctxs = s.ctxs := rfl
@[simp] theorem State.setQueue_mem (s : State) (q : Nat) (x : Queue) : (s.setQueue q x).mem = s.mem := rfl
@[simp] theorem State.setQueue_outbox (s : State) (q : Nat) (x : Queue) : (s.setQueue q x).outbox = s.outbox := rfl
@[simp] theorem State.setQueue_free (s : State) (q : Nat) (x : Queue) : (s.setQueue q x).free = s.free := rfl

@[simp] theorem State.setChan_pending (s : State) (n : Nat) (c : ChkChan) : (s.setChan n c).pending = s.pending := rfl
@[simp] theorem State.setChan_sys (s : State) (n : Nat) (c : ChkChan) : (s.setChan n c).sys = s.sys := rfl
@[simp] theorem State.setChan_time (s : State) (n : Nat) (c : ChkChan) : (s.setChan n c).time = s.time := rfl
@[simp] theorem State.setChan_truss (s : State) (n : Nat) (c : ChkChan) : (s.setChan n c).truss = s.truss := rfl
@[simp] theorem State.setChan_evr (s : State) (n : Nat) (c : ChkChan) : (s.setChan n c).evr = s.evr := rfl
@[simp] theorem State.setChan_hif (s : State) (n : Nat) (c : ChkChan) : (s.setChan n c).hif = s.hif := rfl
@[simp] theorem State.setChan_spanc (s : State) (n : Nat) (c : ChkChan) : (s.setChan n c).spanc = s.spanc := rfl
@[simp] theorem State.setChan_sch (s : State) (n : Nat) (c : ChkChan) : (s.setChan n c).sch = s.sch := rfl
@[simp] theorem State.setChan_tbl (s : State) (n : Nat) (c : ChkChan) : (s.setChan n c).tbl = s.tbl := rfl
@[simp] theorem State.setChan_que (s : State) (n : Nat) (c : ChkChan) : (s.setChan n c).que = s.que := rfl
@[simp] theorem State.setChan_tol (s : State) (n : Nat) (c : ChkChan) : (s.setChan n c).tol = s.tol := rfl
@[simp] theorem State.setChan_key (s : State) (n : Nat) (c : ChkChan) : (s.setChan n c).key = s.key := rfl
@[simp] theorem State.setChan_cip (s : State) (n : Nat) (c : ChkChan) : (s.setChan n c).cip = s.cip := rfl
@[simp] theorem State.setChan_par (s : State) (n : Nat) (c : ChkChan) : (s.setChan n c).par = s.par := rfl
@[simp] theorem State.setChan_cal (s : State) (n : Nat) (c : ChkChan) : (s.setChan n c).cal = s.cal := rfl
@[simp] theorem State.setChan_rf (s : State) (n : Nat) (c : ChkChan) : (s.setChan n c).rf = s.rf := rfl
@[simp] theorem State.setChan_red (s : State) (n : Nat) (c : ChkChan) : (s.setChan n c).red = s.red := rfl
@[simp] theorem State.setChan_chk (s : State) (n : Nat) (c : ChkChan) : (s.setChan n c).chk = { s.chk with chans := lset s.chk.chans n c } := rfl
@[simp] theorem State.setChan_boot (s : State) (n : Nat) (c : ChkChan) : (s.setChan n c).boot = s.boot := rfl
@[simp] theorem State.setChan_upd (s : State) (n : Nat) (c : ChkChan) : (s.setChan n c).upd = s.upd := rfl
@[simp] theorem State.setChan_flash (s : State) (n : Nat) (c : ChkChan) : (s.setChan n c).flash = s.flash := rfl
@[simp] theorem State.setChan_ethA (s : State) (n : Nat) (c : ChkChan) : (s.setChan n c).ethA = s.ethA := rfl
@[simp] theorem State.setChan_ethB (s : State) (n : Nat) (c : ChkChan) : (s.setChan n c).ethB = s.ethB := rfl
@[simp] theorem State.setChan_regs (s : State) (n : Nat) (c : ChkChan) : (s.setChan n c).regs = s.regs := rfl
@[simp] theorem State.setChan_regWrites (s : State) (n : Nat) (c : ChkChan) : (s.setChan n c).regWrites = s.regWrites := rfl
@[simp] theorem State.setChan_ctxs (s : State) (n : Nat) (c : ChkChan) : (s.setChan n c).ctxs = s.ctxs := rfl
@[simp] theorem State.setChan_mem (s : State) (n : Nat) (c : ChkChan) : (s.setChan n c).mem = s.mem := rfl
@[simp] theorem State.setChan_outbox (s : State) (n : Nat) (c : ChkChan) : (s.setChan n c).outbox = s.outbox := rfl
@[simp] theorem State.setChan_free (s : State) (n : Nat) (c : ChkChan) : (s.setChan n c).free = s.free := rfl

@[simp] theorem State.setSlot_pending (s : State) (n : Nat) (k : KeySlot) : (s.setSlot n k).pending = s.pending := rfl
@[simp] theorem State.setSlot_sys (s : State) (n : Nat) (k : KeySlot) : (s.setSlot n k).sys = s.sys := rfl
@[simp] theorem State.setSlot_time (s : State) (n : Nat) (k : KeySlot) : (s.setSlot n k).time = s.time := rfl
@[simp] theorem State.setSlot_truss (s : State) (n : Nat) (k : KeySlot) : (s.setSlot n k).truss = s.truss := rfl
@[simp] theorem State.setSlot_evr (s : State) (n : Nat) (k : KeySlot) : (s.setSlot n k).evr = s.evr := rfl
@[simp] theorem State.setSlot_hif (s : State) (n : Nat) (k : KeySlot) : (s.setSlot n k).hif = s.hif := rfl
@[simp] theorem State.setSlot_spanc (s : State) (n : Nat) (k : KeySlot) : (s.setSlot n k).spanc = s.spanc := rfl
@[simp] theorem State.setSlot_sch (s : State) (n : Nat) (k : KeySlot) : (s.setSlot n k).sch = s.sch := rfl
@[simp] theorem State.setSlot_tbl (s : State) (n : Nat) (k : KeySlot) : (s.setSlot n k).tbl = s.tbl := rfl
@[simp] theorem State.setSlot_que (s : State) (n : Nat) (k : KeySlot) : (s.setSlot n k).que = s.que := rfl
@[simp] theorem State.setSlot_tol (s : State) (n : Nat) (k : KeySlot) : (s.setSlot n k).tol = s.tol := rfl
@[simp] theorem State.setSlot_key (s : State) (n : Nat) (k : KeySlot) : (s.setSlot n k).key = { s.key with slots := aset {} s.key.slots n k } := rfl
@[simp] theorem State.setSlot_cip (s : State) (n : Nat) (k : KeySlot) : (s.setSlot n k).cip = s.cip := rfl
@[simp] theorem State.setSlot_par (s : State) (n : Nat) (k : KeySlot) : (s.setSlot n k).par = s.par := rfl
@[simp] theorem State.setSlot_cal (s : State) (n : Nat) (k : KeySlot) : (s.setSlot n k).cal = s.cal := rfl
@[simp] theorem State.setSlot_rf (s : State) (n : Nat) (k : KeySlot) : (s.setSlot n k).rf = s.rf := rfl
@[simp] theorem State.setSlot_red (s : State) (n : Nat) (k : KeySlot) : (s.setSlot n k).red = s.red := rfl
@[simp] theorem State.setSlot_chk (s : State) (n : Nat) (k : KeySlot) : (s.setSlot n k).chk = s.chk := rfl
@[simp] theorem State.setSlot_boot (s : State) (n : Nat) (k : KeySlot) : (s.setSlot n k).boot = s.boot := rfl
@[simp] theorem State.setSlot_upd (s : State) (n : Nat) (k : KeySlot) : (s.setSlot n k).upd = s.upd := rfl
@[simp] theorem State.setSlot_flash (s : State) (n : Nat) (k : KeySlot) : (s.setSlot n k).flash = s.flash := rfl
@[simp] theorem State.setSlot_ethA (s : State) (n : Nat) (k : KeySlot) : (s.setSlot n k).ethA = s.ethA := rfl
@[simp] theorem State.setSlot_ethB (s : State) (n : Nat) (k : KeySlot) : (s.setSlot n k).ethB = s.ethB := rfl
@[simp] theorem State.setSlot_regs (s : State) (n : Nat) (k : KeySlot) : (s.setSlot n k).regs = s.regs := rfl
@[simp] theorem State.setSlot_regWrites (s : State) (n : Nat) (k : KeySlot) : (s.setSlot n k).regWrites = s.regWrites := rfl
@[simp] theorem State.setSlot_ctxs (s : State) (n : Nat) (k : KeySlot) : (s.setSlot n k).ctxs = s.ctxs := rfl
@[simp] theorem State.setSlot_mem (s : State) (n : Nat) (k : KeySlot) : (s.setSlot n k).mem = s.mem := rfl
@[simp] theorem State.setSlot_outbox (s : State) (n : Nat) (k : KeySlot) : (s.setSlot n k).outbox = s.outbox := rfl
@[simp] theorem State.setSlot_free (s : State) (n : Nat) (k : KeySlot) : (s.setSlot n k).free = s.free := rfl

@[simp] theorem State.setPolicer_pending (s : State) (n : Nat) (x : Policer) : (s.setPolicer n x).pending = s.pending := rfl
@[simp] theorem State.setPolicer_sys (s : State) (n : Nat) (x : Policer) : (s.setPolicer n x).sys = s.sys := rfl
@[simp] theorem State.setPolicer_time (s : State) (n : Nat) (x : Policer) : (s.setPolicer n x).time = s.time := rfl
@[simp] theorem State.setPolicer_truss (s : State) (n : Nat) (x : Policer) : (s.setPolicer n x).truss = s.truss := rfl
@[simp] theorem State.setPolicer_evr (s : State) (n : Nat) (x : Policer) : (s.setPolicer n x).evr = s.evr := rfl
@[simp] theorem State.setPolicer_hif (s : State) (n : Nat) (x : Policer) : (s.setPolicer n x).hif = s.hif := rfl
@[simp] theorem State.setPolicer_spanc (s : State) (n : Nat) (x : Policer) : (s.setPolicer n x).spanc = s.spanc := rfl
@[simp] theorem State.setPolicer_sch (s : State) (n : Nat) (x : Policer) : (s.setPolicer n x).sch = s.sch := rfl
@[simp] theorem State.setPolicer_tbl (s : State) (n : Nat) (x : Policer) : (s.setPolicer n x).tbl = s.tbl := rfl
@[simp] theorem State.setPolicer_que (s : State) (n : Nat) (x : Policer) : (s.setPolicer n x).que = s.que := rfl
@[simp] theorem State.setPolicer_tol (s : State) (n : Nat) (x : Policer) : (s.setPolicer n x).tol = { s.tol with policers := aset {} s.tol.policers n x } := rfl
@[simp] theorem State.setPolicer_key (s : State) (n : Nat) (x : Policer) : (s.setPolicer n x).key = s.key := rfl
@[simp] theorem State.setPolicer_cip (s : State) (n : Nat) (x : Policer) : (s.setPolicer n x).cip = s.cip := rfl
@[simp] theorem State.setPolicer_par (s : State) (n : Nat) (x : Policer) : (s.setPolicer n x).par = s.par := rfl
@[simp] theorem State.setPolicer_cal (s : State) (n : Nat) (x : Policer) : (s.setPolicer n x).cal = s.cal := rfl
@[simp] theorem State.setPolicer_rf (s : State) (n : Nat) (x : Policer) : (s.setPolicer n x).rf = s.rf := rfl
@[simp] theorem State.setPolicer_red (s : State) (n : Nat) (x : Policer) : (s.setPolicer n x).red = s.red := rfl
@[simp] theorem State.setPolicer_chk (s : State) (n : Nat) (x : Policer) : (s.setPolicer n x).chk = s.chk := rfl
@[simp] theorem State.setPolicer_boot (s : State) (n : Nat) (x : Policer) : (s.setPolicer n x).boot = s.boot := rfl
@[simp] theorem State.setPolicer_upd (s : State) (n : Nat) (x : Policer) : (s.setPolicer n x).upd = s.upd := rfl
@[simp] theorem State.setPolicer_flash (s : State) (n : Nat) (x : Policer) : (s.setPolicer n x).flash = s.flash := rfl
@[simp] theorem State.setPolicer_ethA (s : State) (n : Nat) (x : Policer) : (s.setPolicer n x).ethA = s.ethA := rfl
@[simp] theorem State.setPolicer_ethB (s : State) (n : Nat) (x : Policer) : (s.setPolicer n x).ethB = s.ethB := rfl
@[simp] theorem State.setPolicer_regs (s : State) (n : Nat) (x : Policer) : (s.setPolicer n x).regs = s.regs := rfl
@[simp] theorem State.setPolicer_regWrites (s : State) (n : Nat) (x : Policer) : (s.setPolicer n x).regWrites = s.regWrites := rfl
@[simp] theorem State.setPolicer_ctxs (s : State) (n : Nat) (x : Policer) : (s.setPolicer n x).ctxs = s.ctxs := rfl
@[simp] theorem State.setPolicer_mem (s : State) (n : Nat) (x : Policer) : (s.setPolicer n x).mem = s.mem := rfl
@[simp] theorem State.setPolicer_outbox (s : State) (n : Nat) (x : Policer) : (s.setPolicer n x).outbox = s.outbox := rfl
@[simp] theorem State.setPolicer_free (s : State) (n : Nat) (x : Policer) : (s.setPolicer n x).free = s.free := rfl

end Sys2Proof.Machine
end

