-- ==== Sys2Proof/Laws/Reports.lean ====
section
/-! SUPPORT. What the operations every command uses leave as it is: counting, interrupts, records, completions, a change of
SYS_STATE and the advance of DTIME. -/

namespace Sys2Proof.Machine

@[simp] theorem State.setFld_sys (s : State) (a hi lo v : Nat) : (s.setFld a hi lo v).sys = s.sys :=
  (State.setFld_keeps (Within.self _) (Keeps.refl s)).part .sys rfl
@[simp] theorem State.setFld_time (s : State) (a hi lo v : Nat) : (s.setFld a hi lo v).time = s.time :=
  (State.setFld_keeps (Within.self _) (Keeps.refl s)).part .time rfl
@[simp] theorem State.setFld_truss (s : State) (a hi lo v : Nat) : (s.setFld a hi lo v).truss = s.truss :=
  (State.setFld_keeps (Within.self _) (Keeps.refl s)).part .truss rfl
@[simp] theorem State.setFld_evr (s : State) (a hi lo v : Nat) : (s.setFld a hi lo v).evr = s.evr :=
  (State.setFld_keeps (Within.self _) (Keeps.refl s)).part .evr rfl
@[simp] theorem State.setFld_hif (s : State) (a hi lo v : Nat) : (s.setFld a hi lo v).hif = s.hif :=
  (State.setFld_keeps (Within.self _) (Keeps.refl s)).part .hif rfl
@[simp] theorem State.setFld_spanc (s : State) (a hi lo v : Nat) : (s.setFld a hi lo v).spanc = s.spanc :=
  (State.setFld_keeps (Within.self _) (Keeps.refl s)).part .spanc rfl
@[simp] theorem State.setFld_sch (s : State) (a hi lo v : Nat) : (s.setFld a hi lo v).sch = s.sch :=
  (State.setFld_keeps (Within.self _) (Keeps.refl s)).part .sch rfl
@[simp] theorem State.setFld_tbl (s : State) (a hi lo v : Nat) : (s.setFld a hi lo v).tbl = s.tbl :=
  (State.setFld_keeps (Within.self _) (Keeps.refl s)).part .tbl rfl
@[simp] theorem State.setFld_que (s : State) (a hi lo v : Nat) : (s.setFld a hi lo v).que = s.que :=
  (State.setFld_keeps (Within.self _) (Keeps.refl s)).part .que rfl
@[simp] theorem State.setFld_tol (s : State) (a hi lo v : Nat) : (s.setFld a hi lo v).tol = s.tol :=
  (State.setFld_keeps (Within.self _) (Keeps.refl s)).part .tol rfl
@[simp] theorem State.setFld_key (s : State) (a hi lo v : Nat) : (s.setFld a hi lo v).key = s.key :=
  (State.setFld_keeps (Within.self _) (Keeps.refl s)).part .key rfl
@[simp] theorem State.setFld_cip (s : State) (a hi lo v : Nat) : (s.setFld a hi lo v).cip = s.cip :=
  (State.setFld_keeps (Within.self _) (Keeps.refl s)).part .cip rfl
@[simp] theorem State.setFld_par (s : State) (a hi lo v : Nat) : (s.setFld a hi lo v).par = s.par :=
  (State.setFld_keeps (Within.self _) (Keeps.refl s)).part .par rfl
@[simp] theorem State.setFld_cal (s : State) (a hi lo v : Nat) : (s.setFld a hi lo v).cal = s.cal :=
  (State.setFld_keeps (Within.self _) (Keeps.refl s)).part .cal rfl
@[simp] theorem State.setFld_rf (s : State) (a hi lo v : Nat) : (s.setFld a hi lo v).rf = s.rf :=
  (State.setFld_keeps (Within.self _) (Keeps.refl s)).part .rf rfl
@[simp] theorem State.setFld_red (s : State) (a hi lo v : Nat) : (s.setFld a hi lo v).red = s.red :=
  (State.setFld_keeps (Within.self _) (Keeps.refl s)).part .red rfl
@[simp] theorem State.setFld_chk (s : State) (a hi lo v : Nat) : (s.setFld a hi lo v).chk = s.chk :=
  (State.setFld_keeps (Within.self _) (Keeps.refl s)).part .chk rfl
@[simp] theorem State.setFld_boot (s : State) (a hi lo v : Nat) : (s.setFld a hi lo v).boot = s.boot :=
  (State.setFld_keeps (Within.self _) (Keeps.refl s)).part .boot rfl
@[simp] theorem State.setFld_upd (s : State) (a hi lo v : Nat) : (s.setFld a hi lo v).upd = s.upd :=
  (State.setFld_keeps (Within.self _) (Keeps.refl s)).part .upd rfl
@[simp] theorem State.setFld_flash (s : State) (a hi lo v : Nat) : (s.setFld a hi lo v).flash = s.flash :=
  (State.setFld_keeps (Within.self _) (Keeps.refl s)).part .flash rfl
@[simp] theorem State.setFld_ethA (s : State) (a hi lo v : Nat) : (s.setFld a hi lo v).ethA = s.ethA :=
  (State.setFld_keeps (Within.self _) (Keeps.refl s)).part .ethA rfl
@[simp] theorem State.setFld_ethB (s : State) (a hi lo v : Nat) : (s.setFld a hi lo v).ethB = s.ethB :=
  (State.setFld_keeps (Within.self _) (Keeps.refl s)).part .ethB rfl
@[simp] theorem State.setFld_regWrites (s : State) (a hi lo v : Nat) : (s.setFld a hi lo v).regWrites = s.regWrites :=
  (State.setFld_keeps (Within.self _) (Keeps.refl s)).part .regWrites rfl
@[simp] theorem State.setFld_ctxs (s : State) (a hi lo v : Nat) : (s.setFld a hi lo v).ctxs = s.ctxs :=
  (State.setFld_keeps (Within.self _) (Keeps.refl s)).part .ctxs rfl
@[simp] theorem State.setFld_mem (s : State) (a hi lo v : Nat) : (s.setFld a hi lo v).mem = s.mem :=
  (State.setFld_keeps (Within.self _) (Keeps.refl s)).part .mem rfl
@[simp] theorem State.setFld_outbox (s : State) (a hi lo v : Nat) : (s.setFld a hi lo v).outbox = s.outbox :=
  (State.setFld_keeps (Within.self _) (Keeps.refl s)).part .outbox rfl
@[simp] theorem State.setFld_free (s : State) (a hi lo v : Nat) : (s.setFld a hi lo v).free = s.free :=
  (State.setFld_keeps (Within.self _) (Keeps.refl s)).part .free rfl

@[simp] theorem State.bumpBy_sys (s : State) (a hi k : Nat) : (s.bumpBy a hi k).sys = s.sys :=
  (State.bumpBy_keeps (Within.self _) (Keeps.refl s)).part .sys rfl
@[simp] theorem State.bumpBy_time (s : State) (a hi k : Nat) : (s.bumpBy a hi k).time = s.time :=
  (State.bumpBy_keeps (Within.self _) (Keeps.refl s)).part .time rfl
@[simp] theorem State.bumpBy_truss (s : State) (a hi k : Nat) : (s.bumpBy a hi k).truss = s.truss :=
  (State.bumpBy_keeps (Within.self _) (Keeps.refl s)).part .truss rfl
@[simp] theorem State.bumpBy_evr (s : State) (a hi k : Nat) : (s.bumpBy a hi k).evr = s.evr :=
  (State.bumpBy_keeps (Within.self _) (Keeps.refl s)).part .evr rfl
@[simp] theorem State.bumpBy_hif (s : State) (a hi k : Nat) : (s.bumpBy a hi k).hif = s.hif :=
  (State.bumpBy_keeps (Within.self _) (Keeps.refl s)).part .hif rfl
@[simp] theorem State.bumpBy_spanc (s : State) (a hi k : Nat) : (s.bumpBy a hi k).spanc = s.spanc :=
  (State.bumpBy_keeps (Within.self _) (Keeps.refl s)).part .spanc rfl
@[simp] theorem State.bumpBy_sch (s : State) (a hi k : Nat) : (s.bumpBy a hi k).sch = s.sch :=
  (State.bumpBy_keeps (Within.self _) (Keeps.refl s)).part .sch rfl
@[simp] theorem State.bumpBy_tbl (s : State) (a hi k : Nat) : (s.bumpBy a hi k).tbl = s.tbl :=
  (State.bumpBy_keeps (Within.self _) (Keeps.refl s)).part .tbl rfl
@[simp] theorem State.bumpBy_que (s : State) (a hi k : Nat) : (s.bumpBy a hi k).que = s.que :=
  (State.bumpBy_keeps (Within.self _) (Keeps.refl s)).part .que rfl
@[simp] theorem State.bumpBy_tol (s : State) (a hi k : Nat) : (s.bumpBy a hi k).tol = s.tol :=
  (State.bumpBy_keeps (Within.self _) (Keeps.refl s)).part .tol rfl
@[simp] theorem State.bumpBy_key (s : State) (a hi k : Nat) : (s.bumpBy a hi k).key = s.key :=
  (State.bumpBy_keeps (Within.self _) (Keeps.refl s)).part .key rfl
@[simp] theorem State.bumpBy_cip (s : State) (a hi k : Nat) : (s.bumpBy a hi k).cip = s.cip :=
  (State.bumpBy_keeps (Within.self _) (Keeps.refl s)).part .cip rfl
@[simp] theorem State.bumpBy_par (s : State) (a hi k : Nat) : (s.bumpBy a hi k).par = s.par :=
  (State.bumpBy_keeps (Within.self _) (Keeps.refl s)).part .par rfl
@[simp] theorem State.bumpBy_cal (s : State) (a hi k : Nat) : (s.bumpBy a hi k).cal = s.cal :=
  (State.bumpBy_keeps (Within.self _) (Keeps.refl s)).part .cal rfl
@[simp] theorem State.bumpBy_rf (s : State) (a hi k : Nat) : (s.bumpBy a hi k).rf = s.rf :=
  (State.bumpBy_keeps (Within.self _) (Keeps.refl s)).part .rf rfl
@[simp] theorem State.bumpBy_red (s : State) (a hi k : Nat) : (s.bumpBy a hi k).red = s.red :=
  (State.bumpBy_keeps (Within.self _) (Keeps.refl s)).part .red rfl
@[simp] theorem State.bumpBy_chk (s : State) (a hi k : Nat) : (s.bumpBy a hi k).chk = s.chk :=
  (State.bumpBy_keeps (Within.self _) (Keeps.refl s)).part .chk rfl
@[simp] theorem State.bumpBy_boot (s : State) (a hi k : Nat) : (s.bumpBy a hi k).boot = s.boot :=
  (State.bumpBy_keeps (Within.self _) (Keeps.refl s)).part .boot rfl
@[simp] theorem State.bumpBy_upd (s : State) (a hi k : Nat) : (s.bumpBy a hi k).upd = s.upd :=
  (State.bumpBy_keeps (Within.self _) (Keeps.refl s)).part .upd rfl
@[simp] theorem State.bumpBy_flash (s : State) (a hi k : Nat) : (s.bumpBy a hi k).flash = s.flash :=
  (State.bumpBy_keeps (Within.self _) (Keeps.refl s)).part .flash rfl
@[simp] theorem State.bumpBy_ethA (s : State) (a hi k : Nat) : (s.bumpBy a hi k).ethA = s.ethA :=
  (State.bumpBy_keeps (Within.self _) (Keeps.refl s)).part .ethA rfl
@[simp] theorem State.bumpBy_ethB (s : State) (a hi k : Nat) : (s.bumpBy a hi k).ethB = s.ethB :=
  (State.bumpBy_keeps (Within.self _) (Keeps.refl s)).part .ethB rfl
@[simp] theorem State.bumpBy_regWrites (s : State) (a hi k : Nat) : (s.bumpBy a hi k).regWrites = s.regWrites :=
  (State.bumpBy_keeps (Within.self _) (Keeps.refl s)).part .regWrites rfl
@[simp] theorem State.bumpBy_ctxs (s : State) (a hi k : Nat) : (s.bumpBy a hi k).ctxs = s.ctxs :=
  (State.bumpBy_keeps (Within.self _) (Keeps.refl s)).part .ctxs rfl
@[simp] theorem State.bumpBy_mem (s : State) (a hi k : Nat) : (s.bumpBy a hi k).mem = s.mem :=
  (State.bumpBy_keeps (Within.self _) (Keeps.refl s)).part .mem rfl
@[simp] theorem State.bumpBy_outbox (s : State) (a hi k : Nat) : (s.bumpBy a hi k).outbox = s.outbox :=
  (State.bumpBy_keeps (Within.self _) (Keeps.refl s)).part .outbox rfl
@[simp] theorem State.bumpBy_free (s : State) (a hi k : Nat) : (s.bumpBy a hi k).free = s.free :=
  (State.bumpBy_keeps (Within.self _) (Keeps.refl s)).part .free rfl

@[simp] theorem State.bump_sys (s : State) (a : Nat) : (s.bump a).sys = s.sys :=
  (State.bump_keeps (Within.self _) (Keeps.refl s)).part .sys rfl
@[simp] theorem State.bump_time (s : State) (a : Nat) : (s.bump a).time = s.time :=
  (State.bump_keeps (Within.self _) (Keeps.refl s)).part .time rfl
@[simp] theorem State.bump_truss (s : State) (a : Nat) : (s.bump a).truss = s.truss :=
  (State.bump_keeps (Within.self _) (Keeps.refl s)).part .truss rfl
@[simp] theorem State.bump_evr (s : State) (a : Nat) : (s.bump a).evr = s.evr :=
  (State.bump_keeps (Within.self _) (Keeps.refl s)).part .evr rfl
@[simp] theorem State.bump_hif (s : State) (a : Nat) : (s.bump a).hif = s.hif :=
  (State.bump_keeps (Within.self _) (Keeps.refl s)).part .hif rfl
@[simp] theorem State.bump_spanc (s : State) (a : Nat) : (s.bump a).spanc = s.spanc :=
  (State.bump_keeps (Within.self _) (Keeps.refl s)).part .spanc rfl
@[simp] theorem State.bump_sch (s : State) (a : Nat) : (s.bump a).sch = s.sch :=
  (State.bump_keeps (Within.self _) (Keeps.refl s)).part .sch rfl
@[simp] theorem State.bump_tbl (s : State) (a : Nat) : (s.bump a).tbl = s.tbl :=
  (State.bump_keeps (Within.self _) (Keeps.refl s)).part .tbl rfl
@[simp] theorem State.bump_que (s : State) (a : Nat) : (s.bump a).que = s.que :=
  (State.bump_keeps (Within.self _) (Keeps.refl s)).part .que rfl
@[simp] theorem State.bump_tol (s : State) (a : Nat) : (s.bump a).tol = s.tol :=
  (State.bump_keeps (Within.self _) (Keeps.refl s)).part .tol rfl
@[simp] theorem State.bump_key (s : State) (a : Nat) : (s.bump a).key = s.key :=
  (State.bump_keeps (Within.self _) (Keeps.refl s)).part .key rfl
@[simp] theorem State.bump_cip (s : State) (a : Nat) : (s.bump a).cip = s.cip :=
  (State.bump_keeps (Within.self _) (Keeps.refl s)).part .cip rfl
@[simp] theorem State.bump_par (s : State) (a : Nat) : (s.bump a).par = s.par :=
  (State.bump_keeps (Within.self _) (Keeps.refl s)).part .par rfl
@[simp] theorem State.bump_cal (s : State) (a : Nat) : (s.bump a).cal = s.cal :=
  (State.bump_keeps (Within.self _) (Keeps.refl s)).part .cal rfl
@[simp] theorem State.bump_rf (s : State) (a : Nat) : (s.bump a).rf = s.rf :=
  (State.bump_keeps (Within.self _) (Keeps.refl s)).part .rf rfl
@[simp] theorem State.bump_red (s : State) (a : Nat) : (s.bump a).red = s.red :=
  (State.bump_keeps (Within.self _) (Keeps.refl s)).part .red rfl
@[simp] theorem State.bump_chk (s : State) (a : Nat) : (s.bump a).chk = s.chk :=
  (State.bump_keeps (Within.self _) (Keeps.refl s)).part .chk rfl
@[simp] theorem State.bump_boot (s : State) (a : Nat) : (s.bump a).boot = s.boot :=
  (State.bump_keeps (Within.self _) (Keeps.refl s)).part .boot rfl
@[simp] theorem State.bump_upd (s : State) (a : Nat) : (s.bump a).upd = s.upd :=
  (State.bump_keeps (Within.self _) (Keeps.refl s)).part .upd rfl
@[simp] theorem State.bump_flash (s : State) (a : Nat) : (s.bump a).flash = s.flash :=
  (State.bump_keeps (Within.self _) (Keeps.refl s)).part .flash rfl
@[simp] theorem State.bump_ethA (s : State) (a : Nat) : (s.bump a).ethA = s.ethA :=
  (State.bump_keeps (Within.self _) (Keeps.refl s)).part .ethA rfl
@[simp] theorem State.bump_ethB (s : State) (a : Nat) : (s.bump a).ethB = s.ethB :=
  (State.bump_keeps (Within.self _) (Keeps.refl s)).part .ethB rfl
@[simp] theorem State.bump_regWrites (s : State) (a : Nat) : (s.bump a).regWrites = s.regWrites :=
  (State.bump_keeps (Within.self _) (Keeps.refl s)).part .regWrites rfl
@[simp] theorem State.bump_ctxs (s : State) (a : Nat) : (s.bump a).ctxs = s.ctxs :=
  (State.bump_keeps (Within.self _) (Keeps.refl s)).part .ctxs rfl
@[simp] theorem State.bump_mem (s : State) (a : Nat) : (s.bump a).mem = s.mem :=
  (State.bump_keeps (Within.self _) (Keeps.refl s)).part .mem rfl
@[simp] theorem State.bump_outbox (s : State) (a : Nat) : (s.bump a).outbox = s.outbox :=
  (State.bump_keeps (Within.self _) (Keeps.refl s)).part .outbox rfl
@[simp] theorem State.bump_free (s : State) (a : Nat) : (s.bump a).free = s.free :=
  (State.bump_keeps (Within.self _) (Keeps.refl s)).part .free rfl

@[simp] theorem State.bump16_sys (s : State) (a : Nat) : (s.bump16 a).sys = s.sys :=
  (State.bump16_keeps (Within.self _) (Keeps.refl s)).part .sys rfl
@[simp] theorem State.bump16_time (s : State) (a : Nat) : (s.bump16 a).time = s.time :=
  (State.bump16_keeps (Within.self _) (Keeps.refl s)).part .time rfl
@[simp] theorem State.bump16_truss (s : State) (a : Nat) : (s.bump16 a).truss = s.truss :=
  (State.bump16_keeps (Within.self _) (Keeps.refl s)).part .truss rfl
@[simp] theorem State.bump16_evr (s : State) (a : Nat) : (s.bump16 a).evr = s.evr :=
  (State.bump16_keeps (Within.self _) (Keeps.refl s)).part .evr rfl
@[simp] theorem State.bump16_hif (s : State) (a : Nat) : (s.bump16 a).hif = s.hif :=
  (State.bump16_keeps (Within.self _) (Keeps.refl s)).part .hif rfl
@[simp] theorem State.bump16_spanc (s : State) (a : Nat) : (s.bump16 a).spanc = s.spanc :=
  (State.bump16_keeps (Within.self _) (Keeps.refl s)).part .spanc rfl
@[simp] theorem State.bump16_sch (s : State) (a : Nat) : (s.bump16 a).sch = s.sch :=
  (State.bump16_keeps (Within.self _) (Keeps.refl s)).part .sch rfl
@[simp] theorem State.bump16_tbl (s : State) (a : Nat) : (s.bump16 a).tbl = s.tbl :=
  (State.bump16_keeps (Within.self _) (Keeps.refl s)).part .tbl rfl
@[simp] theorem State.bump16_que (s : State) (a : Nat) : (s.bump16 a).que = s.que :=
  (State.bump16_keeps (Within.self _) (Keeps.refl s)).part .que rfl
@[simp] theorem State.bump16_tol (s : State) (a : Nat) : (s.bump16 a).tol = s.tol :=
  (State.bump16_keeps (Within.self _) (Keeps.refl s)).part .tol rfl
@[simp] theorem State.bump16_key (s : State) (a : Nat) : (s.bump16 a).key = s.key :=
  (State.bump16_keeps (Within.self _) (Keeps.refl s)).part .key rfl
@[simp] theorem State.bump16_cip (s : State) (a : Nat) : (s.bump16 a).cip = s.cip :=
  (State.bump16_keeps (Within.self _) (Keeps.refl s)).part .cip rfl
@[simp] theorem State.bump16_par (s : State) (a : Nat) : (s.bump16 a).par = s.par :=
  (State.bump16_keeps (Within.self _) (Keeps.refl s)).part .par rfl
@[simp] theorem State.bump16_cal (s : State) (a : Nat) : (s.bump16 a).cal = s.cal :=
  (State.bump16_keeps (Within.self _) (Keeps.refl s)).part .cal rfl
@[simp] theorem State.bump16_rf (s : State) (a : Nat) : (s.bump16 a).rf = s.rf :=
  (State.bump16_keeps (Within.self _) (Keeps.refl s)).part .rf rfl
@[simp] theorem State.bump16_red (s : State) (a : Nat) : (s.bump16 a).red = s.red :=
  (State.bump16_keeps (Within.self _) (Keeps.refl s)).part .red rfl
@[simp] theorem State.bump16_chk (s : State) (a : Nat) : (s.bump16 a).chk = s.chk :=
  (State.bump16_keeps (Within.self _) (Keeps.refl s)).part .chk rfl
@[simp] theorem State.bump16_boot (s : State) (a : Nat) : (s.bump16 a).boot = s.boot :=
  (State.bump16_keeps (Within.self _) (Keeps.refl s)).part .boot rfl
@[simp] theorem State.bump16_upd (s : State) (a : Nat) : (s.bump16 a).upd = s.upd :=
  (State.bump16_keeps (Within.self _) (Keeps.refl s)).part .upd rfl
@[simp] theorem State.bump16_flash (s : State) (a : Nat) : (s.bump16 a).flash = s.flash :=
  (State.bump16_keeps (Within.self _) (Keeps.refl s)).part .flash rfl
@[simp] theorem State.bump16_ethA (s : State) (a : Nat) : (s.bump16 a).ethA = s.ethA :=
  (State.bump16_keeps (Within.self _) (Keeps.refl s)).part .ethA rfl
@[simp] theorem State.bump16_ethB (s : State) (a : Nat) : (s.bump16 a).ethB = s.ethB :=
  (State.bump16_keeps (Within.self _) (Keeps.refl s)).part .ethB rfl
@[simp] theorem State.bump16_regWrites (s : State) (a : Nat) : (s.bump16 a).regWrites = s.regWrites :=
  (State.bump16_keeps (Within.self _) (Keeps.refl s)).part .regWrites rfl
@[simp] theorem State.bump16_ctxs (s : State) (a : Nat) : (s.bump16 a).ctxs = s.ctxs :=
  (State.bump16_keeps (Within.self _) (Keeps.refl s)).part .ctxs rfl
@[simp] theorem State.bump16_mem (s : State) (a : Nat) : (s.bump16 a).mem = s.mem :=
  (State.bump16_keeps (Within.self _) (Keeps.refl s)).part .mem rfl
@[simp] theorem State.bump16_outbox (s : State) (a : Nat) : (s.bump16 a).outbox = s.outbox :=
  (State.bump16_keeps (Within.self _) (Keeps.refl s)).part .outbox rfl
@[simp] theorem State.bump16_free (s : State) (a : Nat) : (s.bump16 a).free = s.free :=
  (State.bump16_keeps (Within.self _) (Keeps.refl s)).part .free rfl

@[simp] theorem State.raise_sys (s : State) (c : Nat) : (s.raise c).sys = s.sys :=
  (State.raise_keeps (Within.self _) (Keeps.refl s)).part .sys rfl
@[simp] theorem State.raise_time (s : State) (c : Nat) : (s.raise c).time = s.time :=
  (State.raise_keeps (Within.self _) (Keeps.refl s)).part .time rfl
@[simp] theorem State.raise_truss (s : State) (c : Nat) : (s.raise c).truss = s.truss :=
  (State.raise_keeps (Within.self _) (Keeps.refl s)).part .truss rfl
@[simp] theorem State.raise_evr (s : State) (c : Nat) : (s.raise c).evr = s.evr :=
  (State.raise_keeps (Within.self _) (Keeps.refl s)).part .evr rfl
@[simp] theorem State.raise_spanc (s : State) (c : Nat) : (s.raise c).spanc = s.spanc :=
  (State.raise_keeps (Within.self _) (Keeps.refl s)).part .spanc rfl
@[simp] theorem State.raise_sch (s : State) (c : Nat) : (s.raise c).sch = s.sch :=
  (State.raise_keeps (Within.self _) (Keeps.refl s)).part .sch rfl
@[simp] theorem State.raise_tbl (s : State) (c : Nat) : (s.raise c).tbl = s.tbl :=
  (State.raise_keeps (Within.self _) (Keeps.refl s)).part .tbl rfl
@[simp] theorem State.raise_que (s : State) (c : Nat) : (s.raise c).que = s.que :=
  (State.raise_keeps (Within.self _) (Keeps.refl s)).part .que rfl
@[simp] theorem State.raise_tol (s : State) (c : Nat) : (s.raise c).tol = s.tol :=
  (State.raise_keeps (Within.self _) (Keeps.refl s)).part .tol rfl
@[simp] theorem State.raise_key (s : State) (c : Nat) : (s.raise c).key = s.key :=
  (State.raise_keeps (Within.self _) (Keeps.refl s)).part .key rfl
@[simp] theorem State.raise_cip (s : State) (c : Nat) : (s.raise c).cip = s.cip :=
  (State.raise_keeps (Within.self _) (Keeps.refl s)).part .cip rfl
@[simp] theorem State.raise_par (s : State) (c : Nat) : (s.raise c).par = s.par :=
  (State.raise_keeps (Within.self _) (Keeps.refl s)).part .par rfl
@[simp] theorem State.raise_cal (s : State) (c : Nat) : (s.raise c).cal = s.cal :=
  (State.raise_keeps (Within.self _) (Keeps.refl s)).part .cal rfl
@[simp] theorem State.raise_rf (s : State) (c : Nat) : (s.raise c).rf = s.rf :=
  (State.raise_keeps (Within.self _) (Keeps.refl s)).part .rf rfl
@[simp] theorem State.raise_red (s : State) (c : Nat) : (s.raise c).red = s.red :=
  (State.raise_keeps (Within.self _) (Keeps.refl s)).part .red rfl
@[simp] theorem State.raise_chk (s : State) (c : Nat) : (s.raise c).chk = s.chk :=
  (State.raise_keeps (Within.self _) (Keeps.refl s)).part .chk rfl
@[simp] theorem State.raise_boot (s : State) (c : Nat) : (s.raise c).boot = s.boot :=
  (State.raise_keeps (Within.self _) (Keeps.refl s)).part .boot rfl
@[simp] theorem State.raise_upd (s : State) (c : Nat) : (s.raise c).upd = s.upd :=
  (State.raise_keeps (Within.self _) (Keeps.refl s)).part .upd rfl
@[simp] theorem State.raise_flash (s : State) (c : Nat) : (s.raise c).flash = s.flash :=
  (State.raise_keeps (Within.self _) (Keeps.refl s)).part .flash rfl
@[simp] theorem State.raise_ethA (s : State) (c : Nat) : (s.raise c).ethA = s.ethA :=
  (State.raise_keeps (Within.self _) (Keeps.refl s)).part .ethA rfl
@[simp] theorem State.raise_ethB (s : State) (c : Nat) : (s.raise c).ethB = s.ethB :=
  (State.raise_keeps (Within.self _) (Keeps.refl s)).part .ethB rfl
@[simp] theorem State.raise_regWrites (s : State) (c : Nat) : (s.raise c).regWrites = s.regWrites :=
  (State.raise_keeps (Within.self _) (Keeps.refl s)).part .regWrites rfl
@[simp] theorem State.raise_ctxs (s : State) (c : Nat) : (s.raise c).ctxs = s.ctxs :=
  (State.raise_keeps (Within.self _) (Keeps.refl s)).part .ctxs rfl
@[simp] theorem State.raise_mem (s : State) (c : Nat) : (s.raise c).mem = s.mem :=
  (State.raise_keeps (Within.self _) (Keeps.refl s)).part .mem rfl
@[simp] theorem State.raise_free (s : State) (c : Nat) : (s.raise c).free = s.free :=
  (State.raise_keeps (Within.self _) (Keeps.refl s)).part .free rfl

@[simp] theorem post_sys (s : State) (v : Sev) (src : Nat) (st : Option Status) (ev : Nat) (pl : List Word) : (post s v src st ev pl).sys = s.sys :=
  (post_keeps (Within.self _) (Keeps.refl s)).part .sys rfl
@[simp] theorem post_time (s : State) (v : Sev) (src : Nat) (st : Option Status) (ev : Nat) (pl : List Word) : (post s v src st ev pl).time = s.time :=
  (post_keeps (Within.self _) (Keeps.refl s)).part .time rfl
@[simp] theorem post_truss (s : State) (v : Sev) (src : Nat) (st : Option Status) (ev : Nat) (pl : List Word) : (post s v src st ev pl).truss = s.truss :=
  (post_keeps (Within.self _) (Keeps.refl s)).part .truss rfl
@[simp] theorem post_spanc (s : State) (v : Sev) (src : Nat) (st : Option Status) (ev : Nat) (pl : List Word) : (post s v src st ev pl).spanc = s.spanc :=
  (post_keeps (Within.self _) (Keeps.refl s)).part .spanc rfl
@[simp] theorem post_sch (s : State) (v : Sev) (src : Nat) (st : Option Status) (ev : Nat) (pl : List Word) : (post s v src st ev pl).sch = s.sch :=
  (post_keeps (Within.self _) (Keeps.refl s)).part .sch rfl
@[simp] theorem post_tbl (s : State) (v : Sev) (src : Nat) (st : Option Status) (ev : Nat) (pl : List Word) : (post s v src st ev pl).tbl = s.tbl :=
  (post_keeps (Within.self _) (Keeps.refl s)).part .tbl rfl
@[simp] theorem post_tol (s : State) (v : Sev) (src : Nat) (st : Option Status) (ev : Nat) (pl : List Word) : (post s v src st ev pl).tol = s.tol :=
  (post_keeps (Within.self _) (Keeps.refl s)).part .tol rfl
@[simp] theorem post_key (s : State) (v : Sev) (src : Nat) (st : Option Status) (ev : Nat) (pl : List Word) : (post s v src st ev pl).key = s.key :=
  (post_keeps (Within.self _) (Keeps.refl s)).part .key rfl
@[simp] theorem post_cip (s : State) (v : Sev) (src : Nat) (st : Option Status) (ev : Nat) (pl : List Word) : (post s v src st ev pl).cip = s.cip :=
  (post_keeps (Within.self _) (Keeps.refl s)).part .cip rfl
@[simp] theorem post_par (s : State) (v : Sev) (src : Nat) (st : Option Status) (ev : Nat) (pl : List Word) : (post s v src st ev pl).par = s.par :=
  (post_keeps (Within.self _) (Keeps.refl s)).part .par rfl
@[simp] theorem post_cal (s : State) (v : Sev) (src : Nat) (st : Option Status) (ev : Nat) (pl : List Word) : (post s v src st ev pl).cal = s.cal :=
  (post_keeps (Within.self _) (Keeps.refl s)).part .cal rfl
@[simp] theorem post_rf (s : State) (v : Sev) (src : Nat) (st : Option Status) (ev : Nat) (pl : List Word) : (post s v src st ev pl).rf = s.rf :=
  (post_keeps (Within.self _) (Keeps.refl s)).part .rf rfl
@[simp] theorem post_red (s : State) (v : Sev) (src : Nat) (st : Option Status) (ev : Nat) (pl : List Word) : (post s v src st ev pl).red = s.red :=
  (post_keeps (Within.self _) (Keeps.refl s)).part .red rfl
@[simp] theorem post_chk (s : State) (v : Sev) (src : Nat) (st : Option Status) (ev : Nat) (pl : List Word) : (post s v src st ev pl).chk = s.chk :=
  (post_keeps (Within.self _) (Keeps.refl s)).part .chk rfl
@[simp] theorem post_boot (s : State) (v : Sev) (src : Nat) (st : Option Status) (ev : Nat) (pl : List Word) : (post s v src st ev pl).boot = s.boot :=
  (post_keeps (Within.self _) (Keeps.refl s)).part .boot rfl
@[simp] theorem post_upd (s : State) (v : Sev) (src : Nat) (st : Option Status) (ev : Nat) (pl : List Word) : (post s v src st ev pl).upd = s.upd :=
  (post_keeps (Within.self _) (Keeps.refl s)).part .upd rfl
@[simp] theorem post_flash (s : State) (v : Sev) (src : Nat) (st : Option Status) (ev : Nat) (pl : List Word) : (post s v src st ev pl).flash = s.flash :=
  (post_keeps (Within.self _) (Keeps.refl s)).part .flash rfl
@[simp] theorem post_ethA (s : State) (v : Sev) (src : Nat) (st : Option Status) (ev : Nat) (pl : List Word) : (post s v src st ev pl).ethA = s.ethA :=
  (post_keeps (Within.self _) (Keeps.refl s)).part .ethA rfl
@[simp] theorem post_ethB (s : State) (v : Sev) (src : Nat) (st : Option Status) (ev : Nat) (pl : List Word) : (post s v src st ev pl).ethB = s.ethB :=
  (post_keeps (Within.self _) (Keeps.refl s)).part .ethB rfl
@[simp] theorem post_regWrites (s : State) (v : Sev) (src : Nat) (st : Option Status) (ev : Nat) (pl : List Word) : (post s v src st ev pl).regWrites = s.regWrites :=
  (post_keeps (Within.self _) (Keeps.refl s)).part .regWrites rfl
@[simp] theorem post_ctxs (s : State) (v : Sev) (src : Nat) (st : Option Status) (ev : Nat) (pl : List Word) : (post s v src st ev pl).ctxs = s.ctxs :=
  (post_keeps (Within.self _) (Keeps.refl s)).part .ctxs rfl
@[simp] theorem post_mem (s : State) (v : Sev) (src : Nat) (st : Option Status) (ev : Nat) (pl : List Word) : (post s v src st ev pl).mem = s.mem :=
  (post_keeps (Within.self _) (Keeps.refl s)).part .mem rfl

@[simp] theorem State.notice_sys (s : State) (b : Nat) : (s.notice b).sys = s.sys :=
  (State.notice_keeps (Within.self _) (Keeps.refl s)).part .sys rfl
@[simp] theorem State.notice_time (s : State) (b : Nat) : (s.notice b).time = s.time :=
  (State.notice_keeps (Within.self _) (Keeps.refl s)).part .time rfl
@[simp] theorem State.notice_truss (s : State) (b : Nat) : (s.notice b).truss = s.truss :=
  (State.notice_keeps (Within.self _) (Keeps.refl s)).part .truss rfl
@[simp] theorem State.notice_spanc (s : State) (b : Nat) : (s.notice b).spanc = s.spanc :=
  (State.notice_keeps (Within.self _) (Keeps.refl s)).part .spanc rfl
@[simp] theorem State.notice_sch (s : State) (b : Nat) : (s.notice b).sch = s.sch :=
  (State.notice_keeps (Within.self _) (Keeps.refl s)).part .sch rfl
@[simp] theorem State.notice_tbl (s : State) (b : Nat) : (s.notice b).tbl = s.tbl :=
  (State.notice_keeps (Within.self _) (Keeps.refl s)).part .tbl rfl
@[simp] theorem State.notice_tol (s : State) (b : Nat) : (s.notice b).tol = s.tol :=
  (State.notice_keeps (Within.self _) (Keeps.refl s)).part .tol rfl
@[simp] theorem State.notice_key (s : State) (b : Nat) : (s.notice b).key = s.key :=
  (State.notice_keeps (Within.self _) (Keeps.refl s)).part .key rfl
@[simp] theorem State.notice_cip (s : State) (b : Nat) : (s.notice b).cip = s.cip :=
  (State.notice_keeps (Within.self _) (Keeps.refl s)).part .cip rfl
@[simp] theorem State.notice_par (s : State) (b : Nat) : (s.notice b).par = s.par :=
  (State.notice_keeps (Within.self _) (Keeps.refl s)).part .par rfl
@[simp] theorem State.notice_cal (s : State) (b : Nat) : (s.notice b).cal = s.cal :=
  (State.notice_keeps (Within.self _) (Keeps.refl s)).part .cal rfl
@[simp] theorem State.notice_rf (s : State) (b : Nat) : (s.notice b).rf = s.rf :=
  (State.notice_keeps (Within.self _) (Keeps.refl s)).part .rf rfl
@[simp] theorem State.notice_red (s : State) (b : Nat) : (s.notice b).red = s.red :=
  (State.notice_keeps (Within.self _) (Keeps.refl s)).part .red rfl
@[simp] theorem State.notice_chk (s : State) (b : Nat) : (s.notice b).chk = s.chk :=
  (State.notice_keeps (Within.self _) (Keeps.refl s)).part .chk rfl
@[simp] theorem State.notice_boot (s : State) (b : Nat) : (s.notice b).boot = s.boot :=
  (State.notice_keeps (Within.self _) (Keeps.refl s)).part .boot rfl
@[simp] theorem State.notice_upd (s : State) (b : Nat) : (s.notice b).upd = s.upd :=
  (State.notice_keeps (Within.self _) (Keeps.refl s)).part .upd rfl
@[simp] theorem State.notice_flash (s : State) (b : Nat) : (s.notice b).flash = s.flash :=
  (State.notice_keeps (Within.self _) (Keeps.refl s)).part .flash rfl
@[simp] theorem State.notice_ethA (s : State) (b : Nat) : (s.notice b).ethA = s.ethA :=
  (State.notice_keeps (Within.self _) (Keeps.refl s)).part .ethA rfl
@[simp] theorem State.notice_ethB (s : State) (b : Nat) : (s.notice b).ethB = s.ethB :=
  (State.notice_keeps (Within.self _) (Keeps.refl s)).part .ethB rfl
@[simp] theorem State.notice_regWrites (s : State) (b : Nat) : (s.notice b).regWrites = s.regWrites :=
  (State.notice_keeps (Within.self _) (Keeps.refl s)).part .regWrites rfl
@[simp] theorem State.notice_ctxs (s : State) (b : Nat) : (s.notice b).ctxs = s.ctxs :=
  (State.notice_keeps (Within.self _) (Keeps.refl s)).part .ctxs rfl
@[simp] theorem State.notice_mem (s : State) (b : Nat) : (s.notice b).mem = s.mem :=
  (State.notice_keeps (Within.self _) (Keeps.refl s)).part .mem rfl

@[simp] theorem State.complete_sys (s : State) (d : Desc) (st : Status) (b4 b8 b12 : Word) : (s.complete d st b4 b8 b12).sys = s.sys :=
  (State.complete_keeps (Within.self _) (Keeps.refl s)).part .sys rfl
@[simp] theorem State.complete_time (s : State) (d : Desc) (st : Status) (b4 b8 b12 : Word) : (s.complete d st b4 b8 b12).time = s.time :=
  (State.complete_keeps (Within.self _) (Keeps.refl s)).part .time rfl
@[simp] theorem State.complete_truss (s : State) (d : Desc) (st : Status) (b4 b8 b12 : Word) : (s.complete d st b4 b8 b12).truss = s.truss :=
  (State.complete_keeps (Within.self _) (Keeps.refl s)).part .truss rfl
@[simp] theorem State.complete_evr (s : State) (d : Desc) (st : Status) (b4 b8 b12 : Word) : (s.complete d st b4 b8 b12).evr = s.evr :=
  (State.complete_keeps (Within.self _) (Keeps.refl s)).part .evr rfl
@[simp] theorem State.complete_spanc (s : State) (d : Desc) (st : Status) (b4 b8 b12 : Word) : (s.complete d st b4 b8 b12).spanc = s.spanc :=
  (State.complete_keeps (Within.self _) (Keeps.refl s)).part .spanc rfl
@[simp] theorem State.complete_sch (s : State) (d : Desc) (st : Status) (b4 b8 b12 : Word) : (s.complete d st b4 b8 b12).sch = s.sch :=
  (State.complete_keeps (Within.self _) (Keeps.refl s)).part .sch rfl
@[simp] theorem State.complete_tbl (s : State) (d : Desc) (st : Status) (b4 b8 b12 : Word) : (s.complete d st b4 b8 b12).tbl = s.tbl :=
  (State.complete_keeps (Within.self _) (Keeps.refl s)).part .tbl rfl
@[simp] theorem State.complete_que (s : State) (d : Desc) (st : Status) (b4 b8 b12 : Word) : (s.complete d st b4 b8 b12).que = s.que :=
  (State.complete_keeps (Within.self _) (Keeps.refl s)).part .que rfl
@[simp] theorem State.complete_tol (s : State) (d : Desc) (st : Status) (b4 b8 b12 : Word) : (s.complete d st b4 b8 b12).tol = s.tol :=
  (State.complete_keeps (Within.self _) (Keeps.refl s)).part .tol rfl
@[simp] theorem State.complete_key (s : State) (d : Desc) (st : Status) (b4 b8 b12 : Word) : (s.complete d st b4 b8 b12).key = s.key :=
  (State.complete_keeps (Within.self _) (Keeps.refl s)).part .key rfl
@[simp] theorem State.complete_cip (s : State) (d : Desc) (st : Status) (b4 b8 b12 : Word) : (s.complete d st b4 b8 b12).cip = s.cip :=
  (State.complete_keeps (Within.self _) (Keeps.refl s)).part .cip rfl
@[simp] theorem State.complete_par (s : State) (d : Desc) (st : Status) (b4 b8 b12 : Word) : (s.complete d st b4 b8 b12).par = s.par :=
  (State.complete_keeps (Within.self _) (Keeps.refl s)).part .par rfl
@[simp] theorem State.complete_cal (s : State) (d : Desc) (st : Status) (b4 b8 b12 : Word) : (s.complete d st b4 b8 b12).cal = s.cal :=
  (State.complete_keeps (Within.self _) (Keeps.refl s)).part .cal rfl
@[simp] theorem State.complete_rf (s : State) (d : Desc) (st : Status) (b4 b8 b12 : Word) : (s.complete d st b4 b8 b12).rf = s.rf :=
  (State.complete_keeps (Within.self _) (Keeps.refl s)).part .rf rfl
@[simp] theorem State.complete_red (s : State) (d : Desc) (st : Status) (b4 b8 b12 : Word) : (s.complete d st b4 b8 b12).red = s.red :=
  (State.complete_keeps (Within.self _) (Keeps.refl s)).part .red rfl
@[simp] theorem State.complete_chk (s : State) (d : Desc) (st : Status) (b4 b8 b12 : Word) : (s.complete d st b4 b8 b12).chk = s.chk :=
  (State.complete_keeps (Within.self _) (Keeps.refl s)).part .chk rfl
@[simp] theorem State.complete_boot (s : State) (d : Desc) (st : Status) (b4 b8 b12 : Word) : (s.complete d st b4 b8 b12).boot = s.boot :=
  (State.complete_keeps (Within.self _) (Keeps.refl s)).part .boot rfl
@[simp] theorem State.complete_upd (s : State) (d : Desc) (st : Status) (b4 b8 b12 : Word) : (s.complete d st b4 b8 b12).upd = s.upd :=
  (State.complete_keeps (Within.self _) (Keeps.refl s)).part .upd rfl
@[simp] theorem State.complete_flash (s : State) (d : Desc) (st : Status) (b4 b8 b12 : Word) : (s.complete d st b4 b8 b12).flash = s.flash :=
  (State.complete_keeps (Within.self _) (Keeps.refl s)).part .flash rfl
@[simp] theorem State.complete_ethA (s : State) (d : Desc) (st : Status) (b4 b8 b12 : Word) : (s.complete d st b4 b8 b12).ethA = s.ethA :=
  (State.complete_keeps (Within.self _) (Keeps.refl s)).part .ethA rfl
@[simp] theorem State.complete_ethB (s : State) (d : Desc) (st : Status) (b4 b8 b12 : Word) : (s.complete d st b4 b8 b12).ethB = s.ethB :=
  (State.complete_keeps (Within.self _) (Keeps.refl s)).part .ethB rfl
@[simp] theorem State.complete_regs (s : State) (d : Desc) (st : Status) (b4 b8 b12 : Word) : (s.complete d st b4 b8 b12).regs = s.regs :=
  (State.complete_keeps (Within.self _) (Keeps.refl s)).part .regs rfl
@[simp] theorem State.complete_regWrites (s : State) (d : Desc) (st : Status) (b4 b8 b12 : Word) : (s.complete d st b4 b8 b12).regWrites = s.regWrites :=
  (State.complete_keeps (Within.self _) (Keeps.refl s)).part .regWrites rfl
@[simp] theorem State.complete_ctxs (s : State) (d : Desc) (st : Status) (b4 b8 b12 : Word) : (s.complete d st b4 b8 b12).ctxs = s.ctxs :=
  (State.complete_keeps (Within.self _) (Keeps.refl s)).part .ctxs rfl
@[simp] theorem State.complete_mem (s : State) (d : Desc) (st : Status) (b4 b8 b12 : Word) : (s.complete d st b4 b8 b12).mem = s.mem :=
  (State.complete_keeps (Within.self _) (Keeps.refl s)).part .mem rfl
@[simp] theorem State.complete_outbox (s : State) (d : Desc) (st : Status) (b4 b8 b12 : Word) : (s.complete d st b4 b8 b12).outbox = s.outbox :=
  (State.complete_keeps (Within.self _) (Keeps.refl s)).part .outbox rfl
@[simp] theorem State.complete_free (s : State) (d : Desc) (st : Status) (b4 b8 b12 : Word) : (s.complete d st b4 b8 b12).free = s.free :=
  (State.complete_keeps (Within.self _) (Keeps.refl s)).part .free rfl

@[simp] theorem State.rejectState_sys (s : State) (d : Desc) : (s.rejectState d).sys = s.sys :=
  (State.rejectState_keeps (Within.self _) (Keeps.refl s)).part .sys rfl
@[simp] theorem State.rejectState_time (s : State) (d : Desc) : (s.rejectState d).time = s.time :=
  (State.rejectState_keeps (Within.self _) (Keeps.refl s)).part .time rfl
@[simp] theorem State.rejectState_truss (s : State) (d : Desc) : (s.rejectState d).truss = s.truss :=
  (State.rejectState_keeps (Within.self _) (Keeps.refl s)).part .truss rfl
@[simp] theorem State.rejectState_spanc (s : State) (d : Desc) : (s.rejectState d).spanc = s.spanc :=
  (State.rejectState_keeps (Within.self _) (Keeps.refl s)).part .spanc rfl
@[simp] theorem State.rejectState_sch (s : State) (d : Desc) : (s.rejectState d).sch = s.sch :=
  (State.rejectState_keeps (Within.self _) (Keeps.refl s)).part .sch rfl
@[simp] theorem State.rejectState_tbl (s : State) (d : Desc) : (s.rejectState d).tbl = s.tbl :=
  (State.rejectState_keeps (Within.self _) (Keeps.refl s)).part .tbl rfl
@[simp] theorem State.rejectState_tol (s : State) (d : Desc) : (s.rejectState d).tol = s.tol :=
  (State.rejectState_keeps (Within.self _) (Keeps.refl s)).part .tol rfl
@[simp] theorem State.rejectState_key (s : State) (d : Desc) : (s.rejectState d).key = s.key :=
  (State.rejectState_keeps (Within.self _) (Keeps.refl s)).part .key rfl
@[simp] theorem State.rejectState_cip (s : State) (d : Desc) : (s.rejectState d).cip = s.cip :=
  (State.rejectState_keeps (Within.self _) (Keeps.refl s)).part .cip rfl
@[simp] theorem State.rejectState_par (s : State) (d : Desc) : (s.rejectState d).par = s.par :=
  (State.rejectState_keeps (Within.self _) (Keeps.refl s)).part .par rfl
@[simp] theorem State.rejectState_cal (s : State) (d : Desc) : (s.rejectState d).cal = s.cal :=
  (State.rejectState_keeps (Within.self _) (Keeps.refl s)).part .cal rfl
@[simp] theorem State.rejectState_rf (s : State) (d : Desc) : (s.rejectState d).rf = s.rf :=
  (State.rejectState_keeps (Within.self _) (Keeps.refl s)).part .rf rfl
@[simp] theorem State.rejectState_red (s : State) (d : Desc) : (s.rejectState d).red = s.red :=
  (State.rejectState_keeps (Within.self _) (Keeps.refl s)).part .red rfl
@[simp] theorem State.rejectState_chk (s : State) (d : Desc) : (s.rejectState d).chk = s.chk :=
  (State.rejectState_keeps (Within.self _) (Keeps.refl s)).part .chk rfl
@[simp] theorem State.rejectState_boot (s : State) (d : Desc) : (s.rejectState d).boot = s.boot :=
  (State.rejectState_keeps (Within.self _) (Keeps.refl s)).part .boot rfl
@[simp] theorem State.rejectState_upd (s : State) (d : Desc) : (s.rejectState d).upd = s.upd :=
  (State.rejectState_keeps (Within.self _) (Keeps.refl s)).part .upd rfl
@[simp] theorem State.rejectState_flash (s : State) (d : Desc) : (s.rejectState d).flash = s.flash :=
  (State.rejectState_keeps (Within.self _) (Keeps.refl s)).part .flash rfl
@[simp] theorem State.rejectState_ethA (s : State) (d : Desc) : (s.rejectState d).ethA = s.ethA :=
  (State.rejectState_keeps (Within.self _) (Keeps.refl s)).part .ethA rfl
@[simp] theorem State.rejectState_ethB (s : State) (d : Desc) : (s.rejectState d).ethB = s.ethB :=
  (State.rejectState_keeps (Within.self _) (Keeps.refl s)).part .ethB rfl
@[simp] theorem State.rejectState_regWrites (s : State) (d : Desc) : (s.rejectState d).regWrites = s.regWrites :=
  (State.rejectState_keeps (Within.self _) (Keeps.refl s)).part .regWrites rfl
@[simp] theorem State.rejectState_ctxs (s : State) (d : Desc) : (s.rejectState d).ctxs = s.ctxs :=
  (State.rejectState_keeps (Within.self _) (Keeps.refl s)).part .ctxs rfl
@[simp] theorem State.rejectState_mem (s : State) (d : Desc) : (s.rejectState d).mem = s.mem :=
  (State.rejectState_keeps (Within.self _) (Keeps.refl s)).part .mem rfl

@[simp] theorem State.enter_time (s : State) (x : SysState) : (s.enter x).time = s.time :=
  (State.enter_keeps (Within.self _) (Keeps.refl s)).part .time rfl
@[simp] theorem State.enter_truss (s : State) (x : SysState) : (s.enter x).truss = s.truss :=
  (State.enter_keeps (Within.self _) (Keeps.refl s)).part .truss rfl
@[simp] theorem State.enter_evr (s : State) (x : SysState) : (s.enter x).evr = s.evr :=
  (State.enter_keeps (Within.self _) (Keeps.refl s)).part .evr rfl
@[simp] theorem State.enter_spanc (s : State) (x : SysState) : (s.enter x).spanc = s.spanc :=
  (State.enter_keeps (Within.self _) (Keeps.refl s)).part .spanc rfl
@[simp] theorem State.enter_sch (s : State) (x : SysState) : (s.enter x).sch = s.sch :=
  (State.enter_keeps (Within.self _) (Keeps.refl s)).part .sch rfl
@[simp] theorem State.enter_tbl (s : State) (x : SysState) : (s.enter x).tbl = s.tbl :=
  (State.enter_keeps (Within.self _) (Keeps.refl s)).part .tbl rfl
@[simp] theorem State.enter_que (s : State) (x : SysState) : (s.enter x).que = s.que :=
  (State.enter_keeps (Within.self _) (Keeps.refl s)).part .que rfl
@[simp] theorem State.enter_tol (s : State) (x : SysState) : (s.enter x).tol = s.tol :=
  (State.enter_keeps (Within.self _) (Keeps.refl s)).part .tol rfl
@[simp] theorem State.enter_key (s : State) (x : SysState) : (s.enter x).key = s.key :=
  (State.enter_keeps (Within.self _) (Keeps.refl s)).part .key rfl
@[simp] theorem State.enter_cip (s : State) (x : SysState) : (s.enter x).cip = s.cip :=
  (State.enter_keeps (Within.self _) (Keeps.refl s)).part .cip rfl
@[simp] theorem State.enter_par (s : State) (x : SysState) : (s.enter x).par = s.par :=
  (State.enter_keeps (Within.self _) (Keeps.refl s)).part .par rfl
@[simp] theorem State.enter_cal (s : State) (x : SysState) : (s.enter x).cal = s.cal :=
  (State.enter_keeps (Within.self _) (Keeps.refl s)).part .cal rfl
@[simp] theorem State.enter_rf (s : State) (x : SysState) : (s.enter x).rf = s.rf :=
  (State.enter_keeps (Within.self _) (Keeps.refl s)).part .rf rfl
@[simp] theorem State.enter_red (s : State) (x : SysState) : (s.enter x).red = s.red :=
  (State.enter_keeps (Within.self _) (Keeps.refl s)).part .red rfl
@[simp] theorem State.enter_chk (s : State) (x : SysState) : (s.enter x).chk = s.chk :=
  (State.enter_keeps (Within.self _) (Keeps.refl s)).part .chk rfl
@[simp] theorem State.enter_boot (s : State) (x : SysState) : (s.enter x).boot = s.boot :=
  (State.enter_keeps (Within.self _) (Keeps.refl s)).part .boot rfl
@[simp] theorem State.enter_upd (s : State) (x : SysState) : (s.enter x).upd = s.upd :=
  (State.enter_keeps (Within.self _) (Keeps.refl s)).part .upd rfl
@[simp] theorem State.enter_flash (s : State) (x : SysState) : (s.enter x).flash = s.flash :=
  (State.enter_keeps (Within.self _) (Keeps.refl s)).part .flash rfl
@[simp] theorem State.enter_ethA (s : State) (x : SysState) : (s.enter x).ethA = s.ethA :=
  (State.enter_keeps (Within.self _) (Keeps.refl s)).part .ethA rfl
@[simp] theorem State.enter_ethB (s : State) (x : SysState) : (s.enter x).ethB = s.ethB :=
  (State.enter_keeps (Within.self _) (Keeps.refl s)).part .ethB rfl
@[simp] theorem State.enter_regWrites (s : State) (x : SysState) : (s.enter x).regWrites = s.regWrites :=
  (State.enter_keeps (Within.self _) (Keeps.refl s)).part .regWrites rfl
@[simp] theorem State.enter_ctxs (s : State) (x : SysState) : (s.enter x).ctxs = s.ctxs :=
  (State.enter_keeps (Within.self _) (Keeps.refl s)).part .ctxs rfl
@[simp] theorem State.enter_mem (s : State) (x : SysState) : (s.enter x).mem = s.mem :=
  (State.enter_keeps (Within.self _) (Keeps.refl s)).part .mem rfl
@[simp] theorem State.enter_free (s : State) (x : SysState) : (s.enter x).free = s.free :=
  (State.enter_keeps (Within.self _) (Keeps.refl s)).part .free rfl

@[simp] theorem State.at__sys (s : State) (t : U64) : (s.at_ t).sys = s.sys :=
  (State.at__keeps (Within.self _) (Keeps.refl s)).part .sys rfl
@[simp] theorem State.at__truss (s : State) (t : U64) : (s.at_ t).truss = s.truss :=
  (State.at__keeps (Within.self _) (Keeps.refl s)).part .truss rfl
@[simp] theorem State.at__evr (s : State) (t : U64) : (s.at_ t).evr = s.evr :=
  (State.at__keeps (Within.self _) (Keeps.refl s)).part .evr rfl
@[simp] theorem State.at__hif (s : State) (t : U64) : (s.at_ t).hif = s.hif :=
  (State.at__keeps (Within.self _) (Keeps.refl s)).part .hif rfl
@[simp] theorem State.at__spanc (s : State) (t : U64) : (s.at_ t).spanc = s.spanc :=
  (State.at__keeps (Within.self _) (Keeps.refl s)).part .spanc rfl
@[simp] theorem State.at__sch (s : State) (t : U64) : (s.at_ t).sch = s.sch :=
  (State.at__keeps (Within.self _) (Keeps.refl s)).part .sch rfl
@[simp] theorem State.at__tbl (s : State) (t : U64) : (s.at_ t).tbl = s.tbl :=
  (State.at__keeps (Within.self _) (Keeps.refl s)).part .tbl rfl
@[simp] theorem State.at__que (s : State) (t : U64) : (s.at_ t).que = s.que :=
  (State.at__keeps (Within.self _) (Keeps.refl s)).part .que rfl
@[simp] theorem State.at__tol (s : State) (t : U64) : (s.at_ t).tol = s.tol :=
  (State.at__keeps (Within.self _) (Keeps.refl s)).part .tol rfl
@[simp] theorem State.at__key (s : State) (t : U64) : (s.at_ t).key = s.key :=
  (State.at__keeps (Within.self _) (Keeps.refl s)).part .key rfl
@[simp] theorem State.at__cip (s : State) (t : U64) : (s.at_ t).cip = s.cip :=
  (State.at__keeps (Within.self _) (Keeps.refl s)).part .cip rfl
@[simp] theorem State.at__par (s : State) (t : U64) : (s.at_ t).par = s.par :=
  (State.at__keeps (Within.self _) (Keeps.refl s)).part .par rfl
@[simp] theorem State.at__cal (s : State) (t : U64) : (s.at_ t).cal = s.cal :=
  (State.at__keeps (Within.self _) (Keeps.refl s)).part .cal rfl
@[simp] theorem State.at__rf (s : State) (t : U64) : (s.at_ t).rf = s.rf :=
  (State.at__keeps (Within.self _) (Keeps.refl s)).part .rf rfl
@[simp] theorem State.at__red (s : State) (t : U64) : (s.at_ t).red = s.red :=
  (State.at__keeps (Within.self _) (Keeps.refl s)).part .red rfl
@[simp] theorem State.at__chk (s : State) (t : U64) : (s.at_ t).chk = s.chk :=
  (State.at__keeps (Within.self _) (Keeps.refl s)).part .chk rfl
@[simp] theorem State.at__boot (s : State) (t : U64) : (s.at_ t).boot = s.boot :=
  (State.at__keeps (Within.self _) (Keeps.refl s)).part .boot rfl
@[simp] theorem State.at__upd (s : State) (t : U64) : (s.at_ t).upd = s.upd :=
  (State.at__keeps (Within.self _) (Keeps.refl s)).part .upd rfl
@[simp] theorem State.at__flash (s : State) (t : U64) : (s.at_ t).flash = s.flash :=
  (State.at__keeps (Within.self _) (Keeps.refl s)).part .flash rfl
@[simp] theorem State.at__ethA (s : State) (t : U64) : (s.at_ t).ethA = s.ethA :=
  (State.at__keeps (Within.self _) (Keeps.refl s)).part .ethA rfl
@[simp] theorem State.at__ethB (s : State) (t : U64) : (s.at_ t).ethB = s.ethB :=
  (State.at__keeps (Within.self _) (Keeps.refl s)).part .ethB rfl
@[simp] theorem State.at__regs (s : State) (t : U64) : (s.at_ t).regs = s.regs :=
  (State.at__keeps (Within.self _) (Keeps.refl s)).part .regs rfl
@[simp] theorem State.at__regWrites (s : State) (t : U64) : (s.at_ t).regWrites = s.regWrites :=
  (State.at__keeps (Within.self _) (Keeps.refl s)).part .regWrites rfl
@[simp] theorem State.at__ctxs (s : State) (t : U64) : (s.at_ t).ctxs = s.ctxs :=
  (State.at__keeps (Within.self _) (Keeps.refl s)).part .ctxs rfl
@[simp] theorem State.at__mem (s : State) (t : U64) : (s.at_ t).mem = s.mem :=
  (State.at__keeps (Within.self _) (Keeps.refl s)).part .mem rfl
@[simp] theorem State.at__outbox (s : State) (t : U64) : (s.at_ t).outbox = s.outbox :=
  (State.at__keeps (Within.self _) (Keeps.refl s)).part .outbox rfl
@[simp] theorem State.at__free (s : State) (t : U64) : (s.at_ t).free = s.free :=
  (State.at__keeps (Within.self _) (Keeps.refl s)).part .free rfl

@[simp] theorem State.raise_held (s : State) (c : Nat) : (s.raise c).hif.held = s.hif.held := by
  unfold State.raise State.vectorEvent State.sendMsi State.setFld
  dsimp only
  repeat' split
  all_goals rfl

@[simp] theorem State.raise_started (s : State) (c : Nat) : (s.raise c).hif.started = s.hif.started := by
  unfold State.raise State.vectorEvent State.sendMsi State.setFld
  dsimp only
  repeat' split
  all_goals rfl

@[simp] theorem State.enter_state (s : State) (x : SysState) : (s.enter x).sys.state = x := by
  unfold State.enter
  split
  · assumption
  · rfl

@[simp] theorem State.complete_held (s : State) (d : Desc) (st : Status) (b4 b8 b12 : Word) :
    (s.complete d st b4 b8 b12).hif.held =
      s.hif.held ++ [{ tag := d.tag, status := st, b4 := b4, b8 := b8, b12 := b12 }] := rfl

@[simp] theorem State.complete_started (s : State) (d : Desc) (st : Status) (b4 b8 b12 : Word) :
    (s.complete d st b4 b8 b12).hif.started = dropFirst s.hif.started d := rfl

/-! ### What is held for the completion ring, and the commands started -/

/-- The completions held and the commands started of a state. -/
def State.owed (s : State) : List Completion × List Desc := (s.hif.held, s.hif.started)

theorem State.owed_of {s t : State} (h : t.hif = s.hif) : t.owed = s.owed := by simp [State.owed, h]

@[simp] theorem State.raise_owed (s : State) (c : Nat) : (s.raise c).owed = s.owed := by simp [State.owed]

/-- A poster leaves the completions held and the commands started. -/
def Poster.Quiet (p : Poster) : Prop := ∀ s v src st ev pl, State.owed (p s v src st ev pl) = s.owed

theorem State.writeRec_owed (s : State) (v : Sev) (src : Nat) (st : Option Status) (ev : Nat) (pl : List Word) :
    (s.writeRec v src st ev pl).1.owed = s.owed := by
  unfold State.writeRec
  dsimp only
  repeat' split
  all_goals simp [State.owed, State.dropRec]

theorem postPlain_quiet : Poster.Quiet postPlain := fun _ _ _ _ _ _ => State.writeRec_owed _ _ _ _ _ _

theorem State.resetQueue_owed {p : Poster} (hp : p.Quiet) (s : State) (q : Nat) : (s.resetQueue p q).owed = s.owed := by
  unfold State.resetQueue
  refine (hp _ _ _ _ _ _).trans ((State.raise_owed _ _).trans ?_)
  exact State.owed_of (State.bump_hif _ _)

theorem State.checkPointers_owed {p : Poster} (hp : p.Quiet) (s : State) (q : Nat) :
    (s.checkPointers p q).owed = s.owed := by
  unfold State.checkPointers
  split
  · exact State.resetQueue_owed hp s q
  · rfl

@[simp] theorem State.freeGaps_hif (s : State) (q : Nat) : (s.freeGaps q).hif = s.hif := by
  unfold State.freeGaps
  dsimp only
  repeat' split
  all_goals rfl

@[simp] theorem State.freeGaps_reg (s : State) (q a : Nat) : (s.freeGaps q).reg a = s.reg a := by
  unfold State.freeGaps
  dsimp only
  repeat' split
  all_goals rfl

@[simp] theorem State.newPacket_hif (s : State) (q : Nat) (it : QItem) : (s.newPacket q it).hif = s.hif := by
  unfold State.newPacket
  split <;> rfl

@[simp] theorem State.newPacket_reg (s : State) (q : Nat) (it : QItem) (a : Nat) :
    (s.newPacket q it).reg a = s.reg a := by
  unfold State.newPacket
  split <;> rfl

theorem State.dropArrival_owed (s : State) (q : Nat) (e : Bool) : (s.dropArrival q e).owed = s.owed := by
  unfold State.dropArrival
  dsimp only
  repeat' split
  all_goals exact State.owed_of (by simp)

theorem State.enqueueWith_owed {p : Poster} (hp : p.Quiet) (s : State) (q : Nat) (it : QItem) :
    (s.enqueueWith p q it).1.owed = s.owed := by
  unfold State.enqueueWith
  have h : ((s.checkPointers p q).newPacket q it).owed = s.owed :=
    (State.owed_of (by simp)).trans (State.checkPointers_owed hp s q)
  generalize (s.checkPointers p q).newPacket q it = u at h
  dsimp only
  repeat' split
  all_goals first
    | exact (State.dropArrival_owed _ _ _).trans h
    | exact (State.owed_of (by simp)).trans h

theorem State.exportWith_owed {p : Poster} (hp : p.Quiet) (s : State) (v : Sev) : (s.exportWith p v).owed = s.owed := by
  unfold State.exportWith
  dsimp only
  repeat' split
  all_goals first
    | rfl
    | exact State.enqueueWith_owed hp _ _ _

theorem postVia_quiet {p : Poster} (hp : p.Quiet) : Poster.Quiet (postVia p) := by
  intro s v src st ev pl
  have h := State.writeRec_owed s v src st ev pl
  unfold postVia
  split
  · rename_i s1 e
    rw [e] at h
    exact (State.exportWith_owed hp _ _).trans h
  · rename_i s1 e
    rw [e] at h
    exact h

theorem post_quiet : Poster.Quiet post := postVia_quiet (postVia_quiet postPlain_quiet)

@[simp] theorem post_held (s : State) (v : Sev) (src : Nat) (st : Option Status) (ev : Nat) (pl : List Word) :
    (post s v src st ev pl).hif.held = s.hif.held := congrArg Prod.fst (post_quiet s v src st ev pl)

@[simp] theorem post_started (s : State) (v : Sev) (src : Nat) (st : Option Status) (ev : Nat) (pl : List Word) :
    (post s v src st ev pl).hif.started = s.hif.started := congrArg Prod.snd (post_quiet s v src st ev pl)

/-- Setting a field leaves the other registers. -/
theorem State.setFld_reg {s : State} {a hi lo v b : Nat} (h : b ≠ a) : (s.setFld a hi lo v).reg b = s.reg b :=
  reg_setReg_other h

/-- Counting leaves the other registers. -/
theorem State.bumpBy_reg {s : State} {a hi k b : Nat} (h : b ≠ a) : (s.bumpBy a hi k).reg b = s.reg b :=
  reg_setReg_other h

/-- The registers an interrupt moves: HIF_INT_STATUS, the pending bits of the vectors and the count of messages. -/
def moved (a : Nat) : Bool :=
  a = Reg.HIF_INT_STATUS || a = Reg.HIF_CNT 8 || decide (0x15F8000 ≤ a ∧ a < 0x15F8008)

/-- An interrupt cause leaves the other registers (R430). -/
theorem State.raise_reg {s : State} {c a : Nat} (h : moved a = false) : (s.raise c).reg a = s.reg a := by
  simp only [moved, Bool.or_eq_false_iff, decide_eq_false_iff_not] at h
  obtain ⟨⟨h1, h2⟩, h3⟩ := h
  have m : ∀ (u : State) (v : Nat), v < 64 → (u.sendMsi v).reg a = u.reg a := by
    intro u v hv
    unfold State.sendMsi
    repeat' split
    · rfl
    · exact State.setFld_reg (by unfold msixPba; omega)
    · exact State.bumpBy_reg h2
  have g : ∀ (u : State) (v : Nat), v < 64 → (u.vectorEvent v).reg a = u.reg a := by
    intro u v hv
    unfold State.vectorEvent
    dsimp only
    repeat' split
    all_goals first
      | exact m _ _ hv
      | rfl
  unfold State.raise
  dsimp only
  have e : (s.setFld Reg.HIF_INT_STATUS c c 1).reg a = s.reg a := State.setFld_reg h1
  split
  · refine (g _ _ ?_).trans e
    unfold State.regFld bits
    exact Nat.mod_lt _ (by decide)
  · exact e

/-- No register outside the host interface's block is moved by an interrupt. -/
theorem moved_block {a : Nat} (h : a / 0x100000 ≠ 0x15) : moved a = false := by
  have h1 : a ≠ Reg.HIF_INT_STATUS := fun e => h (by rw [e]; decide)
  have h2 : a ≠ Reg.HIF_CNT 8 := fun e => h (by rw [e]; decide)
  simp only [moved, h1, h2, decide_false, Bool.false_or, decide_eq_false_iff_not]
  omega

/-- A change of SYS_STATE leaves the other registers. -/
theorem State.enter_reg {s : State} {x : SysState} {a : Nat} (h : moved a = false) :
    (s.enter x).reg a = s.reg a := by
  unfold State.enter
  split
  · rfl
  · exact State.raise_reg h

/-- The registers a record can move: those of an interrupt, the counts of dropped records and those of the queues. -/
def noted (a : Nat) : Bool := moved a || a / 0x100000 = 0x14 || a / 0x100000 = 0x0C

/-- A poster leaves the registers that no record moves. -/
def Poster.Reg (p : Poster) : Prop :=
  ∀ s v src st ev pl a, noted a = false → State.reg (p s v src st ev pl) a = State.reg s a

theorem noted_parts {a : Nat} (h : noted a = false) : moved a = false ∧ a / 0x100000 ≠ 0x14 ∧ a / 0x100000 ≠ 0x0C := by
  simpa [noted, and_assoc] using h

theorem State.writeRec_reg {s : State} {v : Sev} {src : Nat} {st : Option Status} {ev : Nat} {pl : List Word} {a : Nat}
    (h : noted a = false) : (s.writeRec v src st ev pl).1.reg a = s.reg a := by
  obtain ⟨hm, he, _⟩ := noted_parts h
  have d : ∀ u : State, (u.dropRec v).reg a = u.reg a := fun u =>
    State.bumpBy_reg fun e => he (by rw [e]; cases v <;> decide)
  unfold State.writeRec
  dsimp only
  repeat' split
  all_goals first
    | rfl
    | exact (State.raise_reg hm).trans (d s)
    | exact d _

theorem postPlain_reg : Poster.Reg postPlain := fun _ _ _ _ _ _ _ h => State.writeRec_reg h

theorem State.queueCount_reg {s : State} {a n : Nat} (h : noted a = false) (hn : n ≤ 9) :
    (s.bump (Reg.QUE_CNT n)).reg a = s.reg a := by
  refine State.bumpBy_reg fun e => (noted_parts h).2.2 ?_
  rw [e]
  unfold Reg.QUE_CNT
  omega

theorem State.enqueueWith_reg {p : Poster} (hp : p.Reg) {s : State} {q : Nat} {it : QItem} {a : Nat} (h : noted a = false) :
    (s.enqueueWith p q it).1.reg a = s.reg a := by
  have c : (s.checkPointers p q).reg a = s.reg a := by
    unfold State.checkPointers State.resetQueue
    split
    · refine (hp _ _ _ _ _ _ _ h).trans ((State.raise_reg (noted_parts h).1).trans ?_)
      exact State.queueCount_reg h (by decide)
    · rfl
  have d : ∀ (u : State) (e : Bool), (u.dropArrival q e).reg a = u.reg a := by
    intro u e
    have k1 : (u.bump (Reg.QUE_CNT 1)).reg a = u.reg a := State.queueCount_reg h (by decide)
    have k2 : ((u.bump (Reg.QUE_CNT 1)).bump (Reg.QUE_CNT 2)).reg a = u.reg a :=
      (State.queueCount_reg h (by decide)).trans k1
    unfold State.dropArrival
    dsimp only
    repeat' split
    all_goals first
      | exact k1
      | exact k2
      | exact (State.freeGaps_reg _ _ _).trans k2
  unfold State.enqueueWith
  replace c : ((s.checkPointers p q).newPacket q it).reg a = s.reg a := (State.newPacket_reg _ _ _ _).trans c
  generalize (s.checkPointers p q).newPacket q it = u at c
  dsimp only
  repeat' split
  all_goals first
    | exact (d _ _).trans c
    | exact (State.queueCount_reg (s := u) h (by decide)).trans c
    | exact (State.queueCount_reg (s := u.nextFree) h (by decide)).trans c

theorem State.exportWith_reg {p : Poster} (hp : p.Reg) {s : State} {v : Sev} {a : Nat} (h : noted a = false) :
    (s.exportWith p v).reg a = s.reg a := by
  unfold State.exportWith
  dsimp only
  repeat' split
  all_goals first
    | rfl
    | exact State.enqueueWith_reg hp h

theorem postVia_reg {p : Poster} (hp : p.Reg) : Poster.Reg (postVia p) := by
  intro s v src st ev pl a h
  have w := State.writeRec_reg (s := s) (v := v) (src := src) (st := st) (ev := ev) (pl := pl) h
  unfold postVia
  split
  · rename_i s1 e
    rw [e] at w
    exact (State.exportWith_reg hp h).trans w
  · rename_i s1 e
    rw [e] at w
    exact w

/-- Writing a record leaves every register but those of interrupts, of the recorder and of the queues. -/
theorem post_reg {s : State} {v : Sev} {src : Nat} {st : Option Status} {ev : Nat} {pl : List Word} {a : Nat}
    (h : noted a = false) : (post s v src st ev pl).reg a = s.reg a :=
  postVia_reg (postVia_reg postPlain_reg) s v src st ev pl a h

/-- A completion leaves every register. -/
@[simp] theorem State.complete_reg (s : State) (d : Desc) (st : Status) (b4 b8 b12 : Word) (a : Nat) :
    (s.complete d st b4 b8 b12).reg a = s.reg a := rfl

/-- The advance of DTIME leaves every register. -/
@[simp] theorem State.at__reg (s : State) (t : U64) (a : Nat) : (s.at_ t).reg a = s.reg a := by
  unfold State.at_
  split <;> rfl

/-- A command that byte 4 and the state let through runs its own rule. -/
theorem State.command_runs {s : State} {d : Desc} {l : List SysState} {k : State → State} (hb : d.byte 4 = 0xFF)
    (hs : s.inStates l = true) : s.command d l k = k s := by
  simp [State.command, hb, hs]

end Sys2Proof.Machine
end

