-- ==== Sys2Proof/WellFormed.lean ====
section
/-! DEFINITION. Well-formed commands: each operand names a thing the device has, and a descriptor carries its command's
opcode. -/

namespace Sys2Proof

/-- What is wrong with a command. -/
inductive Defect where
  /-- The opcode of a descriptor is not its command's (Table 20-3). -/
  | opcode
  /-- There are 64 piers (R97). -/
  | pier
  /-- There are two bands. -/
  | band
  /-- There are four chains. -/
  | chain
  /-- There are eight AES cores, the SHA-256 and the P-256 unit. -/
  | unit
  /-- There are 16 spans. -/
  | span
  /-- There are 1,024 queues. -/
  | queue
  /-- There are eight check channels. -/
  | channel
  /-- There are 18 host rings, and eight of each kind served by number. -/
  | ring
  /-- There are two Ethernet ports and two heartbeat paths. -/
  | port
  /-- A MAC-48 has six octets. -/
  | mac
  /-- A parapet slot has 2,048 octets (R163). -/
  | slot
  /-- There are 64 MSI-X vectors. -/
  | vector
  /-- There are three lock tables of 64 regions, in two registers each. -/
  | table
  /-- There are two tamper inputs. -/
  | input
  /-- Ten units are self-tested. -/
  | tests
  /-- A BAR0 access is 1, 2, 4 or 8 octets. -/
  | width
  /-- There are 24 blocks (R24). -/
  | block
  deriving DecidableEq, Repr

/-- A check: the defect unless the condition holds. -/
def check (p : Bool) (e : Defect) : List Defect := if p then [] else [e]

/-- What is wrong with a command, check by check. -/
def Instr.defects (i : Instr) : List Defect :=
  match i with
  | .coldReset _ => []
  | .resetRelease _ => []
  | .warmReset _ => []
  | .watchdogExpiry _ => []
  | .brownOut => []
  | .supplyGlitch _ _ => []
  | .tamper _ n _ => check (n < 2) .input
  | .clockLoss _ _ => []
  | .overTemperature _ _ => []
  | .uncorrectableError _ blk _ => check (blk < 24) .block
  | .aonReset => []
  | .pePerst _ => []
  | .loaderBoot _ _ tests => check (tests.length = 10) .tests
  | .calibrationSweep _ => []
  | .tickEdge _ => []
  | .workItemLate _ _ => []
  | .clippingStep _ b => check (b < 2) .band
  | .commitWindowClose _ => []
  | .spanOutcome n => check (n < 16) .span
  | .spanCleanup n => check (n < 16) .span
  | .cellResolution _ b => check (b < 2) .band
  | .calJobPlacement _ => []
  | .calJobComplete _ c => check (c < 4) .chain
  | .mandatoryRecalibration _ c => check (c < 4) .chain
  | .compactCalibration _ c => check (c < 4) .chain
  | .calSynth d => check (d.opcode = 0x0700) .opcode
  | .crowdWindowEnd _ => []
  | .ppsEdge _ _ => []
  | .ppsLoss _ => []
  | .ptpMessage _ p _ _ => check (p < 2) .port
  | .ptpLoss _ => []
  | .acquisitionSearchTimeout _ => []
  | .lockAchieved => []
  | .extraGuardCapped _ => []
  | .timeSet d => check (d.opcode = 0x0100) .opcode
  | .ppsOutPulse _ => []
  | .dtimeSnapshot _ => []
  | .trussReload d => check (d.opcode = 0x0200) .opcode
  | .trussReloadComplete _ => []
  | .trussRead d => check (d.opcode = 0x0201) .opcode
  | .spanOpen d => check (d.opcode = 0x0300) .opcode
  | .spanStage d => check (d.opcode = 0x0301) .opcode
  | .spanArm d => check (d.opcode = 0x0302) .opcode
  | .spanAbort d => check (d.opcode = 0x0303) .opcode
  | .rxWindowOpen _ p => check (p < 64) .pier
  | .rxWindowClose _ p => check (p < 64) .pier
  | .preambleDetect _ p _ => check (p < 64) .pier
  | .sfdFound _ p _ => check (p < 64) .pier
  | .sfdTimeout _ p => check (p < 64) .pier
  | .phrReceived _ p _ => check (p < 64) .pier
  | .frameEnd _ p _ _ _ => check (p < 64) .pier
  | .macFrameRx _ _ => []
  | .cipherDispatch _ u => check (u < 10) .unit
  | .cipherJobComplete _ u => check (u < 10) .unit
  | .learnHoldClose _ => []
  | .reassemblyTimeout _ => []
  | .ackCheckDeadline _ _ => []
  | .txDescriptorFetch r _ _ => check (r < 8) .ring
  | .floodRepetition _ => []
  | .slowMark _ u => check (u < 10) .unit
  | .slowStop _ u => check (u < 10) .unit
  | .tuneInstant _ _ => []
  | .coexRequest _ _ => []
  | .synthLock _ _ => []
  | .decisionInstant _ _ _ _ => []
  | .rampUpStart _ _ _ => []
  | .txEnd _ _ _ _ => []
  | .femReturn _ _ => []
  | .blankingEnd _ _ => []
  | .coexGrantWithdrawn _ b => check (b < 2) .band
  | .parapetBackstop _ _ => []
  | .ackWaitClose _ _ => []
  | .lifetimeExpiry _ => []
  | .dutyBucketAdvance _ => []
  | .parProgram d => check (d.opcode = 0x0800) .opcode
  | .parBurnComplete read => check (read.length = 2048) .slot
  | .parRead d => check (d.opcode = 0x0801) .opcode
  | .schGlRead d => check (d.opcode = 0x0900) .opcode
  | .cipSubmit d => check (d.opcode = 0x0F00) .opcode
  | .cipSelftest d => check (d.opcode = 0x0F01) .opcode
  | .keyRestore d => check (d.opcode = 0x0E00) .opcode
  | .keyDerive d => check (d.opcode = 0x0E01) .opcode
  | .keyImport d => check (d.opcode = 0x0E02) .opcode
  | .keyLcSet d => check (d.opcode = 0x0E03) .opcode
  | .keyAlarmAck d => check (d.opcode = 0x0E04) .opcode
  | .tblRead d => check (d.opcode = 0x0B00) .opcode
  | .tblWrite d => check (d.opcode = 0x0B01) .opcode
  | .tblLockWrite table half _ => check (table < 3) .table ++ check (half < 2) .table
  | .lockWaitApply table region => check (table < 3) .table ++ check (region < 64) .table
  | .lockExpiry table region => check (table < 3) .table ++ check (region < 64) .table
  | .overflowDrain => []
  | .migrationEnd _ => []
  | .seenAgeOut => []
  | .quePop q => check (q < 1024) .queue
  | .quePopFree q => check (q < 1024) .queue
  | .queDropRest _ d => check (d.opcode = 0x0C00) .opcode
  | .queMark _ d => check (d.opcode = 0x0C01) .opcode
  | .queRewind _ d => check (d.opcode = 0x0C02) .opcode
  | .queRelease _ d => check (d.opcode = 0x0C03) .opcode
  | .rxDelivery r => check (r < 8) .ring
  | .chkScan d => check (d.opcode = 0x1000) .opcode
  | .chkScanComplete ch => check (ch < 8) .channel
  | .chkCfgWrite n _ => check (n < 8) .channel
  | .contextScrub => []
  | .attest d => check (d.opcode = 0x1100) .opcode
  | .attestRequestRx p mac _ => check (p < 2) .port ++ check (mac.length = 6) .mac
  | .attestReport => []
  | .bootAttestPub d => check (d.opcode = 0x1101) .opcode
  | .bootMrExtend d => check (d.opcode = 0x1102) .opcode
  | .offer _ mac _ _ _ headMac _ => check (mac.length = 6) .mac ++ check (headMac.length = 6) .mac
  | .accept _ mac _ _ => check (mac.length = 6) .mac
  | .refuse _ mac _ _ => check (mac.length = 6) .mac
  | .block _ _ => []
  | .ack _ mac _ _ => check (mac.length = 6) .mac
  | .report _ _ _ _ => []
  | .viaductBlockSend _ => []
  | .viaductRetransmit _ => []
  | .hopSkip _ => []
  | .sessionIdleTimeout _ => []
  | .imageBuild _ _ => []
  | .imageVerify _ => []
  | .updStart d => check (d.opcode = 0x1200) .opcode
  | .updAbort d => check (d.opcode = 0x1201) .opcode
  | .updActivate d => check (d.opcode = 0x1202) .opcode
  | .activationResume _ => []
  | .updConfirm d => check (d.opcode = 0x1203) .opcode
  | .trialExpiry _ => []
  | .updResident d tests => check (d.opcode = 0x1204) .opcode ++ check (tests.length = 10) .tests
  | .heartbeatSend _ _ => []
  | .heartbeatRx _ p _ => check (p < 2) .port
  | .heartbeatMiss _ => []
  | .standbyArmed => []
  | .ilkInRelease _ => []
  | .ilkInActive _ => []
  | .stuckCheck _ => []
  | .takeoverRingRecovery _ _ => []
  | .redSwitch d => check (d.opcode = 0x1300) .opcode
  | .switchoverRelease _ => []
  | .sysServe d => check (d.opcode = 0x0000) .opcode
  | .serveEntry => []
  | .evrRead d => check (d.opcode = 0x1400) .opcode
  | .evrWrite d => check (d.opcode = 0x1402) .opcode
  | .evrClear d => check (d.opcode = 0x1401) .opcode
  | .hostRingProdWrite k _ => check (k < 18) .ring
  | .hostRingConsWrite k _ => check (k < 18) .ring
  | .commandFetch _ => []
  | .phaseReread r _ _ => check (r < 8) .ring
  | .completionWrite => []
  | .interruptModerationExpiry _ v => check (v < 64) .vector
  | .hifNop d => check (d.opcode = 0x1500) .opcode
  | .ctxRead d => check (d.opcode = 0x0A00) .opcode
  | .ctxUpdate d => check (d.opcode = 0x0A01) .opcode
  | .ctxRepair d => check (d.opcode = 0x0A01) .opcode
  | .bar2Access _ _ _ => []
  | .ethFrameRx _ p _ _ => check (p < 2) .port
  | .ethSend d => check (d.opcode = 0x1600) .opcode
  | .ethLinkChange p _ _ => check (p < 2) .port
  | .ethCtrlWrite p _ _ => check (p < 2) .port
  | .calEntryDataRead => []
  | .schAsnRead b => check (b < 2) .band
  | .schSfStartRead => []
  | .registerWrite _ width _ => check (width = 1 ∨ width = 2 ∨ width = 4 ∨ width = 8) .width
  | .selfTestComplete _ u _ => check (u < 10) .unit
  | .lifeCycleBurnComplete _ => []
  | .ethernetEgress p => check (p < 2) .port
  | .pauseQuantaExpiry p => check (p < 2) .port
  | .pcieLinkChange _ _ _ => []

/-- A command is well formed. -/
def Instr.wellFormed (i : Instr) : Bool := i.defects.isEmpty

end Sys2Proof
end

