-- ==== Sys2Proof/Tests/Slice0.lean ====
section
/-! SUPPORT. Tests: a command that each check of WellFormed refuses, effects of single commands on small states with the
values the manual gives, and for the statements a state and operands that meet their hypotheses together. -/

namespace Sys2Proof.Tests

/- The tests are checked one after another: each would else wait in a thread of its own for the kernel. -/
set_option Elab.async false

open Sys2Proof Sys2Proof.Machine

/-- A command descriptor: its opcode, byte 4 and words 2 to 6. -/
def cmd (op b4 : Nat) (w2 w3 w4 w5 w6 : Word := 0) : Desc :=
  { w0 := BitVec.ofNat 32 (op + 0x770000), w1 := BitVec.ofNat 32 b4, w2 := w2, w3 := w3, w4 := w4, w5 := w5, w6 := w6 }

/-- A truss with a 5 ms tick, both bands of four channels, full calibration and a host window of 64 MiB. -/
def tp0 : TrussParams :=
  { tickPeriod := 5000, kA := 1, kB := 1, timeRole := 1, slewMax := 100, holdoverGuardMax := 0, calFull := true,
    calBudget := 400,
    bandA := { present := true, windowCentre := 868000000, raster := 200000, firstChannel := 0, channelCount := 4, phy := 0,
               modIndex := 1, symbolRate := 50000, preambleLen := 8, maxPsdu := 255 },
    bandB := { present := true, windowCentre := 920000000, raster := 200000, firstChannel := 0, channelCount := 4, phy := 3,
               maxPsdu := 127 },
    piersA := 4, piersB := 4, twin := 2, templates := [{ band := 0, txOffset := 2000, txAckGap := 1000, ackPsduMax := 32 }],
    hopA := [0, 1, 2, 3], hopB := [0, 1, 2, 3], hostWindow := { base := 0x10000000, size := 0x4000000 },
    checkOwners := [0, 0, 0, 0, 0, 0, 0, 0] }

/-- A device in a state, with that truss in force. -/
def dev (x : SysState) (f : TrussParams → TrussParams := id) : State :=
  { sys := { state := x }, truss := { loaded := true, truss := { params := f tp0 } } }

/-- The same with a register set. -/
def devReg (x : SysState) (a : Nat) (v : Word) (f : TrussParams → TrussParams := id) : State :=
  { dev x f with regs := [(a, v)] }

theorem dev_tidy (x : SysState) (f : TrussParams → TrussParams) : (dev x f).tidy := ⟨rfl, rfl, rfl, rfl, rfl, rfl⟩

/-! ## Well-formed commands -/

theorem test_wf_opcode : Instr.defects (.hifNop (cmd 0x1501 0xFF)) = [.opcode] := by decide
theorem test_wf_pier : Instr.defects (.sfdTimeout 0 64) = [.pier] := by decide
theorem test_wf_band : Instr.defects (.cellResolution 0 2) = [.band] := by decide
theorem test_wf_chain : Instr.defects (.calJobComplete 0 4) = [.chain] := by decide
theorem test_wf_unit : Instr.defects (.slowStop 0 10) = [.unit] := by decide
theorem test_wf_span : Instr.defects (.spanCleanup 16) = [.span] := by decide
theorem test_wf_queue : Instr.defects (.quePop 1024) = [.queue] := by decide
theorem test_wf_channel : Instr.defects (.chkScanComplete 8) = [.channel] := by decide
theorem test_wf_ring : Instr.defects (.hostRingProdWrite 18 0) = [.ring] := by decide
theorem test_wf_port : Instr.defects (.pauseQuantaExpiry 2) = [.port] := by decide
theorem test_wf_mac : Instr.defects (.accept 0 [1, 2, 3, 4, 5] 0 0) = [.mac] := by decide
theorem test_wf_slot : Instr.defects (.parBurnComplete []) = [.slot] := by decide
theorem test_wf_vector : Instr.defects (.interruptModerationExpiry 0 64) = [.vector] := by decide
theorem test_wf_table : Instr.defects (.tblLockWrite 3 2 0) = [.table, .table] := by decide
theorem test_wf_input : Instr.defects (.tamper 0 2 true) = [.input] := by decide
theorem test_wf_tests : Instr.defects (.loaderBoot 0 true []) = [.tests] := by decide
theorem test_wf_width : Instr.defects (.registerWrite 0 3 0) = [.width] := by decide
theorem test_wf_block : Instr.defects (.uncorrectableError 0 24 0) = [.block] := by decide
theorem test_wf_passes : Instr.wellFormed (.hifNop (cmd 0x1500 0xFF)) = true := by decide

/-! ## Hypotheses of the statements that can be met together -/

/-! Resets, alarms and faults. -/

theorem meets_resetsEnterReset_brownOut : (dev .boot).sys.state ≠ .reset := by decide
theorem meets_resetsEnterReset_aon : State.reset.sys.state = .reset := by decide
theorem meets_resetsEnterReset_warm : (dev .active).tidy ∧ (dev .active).sys.state ≠ .reset ∧
    (dev .active).alarmedNow = false ∧ bit (0xA5C30001 : Word) 0 = true ∧ bits (0xA5C30001 : Word) 31 16 = 0xA5C3 :=
  ⟨dev_tidy _ _, by decide⟩
theorem meets_resetsEnterReset_watchdog : (dev .fault).tidy ∧ (dev .fault).sys.state ≠ .reset ∧
    ((dev .fault).at_ 9).alarmedNow = false := ⟨dev_tidy _ _, by decide⟩
theorem meets_alarmsEraseAndClear : (dev .maintenance).inStates stSAYM = true ∧
    (dev .maintenance).key.live.getLsbD (3 % 2) = false ∧ (dev .maintenance).key.live.getLsbD 3 = false ∧
    (dev .maintenance).key.live.getLsbD 4 = false := by decide

/-- A provisioned device in ALARM. -/
def alarmed : State :=
  { dev .alarm with key := { lcLog := [{ target := .provisioned, complete := true }] }, evr := { running := true } }

theorem meets_alarmsEraseAndClear_ack : (cmd 0x0E04 0xFF).byte 4 = 0xFF ∧ alarmed.sys.state = .alarm ∧
    alarmed.key.lc ≠ .blank ∧ alarmed.key.lc ≠ .scrapped ∧ (cmd 0x0E04 0xFF).unlistedZero [] = true ∧
    alarmed.evr.running = true ∧ alarmed.evr.rsvUsed + 20 ≤ evrReserved := by decide
theorem meets_errorEntersFault : (dev .alarm).tidy ∧ (dev .alarm).inStates stSAYML = true :=
  ⟨dev_tidy _ _, by decide⟩
theorem meets_releaseRunsLoader : State.reset.sys.state = .reset ∧ State.reset.key.live = 0 ∧
    State.reset.key.sticky = false := by decide

/-- A device whose loader runs. -/
def loading : State := { sys := { state := .boot }, boot := { stage := .loader } }

theorem meets_loaderBoots_untrained : loading.sys.state = .boot ∧ loading.boot.stage = .loader := by decide

theorem meets_loaderBoots : ∃ (u : State) (p : Nat), loading.sys.state = .boot ∧ loading.boot.stage = .loader ∧
    u = (loading.at_ 5).loaderStart ∧ p = u.bankRec.preferred := ⟨_, _, rfl, rfl, rfl, rfl⟩

/-! Measurement and attestation. -/

/-- A serving device with its recorder running, an attestation key and a request waiting. -/
def attesting : State :=
  { dev .active with
    evr := { running := true }, key := { attestKey := some (List.replicate 32 1) },
    boot := { attest := [{ nonce := List.replicate 32 2, cmd := some (cmd 0x1100 0xFF 0 0x40) }],
              report := some (List.replicate 416 3) } }

theorem meets_measuredAndAttested_extend : (cmd 0x1102 0xFF 7 0x3FFFFE0).byte 4 = 0xFF ∧ attesting.inStates stSAYM = true ∧
    (cmd 0x1102 0xFF 7 0x3FFFFE0).byte 8 = 7 ∧ (cmd 0x1102 0xFF 7 0x3FFFFE0).unlistedZero [8, 12, 13, 14, 15] = true ∧
    attesting.inWindow ((cmd 0x1102 0xFF 7 0x3FFFFE0).word 3).toNat 32 = true ∧
    ((cmd 0x1102 0xFF 7 0x3FFFFE0).word 3).toNat % 4 = 0 ∧ attesting.evr.running = true ∧
    attesting.evr.rsvUsed + 52 ≤ evrReserved := by decide
theorem meets_measuredAndAttested_pub : (cmd 0x1101 0xFF 0x3FFFFC0).byte 4 = 0xFF ∧ attesting.inStates stSAYM = true ∧
    (cmd 0x1101 0xFF 0x3FFFFC0).unlistedZero [8, 9, 10, 11] = true ∧
    attesting.key.attestKey = some (List.replicate 32 1) ∧
    attesting.inWindow ((cmd 0x1101 0xFF 0x3FFFFC0).word 2).toNat 64 = true ∧
    ((cmd 0x1101 0xFF 0x3FFFFC0).word 2).toNat % 4 = 0 := by decide
theorem meets_measuredAndAttested_attest : (cmd 0x1100 0xFF 0 0x40).byte 4 = 0xFF ∧ attesting.inStates stSAYM = true ∧
    (cmd 0x1100 0xFF 0 0x40).unlistedZero [8, 9, 10, 11, 12, 13, 14, 15] = true ∧
    attesting.inWindow ((cmd 0x1100 0xFF 0 0x40).word 2).toNat 32 = true ∧
    attesting.inWindow ((cmd 0x1100 0xFF 0 0x40).word 3).toNat 416 = true ∧
    ((cmd 0x1100 0xFF 0 0x40).word 2).toNat % 4 = 0 ∧ ((cmd 0x1100 0xFF 0 0x40).word 3).toNat % 4 = 0 ∧
    attesting.key.attestKey.isSome = true ∧ attesting.boot.attest.length < 8 := by decide
theorem meets_measuredAndAttested_request : attesting.inStates stSAYM = true ∧ (List.replicate 32 (4 : Byte)).length = 32 ∧
    attesting.key.attestKey.isSome = true ∧ attesting.boot.attest.length < 8 := by decide
theorem meets_measuredAndAttested_report :
    attesting.boot.attest = { nonce := List.replicate 32 2, cmd := some (cmd 0x1100 0xFF 0 0x40) } :: [] ∧
    attesting.boot.report = some (List.replicate 416 3) ∧ 416 ≤ (List.replicate 416 (3 : Byte)).length :=
  ⟨rfl, rfl, by decide +kernel⟩

/-! The host interface. -/

/-- A device with registers set, in their order. -/
def devRegs (x : SysState) (l : List (Nat × Word)) (f : TrussParams → TrussParams := id) : State :=
  { dev x f with regs := l.foldl (fun r e => aput r e.1 e.2) [] }

theorem meets_ringWrites_prod : (dev .active).tidy ∧ (dev .active).takesWrites = true ∧ 17 ≤ 17 ∧
    (dev .active).ringEn 17 = false := ⟨dev_tidy _ _, by decide +kernel⟩
theorem meets_ringWrites_own : (devReg .active (Reg.HIF_RING_CFG 9) 0x80000004).ringEn 9 = true ∧
    hostProduces 9 = true ∧ countDiff 16 ((devReg .active (Reg.HIF_RING_CFG 9) 0x80000004).ringCons 9) ≤
      (devReg .active (Reg.HIF_RING_CFG 9) 0x80000004).ringSize 9 := by decide +kernel
theorem meets_ringWrites_cons : (devReg .active (Reg.HIF_RING_CFG 10) 0x80000004).ringEn 10 = true ∧
    hostProduces 10 = false := by decide +kernel

/-- A serving device whose link is up, with one descriptor in the command ring and in transmit ring 0. -/
def linked : State :=
  devRegs .active [(Reg.HIF_STATUS, 0x10000), (Reg.HIF_RING_CFG 0, 0x80000004), (Reg.HIF_RING_PROD 0, 1),
    (Reg.HIF_RING_CFG 2, 0x80000004), (Reg.HIF_RING_PROD 2, 1), (Reg.HIF_RING_CFG 1, 0x80000004),
    (Reg.HIF_RING_CFG 10, 0x80000004), (Reg.MAC_CTRL, 0x10)]

theorem meets_commandsStart : linked.fetches 0 = true ∧ linked.cmdState = some .active ∧ linked.hif.started.length < 256 ∧
    opcodeStates (cmd 0x1500 0xFF).opcode = some [.boot, .recovery, .structured, .active, .standby, .maintenance, .alarm] ∧
    (cmd 0x1500 0xFF).byte 4 = 0xFF := by decide +kernel
theorem meets_commandsStart_span : opcodeStates (cmd 0x0301 3).opcode = some [.structured, .active, .standby] ∧
    spanOpcode (cmd 0x0301 3).opcode = true ∧ linked.fetches 0 = true ∧ linked.cmdState = some .active := by decide +kernel
theorem meets_commandsStart_nop : (cmd 0x1500 0xFF).byte 4 = 0xFF ∧
    loading.inStates [.boot, .structured, .active, .standby, .maintenance, .alarm] = true ∧
    (cmd 0x1500 0xFF).unlistedZero [] = true := by decide

/-- It holds ILK_OUT too. -/
def served : State := { linked with sys := { state := .active, ilkOut := true } }

/-- A PAYLOAD descriptor of 4 octets at level 0 to node 0. -/
def payloadDesc : Desc := { w0 := 0x00050004, w1 := 0x00000001, w2 := 0, w7 := 0 }

theorem meets_descriptorsTaken : served.txFetches 0 = true ∧
    payloadDesc.phase = served.ringPhase 2 (served.ringCons 2) ∧ payloadDesc.byte 4 = 1 ∧
    txFieldsOk served payloadDesc = true ∧
    served.neverFits payloadDesc (slice [1, 2, 3, 4] 0 (payloadDesc.half 0)) = false ∧
    afind served.hif.rereads 0 = none := by decide +kernel
theorem meets_descriptorsTaken_reread : { served with hif := { rereads := [(0, 3)] } }.txFetches 0 = true ∧
    afind { served with hif := { rereads := [(0, 3)] } }.hif.rereads 0 = some 3 := by decide +kernel
theorem meets_descriptorsTaken_phase : { payloadDesc with w7 := 0x80000000 }.phase ≠ served.ringPhase 2 (served.ringCons 2) ∧
    afind served.hif.rereads 0 = none := by decide +kernel

/-- With a completion held. -/
def owing : State := { linked with hif := { held := [{ tag := 7, status := .ok }] } }

theorem meets_completionIsWritten : owing.hif.held = [{ tag := 7, status := .ok }] ∧
    ({ tag := 7, status := .ok } : Completion).kind ≠ .transmit ∧ owing.sys.state ≠ .fault ∧ owing.linkUp = true ∧
    owing.ringEn 1 = true ∧ owing.cplFull = false := by decide +kernel
theorem meets_linkAndVectors_up : (dev .boot).tidy ∧ (dev .boot).hif.perst = false ∧ (dev .boot).sys.state ≠ .reset :=
  ⟨dev_tidy _ _, by decide⟩

/-- With one event pending on vector 63, which is not masked. -/
def pendingVector : State :=
  { devRegs .active [(Reg.HIF_STATUS, 0x10000), (msixCtrl 63, 0)] with hif := { vectors := [(63, (1, 0))] } }

theorem meets_linkAndVectors_vector : aget (0, 0) pendingVector.hif.vectors 63 = (0 + 1, 0) ∧
    pendingVector.sys.state ≠ .fault ∧
    0 + pendingVector.regFld (Reg.HIF_INT_MOD 63) 31 16 * 1000 ≤ (pendingVector.at_ 1000000000).time.elapsed ∧
    pendingVector.linkUp = true ∧ bit (pendingVector.reg (msixCtrl 63)) 0 = false := by decide +kernel
theorem meets_windowAccess : (dev .active).bar2On = true ∧ 0x3FFFFFF < (dev .active).windowSize := by decide

theorem meets_registerWrites_now : ∃ r : RegSpec, Reg.TIME_PPS_CTRL % 4 = 0 ∧ (dev .active).ownWrite Reg.TIME_PPS_CTRL 1 = none ∧
    (dev .active).takesWrites = true ∧ (dev .active).absentReg Reg.TIME_PPS_CTRL = false ∧ findReg Reg.TIME_PPS_CTRL = some r ∧
    (dev .active).writeInRange Reg.TIME_PPS_CTRL (r.asked 1) = true ∧ atEdge Reg.TIME_PPS_CTRL = false ∧
    Reg.TIME_PPS_CTRL / 0x100000 ∈ [0x00, 0x01, 0x02, 0x03, 0x08, 0x0E, 0x11, 0x12, 0x13, 0x14, 0x17] :=
  ⟨(findReg Reg.TIME_PPS_CTRL).get (by decide +kernel), by decide +kernel⟩
theorem meets_registerWrites_edge : ∃ r : RegSpec, Reg.CAL_CTRL % 4 = 0 ∧ (dev .active).ownWrite Reg.CAL_CTRL 1 = none ∧
    (dev .active).takesWrites = true ∧ (dev .active).absentReg Reg.CAL_CTRL = false ∧ findReg Reg.CAL_CTRL = some r ∧
    (dev .active).writeInRange Reg.CAL_CTRL (r.asked 1) = true ∧ atEdge Reg.CAL_CTRL = true :=
  ⟨(findReg Reg.CAL_CTRL).get (by decide +kernel), by decide +kernel⟩

/-! Time. -/

/-- A device whose time has run to 10 s, with both sources of a ROOT present and a holdover begun at its start. -/
def timed : State :=
  { dev .active with
    time := { dtime := 10000000000, elapsed := 10000000000, tickno := 2000, ppsOk := true, ptpOk := true, selected := .pps,
              lastPps := 7999999999, lastSync := 9500000000, syncEvery := 125000000, lockRun := 16, holdover := some 0 } }

theorem meets_tickEdges : (dev .alarm).ticks = true ∧ (dev .boot).ticks = false := by decide
theorem meets_sourcesAndLock_pps : (timed.at_ 10001000000).inStates [.active, .standby] = true ∧ timed.role = 1 ∧
    (-1000000 : Int) = ((((timed.at_ 10001000000).now + 500000000) / 1000000000 * 1000000000 : Nat) : Int) -
      ((timed.at_ 10001000000).now : Int) := by decide
theorem meets_sourcesAndLock_ppsLoss : timed.role = 1 ∧ timed.time.ppsOk = true ∧
    timed.time.lastPps + 2000000000 ≤ (timed.at_ 10000000000).time.elapsed := by decide
theorem meets_sourcesAndLock_sync :
    let s := { timed with sys := { state := .active, ilkOut := true },
                          regs := (devRegs .active [(Reg.ETH_CTRL 0, 0x80000000), (Reg.ETH_PTP 0, 0x80050000)]).regs,
                          ethA := { link := true } }
    s.timed = true ∧ s.role = 1 ∧ bit (s.reg (Reg.ETH_PTP 0)) 31 = true ∧ 0 = s.tp.ptpPort ∧ s.ethUp 0 = true ∧
      s.ethTakes = true ∧ s.time.ppsOk = true ∧ s.inStates [.active, .standby] = true := by decide +kernel
theorem meets_sourcesAndLock_ptpLoss : timed.role = 1 ∧ timed.time.ptpOk = true ∧
    timed.time.lastSync + 4 * timed.time.syncEvery ≤ (timed.at_ 10000000000).time.elapsed := by decide
theorem meets_sourcesAndLock_search :
    let s := { dev .structured (fun p => { p with timeRole := 2 }) with time := { searching := some 0 } }
    s.time.searching = some 0 ∧ s.sys.state = .structured ∧ s.role = 2 ∧
      0 + 60000000000 ≤ (s.at_ 60000000000).time.elapsed := by decide
theorem meets_sourcesAndLock_lock : 16 ≤ timed.time.lockRun ∧ timed.inStates [.active, .standby] = true := by decide
theorem meets_sourcesAndLock_guard : timed.time.holdover = some 0 ∧ timed.time.capped = false ∧
    timed.tp.holdoverGuardMax ≤ (timed.at_ 10000000000).extraGuard := by decide
theorem meets_timeRegisters_set : (cmd 0x0100 0xFF 0xFFFFFFFF 0xFFFFFFFF).byte 4 = 0xFF ∧
    (dev .maintenance).inStates [.structured, .maintenance] = true ∧
    (cmd 0x0100 0xFF 0xFFFFFFFF 0xFFFFFFFF).unlistedZero [8, 9, 10, 11, 12, 13, 14, 15] = true := by decide
theorem meets_timeRegisters_pulse :
    let s := devReg .alarm Reg.TIME_PPS_CTRL 1
    s.inStates [.structured, .active, .standby, .maintenance, .alarm] = true ∧ (s.at_ 1000000000).now % 1000000000 = 0 ∧
      bit (s.reg Reg.TIME_PPS_CTRL) 0 = true := by decide +kernel
theorem meets_timeRegisters_snapshot : (dev .active).tidy := dev_tidy _ _

/-! Calibration. -/

/-- A device of full calibration with chain 0 enabled, whose entries are as given. -/
def calibrated (x : SysState) (l : List (Nat × CalEntry)) (full : Bool := true) : State :=
  { devRegs x [(Reg.TXC_CTRL 0, 0x1), (Reg.CAL_CTRL, 0x1)] (fun p => { p with calFull := full }) with
    cal := { entries := l, pending := [(2, 0)], compactDue := if full then [] else [0] } }

theorem meets_calibrationStarts_sweep :
    let s := calibrated .structured []
    s.inStates [.structured, .maintenance] = true ∧ s.tp.calFull = true ∧ (s.at_ 100000).placementDue = true ∧
      0 ∈ s.calChains ∧ s.calIn 0 .empty ≠ [] ∧ 110000 + 200000 ≤ s.tickNs ∧ s.calJob 0 = none ∧ s.calBlock 0 = false := by
  decide +kernel
theorem meets_calibrationStarts_placement :
    let s := calibrated .standby [(2, { valid := true, temp := 40 })]
    s.inStates [.active, .standby] = true ∧ s.tp.calFull = true ∧ bit (s.reg Reg.CAL_CTRL) 0 = true ∧
      (s.at_ 100000).placementDue = true ∧ 0 ∈ s.calChains ∧ s.calJob 0 = none ∧ s.calBlock 0 = false ∧
      s.cal.starved = [] ∧ s.calOrder 0 ≠ [] ∧ 100000 + 200000 ≤ s.tickNs ∧ 200 ≤ s.tp.calBudget ∧
      (∀ x ∈ s.rf.claims, x.chain ≠ 0) := by decide +kernel
theorem meets_calibrationStarts_expired :
    let s := calibrated .active [(2, { valid := true, temp := 500 })]
    s.calRank1 = true ∧ s.tp.calFull = true ∧ s.calChains.contains 0 = true ∧ s.chainOnAir 0 = false ∧
      s.calJob 0 = none ∧ s.calIn 0 .expired ≠ [] := by decide +kernel
theorem meets_calibrationStarts_compact :
    let s := calibrated .maintenance [] false
    s.calRank1 = true ∧ s.tp.calFull = false ∧ s.cal.compactDue.contains 0 = true ∧ s.calChains.contains 0 = true ∧
      s.chainOnAir 0 = false ∧ s.calJob 0 = none := by decide +kernel
theorem meets_calibrationEndsAndShows_job :
    let j : CalJob := { chain := 3, kind := 1, rank := 10, entries := [0, 1], start := 100000 }
    let s := { dev .active with cal := { jobs := [j] } }
    s.calJob 3 = some j ∧ j.start + s.calJobNs j ≤ (s.at_ 500000).now := by decide
theorem meets_calibrationEndsAndShows_synth :
    let s := calibrated .active []
    let d := cmd 0x0700 0xFF 0x00030000
    d.byte 4 = 0xFF ∧ s.inStates stSAY = true ∧ d.unlistedZero [8, 10, 11] = true ∧ s.calChains.contains (d.byte 8) = true ∧
      s.tp.calFull = true ∧ d.byte 8 ≠ 0xFF ∧ d.half 10 < s.tp.calCount (d.byte 8) ∧ d.half 10 ≠ 0xFFFF := by decide +kernel
theorem meets_calibrationEndsAndShows_compact :
    let s := calibrated .active [] false
    let d := cmd 0x0700 0xFF 0xFFFF0000
    d.byte 4 = 0xFF ∧ s.inStates stSAY = true ∧ d.unlistedZero [8, 10, 11] = true ∧ s.calChains.contains (d.byte 8) = true ∧
      s.tp.calFull = false ∧ d.byte 8 ≠ 0xFF ∧ d.half 10 = 0xFFFF := by decide +kernel
theorem meets_calibrationEndsAndShows_window :
    let s := { dev .standby with cal := { windowTick := 65536 } }
    s.inStates [.active, .standby] = true ∧ s.crWindow ≤ s.cal.windowTick := by decide +kernel
theorem meets_calibrationEndsAndShows_data : (dev .active).tidy ∧ 3 < 4 ∧ (dev .active).tp.calFull = true ∧
    (dev .active).regFld Reg.CAL_ENTRY_SEL 8 0 < (dev .active).tp.calCount ((dev .active).regFld Reg.CAL_ENTRY_SEL 17 16) :=
  ⟨dev_tidy _ _, by decide +kernel⟩

/-! Cells, checks and the cipher. -/

/-- A serving device with one shared receive cell of band A in each slot, at 30 µs into tick 8. -/
def slotted (x : SysState) (t : U64) : State :=
  { dev x (fun p => { p with clusters := [{ panId := 1, base := 0, nodes := 16, band := 0, sfFamily := 1 }] }) with
    time := { dtime := t, elapsed := t.toNat, tickno := 8 },
    sch := { frames := [(0, [{ sfLen := 1, family := 1, cells := [{ options := 6, template := 0 }], start := 0 }])] } }

theorem meets_cellsResolveAndRead :
    let s := slotted .active 40000000
    (s.airAt 40020000).unresolved 0 = true ∧ (s.airAt 40020000).edgeNs + 20000 ≤ (s.airAt 40020000).now := by decide +kernel
theorem meets_cellsResolveAndRead_one :
    let u := (slotted .active 40000000).airAt 40020000
    ((u.activeCells 0).1.map fun a => (a.cell.tx, a.cell.rx)) = [(false, true)] ∧ (u.activeCells 0).2 = 0 ∧
      u.inStates [.active, .standby] = true ∧ 0 < u.rf.piers.length ∧
      ((u.primaries 0).filter fun p => !(u.pier p).receiving) = 0 :: [1, 2, 3] := by decide +kernel
theorem meets_cellsResolveAndRead_late :
    let u := (slotted .standby 40000000).airAt 40100000
    u.unresolved 0 = true ∧ u.edgeNs + 100000 ≤ u.now ∧ u.inStates [.maintenance, .alarm] = false := by decide +kernel

/-- A host job queued with number 5, due at 1 ms. -/
def hostJob : CipJob :=
  { id := 5, cls := .host, owner := .host (cmd 0x0F00 0xFF), mode := .sha256, slot := 0, due := some 1000000, blocks := 1 }

theorem meets_cellsResolveAndRead_job :
    let s := { dev .active with cip := { queue := [hostJob] } }
    s.jobOf 5 = some hostJob ∧ hostJob.due = some 1000000 ∧ 1000000 ≤ (s.at_ 1000000).now ∧
      hostJob.owner = .host (cmd 0x0F00 0xFF) := by decide
theorem meets_cellsResolveAndRead_list :
    let s := slotted .alarm 0
    let d := cmd 0x0900 0xFF 0x00000000 0x10 0x100
    d.byte 4 = 0xFF ∧ s.inStates stSAYML = true ∧ d.unlistedZero [8, 9, 12, 13, 14, 15, 16, 17, 18, 19] = true ∧
      d.byte 8 ≤ 1 ∧ (s.tp.band (d.byte 8)).present = true ∧ (d.word 3).toNat % 16 = 0 ∧
      s.inWindow (d.word 3).toNat (d.word 4).toNat = true ∧
      ((s.listInForce (d.byte 8) (d.byte 9)).getD {}).bytes.length ≤ (d.word 4).toNat := by decide +kernel
theorem meets_cellsResolveAndRead_start : (slotted .active 0).selectedList.isSome = true := by decide +kernel

/-- A scan on channel 3 of 64 octets, compared with nothing. -/
def scan : Desc := cmd 0x1000 0xFF 0x00000103 0x40 0x40

theorem meets_scans_queue :
    let s := dev .alarm
    scan.byte 4 = 0xFF ∧ s.inStates stSAYML = true ∧ scan.byte 8 ≤ 7 ∧ scan.byte 9 < 16 ∧ scan.byte 10 = 0 ∧
      scan.unlistedZero ((List.range 24).map fun i => i + 8) = true ∧ (s.chanOwner (scan.byte 8) = 0 ∨
        s.chanOwner (scan.byte 8) = 1) ∧ (scan.word 4).toNat ≤ 0x10000000 ∧
      s.inWindow (scan.word 3).toNat (scan.word 4).toNat = true ∧ (s.chan (scan.byte 8)).jobs.length < 17 ∧
      scanLoad scan = false ∧ scanSave scan = false := by decide +kernel
theorem meets_scans_end :
    let s := { dev .active with chk := { chans := List.replicate 3 ({} : ChkChan) ++ [({ jobs := [scan] } : ChkChan)] } }
    (s.chan 3).jobs = scan :: [] ∧ (s.chan 3).mode ≠ 1 ∧ (s.chan 3).cfgDue = none ∧ scanLoad scan = false ∧
      scanSave scan = false ∧ scanStart scan = true ∧ scanCompare scan = false ∧ 3 < s.chk.chans.length := by decide +kernel
theorem meets_scans_config :
    let s := dev .structured
    3 < 8 ∧ s.sys.state ≠ .fault ∧ (s.chanOwner 3 = 0 ∨ s.chanOwner 3 = 1) ∧ (s.chan 3).jobs = [] := by decide +kernel

/-- A SHA-256 job over 4 octets of the window, described at offset 0. -/
def hashing : State := { dev .active with mem := [(0x10000000, 9), (0x10000014, 4)] }

theorem meets_cipherJobsStart_submit :
    let s := hashing
    let d := cmd 0x0F00 0xFF 0
    d.byte 4 = 0xFF ∧ s.inStates stSAYM = true ∧ d.unlistedZero [8, 9, 10, 11] = true ∧
      s.inWindow (d.word 2).toNat 64 = true ∧ (d.word 2).toNat % 64 = 0 ∧ s.queued .host < 128 := by decide +kernel
theorem meets_cipherJobsStart_dispatch :
    let s := { dev .active with cip := { queue := [hostJob] } }
    8 < s.cip.units.length ∧ (s.at_ 5).unitReady 8 = true ∧ (s.at_ 5).nextJob 8 = some (hostJob, false) := by decide +kernel

/-- The SHA-256 unit runs that job, since the start. -/
def running : State :=
  { dev .active with cip := { units := List.replicate 8 ({} : CipUnit) ++ [{ run := some { job := hostJob, start := 0 } }, {}] } }

theorem meets_cipherJobsEnd_job :
    8 < running.cip.units.length ∧ (running.unit 8).run = some { job := hostJob, start := 0 } ∧ hostJob.void = false ∧
      hostJob.owner = .host (cmd 0x0F00 0xFF) ∧ (running.unit 8).test = none := by decide
theorem meets_cipherJobsEnd_test :
    let s := dev .maintenance
    let d := cmd 0x0F01 0xFF 9
    d.byte 4 = 0xFF ∧ s.inStates stSAYM = true ∧ d.unlistedZero [8] = true ∧ d.byte 8 ≤ 9 ∧
      d.byte 8 < s.cip.units.length ∧ (s.unit (d.byte 8)).test = none ∧ (s.unit (d.byte 8)).run = none ∧
      8 ≤ d.byte 8 := by decide
theorem meets_cipherJobsEnd_core :
    let s := dev .maintenance
    let d := cmd 0x0F01 0xFF 0
    (s.unit (d.byte 8)).run = none ∧ ∃ v < 8, v ≠ d.byte 8 ∧ v < s.cip.units.length ∧ (s.unit v).state = .inService := by
  decide
theorem meets_cipherJobsEnd_busy : (running.unit 8).run ≠ none ∧ (running.unit 8).state ≠ .slow := by decide
theorem meets_cipherJobsEnd_complete :
    let s := { dev .active with
      cip := { units := List.replicate 9 ({} : CipUnit) ++ [({ state := .selfTest, test := some (cmd 0x0F01 0xFF 9) } : CipUnit)] } }
    9 < s.cip.units.length ∧ (s.unit 9).state = .selfTest ∧ (s.unit 9).test = some (cmd 0x0F01 0xFF 9) := by decide
theorem meets_slowUnits : 8 < running.cip.units.length ∧ (running.unit 8).run = some { job := hostJob, start := 0 } ∧
    (running.unit 8).state = .inService ∧ 0 + 4 * hostJob.nominal ≤ (running.at_ 1000000).time.elapsed ∧ 8 ≤ 8 ∧
    0 + 64 * hostJob.nominal ≤ (running.at_ 1000000).time.elapsed := by decide +kernel

/-! Contexts, Ethernet and keys. -/

/-- Contexts of 1,024 nodes, with node 3's line found failing. -/
def noded (x : SysState) : State :=
  { dev x (fun p => { p with
      contexts := { base := 0, size := 131072 }
      clusters := [{ panId := 1, base := 0, nodes := 1024 }] }) with
    ctxs := [(3, { found := true })] }

theorem meets_contextCommands_bad :
    let s := noded .alarm
    let d := cmd 0x0A00 0xFF 3 0x3FFFF80
    d.byte 4 = 0xFF ∧ s.inStates stSAYML = true ∧ d.unlistedZero [8, 9, 10, 11, 12, 13, 14, 15] = true ∧
      s.ctxNidxOk (d.word 2).toNat = true ∧ (d.word 3).toNat % 4 = 0 ∧ s.inWindow (d.word 3).toNat 128 = true ∧
      s.lineUsable (d.word 2).toNat = false := by decide +kernel
theorem meets_contextCommands_repair :
    let s := noded .active
    let d := cmd 0x0A01 0xFF 3 0xFFFFFFFF 0x80
    d.byte 4 = 0xFF ∧ s.inStates stSAY = true ∧
      d.unlistedZero [8, 9, 10, 11, 12, 13, 14, 15, 16, 17, 18, 19] = true ∧ s.ctxNidxOk (d.word 2).toNat = true ∧
      (d.word 4).toNat % 4 = 0 ∧ s.inWindow (d.word 4).toNat 128 = true ∧ s.lineUsable (d.word 2).toNat = false ∧
      d.word 3 = 0xFFFFFFFF := by decide +kernel
theorem meets_contextCommands_scrub :
    let s := { noded .structured with regs := [(Reg.CHK_SCRUB, 0x80000010)] }
    s.inStates stSAYM = true ∧ s.tp.scrubTop ≠ 0 ∧ bit (s.reg Reg.CHK_SCRUB) 31 = true := by decide +kernel
theorem meets_contextCommands_sound :
    let s := noded .active
    let d := cmd 0x0A01 0xFF 1023 0x7FFFFFFF 0x80
    d.byte 4 = 0xFF ∧ s.inStates stSAY = true ∧
      d.unlistedZero [8, 9, 10, 11, 12, 13, 14, 15, 16, 17, 18, 19] = true ∧ s.ctxNidxOk (d.word 2).toNat = true ∧
      (d.word 4).toNat % 4 = 0 ∧ s.inWindow (d.word 4).toNat 128 = true ∧ s.lineUsable (d.word 2).toNat = true ∧
      bit (d.word 3) 31 = false ∧ bit (0xFFFFFFFF : Word) 31 = true := by decide +kernel

/-- A device whose ports are up. -/
def ported (x : SysState) (f : TrussParams → TrussParams := id) : State :=
  { devRegs x [(Reg.ETH_CTRL 0, 0x90000000), (Reg.ETH_CTRL 1, 0x90000000)] f with
    ethA := { link := true }, ethB := { link := true } }

/-- A PAUSE frame of one quantum, and a management frame of 60 octets to every station. -/
def pauseFrame : List Byte := [1, 0x80, 0xC2, 0, 0, 1, 2, 0, 0, 0, 0, 9, 0x88, 0x08, 0, 1, 0, 1] ++ List.replicate 42 0
def mgmtFrame : List Byte := [0xFF, 0xFF, 0xFF, 0xFF, 0xFF, 0xFF, 2, 0, 0, 0, 0, 9, 0x88, 0xB5] ++ List.replicate 46 0

theorem meets_framesReceived_short : (ported .alarm).inStates stSAYML = true ∧ (ported .alarm).ethUp 1 = true ∧
    (List.replicate 59 (0 : Byte)).length < 60 := by decide +kernel
theorem meets_framesReceived_pause : 60 ≤ pauseFrame.length ∧ pauseFrame.length ≤ 8192 ∧
    bit ((ported .active).reg (Reg.ETH_CTRL 0)) 28 = true ∧ pauseQuanta pauseFrame = some 1 := by decide +kernel
theorem meets_framesReceived_vlan : pauseQuanta mgmtFrame = none ∧
    vlanStrip ((devReg .active (Reg.ETH_CTRL 0) 0x80050000).regFld (Reg.ETH_CTRL 0) 27 16) mgmtFrame = none := by
  decide +kernel
theorem meets_framesReceived_mgmt :
    let s := ported .active
    pauseQuanta mgmtFrame = none ∧ vlanStrip (s.regFld (Reg.ETH_CTRL 0) 27 16) mgmtFrame = some mgmtFrame ∧
      s.addressOk 0 mgmtFrame = true ∧ bit (BitVec.ofNat 8 s.tp.learnEn) 2 = false ∧
      beNat (slice mgmtFrame 12 2) = 0x88B5 := by decide +kernel
theorem meets_portsChange : 1 ≤ 1 ∧ (ported .active).takesWrites = true ∧
    bit ((ported .active).reg (Reg.ETH_CTRL 1)) 31 = true ∧ bits (0x9FFE0000 : Word) 30 29 ≠ 3 ∧
    bits (0x9FFE0000 : Word) 27 16 ≠ 0xFFF ∧ bits ((ported .active).reg (Reg.ETH_CTRL 1)) 31 29 = bits (0x9FFE0000 : Word) 31 29 := by
  decide +kernel
theorem meets_framesSent :
    let s := ported .maintenance
    let d := cmd 0x1600 0xFF 1 0 8192
    d.byte 4 = 0xFF ∧ s.inStates [.structured, .active, .maintenance, .alarm] = true ∧
      d.unlistedZero [8, 12, 13, 14, 15, 16, 17, 18, 19] = true ∧ d.byte 8 ≤ 1 ∧ 14 ≤ (d.word 4).toNat ∧
      (d.word 4).toNat ≤ 8192 ∧ s.inWindow (d.word 3).toNat (d.word 4).toNat = true ∧ s.ethUp (d.byte 8) = true := by
  decide +kernel
theorem meets_framesSent_egress :
    let o : EthOut := { bytes := [1], cmd := some (cmd 0x1600 0xFF 1 0 14) }
    let s := { ported .active with ethB := { link := true, out := [o] } }
    1 ≤ 1 ∧ s.ethUp 1 = true ∧ (s.eth 1).paused = false ∧ (s.eth 1).out = o :: [] ∧
      o.cmd = some (cmd 0x1600 0xFF 1 0 14) ∧ s.egressOn = false := by decide +kernel

/-- A deployed device in STRUCTURED, with a slot partition, a KEY_LOAD item at offset 0 and a KEY_DERIVE item at 0x20. -/
def keyed (target : LifeCycle) : State :=
  { dev .structured (fun p => { p with kcDevice := 16, kcDomain := 1024, kcNode := 2048, kcHost := 1008 }) with
    key := { lcLog := [{ target := target, complete := true }] },
    mem := [(0x10000000, 0x20), (0x10000004, 16), (0x10000020, 0x21), (0x10000024, 16)] }

theorem meets_keysArrive_load :
    let s := keyed .deployed
    let d := cmd 0x0E00 0xFF 16
    d.byte 4 = 0xFF ∧ s.sys.state = .structured ∧ s.key.acceptsItems = true ∧ (keyCommandItem s d 0x20).toBool = true ∧
      (s.slot (d.half 8)).valid = false ∧ s.slotStaged (d.half 8) = false ∧ leAt (s.readWin 0 32) 0x10 16 = 0 ∧
      leAt (s.readWin 0 32) 0x0E 2 < 4096 ∧
      s.inWindow (leAt (s.readWin 0 32) 8 4) (blobSize (BitVec.ofNat 8 (leAt (s.readWin 0 32) 0x0C 1))) = true := by
  decide +kernel
theorem meets_lifeCycleChanges :
    let s := { keyed .provisioned with par := { state := .sealed } }
    let d := cmd 0x0E03 0xFF 2
    d.byte 4 = 0xFF ∧ s.sys.state = .structured ∧ lifeCycleOf (d.byte 8) = some .deployed ∧
      lcArgument s.key .deployed = some 0 ∧ d.unlistedZero [8, 12, 13, 14, 15] = true ∧ s.par.state = .sealed ∧
      s.key.lcLog.length < 16 ∧ s.key.lcBurn = none ∧ s.auditFits 2 = true := by decide +kernel
theorem meets_lifeCycleChanges_scrap :
    let s := { dev .alarm with evr := { running := true } }
    s.sys.state = .alarm ∧ lifeCycleOf ((cmd 0x0E03 0xFF 4).byte 8) = some .scrapped ∧
      lcArgument s.key .scrapped = some 0 ∧ s.auditFits 2 = true := by decide +kernel
theorem meets_lifeCycleChanges_burn :
    let s := { dev .structured with key := { lcBurn := some (cmd 0x0E03 0xFF 2, .deployed, []) } }
    s.key.lcBurn = some (cmd 0x0E03 0xFF 2, .deployed, []) := rfl

/-- Slot 0 of a provisioned device holds the DEVICE master, and slot 16 a master of the DOMAIN part below it. -/
def wrapped : State :=
  { keyed .provisioned with
    key := { lcLog := [{ target := .provisioned, complete := true }],
             slots := [(0, { valid := true, key := List.replicate 32 1, attr := 0x0F }),
                       (16, { valid := true, key := List.replicate 32 1, attr := 0x0F, parent := some 0 })] } }

theorem meets_keysArrive_import :
    let s := { wrapped with mem := [(0x10000002, 1), (0x10000003, 16)] }
    let d := cmd 0x0E02 0xFF 0 0x40
    let a := s.readWin (d.word 2).toNat 48
    let t := BitVec.ofNat 8 (leAt a 0 1)
    d.byte 4 = 0xFF ∧ s.sys.state = .structured ∧ s.key.lc = .provisioned ∧
      d.unlistedZero [8, 9, 10, 11, 12, 13, 14, 15] = true ∧ s.inWindow (d.word 2).toNat 48 = true ∧
      (d.word 2).toNat % 4 = 0 ∧ (d.word 3).toNat % 4 = 0 ∧ leAt a 4 12 = 0 ∧
      leAt a 3 1 = (if attr256 t then 32 else 16) ∧ leAt a 2 1 = 1 ∧ attrOk t .domain = true ∧
      leAt a 0x20 16 = 0 ∧ s.inWindow (d.word 3).toNat (blobSize t) = true ∧ s.usable 0 = true := by decide +kernel
theorem meets_keysArrive_derive :
    let s := { wrapped with mem := [(0x10000020, 0x21), (0x10000024, 17), (0x10000028, 16), (0x1000002A, 0x20),
                                    (0x1000002C, 3), (0x1000002D, 1)] }
    let d := cmd 0x0E01 0xFF 17 0x20
    let item := s.readWin 0x20 32
    d.byte 4 = 0xFF ∧ s.sys.state = .structured ∧ s.key.acceptsItems = true ∧ (keyCommandItem s d 0x21).toBool = true ∧
      (s.slot (d.half 8)).valid = false ∧ s.slotStaged (d.half 8) = false ∧ leAt item 0x0E 2 = 0 ∧ leAt item 8 2 < 4096 ∧
      (keyDerive s (d.half 8) (BitVec.ofNat 8 (leAt item 0x0C 1)) (BitVec.ofNat 8 (leAt item 0x0D 1)) (leAt item 8 2)
        (leAt item 0x0A 2) (slice item 0x10 16)).toBool = true := by decide +kernel

/-! The MAC. -/

/-- A data frame at level 5 from a short address of PAN 1 to this border router, received on pier 0 at level `lv`. -/
def heard (dst : MacAddr) (lv : Nat) : RxFrame :=
  { id := 3, sfd := 1000, ends := 2000000, tmpl := { txAckGap := 1000 },
    air := { type := .data, version := 2, ar := true, dstPan := some 1, dst := dst, src := .short 5, level := lv, keyMode := 1 } }

/-- A device holding that frame, whose border router short address is the reset one. -/
def hearing (x : SysState) (f : RxFrame) : State :=
  { noded x with rf := { frames := [f], piers := { state := .drain, sfd := 1000 } :: List.replicate 63 {} }, ctxs := [] }

theorem meets_framesChecked_state :
    let s := hearing .structured (heard (.short 0xF000) 5)
    ((s.handedOver 3).rxFrame 3).isSome = true ∧ (heard (.short 0xF000) 5).stage = .arrived ∧ (heard (.short 0xF000) 5).known = false ∧
      (heard (.short 0xF000) 5).air.version = 2 ∧ (heard (.short 0xF000) 5).air.type = .data ∧
      s.inStates [.active, .standby] = false := by decide +kernel
theorem meets_framesChecked_other :
    let s := hearing .active (heard (.short 9) 5)
    s.inStates [.active, .standby] = true ∧
      ((s.handedOver 3).overheardData { heard (.short 9) 5 with owes := s.owesAck (heard (.short 9) 5).air }).isNone = true ∧
      s.addressed (heard (.short 9) 5).air = false := by decide +kernel
theorem meets_framesChecked_unknown :
    let a := { (heard (.short 0xF000) 5).air with src := .absent }
    let s := hearing .active { heard (.short 0xF000) 5 with air := a }
    s.addressed a = true ∧ a.level ≠ 0 ∧ (match ((s.handedOver 3).resolve a).2 with
       | .unknown => true
       | _ => false) = true := by decide +kernel

/-- Node 5 as a valid context line. -/
def node5 : Ctx := { valid := true, nidx := 5, shortAddr := 5, panId := 1, eui64 := 0x55 }

/-- The device that hears the frame and holds node 5's line with a check word. -/
def hearingNode (w : Word) : State :=
  { hearing .active (heard (.short 0xF000) 5) with ctxs := [(5, { ctx := { node5 with lineCrc := w } })] }

theorem body_lineCrc (c : Ctx) (w : Word) : { c with lineCrc := w }.body = c.body := rfl
set_option maxRecDepth 20000 in
theorem hearingNode_line (w : Word) : ((hearingNode w).handedOver 3).line 5 = { ctx := { node5 with lineCrc := w } } := rfl
set_option maxRecDepth 20000 in
theorem hearingNode_addr (w : Word) : ((hearingNode w).handedOver 3).ctxAddr 5 = 640 := rfl
set_option maxRecDepth 20000 in
theorem meets_framesChecked_line : ((hearingNode (lineCrc 640 node5.body)).handedOver 3).lineUsable 5 = true := by
  simp only [State.lineUsable, State.lineOk, hearingNode_line, hearingNode_addr, body_lineCrc, decide_true, Bool.or_true, Bool.true_and]
  rfl
set_option maxRecDepth 20000 in
theorem meets_framesChecked_known : ∃ (w : Word) (c : Ctx),
    (((hearingNode w).handedOver 3).resolve (heard (.short 0xF000) 5).air).2 = .known 5 c ∧ c.blocked = false ∧
      (hearingNode w).minSec ≤ 5 := by
  refine ⟨lineCrc 640 node5.body, (((hearingNode (lineCrc 640 node5.body)).handedOver 3).line 5).ctx, ?_, ?_, by decide +kernel⟩
  · have h := meets_framesChecked_line
    have e := hearingNode_line (lineCrc 640 node5.body)
    generalize lineCrc 640 node5.body = w at h e ⊢
    show (match ((hearingNode w).handedOver 3).fetchCtx 5 with
      | (s1, none) => (s1, Source.integrity)
      | (s1, some c) => (s1, if c.valid && (decide (c.panId.toNat = 1) && decide (c.shortAddr = 5)) then .known 5 c else
          .unknown)).2 = _
    unfold State.fetchCtx
    rw [if_pos h, e]
    rfl
  · rw [hearingNode_line]
    rfl

/-- That frame when it has passed, owing an acknowledgement that claim 4 was made for. -/
def passed : RxFrame := { heard (.short 0xF000) 5 with owes := true, stage := .passed, ackClaim := some 4, known := true }

theorem meets_acknowledgementGoes :
    let c : Claim := { id := 4, chain := 0, band := 0, channel := 0, kind := .ack (some 3), rank := 1, t0 := 3000000 }
    let s := { hearing .active passed with rf := { frames := [passed], claims := [c] } }
    ((s.at_ 2940000).rxFrame 3).isSome = true ∧ passed.ackDue ≤ (s.at_ 2940000).now ∧ passed.owes = true ∧
      ((s.at_ 2940000).claim 4).isSome = true ∧ (s.at_ 2940000).laterReception passed passed.ackAt = false ∧
      (s.at_ 2940000).rivalHolds passed = false ∧ (s.at_ 2940000).ackGiven passed = false := by decide +kernel
theorem meets_acknowledgementGoes_late :
    let f := { passed with stage := .checking }
    let s := hearing .active f
    ((s.at_ 2940000).rxFrame 3).isSome = true ∧ f.ackDue ≤ (s.at_ 2940000).now ∧ f.owes = true ∧
      s.inStates [.maintenance, .alarm] = false ∧ f.late = false ∧ f.ackClaim = some 4 := by decide +kernel
theorem meets_acknowledgementGoes_capture :
    let f := { passed with ackClaim := none, inHold := true }
    let s := { dev .active with rf := { frames := [f], acks := [(0, 0, 0)] } }
    ((s.at_ 2940000).rxFrame 3).isSome = true ∧ f.ackDue ≤ (s.at_ 2940000).now ∧ f.settled = false ∧ f.dup = false ∧
      f.inHold = true ∧ (s.at_ 2940000).ackGiven f = true := by decide +kernel

/-- A hold of key 9 opened in tick 0, with frame 3 in it or none. -/
def holding (l : List RxFrame) : State :=
  { dev .active with tbl := { holds := [{ eui := 9, openTick := 0, frames := l.map RxFrame.id }] }, rf := { frames := l } }

theorem meets_timersOfTheMac_hold :
    ((holding []).tbl.holds.find? (fun h => h.eui = 9)).isSome = true ∧ 0 + (holding []).tp.learnHold ≤ (holding []).tick ∧
      ((holding []).rf.frames.filter fun f => [].contains f.id) = [] := by decide
theorem meets_timersOfTheMac_learn :
    let f := { heard (.short 0xF000) 0 with inHold := true }
    ((holding [f]).tbl.holds.find? (fun h => h.eui = 9)) = some { eui := 9, openTick := 0, frames := [3] } ∧
      ((holding [f]).rf.frames.filter fun g => [3].contains g.id) = [f] ∧ (holding [f]).rxFrame f.id = some f ∧
      f.settled = false := by decide
theorem meets_timersOfTheMac_reasm :
    let x : Reasm := { src := .short 5, dst := .short 0, size := 100, tag := 1, firstTick := 0, parts := [], frames := [] }
    let s := { dev .active with rf := { reasm := [x] } }
    s.rf.reasm[0]? = some x ∧ x.firstTick + s.tp.reasmTimeout ≤ s.tick := by decide

/-- A transmit descriptor with one tick of life, and a flood whose item waits in rewind queue 1000. -/
def aged : TxDesc := { num := 0, ring := some 0, lifetime := 1, count := 0 }
def flood : TxDesc := { num := 0, ring := some 0, form := .flood, reps := 1, rq := 1000, queue := 9, frags := [[1]] }
def flooding : State :=
  { dev .active with
    sys := { state := .active, ilkOut := true }, rf := { descs := [flood], nextDesc := 1 },
    que := { queues := [(1000, { type := .rewind, consumer := 1, depthLog2 := 4,
                                 items := [{ bytes := [1], len := 1, owner := some { desc := 0, index := 0 } }] })] } }

theorem meets_timersOfTheMac_lifetime :
    let s := { dev .active with time := { tickno := 1 }, rf := { descs := [aged] } }
    s.txDesc 0 = some aged ∧ aged.fetchTick + aged.lifetime ≤ s.tick ∧ aged.lifetime ≠ 0 := by decide
theorem meets_timersOfTheMac_flood :
    flooding.txDesc 0 = some flood ∧ flood.form = .flood ∧ flood.left = 0 ∧ flood.reps ≠ 0 ∧
      ((flooding.queue flood.rq).items.map fun i => i.ownedBy 0) = [true] ∧ (flooding.queue flood.rq).consumer = 1 ∧
      flooding.serving = true ∧ flood.queue ≠ flood.rq := by decide +kernel

/-! The parapet. -/

/-- An image with its magic and format and no ranges. -/
def parapet : List Byte := [0x72, 0x61, 0x50, 0x7A, 1, 0] ++ List.replicate 2042 0

theorem meets_parapetAndDuty_program :
    let s := { keyed .provisioned with
      mem := [(0x10000000, 0x72), (0x10000001, 0x61), (0x10000002, 0x50), (0x10000003, 0x7A), (0x10000004, 1)] }
    let d := cmd 0x0800 0xFF 0
    d.byte 4 = 0xFF ∧ s.sys.state = .structured ∧ s.key.lc = .provisioned ∧ s.par.state = .unwritten ∧ s.par.burn = none ∧
      s.par.sealDue = none ∧ d.unlistedZero [8, 9, 10, 11] = true ∧ (d.word 2).toNat % 4 = 0 ∧
      s.inWindow (d.word 2).toNat 2048 = true ∧ s.par.burned 0 = false := by decide +kernel
theorem meets_parapetAndDuty_image : parImageOk parapet = true := by decide +kernel
theorem meets_parapetAndDuty_burn :
    let s := { dev .structured with par := { burn := some (cmd 0x0800 0xFF 0, parapet, 1) } }
    s.par.burn = some (cmd 0x0800 0xFF 0, parapet, 1) ∧ 1 ≤ 1 ∧ parapet ≠ slice parapet 0 2044 ++ leBytes 0x5EA10C0D 4 := by
  decide +kernel
theorem meets_parapetAndDuty_read :
    let s := dev .boot
    let d := cmd 0x0801 0xFF 0
    d.byte 4 = 0xFF ∧ (dev .alarm).inStates [.boot, .structured, .active, .standby, .maintenance, .alarm] = true ∧
      d.unlistedZero [8, 9, 10, 11] = true ∧ (d.word 2).toNat % 4 = 0 ∧
      (dev .alarm).inWindow (d.word 2).toNat 4096 = true ∧ s.sys.state = .boot := by decide +kernel
theorem meets_parapetAndDuty_bucket : ((dev .active).at_ 1000000000).now % 1000000000 = 0 ∧
    (dev .active).par.bucketAt + 1000000000 ≤ ((dev .active).at_ 1000000000).time.elapsed := by decide

/-! Queues, records, trusses and spans. -/

/-- A device with one queue, number 9. -/
def queued (x : Queue) : State := { dev .active with que := { queues := [(9, x)] } }

/-- A pop queue with two items, one of them held by its consumer. -/
def popQueue : Queue :=
  { type := .data, ring := 0xFF, depthLog2 := 4, popHeld := true,
    items := [{ taken := true }, { seq := 1, bytes := [5], len := 1 }] }

theorem meets_queuesPopped : ((queued popQueue).queue 9).popped = true ∧ ((queued popQueue).queue 9).pointersBad = false ∧
    ((((queued popQueue).popFree 9).dropBroken 9).queue 9).headItem = some { seq := 1, bytes := [5], len := 1 } := by
  decide +kernel
theorem meets_queuesPopped_free : ((queued popQueue).queue 9).popHeld = true := by decide

/-- A rewind queue of firmware whose first item has been read, and a data queue in the middle of a packet. -/
def rewindQueue : Queue :=
  { type := .rewind, ring := 0xFF, depthLog2 := 4, read := 1, items := [{ seq := 1 }, { seq := 2 }] }
def packetQueue : Queue :=
  { type := .data, ring := 0xFF, depthLog2 := 4, inPacket := true, items := [{ sop := false, eop := false }, { sop := false }] }

theorem meets_queuesCommanded :
    let d := cmd 0x0600 0xFF 9
    let s := queued rewindQueue
    d.byte 4 = 0xFF ∧ s.inStates stSAYM = true ∧ d.half 8 < 1024 ∧ (s.queue 9).issuerOk .firmware = true ∧
      (s.queue 9).pointersBad = false ∧ (s.queue 9).type = .rewind ∧ d.unlistedZero [8, 9] = true ∧
      (s.queue 9).inPacket = false := by decide
theorem meets_queuesCommanded_release :
    let d := cmd 0x0602 0xFF 0x10009
    d.half 8 = 9 ∧ d.unlistedZero [8, 9, 10, 11] = true ∧
      (releaseCount (rewindQueue.items.take rewindQueue.read) (BitVec.ofNat 16 (d.half 10))).isSome = true := by decide
theorem meets_queuesCommanded_rest :
    let x := (queued packetQueue).queue 9
    x.type ≠ .disabled ∧ x.type ≠ .rewind ∧ x.inPacket = true ∧ toEop (x.items.filter fun i => !i.taken) = some 2 ∧
      toEop [({ sop := false, eop := false } : QItem)] = none := by decide

/-- The same linked device with an item for receive ring 0. -/
def delivering : State :=
  { linked with que := { queues := [(9, { type := .data, ring := 0, depthLog2 := 4, items := [{ seq := 1, bytes := [5], len := 1 }] })] },
                sys := { state := .active, ilkOut := true } }

theorem meets_deliveries : delivering.ringsCarry = true ∧ delivering.linkUp = true ∧ delivering.ringEn 10 = true ∧
    delivering.ringUsed 10 < delivering.ringSize 10 ∧ delivering.ringNext 0 = some (9, .data) ∧
    (delivering.queue 9).pointersBad = false ∧ (((delivering.dropBroken 9).skipGaps 9 1).queue 9).headItem =
      some { seq := 1, bytes := [5], len := 1 } := by decide +kernel

/-- A device whose recorder runs and holds one record. -/
def recording : State := { dev .structured with evr := { running := true, general := [{ seq := 0, dtime := 0, sev := .info, source := 0, status := 0, event := 1, payload := [] }] } }

theorem meets_recordsCommanded_read :
    let s := { dev .alarm with evr := recording.evr }
    let d := cmd 0x1200 0xFF 0 0x100 0x100
    d.byte 4 = 0xFF ∧ s.inStates stSAYML = true ∧
      d.unlistedZero [8, 9, 10, 11, 12, 13, 14, 15, 16, 17, 18, 19] = true ∧
      s.inWindow (d.word 3).toNat (d.word 4).toNat = true ∧ (d.word 3).toNat % 4 = 0 ∧
      fitRecs (s.evr.all.filter fun r => r.seq.toNat = 0 || seqNewer r.seq.toNat 0) 256 ≠ [] := by decide +kernel
theorem meets_recordsCommanded_write :
    let s := recording
    let d := cmd 0x1201 0xFF 0x504 0x100 8
    d.byte 4 = 0xFF ∧ Sev.error.code = d.byte 8 ∧ Sev.error.code ≤ 4 ∧ d.unlistedZero [8, 9, 12, 13, 14, 15, 16, 17] = true ∧
      d.half 16 % 4 = 0 ∧ d.half 16 ≤ 1008 ∧ s.inWindow (d.word 3).toNat (d.half 16) = true ∧ s.evr.running = true ∧
      bit (s.reg Reg.EVR_CTRL) 3 = false := by decide +kernel
theorem meets_recordsCommanded_clear :
    let s := recording
    let d := cmd 0x1202 0xFF 0x100
    d.byte 4 = 0xFF ∧ d.unlistedZero [8, 9, 10, 11] = true ∧ s.inWindow (d.word 2).toNat 160 = true ∧
      (d.word 2).toNat % 4 = 0 := by decide

theorem meets_trussCommands_reload :
    let s := dev .standby
    let d := cmd 0x0200 0xFF 1 0x100
    d.byte 4 = 0xFF ∧ s.inStates stSAY = true ∧ s.tbl.migration = none ∧ d.unlistedZero [8, 12, 13, 14, 15] = true ∧
      d.byte 8 = 1 ∧ (d.word 3).toNat % 4 = 0 ∧
      s.inWindow (d.word 3).toNat (max 0xB8 (min 262144 (leAt (s.readWin (d.word 3).toNat 16) 8 4))) = true := by
  decide +kernel
theorem meets_trussCommands_bank : (cmd 0x0200 0xFF 0).byte 8 = 0 ∧
    (cmd 0x0200 0xFF 0).unlistedZero [8, 12, 13, 14, 15] = true := by decide
theorem meets_trussCommands_deferred : { dev .active with tbl := { migration := some ⟨[], 0, 0, []⟩ } }.tbl.migration =
    some ⟨[], 0, 0, []⟩ := by decide
theorem meets_trussCommands_complete :
    { dev .maintenance with truss := { reload := some (cmd 0x0200 0xFF 0, .bankA, []) } }.truss.reload =
      some (cmd 0x0200 0xFF 0, .bankA, []) := by decide
theorem meets_trussCommands_read :
    let s := dev .alarm
    let d := cmd 0x0201 0xFF 0 0x100 0x100
    d.byte 4 = 0xFF ∧ s.inStates stSAYML = true ∧ d.unlistedZero [8, 9, 12, 13, 14, 15, 16, 17, 18, 19] = true ∧
      d.half 8 = 0 ∧ s.inWindow (d.word 3).toNat (d.word 4).toNat = true := by decide

/-- A device whose pier 0 is as given, with a window over channel 2. -/
def pierIs (x : SysState) (p : Pier) : State :=
  { dev x with rf := { piers := p :: List.replicate 63 ({ state := .idle } : Pier) } }

/-- An open window, and a pier in it. -/
def window : Window := { channel := 2, openAt := 0, closeAt := 5000000 }
def inWindow (x : PierState) : Pier :=
  { state := x, window := some window, windowOpen := true, connected := true, channel := 2 }

theorem meets_windowsOpenAndClose_clip : (dev .alarm).sampling = true ∧ ((dev .alarm).tp.band 0).present = true ∧
    (dev .alarm).gain 0 ≠ 0 := by decide +kernel
theorem meets_windowsOpenAndClose_open :
    let r := (pierIs .standby { state := .idle, window := some window }).airAt 1000
    0 < r.rf.piers.length ∧ r.isPrimary 0 = true ∧ (r.pier 0).window = some window ∧ r.opensWindow window = true ∧
      (r.pier 0).windowOpen = false ∧ (r.pier 0).state = .idle := by decide +kernel
theorem meets_windowsOpenAndClose_close :
    let r := (pierIs .standby (inWindow .search)).airAt 1000
    0 < r.rf.piers.length ∧ (r.pier 0).window = some window ∧ (r.pier 0).windowOpen = true ∧ window.search = false := by
  decide +kernel

/-- A preamble 40 dB over the floor, and a later one. -/
def tone : Preamble := { start := 100, corr := 255, power := 0, cfo := 0 }

theorem meets_framesHeard_search :
    let r := (pierIs .active (inWindow .search)).airAt 200
    r.isPrimary 0 = true ∧ (r.pier 0).windowOpen = true ∧ r.blankedBy 0 2 = false ∧ (r.pier 0).state = .search ∧
      bits (r.reg (Reg.RXF_DET 0)) 7 0 ≤ tone.corr ∧ signed (bits (r.reg (Reg.RXF_DET 0)) 23 16) 8 * 4 ≤ tone.power ∧
      (r.tp.band 0).pullsIn tone.cfo = true ∧
      ((r.receptions 0 2 (some 0)).any fun q => withinSymbol ((r.tp.band 0).symbolNs 1) q.timing tone.start) = false := by
  decide +kernel
theorem meets_framesHeard_twin :
    let r := (pierIs .active { inWindow .payload with timing := 100, power := -400, ends := some 900000 }).airAt 200000
    (r.pier 0).midFrame = true ∧ withinSymbol ((r.tp.band 0).symbolNs 1) 100 150000 = false ∧
      strongest (r.receptions 0 2 none) = some (-400) ∧ -400 + 2 * (r.tp.captureMargin : Int) ≤ tone.power ∧
      r.freeTwins = 8 :: [9] ∧ 8 < r.rf.piers.length := by decide +kernel
theorem meets_framesHeard_sfd :
    let r := (pierIs .active { inWindow .sync with sfdBy := 3000000 }).airAt 200
    (r.pier 0).state = .sync ∧ r.now ≤ (r.pier 0).sfdBy ∧ ((r.receptions 0 2 (some 0)).any fun q =>
      withinSymbol ((r.tp.band 0).symbolNs 1) (if q.sfd = 0 then q.timing + (r.tp.band 0).sfdNs else q.sfd) 150) = false := by
  decide +kernel
theorem meets_framesHeard_timeout :
    let r := (pierIs .active { inWindow .sync with sfdBy := 3000000 }).airAt 3000000
    (r.pier 0).state = .sync ∧ (r.pier 0).sfdBy ≤ r.now := by decide +kernel
theorem meets_framesHeard_phr :
    let r := (pierIs .active (inWindow .header)).airAt 200
    let h : Phr := { len := 20 }
    (r.pier 0).state = .header ∧ (r.tp.band 0).phy ≠ 3 ∧ h.ms = false ∧ h.reserved = false ∧
      h.fcsOctets (r.tp.band 0) ≤ 20 ∧ 20 ≤ (r.tp.band 0).maxPsdu ∧ 1 < h.fcsOctets (r.tp.band 0) ∧
      (r.tp.band 0).maxPsdu < 2047 := by decide +kernel
theorem meets_framesHeard_switch :
    let r := (pierIs .active (inWindow .header)).airAt 200
    ({ len := 20, ms := true, msOk := true, phy := 0, modIndex := 10, symbolRate := 50000 } : Phr).switchOk (r.tp.band 0) = true ∧
      ({ len := 20, ms := true, msOk := true, phy := 3, modIndex := 10, symbolRate := 50000 } : Phr).switchOk (r.tp.band 0) = false := by
  decide +kernel
theorem meets_framesHeard_end : ((pierIs .active (inWindow .payload)).airAt 200).pier 0 = inWindow .payload := by
  decide +kernel

/-- A device with span 0 as given. -/
def spanIs (x : SysState) (y : Span) : State := { dev x with spanc := { spans := y :: List.replicate 15 {} } }

/-- A staging span that deletes the seen-cache key of seed 1 and SEQ 2, and the same armed and decided. -/
def staged : Span :=
  { state := .staging, openTag := 5,
    items := [{ kind := 0x16, flags := 0, target := 0, payload := leBytes 1 8 ++ leBytes 2 4, staged := .none }] }
def decided : Span := { staged with state := .armed, decided := true, armCmd := some (cmd 0x0302 0) }

theorem meets_spansCommanded_open :
    let s := spanIs .structured {}
    let d := cmd 0x0300 0xFF 0x100
    s.spanc.spans.length = 16 ∧ s.inStates stSAY = true ∧ s.spanHeld d = false ∧
      (List.range 12).find? (fun n => (s.span n).free) = some 0 ∧ d.unlistedZero [8, 9, 10, 11] = true ∧
      (d.word 2).toNat % 8 = 0 ∧ s.inWindow (d.word 2).toNat 65536 = true ∧ (s.span 11).free = true := by decide
theorem meets_spansCommanded_stage :
    let s := spanIs .active { state := .open_ }
    let d := cmd 0x0301 0 0x100 1
    d.byte 4 < 12 ∧ d.unlistedZero [8, 9, 10, 11, 12, 13] = true ∧ (s.span (d.byte 4)).state = .open_ ∧
      (d.word 2).toNat % 32 = 0 ∧ 1 ≤ d.half 12 ∧ d.half 12 ≤ 8192 ∧
      s.inWindow (d.word 2).toNat (32 * d.half 12) = true := by decide
theorem meets_spansCommanded_arm :
    let s := spanIs .standby staged
    let d := cmd 0x0302 0 100
    d.unlistedZero [8, 9, 10, 11, 12, 13, 14] = true ∧ d.byte 14 ≤ 1 ∧ (s.span (d.byte 4)).state = .staging ∧
      (Span.epochBound s (s.span 0) && !false && decide (100 % 65536 ≠ 0)) = false ∧ liesAhead 100 s.tick = true ∧
      tickAhead 100 s.tick ≤ 2 ^ 32 := by decide +kernel
theorem meets_spansEnd_close : (spanIs .active decided).spanc.spans.length = 16 ∧
    ((spanIs .active decided).span 0).decided = true ∧ ((spanIs .active decided).span 15).decided = false := by decide
theorem meets_spansEnd_outcome :
    let o : SpanOutcome := { span := 0, resultOffset := 0, tag := 5, armCmd := none, status := .ok, results := [], tick := 0 }
    [o].find? (fun o => o.span = 0) = some o := by decide
theorem meets_spansEnd_cleanup :
    let s := spanIs .active { staged with state := .committed, vis := true, clean := false }
    0 < s.spanc.spans.length ∧ (s.span 0).clean = false := by decide
theorem meets_spansAborted :
    let d := cmd 0x0303 0
    (spanIs .maintenance staged).inStates stSAYM = true ∧ d.byte 4 < 12 ∧ d.unlistedZero [] = true ∧
      ((spanIs .maintenance staged).span (d.byte 4)).state = .staging ∧ ((spanIs .active {}).span 0).state = .aborted := by
  decide

/-! Tables. -/

theorem meets_tablesCommanded_read :
    let d := cmd 0x0500 0xFF 3 0x3FFF 1 0x40
    d.byte 4 = 0xFF ∧ (dev .alarm).inStates stSAYML = true ∧ tblArgs (dev .alarm) d = none := by decide +kernel

/-- Region 0 of the seen-cache locked, with an insertion and a drain waiting. -/
def lockedTable : State :=
  { devReg .active (Reg.TBL_LOCK 2 0) 1 with tbl := { lockedAt := [(128, 0)], seen := [(3, { seed := 1, seq := 2, expiry := 0 })] } }

theorem meets_tablesCommanded_write :
    let d := cmd 0x0501 0xFF 3 0 1 0x40
    d.byte 4 = 0xFF ∧ lockedTable.inStates stSAY = true ∧ tblArgs lockedTable d = none ∧ d.byte 8 = 3 ∧
      lockedTable.locked 2 (regionOf 2 0) = true ∧ (readSeen (slice (lockedTable.readWin 0x40 64) 0 16)).2 = 0 ∧
      ((afind lockedTable.tbl.seen 3).map fun e => e.mark) = some .plain := by decide +kernel
theorem meets_tablesCommanded_lock : (dev .active).tidy ∧ (dev .active).takesWrites = true ∧ 2 < 3 ∧ 1 < 2 :=
  ⟨dev_tidy _ _, by decide⟩
theorem meets_tablesAdvance_wait :
    let w : WaitInsert := { table := 2, region := some 0, eui := 1, seq := 2, age := 10 }
    let s := { dev .active with tbl := { waits := [w] } }
    s.locked 2 0 = false ∧ (∀ q ∈ seenSlots 1 2, s.locked 2 (regionOf 2 q) = false) ∧ (s.seenFree 1 2).isSome = true ∧
      s.decidedOn ⟨.seen, seenKey 1 2⟩ = false ∧ risingKeys s.spanc.versions = true := by decide +kernel
theorem meets_tablesAdvance_expiry :
    let s := { lockedTable with time := { tickno := 65535 } }
    (afind s.tbl.lockedAt (64 * 2 + 0)) = some 0 ∧
      s.regFld Reg.TBL_LOCK_MAX 15 0 < (s.tick + 2 ^ 48 - (0 : TickNo).toNat) % 2 ^ 48 := by decide +kernel
theorem meets_tablesAdvance_drain :
    let e : EmEntry := { eui := 7 }
    let s := { dev .active with tbl := { em := [(ovfBase, e)], drainDue := true } }
    s.tbl.migration = none ∧ s.tbl.drainDue = true ∧ (s.tbl.em.filter fun e => decide (ovfBase ≤ e.1)) = [(ovfBase, e)] ∧
      afind s.tbl.em ovfBase = some e ∧ s.locked 0 (regionOf 0 ovfBase) = false ∧
      (s.freeSlot (emBucket s.tbl.seed0 e.eui)).isSome = true ∧ (∀ r < 64, s.locked 0 r = false) := by decide +kernel
theorem meets_tablesAdvance_age :
    let e : SeenEntry := { seed := 1, seq := 2, expiry := 0 }
    let s := { dev .active with tbl := { seen := [(3, e)] } }
    s.agedOut = [e] ∧ s.decidedOn ⟨.seen, seenKey 1 2⟩ = false ∧ risingKeys s.spanc.versions = true := by decide +kernel
theorem meets_tablesAdvance_held :
    let s := { spanIs .active decided with tbl := { seen := [(3, { seed := 1, seq := 2, expiry := 0 })] } }
    s.agedOut = [{ seed := 1, seq := 2, expiry := 0 }] ∧ s.decidedOn ⟨.seen, seenKey 1 2⟩ = true := by decide +kernel

/-! Transmissions. -/

/-- A cell claim of chain 0 on channel 2 of band A, of T0 3 ms. -/
def claim : Claim := { id := 4, chain := 0, band := 0, channel := 2, kind := .cell 0, rank := 5, t0 := 3000000, ramp := 20, femLead := 10 }

/-- A serving device that holds ILK_OUT and a claim. -/
def sending (c : Claim) (x : SysState := .active) (f : TrussParams → TrussParams := id) : State :=
  { dev x f with sys := { state := x, ilkOut := true }, rf := { claims := [c], piers := List.replicate 64 {} } }

theorem meets_transmissionsStart_tune :
    let s := sending claim .standby fun p => { p with calFull := false }
    s.claim 4 = some claim ∧ claim.stage = .claimed ∧ claim.ended = false ∧ s.calJob 0 = none ∧ s.tp.calFull = false := by
  decide
theorem meets_transmissionsStart_coex :
    let c := { claim with stage := .tuned, coex := true }
    let s := sending c
    s.claim 4 = some c ∧ c.ended = false ∧ c.reqAt ≤ (s.at_ 2990000).now ∧ s.sys.state = .active := by decide
theorem meets_transmissionsStart_lock :
    let c := { claim with stage := .tuned, blocked := true }
    let s := sending c .active fun p => { p with calFull := false }
    s.claim 4 = some c ∧ c.lock = none ∧ s.rank1Runs 0 = false ∧ (s.at_ 2900000).calBlock 0 = false ∧
      s.tp.calFull = false := by decide +kernel

/-- A region of one range for each band, 863 MHz to 870 MHz at 14 dBm with no limit of duty, dwell or listening. -/
def oneRange : List Byte :=
  let r := leBytes 863000000 4 ++ leBytes 870000000 4 ++ leBytes 56 2 ++ [1, 0] ++ List.replicate 20 0
  [0x72, 0x61, 0x50, 0x7A, 1, 0] ++ List.replicate 26 0 ++ ([1] ++ List.replicate 15 0) ++ r

/-- A tuned claim whose PSDU is protected, at its decision. -/
def ready : Claim := { claim with stage := .tuned, fTx := 868000000, power := 0, psdu := some [1, 2, 3], coex := true }
def deciding : State := { sending ready with par := { state := .sealed, slot0 := oneRange } }

theorem meets_transmissionsStart_decision :
    let z := ((deciding.at_ 2970000).setFld (Reg.TXC_COEX 0) 30 30 1).blankPiers 0 2
    deciding.claim 4 = some ready ∧ ready.stage = .tuned ∧ ready.ended = false ∧ ready.ask = none ∧
      ready.decisionAt ≤ (deciding.at_ 2970000).now ∧ (deciding.pier 0).ackClaim ≠ some 4 ∧
      (∀ y ∈ z.rf.claims, y.decidesFirst ready = false ∧ (y.ask = none ∨ y.band ≠ ready.band)) ∧
      deciding.mayEmit = true ∧ (z.ackSecured ready).psdu ≠ none := by decide +kernel
theorem meets_transmissionsStart_permitted :
    ((((deciding.at_ 2970000).setFld (Reg.TXC_COEX 0) 30 30 1).setClaim ready).parCheck
      { band := 0, channel := 2, fTx := 868000000, power := 0, from_ := 2980000, to_ := 3500000, ack := false, energy := [],
        listenTo := 2970000, earliest := 0, runs := [] }).2 = some (0, 0) := by decide +kernel
theorem meets_transmissionsStart_ramp :
    let c := { ready with stage := .decided, lock := some 2900000, slip := 5 }
    (sending c).claim 4 = some c ∧ c.stage = .decided ∧ c.ended = false ∧ c.ask = none ∧ c.lock ≠ none ∧
      c.t0 - c.ramp * 1000 ≤ ((sending c).at_ 2985000).now ∧
      ((sending c).at_ 2985000).now ≤ c.t0 - c.ramp * 1000 + c.slip * 1000 := by decide
theorem meets_transmissionsEnd_end :
    let c := { ready with stage := .on, seen := some (0, 0) }
    (sending c).claim 4 = some c ∧ c.stage = .on ∧ c.ended = false := by decide
theorem meets_transmissionsEnd_return :
    let c := { ready with stage := .ramped, ended := true, fem := true, sent := true }
    (sending c).claim 4 = some c ∧ c.ended = true ∧ c.fem = true ∧ c.refund = 0 := by decide

/-- A transmission on the air under a coexistence grant, with a continuous limit that has passed. -/
def onAir : Claim := { ready with stage := .on, runEnd := 3000000, upAt := 2980000 }

theorem meets_transmissionsEnd_grant : (sending onAir).claim onAir.id = some onAir ∧ onAir.seen = none ∧
    ((sending onAir).rf.claims.filter fun c => c.coex && decide (c.band = 0) && c.onAir) = [onAir] ∧ onAir.band = 0 := by
  decide
theorem meets_transmissionsEnd_backstop : (sending onAir).claim 4 = some onAir ∧ onAir.stage = .on ∧ onAir.ended = false ∧
    onAir.seen = none ∧ onAir.runEnd ≠ 0 ∧ onAir.runEnd < ((sending onAir).at_ 4000000).time.elapsed := by decide

/-- A wait for the acknowledgement of descriptor 0, with a try left. -/
def waiting (answering : Bool) : State :=
  { dev .active with rf := {
      waits := [{ claim := 4, desc := 0, peer := 5, seq := 0, level := 0, band := 0, channel := 2, openAt := 0, closeAt := 9 }]
      descs := [{ num := 0, ring := some 0, retries := 1 }], nextDesc := 1
      frames := if answering then [{ id := 0, sfd := 0, ends := 9, waits := [4], air := { type := .ack } }] else [] } }

theorem meets_transmissionsEnd_wait : (waiting true).mayAnswer 4 = true ∧ (waiting false).mayAnswer 4 = false ∧
    (waiting false).txDesc 0 = some { num := 0, ring := some 0, retries := 1 } ∧ (waiting false).orphaned 0 = false := by
  decide +kernel

/-! Pairs. -/

/-- One chip of a pair, on both heartbeat paths, after two ticks of silence and with the other's ring block known. -/
def paired (x : SysState) : State :=
  { devRegs x [(Reg.RED_CTRL, 0xB0000000), (Reg.RED_RSB_LO, 0x1000), (Reg.ETH_CTRL 0, 0x80000000)] with
    ethA := { link := true }
    red := { bothRun := 2, armed := true, peerHeld := true, armRun := 16, standbyTick := some 0 } }

/-- A heartbeat of UID 9 of STANDBY, but for its check word. -/
def beat : List Byte := [0, 0, 9, 0] ++ List.replicate 12 0 ++ [9] ++ List.replicate 11 0

theorem meets_pairBeats_send : (paired .standby).beats = true ∧ (paired .standby).hbEnabled 0 = true ∧
    (paired .standby).hbEnabled 1 = true ∧ (paired .standby).ethUp 0 = true := by decide +kernel
theorem meets_pairBeats_rx :
    let b := beat ++ leBytes (crc 2 beat).toNat 4
    b.length = 32 ∧ (crc 2 (b.take 28)).toNat = leAt b 0x1C 4 ∧ leAt b 0x10 8 ≠ (paired .active).key.uid.toNat ∧
      leAt b 3 1 = (paired .active).truss.truss.brId.toNat ∧ leAt b 4 4 = (paired .active).tick % 2 ^ 32 ∧
      (((paired .active).at_ 5).aliveCheck 0 (b.getD 0 0)).2 = true := by decide +kernel
theorem meets_pairBeats_miss :
    let s := paired .standby
    (!s.hbEnabled 0 || !s.red.hb0) = true ∧ (!s.hbEnabled 1 || !s.red.hb1) = true ∧ s.sys.state = .standby ∧
      s.red.armed = true ∧ s.red.peerHeld = true ∧ 3 ≤ s.red.bothRun + 1 := by decide +kernel
theorem meets_pairBeats_heard :
    let s := { paired .standby with red := { hb0 := true } }
    (!s.hbEnabled 0 || !s.red.hb0) = false := by decide
theorem meets_pairBeats_armed : (paired .standby).sys.state = .standby ∧ 16 ≤ (paired .standby).red.armRun := by decide

/-- Its interlocks. -/
def locked (x : SysState) (i o : Bool) : State := { paired x with sys := { state := x, ilkIn := i, ilkOut := o } }

theorem meets_interlockMoves_release : (locked .standby true false).sys.ilkIn = true ∧
    (locked .standby true false).standingBy = true ∧ (locked .active true true).standingBy = false := by decide
theorem meets_interlockMoves_active :
    let s := locked .active false true
    s.sys.ilkIn = false ∧ s.sys.ilkOut = true ∧ s.red.outSince + 1000 ≤ (s.at_ 5000).time.elapsed ∧ s.prio = false ∧
      (dev .standby).sys.ilkOut = false ∧ (dev .standby).pair = false := by decide +kernel
theorem meets_interlockMoves_stuck :
    let s := { locked .active true true with red := { forced := true } }
    s.red.forced = true ∧ s.red.outSince + s.tickNs ≤ (s.at_ 5000000).time.elapsed ∧
      bit (s.reg Reg.RED_STATUS) 29 = false := by decide +kernel
theorem meets_interlockMoves_rings :
    let s := { locked .active true true with red := { recover := true } }
    s.red.recover = true ∧ s.pair = true ∧ s.sys.state = .active := by decide +kernel
theorem meets_rolesChange_switch :
    let s := locked .active false true
    let d := cmd 0x1300 0xFF
    d.byte 4 = 0xFF ∧ s.sys.state = .active ∧ d.unlistedZero [] = true ∧ s.heldOff = false ∧
      s.lately s.red.standbyTick = true := by decide
theorem meets_rolesChange_release :
    let s := { locked .active false true with red := { leaving := [cmd 0x1300 0xFF] } }
    s.red.leaving ≠ [] ∧ s.airClear = true ∧ s.tbl.migration = none := by decide
theorem meets_rolesChange_serve :
    let s := { locked .structured false false with key := { lcLog := [{ target := .provisioned, complete := true }] } }
    s.key.lc = .provisioned ∧ (cmd 0x0001 0xFF 1).unlistedZero [8] = true ∧ (cmd 0x0001 0xFF 1).byte 8 = 1 ∧
      s.pair = true ∧ (cmd 0x0001 0xFF 0).byte 8 = 0 ∧ s.rsbAddr ≠ 0 ∧ bit (s.reg Reg.RED_STATUS) 27 = false ∧
      s.sys.ilkIn = false := by decide +kernel
theorem meets_rolesChange_entry :
    let s := { dev .structured with time := { elapsed := 2000 }, sys := { state := .structured, serve := [(cmd 0x0001 0xFF, true)] } }
    s.sys.state = .structured ∧ s.tbl.migration = none ∧ s.sys.serve = [(cmd 0x0001 0xFF, true)] ∧ s.sys.ilkOut = false ∧
      s.ilkClear = true := by decide

/-! Updates. -/

/-- A device with an update staging area and sessions as given. -/
def updating (x : SysState) (u : UpdSt) : State :=
  { devReg x Reg.UPD_CTRL 0x80000000 (fun p => { p with staging := { base := 0x4000000, size := 0x2200000 } }) with upd := u }

/-- The neighbour downstream, and a session that feeds it blocks. -/
def neighbour : HopEntry := { mac := [2, 0, 0, 0, 0, 9], brId := 9, flags := 0 }
def feeding : UpdSt :=
  { session := .receiving, imageId := 7, total := 20, mb := 1, next := 9, chain := [neighbour], chainAt := 1, down := .feeding,
    nextDown := 4, sendNext := 5, sentTo := 6, manifestOk := true, head := true, cfg := { rq := 9, retx := 100, hopTimeout := 500 } }

theorem meets_sessionsMove_offer : ((updating .active {}).at_ 5).offerReason 7 10 true = none ∧
    (updating .active {}).upd.session = .idle ∧ ((updating .active { session := .built }).at_ 5).offerReason 7 10 true = some 1 := by
  decide +kernel
theorem meets_sessionsMove_accept : (updating .active feeding).fromDown [2, 0, 0, 0, 0, 9] 7 = true ∧ 19 < feeding.total ∧
    feeding.down = .feeding ∧ feeding.nextDown < 6 ∧ 6 ≤ feeding.sentTo ∧ 6 ≠ feeding.total := by decide
theorem meets_sessionsMove_skip :
    let s := updating .active { feeding with down := .offered }
    s.upd.chain = neighbour :: [] ∧ s.fromDown [2, 0, 0, 0, 0, 9] 7 = true ∧ s.upd.down = .offered ∧
      s.upd.cfg.hopTimeout ≤ (s.at_ 1000000000).msSince s.upd.downSince := by decide

/-- Block 0 of image 7, whose manifest is two blocks, but for its check word, and with one. -/
def head0 : List Byte := leBytes 0x7A56426B 4 ++ leBytes 7 4 ++ leBytes 0 4 ++ leBytes 4096 4
def body0 : List Byte := head0 ++ List.replicate 4096 0
def block0 (w : Nat) : List Byte := body0 ++ leBytes w 4

theorem head0_fields (l : List Byte) : leAt (head0 ++ l) 0 4 = 0x7A56426B ∧ leAt (head0 ++ l) 4 4 = 7 ∧
    leAt (head0 ++ l) 8 4 = 0 ∧ leAt (head0 ++ l) 12 2 = 4096 := by
  have h : head0 = [0x6B, 0x42, 0x56, 0x7A, 7, 0, 0, 0, 0, 0, 0, 0, 0, 0x10, 0, 0] := by decide
  rw [h]
  simp [leAt, slice, leNat]
theorem leNat_leBytes (n w : Nat) (h : w < 256 ^ n) : leNat (leBytes w n) = w := by
  induction n generalizing w with
  | zero => simp at h; simp [leBytes, leNat, h]
  | succ k ih =>
    have e : w / 256 < 256 ^ k := by rw [Nat.pow_succ] at h; omega
    simp [leBytes, leNat, ih (w / 256) e]
    omega
theorem body0_length : body0.length = 4112 := by
  simp only [body0, head0, List.length_append, List.length_replicate]
  rfl
theorem block0_body (w : Nat) : slice (block0 w) 0 0x1010 = body0 := by
  simp [slice, block0, body0_length]
theorem block0_check (w : Nat) (h : w < 2 ^ 32) : leAt (block0 w) 0x1010 4 = w := by
  have e : (block0 w).drop 0x1010 = leBytes w 4 := by
    unfold block0
    exact List.drop_left' body0_length
  have l : (leBytes w 4).length = 4 := rfl
  simp only [leAt, slice, e, List.take_of_length_le (Nat.le_of_eq l), l, Nat.sub_self, List.replicate_zero, List.append_nil]
  exact leNat_leBytes 4 w h

/-- The hop that waits for it. -/
def hop0 : State := updating .active { session := .receiving, imageId := 7, total := 200, mb := 2 }

theorem meets_sessionsMove_block : hop0.upd.session = .receiving ∧ hop0.upd.head = false ∧ hop0.upd.next + 1 ≠ hop0.upd.mb := by
  decide
theorem meets_sessionsMove_judged : ∃ b, (hop0.at_ 5).judgeBlock b = .ok := by
  refine ⟨block0 (crc 2 body0).toNat, ?_⟩
  have h := block0_check _ (crc 2 body0).isLt
  have e := block0_body (crc 2 body0).toNat
  have l : (block0 (crc 2 body0).toNat).length = 4116 := by
    unfold block0
    rw [List.length_append, body0_length]
    rfl
  unfold State.judgeBlock
  rw [if_neg (by decide), if_neg]
  · rfl
  · rw [h, e, l]
    generalize (crc 2 body0).toNat = w
    obtain ⟨a, i, x, k⟩ := head0_fields (List.replicate 4096 0 ++ leBytes w 4)
    have f : block0 w = head0 ++ (List.replicate 4096 0 ++ leBytes w 4) := List.append_assoc _ _ _
    rw [f, a, i, x, k]
    rintro (n | n | n | n | n)
    · exact n rfl
    · exact n rfl
    · exact n rfl
    · exact n rfl
    · exact n rfl
theorem meets_sessionsMove_report : (updating .active feeding).tidy ∧ feeding.head = true ∧ (0 : Nat) < feeding.chainAt ∧
    0x17 ≤ 0x17 := ⟨⟨rfl, rfl, rfl, rfl, rfl, rfl⟩, by decide⟩
theorem meets_sessionsMove_send :
    let s := { updating .active feeding with
      que := { queues := [(9, { type := .rewind, consumer := 1, depthLog2 := 7, items := [{}, {}] })] } }
    s.upd.sendNext < s.upd.next ∧ s.upd.sendNext < s.upd.nextDown + 64 ∧ s.upd.manifestOk = true ∧
      (s.queue 9).type = .rewind ∧ (s.queue 9).consumer = 1 ∧ (s.queue 9).pointersBad = false ∧
      s.upd.sendNext - s.upd.nextDown < (s.queue 9).items.length := by decide
theorem meets_sessionsMove_retransmit :
    let s := updating .active feeding
    s.upd.outstanding = true ∧ s.upd.cfg.retx ≤ (s.at_ 1000000000).msSince s.upd.retxAt := by decide
theorem meets_sessionsMove_idle :
    let s := updating .active { feeding with head := false }
    s.upd.session = .receiving ∧ s.upd.head = false ∧
      4 * s.upd.cfg.hopTimeout ≤ (s.at_ 9000000000).msSince s.upd.lastBlock := by decide

/-- The manifest of a full image that is not encrypted. -/
def fullManifest : List Byte := [0, 0, 0, 0, 0, 0, 2] ++ List.replicate 313 0

theorem meets_imagesAreBuilt_build :
    let s := updating .standby { session := .building, man := fullManifest }
    s.upd.session = .building ∧ (readManifest s.upd.man).full = true ∧ (readManifest s.upd.man).encrypted = false := by
  decide +kernel
theorem meets_imagesAreBuilt_key : (dev .standby).imageKey 0 (readManifest fullManifest) = .ok [] := rfl
theorem meets_imagesAreBuilt_verify : (updating .structured { session := .verifying, man := fullManifest }).upd.session = .verifying := by
  decide
theorem meets_imagesAreBuilt_start :
    let s := { updating .structured {} with mem := [(0x10000004, 7), (0x10000020, 9)] }
    let d := cmd 0x1400 0xFF 0 10 0x100000
    d.byte 4 = 0xFF ∧ s.inStates stSAY = true ∧
      d.unlistedZero [8, 9, 10, 11, 12, 13, 14, 15, 16, 17, 18, 19, 20] = true ∧ d.byte 20 ≤ 63 ∧
      s.inWindow (d.word 2).toNat ((d.word 3).toNat * 4116) = true ∧ s.inWindow (d.word 4).toNat (8 * d.byte 20) = true ∧
      leAt (s.readWin 0 4116) 0x20 4 = 9 ∧ leAt (s.readWin 0 4116) 4 4 = 7 ∧ manifestBlocks 9 + 9 = (d.word 3).toNat ∧ s.upd.session.active = false ∧ s.offerReason 7 9 false = none := by
  decide +kernel
theorem meets_imagesAreBuilt_abort : (cmd 0x1402 0xFF).unlistedZero [] = true ∧ (updating .maintenance feeding).inStates stSAYM = true ∧
    feeding.session.active = true ∧ ({} : UpdSt).session.active = false := by decide
theorem meets_activations_activate :
    let s := updating .standby { session := .built }
    s.upd.session = .built ∧ s.auditFits 25 = true ∧ s.tbl.migration = none ∧ s.inStates stSAY = true := by decide
theorem meets_activations_resume : (updating .maintenance { activation := some (cmd 0x1401 0xFF) }).upd.activation =
    some (cmd 0x1401 0xFF) := by decide
theorem meets_activations_confirm :
    let s := { updating .active { trial := some 30000000000 } with evr := { running := true } }
    s.inStates [.active, .standby] = true ∧ s.upd.trial ≠ none ∧ s.evr.running = true ∧ s.evr.rsvUsed + 20 ≤ evrReserved := by
  decide
theorem meets_activations_expiry : (updating .active { trial := some 5 }).tidy ∧ (updating .active { trial := some 5 }).upd.trial ≠ none ∧
    ((updating .active { trial := some 5 }).at_ 5).trialLeft = 0 := ⟨⟨rfl, rfl, rfl, rfl, rfl, rfl⟩, by decide⟩
theorem meets_activations_resident :
    let s := updating .standby { manifestOk := true, next := 20, total := 20, man := fullManifest }
    let d := cmd 0x1404 0xFF s.boot.bank
    d.byte 8 < 2 ∧ d.unlistedZero [8] = true ∧ s.inStates stSAYM = true ∧ d.byte 8 = s.boot.bank ∧ s.upd.manifestOk = true ∧
      s.upd.next = s.upd.total ∧ (readManifest s.upd.man).full = true ∧ s.upd.down = .none := by decide +kernel
theorem meets_activations_recovery :
    { updating .boot {} with boot := { stage := .recovery } }.boot.stage = .recovery := by decide

/-! The machine. -/

theorem meets_stepsRunTheFront : { State.reset with pending := [.standbyArmed] }.pending = .standbyArmed :: [] := rfl
theorem meets_stepsKeepTheForms : State.reset.tidy ∧ ∃ t, step { State.reset with pending := [.standbyArmed] } = .next t :=
  ⟨⟨rfl, rfl, rfl, rfl, rfl, rfl⟩, _, rfl⟩
theorem meets_flashIsKept : Instr.changesFlash .standbyArmed = false ∧ ∃ t, Runs .standbyArmed State.reset t := ⟨rfl, _, rfl⟩
theorem meets_serviceIsKept : Instr.changesSchedule .standbyArmed = false ∧ Instr.changesTruss .standbyArmed = false ∧
    Instr.changesSessions .standbyArmed = false ∧ Instr.changesScans .standbyArmed = false := by decide
theorem meets_otherWidths : (1 : Nat) ≠ 4 := by decide

/-! ## The manual's worked examples -/

/-- Table 15-2: the CRC of ASCII "123456789" under each polynomial code. -/
theorem test_crc : (List.range 4).map (fun c => crc c [0x31, 0x32, 0x33, 0x34, 0x35, 0x36, 0x37, 0x38, 0x39]) =
    [0x2189, 0xCBF43926, 0xE3069283, 0xF4] := by decide +kernel

/-- CITY-64 Band A, and the device time of the manual's example. -/
def city (f : TrussParams → TrussParams := id) : State :=
  { dev .active (fun p => f { p with
      kA := 5
      kB := 2
      hopA := (List.range 129).map fun n => 37 * n % 129
      bandA := { p.bandA with firstChannel := 902200000, channelCount := 129, maxPsdu := 76 } }) with
    time := { dtime := 1700000000002345678, tickno := 340000000000 } }

/-- "Reading the time in CITY-64": the ASN of both bands, and the next epoch boundary. -/
theorem test_city_time : (city.asn 0, city.asn 1, epochAt (city.tick + 1)) = (68000000000, 170000000000, 340000047104) := by
  decide +kernel
/-- "Locating a context": the address of node 154,156's line. -/
theorem test_city_context : (city fun p => { p with contexts := { base := 0, size := 0x2000000 } }).ctxAddr 154156 = 0x012D1600 := by
  decide
/-- "The channels of one CITY-64 slot". -/
theorem test_city_channels : [126, 121].map (fun o => channelAt city.tp 0 68000000000 o) = [17, 90] ∧
    channelAt city.tp 0 68000000001 126 = 54 := by decide +kernel
/-- "The CITY-64 Band A template": a MAX_PSDU of 76 passes and one of 83 is refused. -/
theorem test_city_template : [76, 83].map (fun m => templateOk (city fun p => { p with bandA := { p.bandA with maxPsdu := m } }).tp
    { band := 0, txOffset := 2120, txAckGap := 1000, ackPsduMax := 30, txSlip := 20 }) = [true, false] := by decide +kernel
/-- "EXTRA_GUARD, with the defaults": 1,500 µs after 1,500 s in holdover, and 2,000 µs from 2,000 s on. -/
theorem test_extra_guard : [1500, 2000, 2500].map (fun (n : Nat) =>
    { city (fun p => { p with holdoverPpm := 100, holdoverGuardMax := 2000 }) with
      time := { dtime := BitVec.ofNat 64 (n * 1000000000), holdover := some 0 } }.extraGuard) = [1500, 2000, 2000] := by
  decide +kernel
/-- Table 12-7: the colours of six datagrams of 1,280 octets, and the buckets after the last. -/
theorem test_colours :
    let p : Policer := { cir := 2000, cbs := 4096, pir := 8000, pbs := 16384, tc := 4096000000, tp := 16384000000 }
    let r := [0, 50, 100, 150, 200, 1000].foldl (fun (a : List Colour × Policer) (t : Nat) =>
      let x := (a.2.fill (t * 1000000)).colour 1280
      (a.1 ++ [x.1], x.2)) ([], p)
    r.1 = [.green, .green, .green, .yellow, .yellow, .green] ∧ (r.2.tc, r.2.tp) = (976000000, 15104000000) := by decide +kernel

/-- "Pre-correcting the acknowledgement to node X": TXC_FREQ, TXC_PRE and the frequency word. -/
def nodeX : State :=
  { city (fun p => { p with calFull := false }) with
    rf := { frames := [{ id := 3, sfd := 0, ends := 0, cfo := -3412, ackClaim := some 4, air := { type := .data } }]
            claims := [{ id := 4, chain := 0, band := 0, channel := 17, kind := .ack (some 3), rank := 1, t0 := 1700000000003000000 }]
            piers := List.replicate 64 {} } }
theorem test_precorrection : ∃ t, exec (.tuneInstant 1700000000002800000 4) nodeX = .next t ∧
    t.reg (Reg.TXC_FREQ 0) = 905596588 ∧ t.reg (Reg.TXC_PRE 0) = 0xFFF2AC ∧
    t.rf.synths.map Synth.word = [22 * 2 ^ 25 + 21471974, 0, 0, 0] := ⟨_, rfl, by decide +kernel⟩

end Sys2Proof.Tests
end

/-! Register accesses by width (R4). -/

namespace Sys2Proof.Machine

theorem exec_registerWrite (a width : Nat) (v : Word) (s : State) :
    exec (.registerWrite a width v) s = .next (s.registerWrite a width v) := rfl

/-- R4, the write: the width is judged before the address and the value. -/
theorem State.registerWrite_of_width_ne {width : Nat} (h : width ≠ 4) (s : State) (a : Nat) (v : Word) :
    s.registerWrite a width v = s := if_pos (.inl h)

/-- R4, the read. -/
theorem State.readAccess_of_width_ne {width : Nat} (h : width ≠ 4) (s : State) (a : Nat) :
    s.readAccess a width = 0 := if_pos h

/-- Settles O59: the write leaves the state as it is, and the read gives 0, each by its own width check. -/
theorem otherWidths : Obligations.otherWidths := by
  intro s a width v h
  constructor
  · rw [exec_registerWrite, State.registerWrite_of_width_ne h]
  · exact State.readAccess_of_width_ne h s a

end Sys2Proof.Machine

/-! Spans: what an abort does to a span (R75, R87). -/

namespace Sys2Proof.Machine

theorem exec_spanAbort (d : Desc) (s : State) : exec (.spanAbort d) s = .next (s.spanAbort d) := rfl

theorem Keeps.onlyIn {W : List Part} {s t : State} (h : Keeps W s t) : OnlyIn W s t := by
  obtain ⟨-, -, honly⟩ := h
  exact honly

/-- The model's replacement of an entry is the library's. -/
theorem lset_eq_set {α : Type} (l : List α) (i : Nat) (x : α) : lset l i x = l.set i x := by
  induction l generalizing i with
  | nil => rfl
  | cons y r ih =>
    cases i with
    | zero => rfl
    | succ k => exact congrArg (y :: ·) (ih k)

/-! ### The state of one span -/

theorem Span.keeps_iff (x : Span) : x.keeps = true ↔ x.state = .open_ ∨ x.state = .staging ∨ x.state = .armed := by
  simp [Span.keeps, or_assoc]

theorem Span.keeps_eq_false_iff (x : Span) : x.keeps = false ↔ x.state = .committed ∨ x.state = .aborted := by
  cases h : x.state <;> simp [Span.keeps, h]

/-! ### Reading the spans after a change -/

theorem State.span_setSpan_same {s : State} {n : Nat} (h : n < s.spanc.spans.length) (x : Span) :
    (s.setSpan n x).span n = x := by
  simp [State.span, State.setSpan, lset_eq_set, h]

theorem State.span_setSpan_of_ne {s : State} {n m : Nat} (h : m ≠ n) (x : Span) :
    (s.setSpan n x).span m = s.span m := by
  simp [State.span, State.setSpan, lset_eq_set, List.getElem?_set_ne h.symm]

@[simp] theorem State.span_complete (s : State) (d : Desc) (st : Status) (b4 b8 b12 : Word) (n : Nat) :
    (s.complete d st b4 b8 b12).span n = s.span n := rfl

/-! ### What the abort of a span does (R87) -/

section
variable {s : State} {n : Nat} {st : Status} {item : SpanItem → Status × Nat} {tick : Nat}

/-- The aborted span, its cleanup due and its SPAN_ARM no longer owed. -/
theorem State.span_abortSpan_same (h : n < s.spanc.spans.length) :
    (s.abortSpan n st item tick).span n =
      { s.span n with state := .aborted, clean := false, decided := false, armCmd := none,
                      target := BitVec.ofNat 48 tick } :=
  State.span_setSpan_same (s := s.reportSpan n st item tick) h _

theorem State.span_abortSpan_of_ne {m : Nat} (h : m ≠ n) : (s.abortSpan n st item tick).span m = s.span m :=
  State.span_setSpan_of_ne (s := s.reportSpan n st item tick) h _

/-- The outcome to be written: the status given, and a result for every item. -/
theorem State.abortSpan_outcomes : (s.abortSpan n st item tick).spanc.outcomes = s.spanc.outcomes ++
    [{ span := n, resultOffset := (s.span n).resultOffset, tag := (s.span n).openTag, armCmd := (s.span n).armCmd,
       status := st, results := (s.span n).items.map item, tick := BitVec.ofNat 48 tick }] := rfl

@[simp] theorem State.abortSpan_hif : (s.abortSpan n st item tick).hif = s.hif :=
  (State.abortSpan_keeps (Within.self _) (Keeps.refl s)).part .hif rfl

end

/-! ### The commands -/

@[simp] theorem State.rejectState_held (s : State) (d : Desc) (b4 : Word) :
    (s.rejectState d b4).hif.held = s.hif.held ++ [{ tag := d.tag, status := .state, b4 := b4 }] := by
  simp [State.rejectState, State.rejectNote]

/-- A SPAN command that its state, its span and its reserved bytes let through does what its own rule says (R69). -/
theorem State.spanCommand_of_accepted {s : State} {d : Desc} {states : List SysState} {used : List Nat}
    (hst : s.inStates states = true) (hn : d.byte 4 < 12) (hz : d.unlistedZero used = true)
    (k : State → Nat → State) (b4 : Word) : s.spanCommand d states used k b4 = k s (d.byte 4) := by
  simp [State.spanCommand, hst, hz, Nat.not_le.2 hn]

section
variable {s : State} {d : Desc} (hst : s.inStates stSAYM = true) (hn : d.byte 4 < 12) (hz : d.unlistedZero [] = true)
include hst hn hz

/-- SPAN_ABORT of an OPEN, STAGING or ARMED span (R75). -/
theorem State.spanAbort_of_keeps (hk : (s.span (d.byte 4)).keeps = true) : s.spanAbort d =
    (s.abortSpan (d.byte 4) .aborted (fun _ => (.aborted, 0)) (s.span (d.byte 4)).decidedIn).complete d .ok :=
  (State.spanCommand_of_accepted hst hn hz _ 0).trans (if_pos hk)

/-- SPAN_ABORT of a COMMITTED or ABORTED span (R75). -/
theorem State.spanAbort_of_ended (hk : (s.span (d.byte 4)).keeps = false) : s.spanAbort d = s.rejectState d :=
  (State.spanCommand_of_accepted hst hn hz _ 0).trans (if_neg (Bool.eq_false_iff.1 hk))

end

/-- Settles O60: R75 splits on whether the span has ended. One that has not is aborted by `State.abortSpan`; one that has
is answered by `State.rejectState`. -/
theorem spansAborted : Obligations.spansAborted := by
  intro s d x hlen hst hn hz hx
  subst hx
  constructor
  · intro hlive
    have hrun := State.spanAbort_of_keeps hst hn hz ((Span.keeps_iff _).2 hlive)
    have hin : d.byte 4 < s.spanc.spans.length := by omega
    refine ⟨_, (exec_spanAbort d s).trans (congrArg _ hrun), ?_, ?_, ?_, ?_, ?_, ?_⟩
    · rw [State.span_complete, State.span_abortSpan_same hin]
    · rw [State.span_complete, State.span_abortSpan_same hin]
    · exact fun m hm => State.span_abortSpan_of_ne hm
    · exact ⟨_, State.abortSpan_outcomes, rfl, rfl, rfl, rfl, rfl⟩
    · rw [State.complete_held, State.abortSpan_hif]
    · have hwithin : Within [.spanc] [.hif, .spanc] := (Within.self _).mono rfl
      exact (State.complete_keeps ((Within.self _).mono rfl) (State.abortSpan_keeps hwithin (Keeps.refl s))).onlyIn
  · intro hended
    have hrun := State.spanAbort_of_ended hst hn hz ((Span.keeps_eq_false_iff _).2 hended)
    refine ⟨_, (exec_spanAbort d s).trans (congrArg _ hrun), ?_, ?_, ?_⟩
    · exact State.rejectState_spanc s d
    · exact State.rejectState_held s d 0
    · exact (State.rejectState_keeps ((Within.self _).mono rfl) (Keeps.refl s)).onlyIn

end Sys2Proof.Machine

/-! What every command does to the state (O55 to O58): each has an effect, leaves the waiting commands as they are, keeps the
sparse stores in their canonical forms, and changes the flash, the schedule, the truss, the sessions and the check units only
where the lists of Safety.lean name it. All of it is one lemma over the commands, `exec_keeps`. -/

namespace Sys2Proof.Machine

/-- May command `c` change part `p`: for the five parts Safety.lean lists commands for, what it lists. -/
def Instr.mayChange (c : Sys2Proof.Instr) (p : Part) : Bool :=
  match p with
  | .flash => Instr.changesFlash c
  | .sch => Instr.changesSchedule c
  | .truss => Instr.changesTruss c
  | .upd => Instr.changesSessions c
  | .chk => Instr.changesScans c
  | _ => true

/-- The parts of a state. -/
def Part.every : List Part :=
  [.sys, .time, .truss, .evr, .hif, .spanc, .sch, .tbl, .que, .tol, .key, .cip, .par, .cal, .rf, .red, .chk, .boot, .upd,
   .flash, .ethA, .ethB, .regs, .regWrites, .ctxs, .mem, .outbox, .free]

/-- The parts command `c` may change. -/
def Instr.parts (c : Sys2Proof.Instr) : List Part := Part.every.filter (Instr.mayChange c)

theorem Instr.contains_parts_eq_false {c : Sys2Proof.Instr} {p : Part} (h : Instr.mayChange c p = false) :
    (Instr.parts c).contains p = false := by
  simp [Instr.parts, h]

theorem partsIn {c : Sys2Proof.Instr} {L : List Part} (h : (L.all fun p => (Instr.parts c).contains p) = true) :
    Within L (Instr.parts c) :=
  (Within.self _).mono h

/-- Every command answers a next state, and does to the state it is given what its operation's lemma says. -/
theorem exec_keeps (c : Sys2Proof.Instr) (s : State) : ∃ t, exec c s = .next t ∧ Keeps (Instr.parts c) s t := by
  cases c with
  | coldReset _ => exact ⟨_, rfl, State.coldReset_keeps (partsIn rfl) (Keeps.refl s)⟩
  | resetRelease _ => exact ⟨_, rfl, State.resetRelease_keeps (partsIn rfl) (Keeps.refl s)⟩
  | warmReset _ => exact ⟨_, rfl, State.warmReset_keeps (partsIn rfl) (Keeps.refl s)⟩
  | watchdogExpiry _ => exact ⟨_, rfl, State.watchdogExpiry_keeps (partsIn rfl) (Keeps.refl s)⟩
  | brownOut => exact ⟨_, rfl, State.brownOut_keeps (partsIn rfl) (Keeps.refl s)⟩
  | supplyGlitch _ _ => exact ⟨_, rfl, State.supplyGlitch_keeps (partsIn rfl) (Keeps.refl s)⟩
  | tamper _ _ _ => exact ⟨_, rfl, State.tamper_keeps (partsIn rfl) (Keeps.refl s)⟩
  | clockLoss _ _ => exact ⟨_, rfl, State.clockLoss_keeps (partsIn rfl) (Keeps.refl s)⟩
  | overTemperature _ _ => exact ⟨_, rfl, State.overTemperature_keeps (partsIn rfl) (Keeps.refl s)⟩
  | uncorrectableError _ _ _ => exact ⟨_, rfl, State.uncorrectableError_keeps (partsIn rfl) (Keeps.refl s)⟩
  | aonReset => exact ⟨_, rfl, State.aonReset_keeps (partsIn rfl) (Keeps.refl s)⟩
  | pePerst _ => exact ⟨_, rfl, State.pePerst_keeps (partsIn rfl) (Keeps.refl s)⟩
  | loaderBoot _ _ _ => exact ⟨_, rfl, State.loaderBoot_keeps (partsIn rfl) (Keeps.refl s)⟩
  | calibrationSweep _ => exact ⟨_, rfl, State.calibrationSweep_keeps (partsIn rfl) (Keeps.refl s)⟩
  | tickEdge _ => exact ⟨_, rfl, State.tickEdge_keeps (partsIn rfl) (Keeps.refl s)⟩
  | workItemLate _ _ => exact ⟨_, rfl, State.workItemLate_keeps (partsIn rfl) (Keeps.refl s)⟩
  | clippingStep _ _ => exact ⟨_, rfl, State.clippingStep_keeps (partsIn rfl) (Keeps.refl s)⟩
  | commitWindowClose _ => exact ⟨_, rfl, State.commitWindowClose_keeps (partsIn rfl) (Keeps.refl s)⟩
  | spanOutcome _ => exact ⟨_, rfl, State.spanOutcome_keeps (partsIn rfl) (Keeps.refl s)⟩
  | spanCleanup _ => exact ⟨_, rfl, State.spanCleanup_keeps (partsIn rfl) (Keeps.refl s)⟩
  | cellResolution _ _ => exact ⟨_, rfl, State.cellResolution_keeps (partsIn rfl) (Keeps.refl s)⟩
  | calJobPlacement _ => exact ⟨_, rfl, State.calJobPlacement_keeps (partsIn rfl) (Keeps.refl s)⟩
  | calJobComplete _ _ => exact ⟨_, rfl, State.calJobComplete_keeps (partsIn rfl) (Keeps.refl s)⟩
  | mandatoryRecalibration _ _ => exact ⟨_, rfl, State.mandatoryRecalibration_keeps (partsIn rfl) (Keeps.refl s)⟩
  | compactCalibration _ _ => exact ⟨_, rfl, State.compactCalibration_keeps (partsIn rfl) (Keeps.refl s)⟩
  | calSynth _ => exact ⟨_, rfl, State.calSynth_keeps (partsIn rfl) (Keeps.refl s)⟩
  | crowdWindowEnd _ => exact ⟨_, rfl, State.crowdWindowEnd_keeps (partsIn rfl) (Keeps.refl s)⟩
  | ppsEdge _ _ => exact ⟨_, rfl, State.ppsEdge_keeps (partsIn rfl) (Keeps.refl s)⟩
  | ppsLoss _ => exact ⟨_, rfl, State.ppsLoss_keeps (partsIn rfl) (Keeps.refl s)⟩
  | ptpMessage _ _ _ _ => exact ⟨_, rfl, State.ptpMessage_keeps (partsIn rfl) (Keeps.refl s)⟩
  | ptpLoss _ => exact ⟨_, rfl, State.ptpLoss_keeps (partsIn rfl) (Keeps.refl s)⟩
  | acquisitionSearchTimeout _ => exact ⟨_, rfl, State.searchTimeout_keeps (partsIn rfl) (Keeps.refl s)⟩
  | lockAchieved => exact ⟨_, rfl, State.lockAchieved_keeps (partsIn rfl) (Keeps.refl s)⟩
  | extraGuardCapped _ => exact ⟨_, rfl, State.guardCapped_keeps (partsIn rfl) (Keeps.refl s)⟩
  | timeSet _ => exact ⟨_, rfl, State.timeSet_keeps (partsIn rfl) (Keeps.refl s)⟩
  | ppsOutPulse _ => exact ⟨_, rfl, State.ppsOut_keeps (partsIn rfl) (Keeps.refl s)⟩
  | dtimeSnapshot _ => exact ⟨_, rfl, State.dtimeSnapshot_keeps (partsIn rfl) (Keeps.refl s)⟩
  | trussReload _ => exact ⟨_, rfl, State.trussReload_keeps (partsIn rfl) (Keeps.refl s)⟩
  | trussReloadComplete _ => exact ⟨_, rfl, State.trussReloadComplete_keeps (partsIn rfl) (Keeps.refl s)⟩
  | trussRead _ => exact ⟨_, rfl, State.trussRead_keeps (partsIn rfl) (Keeps.refl s)⟩
  | spanOpen _ => exact ⟨_, rfl, State.unlessHeld_keeps (partsIn rfl) (Keeps.refl s) fun _ => State.spanOpen_keeps (partsIn rfl)⟩
  | spanStage _ => exact ⟨_, rfl, State.unlessHeld_keeps (partsIn rfl) (Keeps.refl s) fun _ => State.spanStage_keeps (partsIn rfl)⟩
  | spanArm _ => exact ⟨_, rfl, State.unlessHeld_keeps (partsIn rfl) (Keeps.refl s) fun _ => State.spanArm_keeps (partsIn rfl)⟩
  | spanAbort _ => exact ⟨_, rfl, State.spanAbort_keeps (partsIn rfl) (Keeps.refl s)⟩
  | rxWindowOpen _ _ => exact ⟨_, rfl, State.rxWindowOpen_keeps (partsIn rfl) (Keeps.refl s)⟩
  | rxWindowClose _ _ => exact ⟨_, rfl, State.rxWindowClose_keeps (partsIn rfl) (Keeps.refl s)⟩
  | preambleDetect _ _ _ => exact ⟨_, rfl, State.preambleDetect_keeps (partsIn rfl) (Keeps.refl s)⟩
  | sfdFound _ _ _ => exact ⟨_, rfl, State.sfdFound_keeps (partsIn rfl) (Keeps.refl s)⟩
  | sfdTimeout _ _ => exact ⟨_, rfl, State.sfdTimeout_keeps (partsIn rfl) (Keeps.refl s)⟩
  | phrReceived _ _ _ => exact ⟨_, rfl, State.phrReceived_keeps (partsIn rfl) (Keeps.refl s)⟩
  | frameEnd _ _ _ _ _ => exact ⟨_, rfl, State.frameEnd_keeps (partsIn rfl) (Keeps.refl s)⟩
  | macFrameRx _ _ => exact ⟨_, rfl, State.macFrameTaken_keeps (partsIn rfl) (Keeps.refl s)⟩
  | cipherDispatch _ _ => exact ⟨_, rfl, State.cipherDispatch_keeps (partsIn rfl) (Keeps.refl s)⟩
  | cipherJobComplete _ _ => exact ⟨_, rfl, State.cipherJobComplete_keeps (partsIn rfl) (fun _ _ _ => State.attestEnd_keeps (partsIn rfl)) (Keeps.refl s)⟩
  | learnHoldClose _ => exact ⟨_, rfl, State.learnHoldClose_keeps (partsIn rfl) (Keeps.refl s)⟩
  | reassemblyTimeout _ => exact ⟨_, rfl, State.reassemblyTimeout_keeps (partsIn rfl) (Keeps.refl s)⟩
  | ackCheckDeadline _ _ => exact ⟨_, rfl, State.ackCheckDeadline_keeps (partsIn rfl) (Keeps.refl s)⟩
  | txDescriptorFetch _ _ _ => exact ⟨_, rfl, State.txFetch_keeps (partsIn rfl) (Keeps.refl s)⟩
  | floodRepetition _ => exact ⟨_, rfl, State.floodRepetition_keeps (partsIn rfl) (Keeps.refl s)⟩
  | slowMark _ _ => exact ⟨_, rfl, State.slowMark_keeps (partsIn rfl) (Keeps.refl s)⟩
  | slowStop _ _ => exact ⟨_, rfl, State.slowStop_keeps (partsIn rfl) (fun _ _ _ => State.attestEnd_keeps (partsIn rfl)) (Keeps.refl s)⟩
  | tuneInstant _ _ => exact ⟨_, rfl, State.tuneInstant_keeps (partsIn rfl) (Keeps.refl s)⟩
  | coexRequest _ _ => exact ⟨_, rfl, State.coexRequest_keeps (partsIn rfl) (Keeps.refl s)⟩
  | synthLock _ _ => exact ⟨_, rfl, State.synthLock_keeps (partsIn rfl) (Keeps.refl s)⟩
  | decisionInstant _ _ _ _ => exact ⟨_, rfl, State.decisionInstant_keeps (partsIn rfl) (Keeps.refl s)⟩
  | rampUpStart _ _ _ => exact ⟨_, rfl, State.rampUpStart_keeps (partsIn rfl) (Keeps.refl s)⟩
  | txEnd _ _ _ _ => exact ⟨_, rfl, State.txEnd_keeps (partsIn rfl) (Keeps.refl s)⟩
  | femReturn _ _ => exact ⟨_, rfl, State.femReturn_keeps (partsIn rfl) (Keeps.refl s)⟩
  | blankingEnd _ _ => exact ⟨_, rfl, State.blankingEnd_keeps (partsIn rfl) (Keeps.refl s)⟩
  | coexGrantWithdrawn _ _ => exact ⟨_, rfl, State.coexGrantWithdrawn_keeps (partsIn rfl) (Keeps.refl s)⟩
  | parapetBackstop _ _ => exact ⟨_, rfl, State.parapetBackstop_keeps (partsIn rfl) (Keeps.refl s)⟩
  | ackWaitClose _ _ => exact ⟨_, rfl, State.ackWaitClose_keeps (partsIn rfl) (Keeps.refl s)⟩
  | lifetimeExpiry _ => exact ⟨_, rfl, State.lifetimeExpiry_keeps (partsIn rfl) (Keeps.refl s)⟩
  | dutyBucketAdvance _ => exact ⟨_, rfl, State.dutyAdvance_keeps (partsIn rfl) (Keeps.refl s)⟩
  | parProgram _ => exact ⟨_, rfl, State.parProgram_keeps (partsIn rfl) (Keeps.refl s)⟩
  | parBurnComplete _ => exact ⟨_, rfl, State.parBurnComplete_keeps (partsIn rfl) (Keeps.refl s)⟩
  | parRead _ => exact ⟨_, rfl, State.parRead_keeps (partsIn rfl) (Keeps.refl s)⟩
  | schGlRead _ => exact ⟨_, rfl, State.schGlRead_keeps (partsIn rfl) (Keeps.refl s)⟩
  | cipSubmit _ => exact ⟨_, rfl, State.cipSubmit_keeps (partsIn rfl) (Keeps.refl s)⟩
  | cipSelftest _ => exact ⟨_, rfl, State.cipSelfTest_keeps (partsIn rfl) (fun _ _ _ => State.attestEnd_keeps (partsIn rfl)) (Keeps.refl s)⟩
  | keyRestore _ => exact ⟨_, rfl, State.keyRestore_keeps (partsIn rfl) (Keeps.refl s)⟩
  | keyDerive _ => exact ⟨_, rfl, State.keyDeriveCmd_keeps (partsIn rfl) (Keeps.refl s)⟩
  | keyImport _ => exact ⟨_, rfl, State.keyImport_keeps (partsIn rfl) (Keeps.refl s)⟩
  | keyLcSet _ => exact ⟨_, rfl, State.keyLcCommand_keeps (partsIn rfl) (Keeps.refl s)⟩
  | keyAlarmAck _ => exact ⟨_, rfl, State.keyAlarmAck_keeps (partsIn rfl) (Keeps.refl s)⟩
  | tblRead _ => exact ⟨_, rfl, State.tblRead_keeps (partsIn rfl) (Keeps.refl s)⟩
  | tblWrite _ => exact ⟨_, rfl, State.tblWrite_keeps (partsIn rfl) (Keeps.refl s)⟩
  | tblLockWrite _ _ _ => exact ⟨_, rfl, State.tblLockWrite_keeps (partsIn rfl) (Keeps.refl s)⟩
  | lockWaitApply _ _ => exact ⟨_, rfl, State.lockWaitApply_keeps (partsIn rfl) (Keeps.refl s)⟩
  | lockExpiry _ _ => exact ⟨_, rfl, State.lockExpiry_keeps (partsIn rfl) (Keeps.refl s)⟩
  | overflowDrain => exact ⟨_, rfl, State.overflowDrain_keeps (partsIn rfl) (Keeps.refl s)⟩
  | migrationEnd _ => exact ⟨_, rfl, State.migrationEnd_keeps (partsIn rfl) (Keeps.refl s)⟩
  | seenAgeOut => exact ⟨_, rfl, State.seenAgeOut_keeps (partsIn rfl) (Keeps.refl s)⟩
  | quePop _ => exact ⟨_, rfl, State.quePop_keeps (partsIn rfl) (Keeps.refl s)⟩
  | quePopFree _ => exact ⟨_, rfl, State.quePopFree_keeps (partsIn rfl) (Keeps.refl s)⟩
  | queDropRest _ _ => exact ⟨_, rfl, State.queDropRest_keeps (partsIn rfl) (Keeps.refl s)⟩
  | queMark _ _ => exact ⟨_, rfl, State.queMark_keeps (partsIn rfl) (Keeps.refl s)⟩
  | queRewind _ _ => exact ⟨_, rfl, State.queRewind_keeps (partsIn rfl) (Keeps.refl s)⟩
  | queRelease _ _ => exact ⟨_, rfl, State.queRelease_keeps (partsIn rfl) (Keeps.refl s)⟩
  | rxDelivery _ => exact ⟨_, rfl, State.rxDelivery_keeps (partsIn rfl) (Keeps.refl s)⟩
  | chkScan _ => exact ⟨_, rfl, State.chkScan_keeps (partsIn rfl) (Keeps.refl s)⟩
  | chkScanComplete _ => exact ⟨_, rfl, State.chkScanComplete_keeps (partsIn rfl) (Keeps.refl s)⟩
  | chkCfgWrite _ _ => exact ⟨_, rfl, State.chkCfgWrite_keeps (partsIn rfl) (Keeps.refl s)⟩
  | contextScrub => exact ⟨_, rfl, State.contextScrub_keeps (partsIn rfl) (Keeps.refl s)⟩
  | attest _ => exact ⟨_, rfl, State.attest_keeps (partsIn rfl) (Keeps.refl s)⟩
  | attestRequestRx _ _ _ => exact ⟨_, rfl, State.attestRequestRx_keeps (partsIn rfl) (Keeps.refl s)⟩
  | attestReport => exact ⟨_, rfl, State.attestReportOut_keeps (partsIn rfl) (Keeps.refl s)⟩
  | bootAttestPub _ => exact ⟨_, rfl, State.bootAttestPub_keeps (partsIn rfl) (Keeps.refl s)⟩
  | bootMrExtend _ => exact ⟨_, rfl, State.bootMrExtend_keeps (partsIn rfl) (Keeps.refl s)⟩
  | offer _ _ _ _ _ _ _ => exact ⟨_, rfl, State.viaOffer_keeps (partsIn rfl) (Keeps.refl s)⟩
  | accept _ _ _ _ => exact ⟨_, rfl, State.viaAccept_keeps (partsIn rfl) (Keeps.refl s)⟩
  | refuse _ _ _ _ => exact ⟨_, rfl, State.viaRefuse_keeps (partsIn rfl) (Keeps.refl s)⟩
  | block _ _ => exact ⟨_, rfl, State.viaBlock_keeps (partsIn rfl) (Keeps.refl s)⟩
  | ack _ _ _ _ => exact ⟨_, rfl, State.viaAck_keeps (partsIn rfl) (Keeps.refl s)⟩
  | report _ _ _ _ => exact ⟨_, rfl, State.viaReport_keeps (partsIn rfl) (Keeps.refl s)⟩
  | viaductBlockSend _ => exact ⟨_, rfl, State.viaBlockSend_keeps (partsIn rfl) (Keeps.refl s)⟩
  | viaductRetransmit _ => exact ⟨_, rfl, State.viaRetransmit_keeps (partsIn rfl) (Keeps.refl s)⟩
  | hopSkip _ => exact ⟨_, rfl, State.hopSkip_keeps (partsIn rfl) (Keeps.refl s)⟩
  | sessionIdleTimeout _ => exact ⟨_, rfl, State.sessionIdleTimeout_keeps (partsIn rfl) (Keeps.refl s)⟩
  | imageBuild _ _ => exact ⟨_, rfl, State.imageBuild_keeps (partsIn rfl) (Keeps.refl s)⟩
  | imageVerify _ => exact ⟨_, rfl, State.imageVerify_keeps (partsIn rfl) (Keeps.refl s)⟩
  | updStart _ => exact ⟨_, rfl, State.updStart_keeps (partsIn rfl) (Keeps.refl s)⟩
  | updAbort _ => exact ⟨_, rfl, State.updAbort_keeps (partsIn rfl) (Keeps.refl s)⟩
  | updActivate _ => exact ⟨_, rfl, State.updActivate_keeps (partsIn rfl) (Keeps.refl s)⟩
  | activationResume _ => exact ⟨_, rfl, State.activationResume_keeps (partsIn rfl) (Keeps.refl s)⟩
  | updConfirm _ => exact ⟨_, rfl, State.updConfirm_keeps (partsIn rfl) (Keeps.refl s)⟩
  | trialExpiry _ => exact ⟨_, rfl, State.trialExpiry_keeps (partsIn rfl) (Keeps.refl s)⟩
  | updResident _ _ => exact ⟨_, rfl, State.updResident_keeps (partsIn rfl) (Keeps.refl s)⟩
  | heartbeatSend _ _ => exact ⟨_, rfl, State.heartbeatSend_keeps (partsIn rfl) (Keeps.refl s)⟩
  | heartbeatRx _ _ _ => exact ⟨_, rfl, State.heartbeatRx_keeps (partsIn rfl) (Keeps.refl s)⟩
  | heartbeatMiss _ => exact ⟨_, rfl, State.heartbeatMiss_keeps (partsIn rfl) (Keeps.refl s)⟩
  | standbyArmed => exact ⟨_, rfl, State.standbyArmed_keeps (partsIn rfl) (Keeps.refl s)⟩
  | ilkInRelease _ => exact ⟨_, rfl, State.ilkInRelease_keeps (partsIn rfl) (Keeps.refl s)⟩
  | ilkInActive _ => exact ⟨_, rfl, State.ilkInActive_keeps (partsIn rfl) (Keeps.refl s)⟩
  | stuckCheck _ => exact ⟨_, rfl, State.stuckCheck_keeps (partsIn rfl) (Keeps.refl s)⟩
  | takeoverRingRecovery _ _ => exact ⟨_, rfl, State.ringRecovery_keeps (partsIn rfl) (Keeps.refl s)⟩
  | redSwitch _ => exact ⟨_, rfl, State.redSwitch_keeps (partsIn rfl) (Keeps.refl s)⟩
  | switchoverRelease _ => exact ⟨_, rfl, State.switchoverRelease_keeps (partsIn rfl) (Keeps.refl s)⟩
  | sysServe _ => exact ⟨_, rfl, State.sysServe_keeps (partsIn rfl) (Keeps.refl s)⟩
  | serveEntry => exact ⟨_, rfl, State.serveEntry_keeps (partsIn rfl) (Keeps.refl s)⟩
  | evrRead _ => exact ⟨_, rfl, State.evrRead_keeps (partsIn rfl) (Keeps.refl s)⟩
  | evrWrite _ => exact ⟨_, rfl, State.evrWrite_keeps (partsIn rfl) (Keeps.refl s)⟩
  | evrClear _ => exact ⟨_, rfl, State.evrClear_keeps (partsIn rfl) (Keeps.refl s)⟩
  | hostRingProdWrite _ _ => exact ⟨_, rfl, State.hostProdWrite_keeps (partsIn rfl) (Keeps.refl s)⟩
  | hostRingConsWrite _ _ => exact ⟨_, rfl, State.hostConsWrite_keeps (partsIn rfl) (Keeps.refl s)⟩
  | commandFetch _ => exact ⟨_, rfl, State.commandFetch_keeps (partsIn rfl) (Keeps.refl s)⟩
  | phaseReread _ _ _ => exact ⟨_, rfl, State.phaseReread_keeps (partsIn rfl) (Keeps.refl s)⟩
  | completionWrite => exact ⟨_, rfl, State.completionWrite_keeps (partsIn rfl) (Keeps.refl s)⟩
  | interruptModerationExpiry _ _ => exact ⟨_, rfl, State.moderationExpiry_keeps (partsIn rfl) (Keeps.refl s)⟩
  | hifNop _ => exact ⟨_, rfl, State.hifNop_keeps (partsIn rfl) (Keeps.refl s)⟩
  | ctxRead _ => exact ⟨_, rfl, State.ctxRead_keeps (partsIn rfl) (Keeps.refl s)⟩
  | ctxUpdate _ => exact ⟨_, rfl, State.ctxUpdate_keeps (partsIn rfl) (Keeps.refl s)⟩
  | ctxRepair _ => exact ⟨_, rfl, State.ctxUpdate_keeps (partsIn rfl) (Keeps.refl s)⟩
  | bar2Access _ _ _ => exact ⟨_, rfl, State.bar2Access_keeps (partsIn rfl) (Keeps.refl s)⟩
  | ethFrameRx _ _ _ _ => exact ⟨_, rfl, State.ethFrameRx_keeps (partsIn rfl) (Keeps.refl s)⟩
  | ethSend _ => exact ⟨_, rfl, State.ethSend_keeps (partsIn rfl) (Keeps.refl s)⟩
  | ethLinkChange _ _ _ => exact ⟨_, rfl, State.ethLinkChange_keeps (partsIn rfl) (Keeps.refl s)⟩
  | ethCtrlWrite _ _ _ => exact ⟨_, rfl, State.ethCtrlWrite_keeps (partsIn rfl) (Keeps.refl s)⟩
  | calEntryDataRead => exact ⟨_, rfl, State.calEntryDataRead_keeps (partsIn rfl) (Keeps.refl s)⟩
  | schAsnRead _ => exact ⟨_, rfl, State.schAsnRead_keeps (partsIn rfl) (Keeps.refl s)⟩
  | schSfStartRead => exact ⟨_, rfl, State.schSfStartRead_keeps (partsIn rfl) (Keeps.refl s)⟩
  | registerWrite _ _ _ => exact ⟨_, rfl, State.registerWrite_keeps (partsIn rfl) (Keeps.refl s)⟩
  | selfTestComplete _ _ _ => exact ⟨_, rfl, State.selfTestComplete_keeps (partsIn rfl) (Keeps.refl s)⟩
  | lifeCycleBurnComplete _ => exact ⟨_, rfl, State.lcBurnComplete_keeps (partsIn rfl) (Keeps.refl s)⟩
  | ethernetEgress _ => exact ⟨_, rfl, State.ethernetEgress_keeps (partsIn rfl) (Keeps.refl s)⟩
  | pauseQuantaExpiry _ => exact ⟨_, rfl, State.pauseQuantaExpiry_keeps (partsIn rfl) (Keeps.refl s)⟩
  | pcieLinkChange _ _ _ => exact ⟨_, rfl, State.pcieLinkChange_keeps (partsIn rfl) (Keeps.refl s)⟩

theorem keeps_of_runs {c : Sys2Proof.Instr} {s t : State} (h : Runs c s t) : Keeps (Instr.parts c) s t := by
  obtain ⟨u, hu, hkeeps⟩ := exec_keeps c s
  obtain rfl : u = t := Host.Outcome.next.inj (hu.symm.trans h)
  exact hkeeps

/-- A part that the lists of Safety.lean leave out for a command is the same after it. -/
theorem same_of_runs {c : Sys2Proof.Instr} {s t : State} (h : Runs c s t) {p : Part} (hp : Instr.mayChange c p = false) :
    State.same p s t :=
  (keeps_of_runs h).part p (Instr.contains_parts_eq_false hp)

/-- Settles O55: what `exec_keeps` says of the answer and of the waiting commands. -/
theorem everyCommandCompletes : Obligations.everyCommandCompletes := by
  intro c s
  obtain ⟨t, hexec, hpending, -, -⟩ := exec_keeps c s
  exact ⟨t, hexec, hpending⟩

/-- Settles O56: the front command keeps the forms, and the state it is given differs only in what waits. -/
theorem stepsKeepTheForms : Obligations.stepsKeepTheForms := by
  intro s t htidy hstep
  cases hq : s.pending with
  | nil =>
    rw [step, hq] at hstep
    exact Host.Outcome.next.inj hstep ▸ htidy
  | cons c rest =>
    rw [step, hq] at hstep
    obtain ⟨-, hkept, -⟩ := keeps_of_runs (c := c) hstep
    exact hkept htidy

/-- Settles O57: a read of the flash reads nothing else. -/
theorem flashIsKept : Obligations.flashIsKept := by
  intro c s t hc hruns
  have hflash : t.flash = s.flash := same_of_runs hruns (p := .flash) hc
  exact ⟨hflash, fun o n => by simp only [State.flashRead, hflash]⟩

/-- Settles O58: the four lists are four parts of `Instr.mayChange`. -/
theorem serviceIsKept : Obligations.serviceIsKept := fun _ _ _ hruns =>
  ⟨same_of_runs hruns (p := .sch), same_of_runs hruns (p := .truss), same_of_runs hruns (p := .upd),
   same_of_runs hruns (p := .chk)⟩

/-- Settles O53: the two cases of `step`. -/
theorem stepsRunTheFront : Obligations.stepsRunTheFront :=
  ⟨fun s c rest hq => by rw [step, hq], fun s hq => by rw [step, hq]⟩

end Sys2Proof.Machine

/-! What the proofs below share: frames from the lemmas of Laws/, and registers read back after a write. -/

namespace Sys2Proof.Machine

theorem Within.of {L W : List Part} (h : (L.all fun p => W.contains p) = true) : Within L W := (Within.self W).mono h

/-- Every part but `p`: an operation that keeps these changes at most them. -/
def Part.but (p : Part) : List Part := Part.every.filter fun q => q != p

theorem Keeps.tidy {W : List Part} {s t : State} (h : Keeps W s t) (hs : s.tidy) : t.tidy := h.2.1 hs

theorem State.tidy.rising {s : State} (h : s.tidy) : risingKeys s.regs = true := by
  obtain ⟨-, -, hregs, -⟩ := h
  simp only [Regs.wf, Bool.and_eq_true] at hregs
  exact hregs.1

theorem State.tidy.setReg {s : State} (h : s.tidy) (a : Nat) (v : Word) : (s.setReg a v).tidy :=
  (State.setReg_keeps (Within.self _) (Keeps.refl s)).tidy h

theorem State.tidy.at_ {s : State} (h : s.tidy) (t : U64) : (s.at_ t).tidy :=
  (State.at__keeps (Within.self _) (Keeps.refl s)).tidy h

/-- A register reads back the word written, in a state whose stores are in their canonical forms. -/
theorem State.tidy.reg_setReg {s : State} (h : s.tidy) (a : Nat) (v : Word) : (s.setReg a v).reg a = v :=
  reg_setReg_same h.rising

@[simp] theorem State.at__tick (s : State) (t : U64) : (s.at_ t).tick = s.tick := by
  unfold State.at_
  split <;> rfl

@[simp] theorem State.at__inStates (s : State) (t : U64) (l : List SysState) : (s.at_ t).inStates l = s.inStates l := by
  simp [State.inStates]

/-- A command answers the state its operation gives. -/
theorem next_of {s t : State} (h : s = t) : (.next s : Host.Outcome State Fault Refusal) = .next t := congrArg _ h

end Sys2Proof.Machine

/-! What reset leaves (O54). -/

namespace Sys2Proof.Machine

theorem State.reset_reg (a : Nat) : State.reset.reg a = resetOf a := rfl

theorem State.reset_queue_items (q : Nat) : (State.reset.queue q).items = [] := rfl

theorem State.reset_span {n : Nat} (h : n < 16) :
    (State.reset.span n).state = .aborted ∧ (State.reset.span n).free = true ∧ (State.reset.span n).items = [] := by
  decide +revert

theorem State.reset_tidy : State.reset.tidy := ⟨rfl, rfl, rfl, rfl, rfl, rfl⟩

/-- Settles O54: the state at reset is a constant, and its stores are empty. -/
theorem resetState : Obligations.resetState :=
  ⟨⟨rfl, rfl, rfl, State.reset_reg, fun _ => State.reset_span, rfl, rfl, rfl, rfl, rfl, rfl, State.reset_queue_items⟩,
   State.reset_tidy⟩

end Sys2Proof.Machine

/-! TIME_SET, PPS_OUT_PULSE and DTIME_SNAPSHOT (O16). -/

namespace Sys2Proof.Machine

theorem State.timeSet_of_accepted {s : State} {d : Desc} (hb : d.byte 4 = 0xFF)
    (hst : s.inStates [.structured, .maintenance] = true) (hz : d.unlistedZero [8, 9, 10, 11, 12, 13, 14, 15] = true) :
    s.timeSet d = (s.stepTime ((d.word 2).toNat + 2 ^ 32 * (d.word 3).toNat)).complete d .ok := by
  rw [State.timeSet, State.command_runs hb hst, hz]
  rfl

/-- What TIME_SET steps to: DTIME is the operand, TICKNO follows, and the time that has passed is the same. -/
theorem State.stepTime_time (s : State) {n : Nat} (hn : n < 2 ^ 64) :
    (s.stepTime n).time.dtime = BitVec.ofNat 64 n ∧
      (s.stepTime n).time.tickno = BitVec.ofNat 48 (tickOf n s.tp.tickPeriod) ∧
      (s.stepTime n).time.elapsed = s.time.elapsed := by
  simp only [State.stepTime, State.setTime, post_time, Nat.mod_eq_of_lt hn, and_self]

theorem State.stepTime_held (s : State) (n : Nat) : (s.stepTime n).hif.held = s.hif.held := by
  simp [State.stepTime, State.setTime]

theorem Desc.dword_lt (d : Desc) (i j : Nat) : (d.word i).toNat + 2 ^ 32 * (d.word j).toNat < 2 ^ 64 := by
  have := (d.word i).isLt
  have := (d.word j).isLt
  omega

theorem State.ppsOut_of_pulse {s : State} {i : U64}
    (hst : s.inStates [.structured, .active, .standby, .maintenance, .alarm] = true)
    (hnow : (s.at_ i).now % 1000000000 = 0) (hen : bit (s.reg Reg.TIME_PPS_CTRL) 0 = true) :
    s.ppsOut i = (s.at_ i).emit (.ppsOut i (if s.regFld Reg.TIME_PPS_CTRL 8 1 = 0 ∨ 200 < s.regFld Reg.TIME_PPS_CTRL 8 1
      then 100 else s.regFld Reg.TIME_PPS_CTRL 8 1)) := by
  unfold State.ppsOut
  simp only [State.regFld, State.at__inStates, State.at__reg, hst, hnow, hen]
  rfl

/-- Settles O16: TIME_SET by `State.stepTime`, the pulse by its output, and the snapshot by the four registers read back. -/
theorem timeRegisters : Obligations.timeRegisters := by
  refine ⟨fun s d hb hst hz => ?_, fun s i hst hnow hen => ?_, fun s i htidy => ?_⟩
  · obtain ⟨hdtime, htickno, helapsed⟩ := s.stepTime_time (d.dword_lt 2 3)
    refine ⟨_, next_of (State.timeSet_of_accepted hb hst hz), hdtime, htickno, helapsed, ?_, ?_⟩
    · rw [State.complete_held, State.stepTime_held]
    · exact (State.complete_keeps (.of rfl) (State.stepTime_keeps (.of rfl) (Keeps.refl s))).onlyIn
  · refine ⟨_, next_of (State.ppsOut_of_pulse hst hnow hen), ?_, ?_⟩
    · rw [State.emit_outbox, State.at__outbox]
    · exact (State.emit_keeps (.of rfl) (State.at__keeps (.of rfl) (Keeps.refl s))).onlyIn
  · refine ⟨_, rfl, ?_, ?_, ?_, ?_, (State.dtimeSnapshot_keeps (.of rfl) (Keeps.refl s)).onlyIn⟩
    all_goals
      simp (disch := first | decide | apply_rules [State.tidy.setReg, State.tidy.at_]) only [State.dtimeSnapshot,
        reg_setReg_other, State.tidy.reg_setReg, State.at__tick]

end Sys2Proof.Machine

/-! Cold and warm resets (O1): what `State.toReset` leaves, and the way of each event to it. -/

namespace Sys2Proof.Machine

/-! ### The life-cycle fuses on the way to a reset: only the end of a burn touches the keys -/

@[simp] theorem State.lcTear_keystone (s : State) : s.lcTear.key.keystone = s.key.keystone := by
  unfold State.lcTear
  split <;> rfl

theorem State.parEnd_key (s : State) (d : Desc) (st : Status) : (s.parEnd d st).key = s.key :=
  (State.parEnd_keeps (W := Part.but .key) (.of rfl) (Keeps.refl s)).part .key rfl

theorem State.parTear_key (s : State) (cut : Bool) : (s.parTear cut).key = s.key :=
  (State.parTear_keeps (W := Part.but .key) (.of rfl) (Keeps.refl s)).part .key rfl

theorem State.lcEnd_keystone (s : State) (d : Desc) (st : Status) : (s.lcEnd d st).key.keystone = s.key.keystone := rfl

theorem State.endBurns_keystone (s : State) (st : Status) : (s.endBurns st).key.keystone = s.key.keystone := by
  unfold State.endBurns
  dsimp only
  cases s.par.burn with
  | none => dsimp only; split <;> simp only [State.lcEnd_keystone, State.lcTear_keystone]
  | some b =>
    dsimp only
    split <;> simp only [State.lcEnd_keystone, State.lcTear_keystone, State.parEnd_key, State.parTear_key]

theorem State.endInFlight_key (s : State) (st : Status) : (s.endInFlight st).key = (s.endBurns st).key := by
  have h : Keeps (Part.but .key) (s.endBurns st)
      (((((((((s.endBurns st).endAllTx st).endAllJobs st).attestFlush st).endCalJobs st).abortSpans st).endChecks
        st).endUpdates st).endCommands st) :=
    State.endCommands_keeps (.of rfl) (State.endUpdates_keeps (.of rfl) (State.endChecks_keeps (.of rfl)
      (State.abortSpans_keeps (.of rfl) (State.endCalJobs_keeps (.of rfl) (State.attestFlush_keeps (.of rfl)
        (State.endAllJobs_keeps (.of rfl) (State.endAllTx_keeps (.of rfl) (Keeps.refl _))))))))
  have hkey := h.part .key rfl
  simp only [State.endInFlight, State.setRf]
  exact hkey

theorem State.endInFlight_keystone (s : State) (st : Status) : (s.endInFlight st).key.keystone = s.key.keystone := by
  rw [State.endInFlight_key, State.endBurns_keystone]

/-! ### The reset itself -/

@[simp] theorem State.toReset_state (s : State) (cold : Bool) : (s.toReset cold).sys.state = .reset := rfl
@[simp] theorem State.toReset_slots (s : State) (cold : Bool) : (s.toReset cold).key.slots = [] := rfl
@[simp] theorem State.toReset_keystone (s : State) (cold : Bool) : (s.toReset cold).key.keystone = s.key.keystone := rfl

theorem State.resetCause_reg {s : State} (h : s.tidy) (c : Nat) : (s.resetCause c).reg Reg.SYS_RESET_CAUSE = pw c :=
  h.reg_setReg _ _

/-- After a cold reset the registers are those of reset, whatever they were. -/
theorem State.toReset_cold_reg (s : State) (c : Nat) : ((s.toReset true).resetCause c).reg Reg.SYS_RESET_CAUSE = pw c :=
  reg_setReg_same (s := s.toReset true) rfl

/-! ### A warm boot (R16) -/

/-- The state a warm boot resets: outside FAULT all that is under way has ended. -/
def State.beforeWarm (s : State) : State :=
  if s.sys.state = .fault then s else (s.dropOutcomes.endInFlight .aborted).writeOut

theorem State.beforeWarm_keeps (s : State) : Keeps (Part.but .flash) s s.beforeWarm := by
  unfold State.beforeWarm
  exact Keeps.ite (Keeps.refl s)
    (State.writeOut_keeps (.of rfl) (State.endInFlight_keeps (.of rfl) (State.dropOutcomes_keeps (.of rfl) (Keeps.refl s))))

theorem State.beforeWarm_keystone (s : State) : s.beforeWarm.key.keystone = s.key.keystone := by
  unfold State.beforeWarm
  split
  · rfl
  · have hkey : ((s.dropOutcomes.endInFlight .aborted).writeOut).key = (s.dropOutcomes.endInFlight .aborted).key :=
      (State.writeOut_keeps (W := Part.but .key) (.of rfl) (Keeps.refl _)).part .key rfl
    rw [hkey, State.endInFlight_keystone]
    rfl

theorem State.warmBoot_eq {s : State} (h : s.sys.state ≠ .reset) (c : Nat) :
    s.warmBoot c = (s.beforeWarm.toReset false).resetCause c := if_neg h

/-- What a warm boot leaves, from every state but RESET. -/
theorem State.warmBoot_enters_reset {s : State} (htidy : s.tidy) (h : s.sys.state ≠ .reset) (c : Nat) :
    (s.warmBoot c).sys.state = .reset ∧ (s.warmBoot c).flash = s.flash ∧
      (s.warmBoot c).key.keystone = s.key.keystone ∧ (s.warmBoot c).key.slots = [] ∧
      (s.warmBoot c).reg Reg.SYS_RESET_CAUSE = pw c := by
  have hbefore := s.beforeWarm_keeps
  have hreset : (s.beforeWarm.toReset false).tidy :=
    (State.toReset_keeps (Within.self _) (Keeps.refl _)).tidy (hbefore.tidy htidy)
  rw [State.warmBoot_eq h]
  exact ⟨rfl, hbefore.part .flash rfl, s.beforeWarm_keystone, rfl, State.resetCause_reg hreset c⟩

theorem State.warmReset_eq {s : State} {v : Word} (hs : s.sys.state ≠ .reset) (ha : s.alarmedNow = false)
    (hv : bit v 0 = true) (hk : bits v 31 16 = 0xA5C3) : s.warmReset v = s.warmBoot 4 := by
  simp [State.warmReset, hs, hv, hk, ha]

theorem State.watchdogExpiry_eq {s : State} {i : U64} (ha : (s.at_ i).alarmedNow = false) :
    s.watchdogExpiry i = (s.at_ i).warmBoot 8 := by
  simp [State.watchdogExpiry, ha]

/-- Settles O1: the cold resets by what `State.toReset` leaves of any state, the warm ones by `State.warmBoot`. -/
theorem resetsEnterReset : Obligations.resetsEnterReset := by
  refine ⟨⟨fun s ramp => ?_, fun s hs => ?_, fun s hs => ?_⟩, fun s v htidy hs ha hv hk => ?_, fun s i htidy hs ha => ?_⟩
  · refine ⟨_, rfl, rfl, rfl, rfl, rfl, rfl, ?_, ?_⟩
    · exact (State.coldReset_keeps (W := Part.but .flash) (.of rfl) (Keeps.refl s)).part .flash rfl
    · exact (State.toReset_cold_reg _ _).trans (by cases ramp <;> rfl)
  · refine ⟨_, next_of (if_neg hs), rfl, rfl, ?_, ?_, State.toReset_cold_reg _ 1⟩
    · rfl
    · exact (State.supplyLoss_keeps (W := Part.but .flash) (.of rfl) (Keeps.refl s)).part .flash rfl
  · exact ⟨_, next_of (if_pos hs), hs, rfl, rfl, rfl, rfl, rfl⟩
  · exact ⟨_, next_of (State.warmReset_eq hs ha hv hk), State.warmBoot_enters_reset htidy hs 4⟩
  · have h := State.warmBoot_enters_reset (htidy.at_ i) (by simpa using hs) 8
    rw [State.at__flash, State.at__key] at h
    exact ⟨_, next_of (State.watchdogExpiry_eq ha), h⟩

end Sys2Proof.Machine

/-! Alarms (O2), UNCORRECTABLE_ERROR (O3) and RESET_RELEASE (O4). -/

namespace Sys2Proof.Machine

/-! ### Records -/

theorem State.postAsk_owed (s : State) (v : Sev) (src : Nat) (st : Option Status) (ev : Nat) (pl : List Word) :
    (s.postAsk v src st ev pl).1.owed = s.owed := by
  have hrec := State.writeRec_owed s v src st ev pl
  unfold State.postAsk
  split <;> rename_i s1 e <;> rw [e] at hrec
  · exact (State.exportWith_owed (postVia_quiet postPlain_quiet) _ _).trans hrec
  · exact hrec

theorem State.postAsk_held (s : State) (v : Sev) (src : Nat) (st : Option Status) (ev : Nat) (pl : List Word) :
    (s.postAsk v src st ev pl).1.hif.held = s.hif.held := congrArg Prod.fst (s.postAsk_owed v src st ev pl)

theorem State.postAsk_key (s : State) (v : Sev) (src : Nat) (st : Option Status) (ev : Nat) (pl : List Word) :
    (s.postAsk v src st ev pl).1.key = s.key :=
  (State.postAsk_keeps (W := Part.but .key) (.of rfl) (Keeps.refl s)).part .key rfl

/-- An AUDIT record with room in the reserved area is written (R406). -/
theorem State.postAsk_audit_written {s : State} {src ev : Nat} {st : Option Status} {pl : List Word}
    (hrun : s.evr.running = true) (hroom : s.evr.rsvUsed + (16 + 4 * pl.length) ≤ evrReserved) :
    (s.postAsk .audit src st ev pl).2 = true := by
  simp [State.postAsk, State.writeRec, hrun, Sev.code, Rec.bytes, hroom]

/-! ### The recorder stays on while it writes -/

/-- A poster leaves the recorder running or stopped. -/
def Poster.KeepsRunning (p : Poster) : Prop := 
  ∀ s v src st ev pl, (State.evr (p s v src st ev pl)).running = (State.evr s).running

theorem State.writeRec_running (s : State) (v : Sev) (src : Nat) (st : Option Status) (ev : Nat) (pl : List Word) :
    (s.writeRec v src st ev pl).1.evr.running = s.evr.running := by
  unfold State.writeRec
  dsimp only
  repeat' split
  all_goals simp [State.dropRec]

theorem State.enqueueWith_running {p : Poster} (hp : p.KeepsRunning) (s : State) (q : Nat) (it : QItem) :
    (s.enqueueWith p q it).1.evr.running = s.evr.running := by
  have hcheck : ((s.checkPointers p q).newPacket q it).evr.running = s.evr.running := by
    have hpacket := (State.newPacket_keeps (W := Part.but .evr) (q := q) (it := it) (.of rfl)
      (Keeps.refl (s.checkPointers p q))).part .evr rfl
    refine (congrArg EvrSt.running hpacket).trans ?_
    unfold State.checkPointers State.resetQueue
    split
    · exact (hp ..).trans (congrArg EvrSt.running (by simp))
    · rfl
  have hdrop (u : State) (e : Bool) : (u.dropArrival q e).evr = u.evr :=
    (State.dropArrival_keeps (W := Part.but .evr) (.of rfl) (Keeps.refl u)).part .evr rfl
  unfold State.enqueueWith
  generalize (s.checkPointers p q).newPacket q it = u at hcheck
  dsimp only
  repeat' split
  all_goals simp [hdrop, hcheck]

theorem postVia_keepsRunning {p : Poster} (hp : p.KeepsRunning) : Poster.KeepsRunning (postVia p) := by
  intro s v src st ev pl
  have hrec := State.writeRec_running s v src st ev pl
  unfold postVia
  split <;> rename_i s1 e <;> rw [e] at hrec
  · rw [← hrec]
    unfold State.exportWith
    dsimp only
    repeat' split
    · rfl
    · exact State.enqueueWith_running hp _ _ _
    · rfl
  · exact hrec

theorem post_running (s : State) (v : Sev) (src : Nat) (st : Option Status) (ev : Nat) (pl : List Word) :
    (post s v src st ev pl).evr.running = s.evr.running :=
  postVia_keepsRunning (postVia_keepsRunning State.writeRec_running) s v src st ev pl

/-! ### Alarms (R310, R311, R313) -/

/-- What an alarm leaves of the keystone: latched off, the sticky flag set, no slot valid, nothing retained. -/
def KeySt.erased (k : KeySt) : Prop :=
  k.latch = true ∧ k.sticky = true ∧ k.retention = [] ∧ ∀ e ∈ k.slots, e.2.valid = false

theorem State.latchAlarm_erased (s : State) (cause : Nat) : (s.latchAlarm cause).eraseKeys.key.erased := by
  refine ⟨rfl, rfl, rfl, fun e he => ?_⟩
  obtain ⟨x, -, hx⟩ := List.mem_filterMap.1 he
  split at hx
  · obtain rfl := Option.some.inj hx
    rfl
  · cases hx

/-- A torn or ended burn of the life cycle changes its log and status alone. -/
theorem State.endBurns_key (s : State) (st : Status) : ∃ b l x,
    (s.endBurns st).key = { s.key with lcBurn := b, lcLog := l, lcStatus := x } := by
  have htear (u : State) : ∃ b l x, u.lcTear.key = { u.key with lcBurn := b, lcLog := l, lcStatus := x } := by
    unfold State.lcTear
    split <;> exact ⟨_, _, _, rfl⟩
  have hend (u : State) (d : Desc) : ∃ b l x,
      (u.lcTear.lcEnd d st).key = { u.key with lcBurn := b, lcLog := l, lcStatus := x } := by
    obtain ⟨b, l, x, h⟩ := htear u
    exact ⟨b, l, st, by simp only [State.lcEnd, State.complete_key, h]⟩
  unfold State.endBurns
  dsimp only
  split
  · obtain ⟨b, l, x, h⟩ := hend _ _
    exact ⟨b, l, x, h.trans (by split <;> simp only [State.parEnd_key, State.parTear_key])⟩
  · split
    · exact ⟨_, _, _, by rw [State.parEnd_key, State.parTear_key]⟩
    · exact ⟨_, _, _, rfl⟩

theorem State.endInFlight_erased {s : State} (h : s.key.erased) (st : Status) : (s.endInFlight st).key.erased := by
  obtain ⟨b, l, x, hkey⟩ := s.endBurns_key st
  rw [State.endInFlight_key, hkey]
  exact h

theorem State.silence_key (s : State) : s.silence.key = s.key :=
  (State.silence_keeps (W := Part.but .key) (.of rfl) (Keeps.refl s)).part .key rfl

theorem State.pauseTrial_key (s : State) : s.pauseTrial.key = s.key :=
  (State.pauseTrial_keeps (W := Part.but .key) (.of rfl) (Keeps.refl s)).part .key rfl

/-- An alarm outside RESET, ALARM and FAULT. -/
theorem State.alarm_enters {s : State} (hst : s.inStates stSAYM = true) (cause : Nat) :
    (s.alarm cause).sys.state = .alarm ∧ (s.alarm cause).key.erased := by
  have hs : s.sys.state = .structured ∨ s.sys.state = .active ∨ s.sys.state = .standby ∨ s.sys.state = .maintenance := by
    simpa [State.inStates, stSAYM] using hst
  have herased (u : State) (h : u.key.erased) : (((u.pauseTrial.endInFlight .alarm).silence.enter .alarm).raise 11).key.erased := by
    rw [State.raise_key, State.enter_key, State.silence_key]
    exact State.endInFlight_erased (by rwa [State.pauseTrial_key]) .alarm
  have hpost (c : List Word) : (post (s.latchAlarm cause).eraseKeys .alarm 0x0E none 0 c).key.erased :=
    (post_key ..).symm ▸ s.latchAlarm_erased cause
  unfold State.alarm
  dsimp only
  split
  · simp_all
  · simp_all
  · simp_all
  · exact ⟨by simp, herased _ (hpost _)⟩

theorem State.alarmLevel_enters {s : State} (hst : s.inStates stSAYM = true) {n : Nat} (hn : s.key.live.getLsbD n = false) :
    (s.alarmLevel n true).sys.state = .alarm ∧ (s.alarmLevel n true).key.erased := by
  unfold State.alarmLevel
  simp only [hn, Bool.not_false, Bool.and_true, if_true]
  refine State.alarm_enters ?_ n
  exact hst

/-- KEY_ALARM_ACK that R312 lets through: with room for its record, or before the recorder runs. -/
theorem State.keyAlarmAck_of_accepted {s : State} {d : Desc} (hb : d.byte 4 = 0xFF) (hs : s.sys.state = .alarm)
    (hbl : s.key.lc ≠ .blank) (hsc : s.key.lc ≠ .scrapped) (hz : d.unlistedZero [] = true)
    (hroom : s.evr.running = true → s.evr.rsvUsed + 20 ≤ evrReserved) : ∃ u : State,
    s.keyAlarmAck d = ({ u with key := { u.key with sticky := false, causes := 0 } }).complete d .ok ∧
      u.key = s.key ∧ u.hif.held = s.hif.held := by
  rw [State.keyAlarmAck, State.command_runs hb (by simp [State.inStates, hs]), if_neg (by simp [hbl, hsc]),
    if_neg (by simp [hz])]
  dsimp only
  by_cases hrun : s.evr.running = true
  · rw [if_pos hrun, if_pos (State.postAsk_audit_written hrun (pl := [_]) (hroom hrun))]
    exact ⟨_, rfl, State.postAsk_key .., State.postAsk_held ..⟩
  · rw [if_neg hrun]
    exact ⟨_, rfl, rfl, rfl⟩

/-- Settles O2: every source comes to `State.alarm`, and the acknowledgement clears what the alarm latched. -/
theorem alarmsEraseAndClear : Obligations.alarmsEraseAndClear := by
  refine ⟨fun s i hst => ?_, fun s d hb hs hbl hsc hz hroom => ?_⟩
  · have hst' : (s.at_ i).inStates stSAYM = true := by rwa [State.at__inStates]
    have hnot : (s.at_ i).sys.state ≠ .reset := by
      intro h
      rw [State.inStates, h] at hst'
      cases hst'
    have hlive (n : Nat) (hn : s.key.live.getLsbD n = false) : (s.at_ i).key.live.getLsbD n = false := by
      rwa [State.at__key]
    refine ⟨fun n hn => ?_, fun hn => ?_, fun hn => ?_, ?_⟩
    · exact ⟨_, rfl, State.alarmLevel_enters hst' (hlive _ hn)⟩
    · exact ⟨_, next_of (if_neg hnot), State.alarmLevel_enters hst' (hlive _ hn)⟩
    · exact ⟨_, rfl, State.alarmLevel_enters hst' (hlive _ hn)⟩
    · exact ⟨_, next_of (if_neg hnot), State.alarm_enters hst' 2⟩
  · obtain ⟨u, hack, hkey, hheld⟩ := State.keyAlarmAck_of_accepted hb hs hbl hsc hz hroom
    have hlatch : u.key.latch = s.key.latch := by rw [hkey]
    refine ⟨_, next_of hack, rfl, rfl, hlatch, ?_⟩
    rw [State.complete_held]
    exact congrArg (· ++ _) hheld

/-! ### Faults (R17) -/

theorem State.fault_reg {s : State} (h : s.tidy) (block cause : Nat) : (s.fault block cause).reg Reg.SYS_FAULT =
    fld (b2n (s.thisTick.isSome && s.sys.alarmTick = s.thisTick)) 31 ||| fld (block % 256) 16 |||
      fld (cause % 65536) 0 := by
  have htidy : ((s.dropOutcomes.endInFlight .aborted).writeOut.silence.emptyQueues).tidy :=
    (State.emptyQueues_keeps (W := Part.every) (.of rfl) (State.silence_keeps (.of rfl) (State.writeOut_keeps (.of rfl)
      (State.endInFlight_keeps (.of rfl) (State.dropOutcomes_keeps (.of rfl) (Keeps.refl s)))))).tidy h
  have hset := htidy.reg_setReg Reg.SYS_FAULT
    (fld (b2n (s.thisTick.isSome && s.sys.alarmTick = s.thisTick)) 31 ||| fld (block % 256) 16 ||| fld (cause % 65536) 0)
  unfold State.fault
  generalize (s.dropOutcomes.endInFlight .aborted).writeOut.silence.emptyQueues = u at hset
  exact (State.enter_reg (by decide)).trans hset

theorem State.emptyQueues_items (s : State) : ∀ e ∈ s.emptyQueues.que.queues, e.2.items = [] := by
  intro e he
  obtain ⟨x, -, rfl⟩ := List.mem_map.1 he
  rfl

theorem State.fault_enters (s : State) (block cause : Nat) : (s.fault block cause).sys.state = .fault ∧
    (s.fault block cause).evr.running = false ∧ ∀ e ∈ (s.fault block cause).que.queues, e.2.items = [] := by
  refine ⟨by simp only [State.fault, State.enter_state], rfl, fun e he => ?_⟩
  have hque : (s.fault block cause).que = ((s.dropOutcomes.endInFlight .aborted).writeOut.silence.emptyQueues).que := by
    simp only [State.fault, State.enter_que, State.setReg_que]
  rw [hque] at he
  exact State.emptyQueues_items _ e he

/-- Settles O3: `State.fault`, its register written before the change of state. -/
theorem errorEntersFault : Obligations.errorEntersFault := by
  intro s i blk cause htidy hst
  have hst' : (s.at_ i).inStates stSAYML = true := by rwa [State.at__inStates]
  obtain ⟨hstate, hrun, hitems⟩ := (s.at_ i).fault_enters blk cause
  refine ⟨_, next_of (if_pos hst'), hstate, hrun, hitems, ?_, ?_⟩
  · exact (State.fault_keeps (W := Part.but .flash) (.of rfl) (State.at__keeps (.of rfl) (Keeps.refl s))).part .flash rfl
  · simpa only [State.at__sys] using (State.fault_reg (htidy.at_ i) blk cause)

/-! ### The release of RESET (R347) -/

theorem State.validLoader_congr {s t : State} (hkey : t.key = s.key) (hflash : t.flash = s.flash) :
    t.validLoader = s.validLoader := by
  have hread (n : Nat) : t.flashImage (loaderBase n) 458752 = s.flashImage (loaderBase n) 458752 := by
    unfold State.flashImage State.flashRead
    rw [hflash]
  unfold State.validLoader
  simp only [hkey, hread]

theorem State.startRecorder_running (s : State) : s.startRecorder.evr.running = true := by
  unfold State.startRecorder
  dsimp only
  generalize hu : ({ s with evr := _, boot := _ } : State) = u
  have hrun : u.evr.running = true := by rw [← hu]
  clear hu
  induction s.boot.held generalizing u with
  | nil => exact hrun
  | cons r rest ih => exact ih _ ((post_running ..).trans hrun)

theorem State.startRecorder_boot (s : State) : s.startRecorder.boot = { s.boot with held := [] } := by
  have h : Keeps (Part.but .boot) { s with evr := { s.evr with running := true }, boot := { s.boot with held := [] } }
      s.startRecorder := by
    unfold State.startRecorder
    exact Keeps.foldl (fun _ _ hk => post_keeps (.of rfl) hk) (Keeps.refl _)
  exact h.part .boot rfl

/-- The ROM runs loader `n` (R347). -/
def State.runLoader (s : State) (n : Nat) : State :=
  ((s.mrExtend 0 (Config.sha256 ((s.flashImage (loaderBase n) 458752).take
    (readHdr (s.flashImage (loaderBase n) 458752)).length))).setBoot fun b => { b with
      stage := .loader
      loader := n
      loaderVer := (readHdr (s.flashImage (loaderBase n) 458752)).version }).startRecorder

theorem State.runLoader_keeps (s : State) (n : Nat) : Keeps [.evr, .hif, .que, .boot, .regs, .outbox, .free] s (s.runLoader n) :=
  State.startRecorder_keeps (.of rfl) (State.setBoot_keeps (.of rfl) (State.mrExtend_keeps (.of rfl) (Keeps.refl s)))

theorem State.runLoader_boot (s : State) (n : Nat) :
    (s.runLoader n).boot.stage = .loader ∧ (s.runLoader n).boot.loader = n := by
  rw [State.runLoader, State.startRecorder_boot]
  exact ⟨rfl, rfl⟩

theorem State.fault_time (s : State) (block cause : Nat) : (s.fault block cause).time = s.time :=
  (State.fault_keeps (W := Part.but .time) (.of rfl) (Keeps.refl s)).part .time rfl

/-- The state in which the ROM looks for a loader. -/
def State.romStart (s : State) : State := ({ s with time := {} } : State).enter .boot

section
variable {s : State} (hs : s.sys.state = .reset) (hlive : s.key.live = 0) (hsticky : s.key.sticky = false)
include hs hlive hsticky

theorem State.resetRelease_of_loader {n : Nat} (hn : s.romStart.validLoader = some n) :
    s.resetRelease true = s.romStart.runLoader n := by
  have hkey : s.romStart.key = s.key := State.enter_key ..
  unfold State.resetRelease
  rw [← State.romStart]
  simp only [hs, hkey, hlive, hsticky, hn, ne_eq, not_true_eq_false, decide_false, Bool.or_self, Bool.false_eq_true,
    if_false, Bool.not_true]
  rfl

theorem State.resetRelease_of_no_loader (hn : s.romStart.validLoader = none) :
    s.resetRelease true = s.romStart.fault 0x11 0x0002 := by
  have hkey : s.romStart.key = s.key := State.enter_key ..
  unfold State.resetRelease
  rw [← State.romStart]
  simp only [hs, hkey, hlive, hsticky, hn, ne_eq, not_true_eq_false, decide_false, Bool.or_self, Bool.false_eq_true,
    if_false, Bool.not_true]

end

/-- Settles O4: with no alarm and the fuses sensed, the valid loader decides. -/
theorem releaseRunsLoader : Obligations.releaseRunsLoader := by
  intro s hs hlive hsticky
  have hloader : s.romStart.validLoader = s.validLoader :=
    State.validLoader_congr (State.enter_key ..) (State.enter_flash ..)
  have htime : s.romStart.time = {} := State.enter_time ..
  have hstate : s.romStart.sys.state = .boot := State.enter_state ..
  cases hn : s.validLoader with
  | none =>
    refine ⟨_, next_of (State.resetRelease_of_no_loader hs hlive hsticky (hloader.trans hn)), ?_, ?_⟩
    · rw [State.fault_time, htime]
    · exact (State.fault_enters ..).1
  | some n =>
    refine ⟨_, next_of (State.resetRelease_of_loader hs hlive hsticky (hloader.trans hn)), ?_, ?_, ?_, ?_, ?_⟩
    · rw [(State.runLoader_keeps ..).part .time rfl, htime]
    · rw [(State.runLoader_keeps ..).part .sys rfl, hstate]
    · exact (State.runLoader_boot ..).1
    · exact (State.runLoader_boot ..).2
    · exact State.startRecorder_running _

end Sys2Proof.Machine

/-! LOADER_BOOT (O5): what the entry to STRUCTURED leaves, and which bank the loader takes. -/

namespace Sys2Proof.Machine

/-- The entry to STRUCTURED: the truss in force is the one given, of the bank given. -/
theorem State.enterStructured_leaves (s : State) (b : Nat) (tr : Truss) (tests : List Bool) :
    (s.enterStructured b tr tests).sys.state = .structured ∧ (s.enterStructured b tr tests).boot.stage = .done ∧
      (s.enterStructured b tr tests).boot.bank = b ∧ (s.enterStructured b tr tests).truss.loaded = true ∧
      (s.enterStructured b tr tests).truss.truss = tr := by
  unfold State.enterStructured
  extract_lets us p src src2 s1 s1a s2 s3 dflt s4
  have hboot2 : s2.boot.stage = .done ∧ s2.boot.bank = b := ⟨rfl, rfl⟩
  have htruss1 : s1.truss.loaded = true ∧ s1.truss.truss = tr := ⟨rfl, rfl⟩
  have h1a : Keeps [.regs] s1 s1a := Keeps.foldl (fun _ _ h => State.setFld_keeps (.of rfl) h) (Keeps.refl s1)
  have h2 : Keeps [.regs, .boot] s1a s2 := State.setBoot_keeps (.of rfl) (State.setReg_keeps (.of rfl) (Keeps.refl s1a))
  have h3 : Keeps [.regs] s2 s3 := Keeps.foldl (fun _ _ h => State.setReg_keeps (.of rfl) h) (Keeps.refl s2)
  have hd (u v : State) (n : Nat) (h : Keeps [.regs, .key, .par, .tol, .rf, .cal] u v) :
      Keeps [.regs, .key, .par, .tol, .rf, .cal] u (dflt v n) := Keeps.ite (State.setFld_keeps (.of rfl) h) h
  have h4 : Keeps [.regs, .key, .par, .tol, .rf, .cal] s3 s4 := State.calAtStructured_keeps (.of rfl)
    (State.assignRoles_keeps (.of rfl) (State.tollAtStructured_keeps (.of rfl) (State.parFill_keeps (.of rfl)
      (State.restoreRetained_keeps (.of rfl) (State.deriveLevel2_keeps (.of rfl) (hd _ _ 1 (hd _ _ 0 (Keeps.refl s3))))))))
  have htruss4 : s4.truss = s1.truss :=
    (h4.part .truss rfl).trans ((h3.part .truss rfl).trans ((h2.part .truss rfl).trans (h1a.part .truss rfl)))
  have hboot4 : s4.boot = s2.boot := (h4.part .boot rfl).trans (h3.part .boot rfl)
  clear_value s4 s3 s2 s1a s1
  have hend : Keeps [.time, .rf] (s4.enter .structured) (s4.enter .structured).searchRefresh :=
    State.searchRefresh_keeps (Within.self _) (Keeps.refl _)
  have hsys := hend.part .sys rfl
  have hboot := (hend.part .boot rfl).trans ((State.enter_boot ..).trans hboot4)
  have htruss := (hend.part .truss rfl).trans ((State.enter_truss ..).trans htruss4)
  simp only [State.same] at hsys hboot htruss
  rw [hsys, hboot, htruss, State.enter_state]
  exact ⟨rfl, hboot2.1, hboot2.2, htruss1⟩

/-- A bank that passes is booted into STRUCTURED, under a trial or not. -/
theorem State.bootBank_leaves (s : State) (b : Nat) (tr : Truss) (failed : List Nat) (tests : List Bool) :
    (s.bootBank b tr failed tests).sys.state = .structured ∧ (s.bootBank b tr failed tests).boot.stage = .done ∧
      (s.bootBank b tr failed tests).boot.bank = b ∧ (s.bootBank b tr failed tests).truss.loaded = true ∧
      (s.bootBank b tr failed tests).truss.truss = tr := by
  unfold State.bootBank
  extract_lets fw h s1 s2 s3
  have hleaves := s2.enterStructured_leaves b tr tests
  clear_value s2
  have htrial : Keeps [.hif, .upd, .regs, .outbox] s3 s3.startTrial := State.startTrial_keeps (.of rfl) (Keeps.refl s3)
  have hsys := htrial.part .sys rfl
  have hboot := htrial.part .boot rfl
  have htruss := htrial.part .truss rfl
  simp only [State.same] at hsys hboot htruss
  split
  · rw [hsys, hboot, htruss]
    exact hleaves
  · exact hleaves

section
variable {s : State} {p : Nat} {tests : List Bool} (hp : p = s.bankRec.preferred)
include hp

theorem State.bootBanks_of_preferred {tr : Truss} (h : s.checkBank p = .ok tr) :
    s.bootBanks tests = s.bootBank p tr [] tests := by
  simp only [State.bootBanks, ← hp, h]

theorem State.bootBanks_of_other {e : Nat ⊕ Refused} {tr : Truss} (h : s.checkBank p = .error e)
    (h' : (s.bankFail p e).checkBank (1 - p) = .ok tr) :
    s.bootBanks tests = (s.bankFail p e).bootBank (1 - p) tr [p] tests := by
  simp only [State.bootBanks, ← hp, h, h']

theorem State.bootBanks_of_neither {e f : Nat ⊕ Refused} (h : s.checkBank p = .error e)
    (h' : (s.bankFail p e).checkBank (1 - p) = .error f) :
    s.bootBanks tests = ((((s.bankFail p e).bankFail (1 - p) f).bankError p).bankError (1 - p)).setBoot
      fun x => { x with stage := .recovery, fwVer := 0 } := by
  simp only [State.bootBanks, ← hp, h, h']

end

section
variable {s : State} {i : U64} {tests : List Bool} (hs : s.sys.state = .boot) (hl : s.boot.stage = .loader)
include hs hl

theorem State.loaderBoot_of_trained : s.loaderBoot i true tests = (s.at_ i).loaderStart.bootBanks tests := by
  simp [State.loaderBoot, hs, hl]

theorem State.loaderBoot_of_untrained : s.loaderBoot i false tests = (s.at_ i).fault 0x11 0x0005 := by
  simp [State.loaderBoot, hs, hl]

end

theorem State.loaderStart_sys (s : State) : s.loaderStart.sys = s.sys :=
  (State.loaderStart_keeps (W := Part.but .sys) (.of rfl) (Keeps.refl s)).part .sys rfl

/-- Settles O5: the three ways of `State.bootBanks`, by what the checks of the two banks answer. -/
theorem loaderBoots : Obligations.loaderBoots := by
  refine ⟨fun s u i tests p hs hl hu hp => ?_, fun s i tests hs hl => ?_⟩
  · have hrun : s.loaderBoot i true tests = u.bootBanks tests := by rw [hu, State.loaderBoot_of_trained hs hl]
    have husys : u.sys = s.sys := by rw [hu, State.loaderStart_sys, State.at__sys]
    clear hu
    refine ⟨fun tr h => ?_, fun e tr h h' => ?_, fun e f h h' => ?_⟩
    · exact ⟨_, next_of (hrun.trans (State.bootBanks_of_preferred hp h)), State.bootBank_leaves ..⟩
    · exact ⟨_, next_of (hrun.trans (State.bootBanks_of_other hp h h')), State.bootBank_leaves ..⟩
    · have hkeeps : Keeps (Part.but .sys) u (((((u.bankFail p e).bankFail (1 - p) f).bankError p).bankError (1 - p)).setBoot
          fun x => { x with stage := .recovery, fwVer := 0 }) :=
        State.setBoot_keeps (.of rfl) (State.bankError_keeps (.of rfl) (State.bankError_keeps (.of rfl)
          (State.bankFail_keeps (.of rfl) (State.bankFail_keeps (.of rfl) (Keeps.refl u)))))
      have hsys := hkeeps.part .sys rfl
      simp only [State.same] at hsys
      refine ⟨_, next_of (hrun.trans (State.bootBanks_of_neither hp h h')), ?_, rfl, rfl⟩
      rw [hsys, husys, hs]
  · exact ⟨_, next_of (State.loaderBoot_of_untrained hs hl), (State.fault_enters ..).1⟩

end Sys2Proof.Machine

/-! Measurement registers and attestations (O6). -/

namespace Sys2Proof.Machine

@[simp] theorem State.readWin_length (s : State) (o n : Nat) : (s.readWin o n).length = n := by
  simp [State.readWin, State.readMem]

theorem wordsOf_length {bs : List Byte} {k n : Nat} (hk : bs.length = 4 * k) (hn : k < n) : (wordsOf bs n).length = k := by
  induction n generalizing bs k with
  | zero => omega
  | succ n ih =>
    unfold wordsOf
    split
    next hnil =>
      rw [hnil, List.length_nil] at hk
      rw [List.length_nil]
      omega
    next hne =>
      have hpos : 0 < bs.length := List.length_pos_iff.2 hne
      rw [List.length_cons, ih (k := k - 1) (by rw [List.length_drop]; omega) (by omega)]
      omega

theorem toWords_length {bs : List Byte} {k : Nat} (h : bs.length = 4 * k) : (toWords bs).length = k :=
  wordsOf_length h (by omega)

section
variable {s : State} {d : Desc} (hb : d.byte 4 = 0xFF) (hst : s.inStates stSAYM = true)
include hb hst

/-- BOOT_MR_EXTEND of register 6 or 7 with room for its AUDIT record (R355). -/
theorem State.bootMrExtend_of_room (hn : d.byte 8 = 6 ∨ d.byte 8 = 7)
    (hz : d.unlistedZero [8, 12, 13, 14, 15] = true) (hw : s.inWindow (d.word 3).toNat 32 = true)
    (ha : (d.word 3).toNat % 4 = 0) (hrun : s.evr.running = true) (hroom : s.evr.rsvUsed + 52 ≤ evrReserved) :
    ∃ u : State, s.bootMrExtend d = (u.setMr (d.byte 8) (s.readWin (d.word 3).toNat 32)).complete d .ok ∧
      Keeps [.evr, .hif, .que, .regs, .outbox, .free] s u ∧ u.hif.held = s.hif.held := by
  have hlen : (toWords (s.readWin (d.word 3).toNat 32)).length = 8 := toWords_length (by simp)
  have hwritten := State.postAsk_audit_written (src := 0x11) (ev := d.opcode % 256) (st := none) hrun
    (pl := pw (d.byte 8) :: toWords (s.readWin (d.word 3).toNat 32)) (by rw [List.length_cons, hlen]; exact hroom)
  refine ⟨_, ?_, State.postAsk_keeps (src := 0x11) (.of rfl) (Keeps.refl s), State.postAsk_held s .audit 0x11 none
    (d.opcode % 256) (pw (d.byte 8) :: toWords (s.readWin (d.word 3).toNat 32))⟩
  have hn' : ¬(d.byte 8 ≠ 6 ∧ d.byte 8 ≠ 7) := by omega
  rw [State.bootMrExtend, State.command_runs hb hst]
  dsimp only
  rw [if_neg (by simp [hn', hz]), if_neg (by simp [hw, ha])]
  split <;> simp_all

theorem State.bootAttestPub_of_key {k : List Byte} (hz : d.unlistedZero [8, 9, 10, 11] = true)
    (hk : s.key.attestKey = some k) (hw : s.inWindow (d.word 2).toNat 64 = true) (ha : (d.word 2).toNat % 4 = 0) :
    s.bootAttestPub d = (s.writeWin (d.word 2).toNat (slice (Config.p256Public k) 0 64)).complete d .ok := by
  rw [State.bootAttestPub, State.command_runs hb hst]
  simp [hz, State.attestPublic, hk, hw, ha]

theorem State.attest_of_room (hz : d.unlistedZero [8, 9, 10, 11, 12, 13, 14, 15] = true)
    (hw : s.inWindow (d.word 2).toNat 32 = true) (hw' : s.inWindow (d.word 3).toNat 416 = true)
    (ha : (d.word 2).toNat % 4 = 0) (ha' : (d.word 3).toNat % 4 = 0) (hk : s.key.attestKey.isSome = true)
    (hroom : s.boot.attest.length < 8) :
    s.attest d = s.attestAdd { nonce := s.readWin (d.word 2).toNat 32, cmd := some d } := by
  have hk' : s.key.attestKey ≠ none := Option.isSome_iff_ne_none.1 hk
  rw [State.attest, State.command_runs hb hst]
  simp [hz, hw, hw', ha, ha', hk', State.attestFull, Nat.not_le.2 hroom]

end

theorem State.attestRequestRx_of_room {s : State} {p : Nat} {mac nonce : List Byte} (hst : s.inStates stSAYM = true)
    (hn : nonce.length = 32) (hk : s.key.attestKey.isSome = true) (hroom : s.boot.attest.length < 8) :
    s.attestRequestRx p mac nonce = s.attestAdd { nonce := nonce, port := p, mac := mac } := by
  have hk' : s.key.attestKey ≠ none := Option.isSome_iff_ne_none.1 hk
  simp [State.attestRequestRx, hst, hn, hk', State.attestFull, Nat.not_le.2 hroom]

/-- A request that joins the queue: its signature is asked of the cipher engine alone. -/
theorem State.attestAdd_boot (s : State) (r : AttReq) : (s.attestAdd r).boot = { s.boot with attest := s.boot.attest ++ [r] } :=
  (State.attestNext_keeps (W := [.cip]) (.of rfl) (Keeps.refl (s.setBoot _))).part .boot rfl

theorem State.attestReportOut_of_command {s : State} {r : AttReq} {rest : List AttReq} {rep : List Byte} {d : Desc}
    (hq : s.boot.attest = r :: rest) (hc : r.cmd = some d) (hr : s.boot.report = some rep) (hl : 416 ≤ rep.length) :
    s.attestReportOut = (((((s.setBoot fun b => { b with attest := rest, report := none }).bump16
      Reg.BOOT_ATTEST_CNT).writeWin (d.word 3).toNat rep).complete d .ok).attestNext) := by
  simp [State.attestReportOut, hq, hr, hc, Nat.not_lt.2 hl]

/-- Settles O6: each command by what its checks let through, the queue of attestations by `State.attestAdd`. -/
theorem measuredAndAttested : Obligations.measuredAndAttested := by
  refine ⟨⟨fun s d hb hst hn hz hw ha hrun hroom => ?_, fun s d k hb hst hz hk hw ha => ?_⟩,
    fun s d hb hst hz hw hw' ha ha' hk hroom => ?_, fun s p mac nonce hst hn hk hroom => ?_,
    fun s d r rest rep hq hc hr hl => ?_⟩
  · obtain ⟨u, hmr, hkeeps, hheld⟩ := State.bootMrExtend_of_room hb hst hn hz hw ha hrun hroom
    have hboot : u.boot = s.boot := hkeeps.part .boot rfl
    refine ⟨_, next_of hmr, ?_, ?_, hkeeps.part .mem rfl, hkeeps.part .key rfl⟩
    · rw [State.complete_boot, State.setMr, hboot]
    · rw [State.complete_held]
      exact congrArg (· ++ _) hheld
  · exact ⟨_, next_of (State.bootAttestPub_of_key hb hst hz hk hw ha), rfl, rfl, rfl, rfl⟩
  · have hkeeps := State.attestAdd_keeps (r := { nonce := s.readWin (d.word 2).toNat 32, cmd := some d }) (Within.self _) (Keeps.refl s)
    exact ⟨_, next_of (State.attest_of_room hb hst hz hw hw' ha ha' hk hroom), congrArg BootSt.attest (State.attestAdd_boot ..),
      hkeeps.part .regs rfl, hkeeps.part .hif rfl, hkeeps.part .mem rfl⟩
  · have hkeeps := State.attestAdd_keeps (r := { nonce := nonce, port := p, mac := mac }) (Within.self _) (Keeps.refl s)
    exact ⟨_, next_of (State.attestRequestRx_of_room hst hn hk hroom), congrArg BootSt.attest (State.attestAdd_boot ..),
      hkeeps.part .regs rfl, hkeeps.part .hif rfl⟩
  · have hrun := State.attestReportOut_of_command hq hc hr hl
    generalize hu : ((((s.setBoot _).bump16 _).writeWin _ rep).complete d .ok) = u at hrun
    have hnext : Keeps [.cip] u u.attestNext := State.attestNext_keeps (.of rfl) (Keeps.refl u)
    refine ⟨_, next_of hrun, ?_, ?_, ?_, ?_⟩
    · rw [hnext.part .boot rfl, ← hu]; rfl
    · rw [hnext.part .boot rfl, ← hu]; rfl
    · rw [hnext.part .mem rfl, ← hu]; rfl
    · rw [hnext.part .hif rfl, ← hu]; rfl

end Sys2Proof.Machine

/-! The counts of the host's rings (O7). -/

namespace Sys2Proof.Machine

section
variable {s : State} {k : Nat} (hw : s.takesWrites = true) (hk : k ≤ 17) (v : Word)
include hw hk

theorem State.hostProdWrite_of_taken (h : s.ringEn k = false ∨ (hostProduces k = true ∧
    countDiff v.toNat (s.ringCons k) ≤ s.ringSize k)) : s.hostProdWrite k v = s.setReg (Reg.HIF_RING_PROD k) v := by
  rcases h with hoff | ⟨hhost, hfits⟩
  · simp [State.hostProdWrite, hw, Nat.not_lt.2 hk, hoff]
  · simp [State.hostProdWrite, hw, Nat.not_lt.2 hk, hhost, Nat.not_lt.2 hfits]

theorem State.hostConsWrite_of_taken (h : s.ringEn k = false ∨ hostProduces k = false) :
    s.hostConsWrite k v = s.setReg (Reg.HIF_RING_CONS k) v := by
  rcases h with h | h <;> simp [State.hostConsWrite, hw, Nat.not_lt.2 hk, h]

end

theorem State.setReg_onlyIn (s : State) (a : Nat) (v : Word) : OnlyIn [.regs] s (s.setReg a v) :=
  (State.setReg_keeps (Within.self _) (Keeps.refl s)).onlyIn

/-- Settles O7: a count that is taken is the register written, and no other. -/
theorem ringWrites : Obligations.ringWrites := by
  intro s k v htidy hw hk
  constructor
  · intro h
    exact ⟨_, next_of (State.hostProdWrite_of_taken hw hk v h), htidy.reg_setReg _ _, fun _ ha => reg_setReg_other ha,
      s.setReg_onlyIn _ _⟩
  · intro h
    exact ⟨_, next_of (State.hostConsWrite_of_taken hw hk v h), htidy.reg_setReg _ _, fun _ ha => reg_setReg_other ha,
      s.setReg_onlyIn _ _⟩

end Sys2Proof.Machine

/-! COMMAND_FETCH and HIF_NOP (O8). -/

namespace Sys2Proof.Machine

theorem State.judgeCommand_of_accepted {s : State} {d : Desc} {l : List CmdState} {c : CmdState} (hc : s.cmdState = some c)
    (hl : opcodeStates d.opcode = some l) (hin : l.contains c = true) (hb : spanOpcode d.opcode = true ∨ d.byte 4 = 0xFF) :
    s.judgeCommand d = s.setHif fun h => { h with started := h.started ++ [d] } := by
  have hb' : ¬((!spanOpcode d.opcode && decide (d.byte 4 ≠ 0xFF)) = true) := by
    rcases hb with h | h <;> simp [h]
  simp only [State.judgeCommand, hl, hc, hin, hb', if_false, if_true, Bool.false_eq_true]

theorem State.commandFetch_of_room {s : State} {d : Desc} {c : CmdState} (hf : s.fetches 0 = true)
    (hc : s.cmdState = some c) (hroom : s.hif.started.length < 256) :
    s.commandFetch (.ok d) = ((s.advanceCons 0).bump (Reg.HIF_CNT 0)).judgeCommand d := by
  simp [State.commandFetch, hf, hc, Nat.not_le.2 hroom]

theorem State.cmdState_congr {s t : State} (hsys : t.sys = s.sys) (hboot : t.boot = s.boot) : t.cmdState = s.cmdState := by
  unfold State.cmdState
  rw [hsys, hboot]

theorem State.hifNop_of_accepted {s : State} {d : Desc} (hb : d.byte 4 = 0xFF)
    (hst : s.inStates [.boot, .structured, .active, .standby, .maintenance, .alarm] = true)
    (hz : d.unlistedZero [] = true) : s.hifNop d = s.complete d .ok 0 (pw s.tick) (pw (s.tick / 2 ^ 32)) := by
  rw [State.hifNop, State.command_runs hb hst, hz]
  rfl

/-- Settles O8: the descriptor judged is the one of the count that CONS has passed. -/
theorem commandsStart : Obligations.commandsStart := by
  refine ⟨fun s d l c htidy hf hc hroom hl hin hb => ?_, fun s d hb hst hz => ?_⟩
  · have hc' : ((s.advanceCons 0).bump (Reg.HIF_CNT 0)).cmdState = some c := (State.cmdState_congr rfl rfl).trans hc
    refine ⟨_, next_of ((State.commandFetch_of_room hf hc hroom).trans (State.judgeCommand_of_accepted hc' hl hin hb)),
      rfl, rfl, ?_, ?_⟩
    · exact (State.bumpBy_reg (s := s.advanceCons 0) (by decide)).trans (htidy.reg_setReg _ _)
    · exact (State.setHif_keeps (.of rfl) (State.bump_keeps (.of rfl) (State.advanceCons_keeps (.of rfl) (Keeps.refl s)))).onlyIn
  · exact ⟨_, next_of (State.hifNop_of_accepted hb hst hz), rfl, (State.complete_keeps (.of rfl) (Keeps.refl s)).onlyIn⟩

end Sys2Proof.Machine

/-! Transmit descriptors (O9): what the records of an operation leave of the host interface, and a descriptor's way into the
MAC. -/

namespace Sys2Proof.Machine

/-! ### Records and interrupts change no more of the host interface than its vectors -/

/-- The host interface but for the events of its vectors. -/
def HifSt.still (h : HifSt) : HifSt := { h with vectors := [] }

/-- A poster leaves the host interface but for its vectors. -/
def Poster.KeepsHif (p : Poster) : Prop := ∀ s v src st ev pl, (State.hif (p s v src st ev pl)).still = (State.hif s).still

theorem HifSt.still_congr {s t : State} (h : t.hif = s.hif) : t.hif.still = s.hif.still := congrArg HifSt.still h

theorem State.sendMsi_hif (s : State) (v : Nat) : (s.sendMsi v).hif = s.hif :=
  (State.sendMsi_keeps (W := Part.but .hif) (.of rfl) (Keeps.refl s)).part .hif rfl

theorem State.raise_still (s : State) (c : Nat) : (s.raise c).hif.still = s.hif.still := by
  have hvector (u : State) (v : Nat) : (u.vectorEvent v).hif.still = u.hif.still := by
    unfold State.vectorEvent
    extract_lets w p cnt limit
    clear_value limit
    split
    · rw [State.sendMsi_hif]
      rfl
    · rfl
  unfold State.raise
  dsimp only
  split
  · exact (hvector _ _).trans (HifSt.still_congr (State.setFld_hif ..))
  · exact HifSt.still_congr (State.setFld_hif ..)

theorem State.writeRec_still (s : State) (v : Sev) (src : Nat) (st : Option Status) (ev : Nat) (pl : List Word) :
    (s.writeRec v src st ev pl).1.hif.still = s.hif.still := by
  unfold State.writeRec
  dsimp only
  repeat' split
  all_goals simp [State.raise_still, State.dropRec]

theorem State.enqueueWith_still {p : Poster} (hp : p.KeepsHif) (s : State) (q : Nat) (it : QItem) :
    (s.enqueueWith p q it).1.hif.still = s.hif.still := by
  have hcheck : ((s.checkPointers p q).newPacket q it).hif.still = s.hif.still := by
    refine (HifSt.still_congr (State.newPacket_hif ..)).trans ?_
    unfold State.checkPointers State.resetQueue
    split
    · exact (hp ..).trans ((State.raise_still ..).trans (HifSt.still_congr (State.bump_hif ..)))
    · rfl
  have hdrop (u : State) (e : Bool) : (u.dropArrival q e).hif = u.hif :=
    (State.dropArrival_keeps (W := Part.but .hif) (.of rfl) (Keeps.refl u)).part .hif rfl
  unfold State.enqueueWith
  generalize (s.checkPointers p q).newPacket q it = u at hcheck
  dsimp only
  repeat' split
  all_goals simp [hdrop, hcheck]

theorem State.exportWith_still {p : Poster} (hp : p.KeepsHif) (s : State) (v : Sev) :
    (s.exportWith p v).hif.still = s.hif.still := by
  unfold State.exportWith
  dsimp only
  repeat' split
  · rfl
  · exact State.enqueueWith_still hp _ _ _
  · rfl

theorem postVia_keepsHif {p : Poster} (hp : p.KeepsHif) : Poster.KeepsHif (postVia p) := by
  intro s v src st ev pl
  have hrec := State.writeRec_still s v src st ev pl
  unfold postVia
  split <;> rename_i s1 e <;> rw [e] at hrec
  · exact (State.exportWith_still hp ..).trans hrec
  · exact hrec

theorem post_keepsHif : Poster.KeepsHif post := postVia_keepsHif (postVia_keepsHif State.writeRec_still)

@[simp] theorem post_still (s : State) (v : Sev) (src : Nat) (st : Option Status) (ev : Nat) (pl : List Word) :
    (post s v src st ev pl).hif.still = s.hif.still := post_keepsHif s v src st ev pl

theorem State.enqueue_still (s : State) (q : Nat) (it : QItem) : (s.enqueue q it).1.hif.still = s.hif.still :=
  State.enqueueWith_still post_keepsHif s q it

theorem State.enqueue_reg {s : State} {q : Nat} {it : QItem} {a : Nat} (h : noted a = false) :
    (s.enqueue q it).1.reg a = s.reg a :=
  State.enqueueWith_reg (fun _ _ _ _ _ _ _ ha => post_reg ha) h

/-! ### What sending a descriptor leaves of the ring it came from -/

/-- `t` has the numbers, the rereads and the consumer counts of `s`: what the steps after a descriptor is taken leave. -/
def SameRings (s t : State) : Prop :=
  t.rf.nextDesc = s.rf.nextDesc ∧ t.hif.rereads = s.hif.rereads ∧
    ∀ k, k ≤ 17 → t.reg (Reg.HIF_RING_CONS k) = s.reg (Reg.HIF_RING_CONS k)

theorem SameRings.refl (s : State) : SameRings s s := ⟨rfl, rfl, fun _ _ => rfl⟩

theorem SameRings.trans {s t u : State} (h : SameRings s t) (g : SameRings t u) : SameRings s u := by
  obtain ⟨hn, hr, hc⟩ := h
  obtain ⟨gn, gr, gc⟩ := g
  exact ⟨gn.trans hn, gr.trans hr, fun k hk => (gc k hk).trans (hc k hk)⟩

theorem noted_ringCons {k : Nat} (hk : k ≤ 17) : noted (Reg.HIF_RING_CONS k) = false := by
  decide +revert

/-- Consumer counts are registers of the host interface, no counter of another block. -/
theorem ringCons_ne {k a : Nat} (hk : k ≤ 17) (ha : a < 0x1500000) : Reg.HIF_RING_CONS k ≠ a := by
  unfold Reg.HIF_RING_CONS
  omega

theorem SameRings.bumpBy (s : State) {a hi n : Nat} (ha : a < 0x1500000) : SameRings s (s.bumpBy a hi n) :=
  ⟨congrArg RfSt.nextDesc (State.bumpBy_rf ..), congrArg HifSt.rereads (State.bumpBy_hif ..),
    fun _ hk => State.bumpBy_reg (ringCons_ne hk ha)⟩

theorem SameRings.setQueue (s : State) (q : Nat) (x : Queue) : SameRings s (s.setQueue q x) := ⟨rfl, rfl, fun _ _ => rfl⟩

theorem SameRings.of_parts {s t : State} (hrf : t.rf = s.rf) (hhif : t.hif.still = s.hif.still)
    (hreg : ∀ a, noted a = false → t.reg a = s.reg a) : SameRings s t :=
  ⟨congrArg RfSt.nextDesc hrf, (congrArg HifSt.rereads hhif : t.hif.still.rereads = s.hif.still.rereads),
    fun _ hk => hreg _ (noted_ringCons hk)⟩

theorem State.freeGaps_sameRings (s : State) (q : Nat) : SameRings s (s.freeGaps q) :=
  .of_parts ((State.freeGaps_keeps (W := Part.but .rf) (.of rfl) (Keeps.refl s)).part .rf rfl)
    (HifSt.still_congr (State.freeGaps_hif ..)) fun _ _ => State.freeGaps_reg ..

theorem State.enqueue_sameRings (s : State) (q : Nat) (it : QItem) : SameRings s (s.enqueue q it).1 :=
  .of_parts ((State.enqueue_keeps (W := Part.but .rf) (.of rfl) (Keeps.refl s)).part .rf rfl) (s.enqueue_still q it)
    fun _ ha => State.enqueue_reg ha

theorem State.dropClaims_sameRings (l : List Claim) (s : State) :
    SameRings s (l.foldl (fun s c => s.endClaim c) s) := by
  induction l generalizing s with
  | nil => exact .refl s
  | cons c r ih => exact SameRings.trans (t := s.endClaim c) ⟨rfl, rfl, fun _ _ => rfl⟩ (ih _)

theorem State.releaseFlood_sameRings (s : State) (q n : Nat) : SameRings s (s.releaseFlood q n) := by
  unfold State.releaseFlood
  exact ((SameRings.bumpBy s (by decide)).trans (.setQueue ..)).trans (State.freeGaps_sameRings ..)

theorem State.txComplete_sameRings (s : State) (x : TxDesc) (st : Status) : SameRings s (s.txComplete x st) := by
  have hfree : SameRings s (s.freeOwned x.queue x.num) := (SameRings.setQueue ..).trans (State.freeGaps_sameRings ..)
  unfold State.txComplete
  extract_lets s1 s2 s3 que s3' s4
  have h2 : SameRings s s2 := by
    unfold s2
    split
    · exact hfree.trans (State.releaseFlood_sameRings ..)
    · exact hfree
  have h3 : SameRings s2 s3' := ⟨rfl, rfl, fun _ _ => rfl⟩
  have h4 : SameRings s s4 := (h2.trans h3).trans (State.dropClaims_sameRings ..)
  clear_value s4
  split
  · exact h4.trans ⟨rfl, rfl, fun _ _ => rfl⟩
  · exact h4

theorem State.lineFound_sameRings (s : State) (n : Nat) : SameRings s (s.lineFound n) := by
  unfold State.lineFound
  split
  · exact .refl s
  · exact .of_parts (post_rf ..) (post_still ..) fun _ ha => post_reg ha

theorem State.fetchCtx_sameRings (s : State) (n : Nat) : SameRings s (s.fetchCtx n).1 := by
  unfold State.fetchCtx
  split
  · exact .refl s
  · exact (State.lineFound_sameRings ..).trans (.bumpBy _ (by decide))

theorem State.fetchAll_sameRings (s : State) (l : List Nat) : SameRings s (s.fetchAll l).1 := by
  unfold State.fetchAll
  generalize (some [] : Option (List Ctx)) = acc
  induction l generalizing s acc with
  | nil => exact .refl s
  | cons n r ih =>
    have hfetch := s.fetchCtx_sameRings n
    rw [List.foldl_cons]
    cases acc with
    | none => exact ih s none
    | some cs =>
      dsimp only
      split <;> rename_i s1 e <;> rw [e] at hfetch <;> exact hfetch.trans (ih _ _)

theorem State.queueFrame_sameRings (s : State) (x : TxDesc) : SameRings s (s.queueFrame x) := by
  unfold State.queueFrame
  split
  · exact (SameRings.bumpBy s (by decide)).trans (State.txComplete_sameRings ..)
  · have henq := s.enqueue_sameRings x.queue
      { len := (x.frags.getD x.at_ []).length, aux := pw x.peer, bytes := x.frags.getD x.at_ [], owner := some ⟨x.num, x.at_⟩ }
    dsimp only
    split <;> rename_i s1 e <;> rw [e] at henq
    · exact henq
    · exact henq.trans (State.txComplete_sameRings ..)

theorem State.tagUsed_sameRings (s : State) (c : Bool) : SameRings s (s.tagUsed c) := by
  unfold State.tagUsed
  split
  · exact ⟨rfl, rfl, fun k hk => State.setFld_reg (ringCons_ne hk (by decide))⟩
  · exact .refl s

theorem State.setDesc_sameRings (s : State) (x : TxDesc) : SameRings s (s.setDesc x) := ⟨rfl, rfl, fun _ _ => rfl⟩

/-- Once a descriptor has its number, sending it moves no count of a ring. -/
theorem State.sendTo_sameRings (s : State) (x : TxDesc) (n : Option Nat) (data : List Byte) :
    SameRings (s.addDesc x).1 (s.sendTo x n data) := by
  unfold State.sendTo
  generalize s.addDesc x = r
  obtain ⟨s0, y⟩ := r
  dsimp only
  have hdone {t : State} (h : SameRings s0 t) (z : TxDesc) (st : Status) : SameRings s0 (t.txComplete z st) :=
    h.trans (State.txComplete_sameRings ..)
  cases n with
  | none => exact hdone (.refl s0) _ _
  | some n =>
    dsimp only
    have h1 := s0.fetchCtx_sameRings n
    split
    · rename_i s1 e
      rw [e] at h1
      exact hdone h1 _ _
    · rename_i s1 c e
      rw [e] at h1
      split
      · exact hdone h1 _ _
      · have h2 : SameRings s0 (if c.peerOf n = n then (s1, some c) else s1.fetchCtx (c.peerOf n)).1 := by
          split
          · exact h1
          · exact SameRings.trans h1 (State.fetchCtx_sameRings ..)
        split
        · rename_i s2 e2
          rw [e2] at h2
          exact hdone h2 _ _
        · rename_i s2 pc e2
          rw [e2] at h2
          split
          · exact hdone h2 _ _
          · split
            · exact hdone (SameRings.trans h2 (.bumpBy _ (by decide))) _ _
            · have h3 := SameRings.trans h2 (s2.fetchAll_sameRings (c.hops.drop 1))
              split
              · rename_i s3 e3
                rw [e3] at h3
                exact hdone h3 _ _
              · rename_i s3 via e3
                rw [e3] at h3
                split
                · exact hdone h3 _ _
                · exact ((SameRings.trans h3 (State.tagUsed_sameRings ..)).trans (State.setDesc_sameRings ..)).trans
                    (State.queueFrame_sameRings ..)

/-! ### A descriptor with a MAC payload is taken -/

theorem txFieldsOk_congr {s t : State} {d : Desc} (hd : d.byte 4 = 1) (h : t.reg Reg.MAC_CTRL = s.reg Reg.MAC_CTRL) :
    txFieldsOk t d = txFieldsOk s d := by
  unfold txFieldsOk State.minSec State.regFld
  simp only [hd, (by decide : ¬(1 : Nat) = 2), decide_false, Bool.not_false, Bool.true_or]
  rw [h]

theorem State.lineUsable_congr {s t : State} (htruss : t.truss = s.truss) (hctxs : t.ctxs = s.ctxs) (n : Nat) :
    t.lineUsable n = s.lineUsable n := by
  unfold State.lineUsable State.lineOk State.line State.ctxAddr State.tp
  rw [htruss, hctxs]

theorem State.neverFits_congr {s t : State} {d : Desc} {data : List Byte} (hd : d.byte 4 = 1)
    (htruss : t.truss = s.truss) (hctxs : t.ctxs = s.ctxs) : t.neverFits d data = s.neverFits d data := by
  have husable : t.lineUsable = s.lineUsable := funext (State.lineUsable_congr htruss hctxs)
  have hline : t.line = s.line := funext fun n => by rw [State.line, State.line, hctxs]
  have htp : t.tp = s.tp := by rw [State.tp, State.tp, htruss]
  unfold State.neverFits State.txNode State.txFrags
  simp only [hd, or_true, if_true, (by decide : ¬(1 : Nat) = 2), if_false]
  rw [husable, hline, htp]

@[simp] theorem afind_aerase_same {α : Type} (m : List (Nat × α)) (k : Nat) : afind (aerase m k) k = none := by
  unfold aerase
  induction m with
  | nil => rfl
  | cons e r ih =>
    rw [List.filter_cons]
    split
    · rename_i h
      unfold afind
      rw [if_neg (by simpa using h), ih]
    · exact ih

/-- The state in which a descriptor of transmit ring `r` is judged: counted, and its reread over. -/
def State.txCounted (s : State) (r : Nat) : State :=
  (((s.rsbFetch r (s.ringCons (2 + r))).advanceCons (2 + r)).bump (Reg.HIF_CNT 1)).setHif fun h =>
    { h with rereads := aerase h.rereads r }

theorem State.txCounted_keeps (s : State) (r : Nat) : Keeps [.red, .outbox, .regs, .hif] s (s.txCounted r) :=
  State.setHif_keeps (.of rfl) (State.bump_keeps (.of rfl) (State.advanceCons_keeps (.of rfl)
    (State.rsbFetch_keeps (.of rfl) (Keeps.refl s))))

theorem State.txCounted_reg {s : State} (h : s.tidy) {r : Nat} (hr : r < 8) :
    (s.txCounted r).reg (Reg.HIF_RING_CONS (2 + r)) = s.reg (Reg.HIF_RING_CONS (2 + r)) + 1 ∧
      (s.txCounted r).reg Reg.MAC_CTRL = s.reg Reg.MAC_CTRL := by
  have hrsb : Keeps [.red, .outbox] s (s.rsbFetch r (s.ringCons (2 + r))) := State.rsbFetch_keeps (.of rfl) (Keeps.refl s)
  have hregs (a : Nat) : (s.rsbFetch r (s.ringCons (2 + r))).reg a = s.reg a :=
    congrArg (aget (resetOf a) · a) (hrsb.part .regs rfl)
  have hne : Reg.MAC_CTRL ≠ Reg.HIF_RING_CONS (2 + r) := (ringCons_ne (by omega) (by decide)).symm
  have hcnt : Reg.HIF_RING_CONS (2 + r) ≠ Reg.HIF_CNT 1 := by
    unfold Reg.HIF_RING_CONS Reg.HIF_CNT
    omega
  constructor
  · exact (State.bumpBy_reg hcnt).trans (((hrsb.tidy h).reg_setReg _ _).trans (by rw [hregs]))
  · exact (State.bumpBy_reg (by decide)).trans ((reg_setReg_other hne).trans (hregs _))

section
variable {s : State} {r : Nat} {d : Desc} {data : List Byte} (htidy : s.tidy) (hr : r < 8) (hd : d.byte 4 = 1)
  (hok : txFieldsOk s d = true) (hfits : s.neverFits d (slice data 0 (d.half 0)) = false)
include htidy hr hd hok hfits

/-- A PAYLOAD descriptor in order is sent to the node it names (R217). -/
theorem State.txTaken_sends : ∃ x : TxDesc, s.txTaken r d (.ok data) =
    (s.txCounted r).sendTo x (some (d.word 2).toNat) (slice data 0 (d.half 0)) := by
  have hkeeps := s.txCounted_keeps r
  have hok' : txFieldsOk (s.txCounted r) d = true := (txFieldsOk_congr hd (State.txCounted_reg htidy hr).2).trans hok
  have hfits' : (s.txCounted r).neverFits d (slice data 0 (d.half 0)) = false :=
    (State.neverFits_congr hd (hkeeps.part .truss rfl) (hkeeps.part .ctxs rfl)).trans hfits
  have hlen : d.half 0 ≠ 0 ∧ d.half 0 ≠ 0xFFFF := by
    simp only [State.neverFits, Bool.or_eq_false_iff, decide_eq_false_iff_not] at hfits
    exact hfits.1
  have htaken : s.txTaken r d (.ok data) = (s.txCounted r).txAccept r (s.ringCons (2 + r)) d (slice data 0 (d.half 0)) := by
    have hgo : ¬(d.half 0 = 0 ∨ d.half 0 = 0xFFFF ∨ (!txFieldsOk (s.txCounted r) d) = true) := by simp [hlen, hok']
    exact if_neg hgo
  rw [htaken]
  unfold State.txAccept
  simp only [hfits', hok', hd, Bool.not_true, Bool.false_eq_true, if_false, (by decide : ¬(1 : Nat) = 2), Nat.one_ne_zero, false_and,
    or_true, if_true]
  exact ⟨_, rfl⟩

/-- What a descriptor that is taken leaves: its number in the MAC, CONS past it, and no reread of its ring. -/
theorem State.txTaken_leaves : (s.txTaken r d (.ok data)).rf.nextDesc = s.rf.nextDesc + 1 ∧
    afind (s.txTaken r d (.ok data)).hif.rereads r = none ∧
    (s.txTaken r d (.ok data)).reg (Reg.HIF_RING_CONS (2 + r)) = s.reg (Reg.HIF_RING_CONS (2 + r)) + 1 := by
  obtain ⟨x, hsends⟩ := State.txTaken_sends htidy hr hd hok hfits
  obtain ⟨hnext, hrereads, hcons⟩ :=
    (s.txCounted r).sendTo_sameRings x (some (d.word 2).toNat) (slice data 0 (d.half 0))
  have hrf : (s.txCounted r).rf = s.rf := (s.txCounted_keeps r).part .rf rfl
  rw [hsends]
  refine ⟨hnext.trans ?_, ?_, (hcons _ (by omega)).trans (State.txCounted_reg htidy hr).1⟩
  · exact congrArg (fun x : RfSt => x.nextDesc + 1) hrf
  · rw [hrereads]
    exact afind_aerase_same _ _

end

/-- Settles O9: with the right PHASE both commands come to `State.txTaken`; with another, a reread begins. -/
theorem descriptorsTaken : Obligations.descriptorsTaken := by
  intro s r d data htidy hf
  have hr : r < 8 := by
    simp only [State.txFetches, Bool.and_eq_true, decide_eq_true_eq] at hf
    exact hf.1.1.1
  refine ⟨fun hphase hd hok hfits => ⟨fun hnone => ?_, fun n hn => ?_⟩, fun hphase hnone => ?_⟩
  · have hrun : s.txFetch r (.ok d) (.ok data) = s.txTaken r d (.ok data) := by
      simp [State.txFetch, hf, hnone, hphase]
    exact ⟨_, next_of hrun, State.txTaken_leaves htidy hr hd hok hfits⟩
  · have hrun : s.phaseReread r (.ok d) (.ok data) = s.txTaken r d (.ok data) := by
      simp [State.phaseReread, hf, hn, hphase]
    exact ⟨_, next_of hrun, State.txTaken_leaves htidy hr hd hok hfits⟩
  · have hrun : s.txFetch r (.ok d) (.ok data) = s.setHif fun h => { h with rereads := aput h.rereads r 1 } := by
      simp [State.txFetch, hf, hnone, hphase]
    exact ⟨_, next_of hrun, rfl, (State.setHif_keeps (.of rfl) (Keeps.refl s)).onlyIn⟩

end Sys2Proof.Machine

/-! The host link: completions written (O10), the link and the vectors (O11), the window (O12). -/

namespace Sys2Proof.Machine

/-! ### Fields of a word put together with `fld` -/

theorem bits_or {n : Nat} (a b : BitVec n) (hi lo : Nat) : bits (a ||| b) hi lo = bits a hi lo ||| bits b hi lo := by
  simp [bits, Nat.shiftRight_or_distrib, Nat.or_mod_two_pow]

theorem bits_fld (v l hi lo : Nat) : bits (fld v l) hi lo = v * 2 ^ l % 2 ^ 32 / 2 ^ lo % 2 ^ (hi + 1 - lo) := by
  simp only [bits, fld, BitVec.toNat_ofNat, Nat.shiftLeft_eq, Nat.shiftRight_eq_div_pow]

theorem bit_eq_bits {n : Nat} (w : BitVec n) (i : Nat) : bit w i = decide (bits w i i = 1) := by
  simp [bit, bits, BitVec.getLsbD, Nat.testBit_eq_decide_div_mod_eq, Nat.shiftRight_eq_div_pow]

/-! ### Completions -/

theorem State.sendMsi_outbox {s : State} {o : Output} (h : o ∈ s.outbox) (v : Nat) : o ∈ (s.sendMsi v).outbox := by
  unfold State.sendMsi
  repeat' split
  · exact h
  · rwa [State.setFld_outbox]
  · rw [State.bump_outbox]
    exact List.mem_append_left _ h

/-- An interrupt only adds to what is sent. -/
theorem State.raise_outbox {s : State} {o : Output} (h : o ∈ s.outbox) (c : Nat) : o ∈ (s.raise c).outbox := by
  have hvector {u : State} (hu : o ∈ u.outbox) (v : Nat) : o ∈ (u.vectorEvent v).outbox := by
    unfold State.vectorEvent
    extract_lets w p cnt limit
    clear_value limit
    split
    · refine State.sendMsi_outbox ?_ v
      exact hu
    · exact hu
  unfold State.raise
  dsimp only
  split
  · exact hvector (by rwa [State.setFld_outbox]) _
  · rwa [State.setFld_outbox]

/-- The oldest completion, written at PROD of ring 1 (R422). -/
theorem State.completionWrite_of_room {s : State} {c : Completion} {rest : List Completion} (hheld : s.hif.held = c :: rest)
    (hkind : c.kind ≠ .transmit) (hs : s.sys.state ≠ .fault) (hlink : s.linkUp = true) (hen : s.ringEn 1 = true)
    (hroom : s.cplFull = false) :
    s.completionWrite = (((((s.setHif fun h => { h with held := rest }).emit (.hostWrite (s.ringAddr 1 (s.ringProd 1) 16)
      (c.bytes (s.ringPhase 1 (s.ringProd 1))))).setReg (Reg.HIF_RING_PROD 1) (s.reg (Reg.HIF_RING_PROD 1) + 1)).bump
        (Reg.HIF_CNT 2)).raise 0) := by
  simp [State.completionWrite, hheld, hkind, hs, hlink, hen, hroom]

/-- Settles O10: the write is sent, and the interrupt after it takes nothing back. -/
theorem completionIsWritten : Obligations.completionIsWritten := by
  intro s c rest htidy hheld hkind hs hlink hen hroom
  refine ⟨_, next_of (State.completionWrite_of_room hheld hkind hs hlink hen hroom), ?_, ?_, ?_⟩
  · rw [State.raise_held, State.bump_hif, State.setReg_hif, State.emit_hif]
    rfl
  · refine State.raise_outbox ?_ 0
    rw [State.bump_outbox, State.setReg_outbox, State.emit_outbox]
    exact List.mem_append_right _ (List.mem_singleton_self _)
  · rw [State.raise_reg (by decide), State.bump, State.bumpBy_reg (by decide)]
    exact reg_setReg_same htidy.rising

/-! ### The link and the vectors -/

theorem fld_link (speed width : Nat) :
    bit (fld 1 16 ||| fld (speed % 16) 8 ||| fld (width % 64) 0) 16 = true ∧
      bits (fld 1 16 ||| fld (speed % 16) 8 ||| fld (width % 64) 0) 11 8 = speed % 16 ∧
      bits (fld 1 16 ||| fld (speed % 16) 8 ||| fld (width % 64) 0) 5 0 = width % 64 := by
  have hs : speed % 16 < 16 := Nat.mod_lt _ (by decide)
  have hw : width % 64 < 64 := Nat.mod_lt _ (by decide)
  generalize speed % 16 = a at hs
  generalize width % 64 = b at hw
  have hup : a * 2 ^ 8 % 2 ^ 32 / 2 ^ 16 % 2 ^ 1 = 0 ∧ b * 2 ^ 0 % 2 ^ 32 / 2 ^ 16 % 2 ^ 1 = 0 := by omega
  have hspeed : a * 2 ^ 8 % 2 ^ 32 / 2 ^ 8 % 2 ^ 4 = a ∧ b * 2 ^ 0 % 2 ^ 32 / 2 ^ 8 % 2 ^ 4 = 0 := by omega
  have hwidth : a * 2 ^ 8 % 2 ^ 32 / 2 ^ 0 % 2 ^ 6 = 0 ∧ b * 2 ^ 0 % 2 ^ 32 / 2 ^ 0 % 2 ^ 6 = b := by omega
  rw [bit_eq_bits]
  simp only [bits_or, bits_fld]
  rw [show 16 + 1 - 16 = 1 from rfl, show 11 + 1 - 8 = 4 from rfl, show 5 + 1 - 0 = 6 from rfl, hup.1, hup.2, hspeed.1,
    hspeed.2, hwidth.1, hwidth.2]
  exact ⟨by decide, by simp, by simp⟩

/-- A key that a filter takes out reads as the default. -/
theorem aget_filter_of_false {α : Type} {d : α} {m : List (Nat × α)} {p : Nat × α → Bool} {k : Nat}
    (h : ∀ v, p (k, v) = false) : aget d (m.filter p) k = d := by
  induction m with
  | nil => rfl
  | cons e r ih =>
    obtain ⟨a, v⟩ := e
    rw [List.filter_cons]
    split
    · rename_i hp
      unfold aget
      rw [if_neg, ih]
      rintro rfl
      simp [h] at hp
    · exact ih

theorem State.linkReset_linkUp (s : State) : s.linkReset.linkUp = false := by
  have hout : (Reg.HIF_STATUS / 0x100000 != 0x15 || isHifCnt Reg.HIF_STATUS) = false := by decide
  have hreg : s.linkReset.reg Reg.HIF_STATUS = resetOf Reg.HIF_STATUS := aget_filter_of_false fun _ => hout
  rw [State.linkUp, hreg]
  decide

theorem State.moderationExpiry_sends {s : State} {i : U64} {v n first : Nat} (hv : aget (0, 0) s.hif.vectors v = (n + 1, first))
    (hs : s.sys.state ≠ .fault) (ht : first + s.regFld (Reg.HIF_INT_MOD v) 31 16 * 1000 ≤ (s.at_ i).time.elapsed)
    (hlink : s.linkUp = true) (hmask : bit (s.reg (msixCtrl v)) 0 = false) :
    s.moderationExpiry i v = ((((s.at_ i).setHif fun h => { h with vectors := aset (0, 0) h.vectors v (0, 0) }).emit
      (.msix v)).bump (Reg.HIF_CNT 8)) := by
  generalize hu : ((s.at_ i).setHif fun h => { h with vectors := aset (0, 0) h.vectors v (0, 0) }) = u
  have hregs : u.regs = s.regs := by rw [← hu, State.setHif_regs, State.at__regs]
  have hlink' : u.linkUp = true := by rw [← hlink, State.linkUp, State.linkUp, State.reg, State.reg, hregs]
  have hmask' : bit (u.reg (msixCtrl v)) 0 = false := by rw [← hmask, State.reg, State.reg, hregs]
  have hsend : u.sendMsi v = (u.emit (.msix v)).bump (Reg.HIF_CNT 8) := by simp [State.sendMsi, hlink', hmask']
  rw [← hsend, ← hu]
  unfold State.moderationExpiry
  have ht' : ¬((s.at_ i).time.elapsed < first + bits (s.reg (Reg.HIF_INT_MOD v)) 31 16 * 1000) := Nat.not_lt.2 ht
  simp [State.regFld, hv, hs, ht']

/-- Settles O11: the pin, the training register and the message each by its own equation. -/
theorem linkAndVectors : Obligations.linkAndVectors := by
  refine ⟨fun s low => ?_, fun s speed width htidy hp hs => ?_, fun s i v n first hv hs ht hlink hmask => ?_⟩
  · have honly := (State.pePerst_keeps (low := low) (Within.self _) (Keeps.refl s)).onlyIn
    cases low with
    | false => exact ⟨_, rfl, rfl, nofun, fun _ => rfl, honly⟩
    | true => exact ⟨_, rfl, rfl, fun _ => ⟨State.linkReset_linkUp _, rfl⟩, nofun, honly⟩
  · obtain ⟨hup, hspeed, hwidth⟩ := fld_link speed width
    have hrun : s.pcieLinkChange true speed width =
        s.setReg Reg.HIF_STATUS (fld 1 16 ||| fld (speed % 16) 8 ||| fld (width % 64) 0) := by
      simp [State.pcieLinkChange, hp, hs]
    have hreg := htidy.reg_setReg Reg.HIF_STATUS (fld 1 16 ||| fld (speed % 16) 8 ||| fld (width % 64) 0)
    refine ⟨_, next_of hrun, ?_, ?_, ?_, s.setReg_onlyIn _ _⟩
    · rw [State.linkUp, hreg, hup]
    · rw [State.regFld, hreg, hspeed]
    · rw [State.regFld, hreg, hwidth]
  · refine ⟨_, next_of (State.moderationExpiry_sends hv hs ht hlink hmask), ?_, ?_⟩
    · simp
    · simp

end Sys2Proof.Machine

/-! The window of the memory die (O12). -/

namespace Sys2Proof.Machine

/-- A write leaves the octets before and after it. -/
theorem aget_memWrite_outside {m : List Host.Cell} {a b : Nat} {bs : List Byte} (h : b < a ∨ a + bs.length ≤ b) :
    aget 0 (memWrite m a bs) b = aget 0 m b := by
  induction bs generalizing m a with
  | nil => rfl
  | cons x r ih =>
    rw [List.length_cons] at h
    have hput : aget 0 (memPut m a x) b = aget 0 m b := by
      unfold memPut
      split
      · exact aget_aset_other (by omega)
      · rfl
    exact (ih (by omega)).trans hput

/-- The octets of a write read back, where the memory die has them. -/
theorem aget_memWrite_inside {m : List Host.Cell} {a j : Nat} {bs : List Byte} (hm : Memory.wf m = true)
    (hj : j < bs.length) (hsize : a + j < memSize) : aget 0 (memWrite m a bs) (a + j) = bs.getD j 0 := by
  induction bs generalizing m a j with
  | nil => cases hj
  | cons x r ih =>
    cases j with
    | zero =>
      have hrising : risingKeys m = true := by
        simp only [Memory.wf, canonical, Bool.and_eq_true] at hm
        exact hm.1.1
      refine (aget_memWrite_outside (.inl (Nat.lt_succ_self a))).trans ?_
      rw [memPut, if_pos (by omega)]
      exact aget_aset_same hrising
    | succ k =>
      have hnext := ih (a := a + 1) (memory_wf_put (a := a) (v := x) hm) (Nat.lt_of_succ_lt_succ hj) (by omega)
      rw [show a + 1 + k = a + (k + 1) by omega] at hnext
      exact hnext

theorem State.tidy.mem_wf {s : State} (h : s.tidy) : Memory.wf s.mem = true := by
  obtain ⟨hmem, -⟩ := h
  exact hmem

theorem State.writeWin_keeps_mem (s : State) (o : Nat) (bs : List Byte) : Keeps [.mem] s (s.writeWin o bs) :=
  State.writeWin_keeps (.of rfl) (Keeps.refl s)

/-- Settles O12: the octets that lie in the window are those written, by the laws of `memWrite`. -/
theorem windowAccess : Obligations.windowAccess := by
  intro s o bs hon ho
  constructor
  · have hrun : s.bar2Access true o bs = s.writeWin o (bs.take (s.windowSize - o)) := by
      simp [State.bar2Access, hon, Nat.not_le.2 ho]
    refine ⟨_, next_of hrun, fun j hj hwin hsize htidy => ?_, fun a ha => ?_, (s.writeWin_keeps_mem _ _).onlyIn⟩
    · have hlen : j < (bs.take (s.windowSize - o)).length := by
        rw [List.length_take]
        omega
      refine (aget_memWrite_inside htidy.mem_wf hlen hsize).trans ?_
      rw [List.getD_eq_getElem?_getD, List.getElem?_take_of_lt (by omega), ← List.getD_eq_getElem?_getD]
    · refine aget_memWrite_outside ?_
      rw [List.length_take]
      omega
  · have hread : s.bar2Access false o bs = s := by simp [State.bar2Access, hon, Nat.not_le.2 ho]
    exact next_of hread

end Sys2Proof.Machine

/-! REGISTER_WRITE (O13). -/

namespace Sys2Proof.Machine

/-- Every member of a family lies in the block of the family, when the family does not leave it. -/
theorem inFamily_block {a base step n : Nat} (h : inFamily a base step n = true)
    (hend : (base + step * n - 1) / 0x100000 = base / 0x100000) : a / 0x100000 = base / 0x100000 := by
  simp only [inFamily, decide_eq_true_eq] at h
  obtain ⟨hlo, hhi, -⟩ := h
  have h1 := Nat.div_le_div_right (c := 0x100000) hlo
  have h2 := Nat.div_le_div_right (c := 0x100000) (Nat.le_sub_one_of_lt hhi)
  omega

/-- The blocks whose registers hold what is written to them, with no further effect. -/
def plainBlocks : List Nat := [0x00, 0x01, 0x02, 0x03, 0x08, 0x0E, 0x11, 0x12, 0x13, 0x14, 0x17]

theorem inFamily_eq_false {a base step n : Nat} (h : a / 0x100000 ∈ plainBlocks)
    (hbase : (base + step * n - 1) / 0x100000 = base / 0x100000 ∧ base / 0x100000 ∉ plainBlocks) :
    inFamily a base step n = false := by
  cases hf : inFamily a base step n with
  | false => rfl
  | true => exact absurd (inFamily_block hf hbase.1 ▸ h) hbase.2

theorem ne_of_block {a b : Nat} (h : a / 0x100000 ∈ plainBlocks) (hb : b / 0x100000 ∉ plainBlocks) : a ≠ b := by
  rintro rfl
  exact hb h

theorem State.writeSide_of_plain {a : Nat} (h : a / 0x100000 ∈ plainBlocks) (s : State) (v : Word) :
    s.writeSide a v = s := by
  unfold State.writeSide
  simp only [ne_of_block h (b := Reg.QUE_HWM_DEPTH) (by decide), ne_of_block h (b := Reg.QUE_HWM_SOJ) (by decide),
    ne_of_block h (b := Reg.QUE_GAPS) (by decide), ne_of_block h (b := Reg.TOL_HWM_DEPTH) (by decide),
    ne_of_block h (b := Reg.TOL_HWM_SOJ) (by decide), ne_of_block h (b := Reg.CAL_CR_BASE) (by decide),
    inFamily_eq_false h (base := msixCtrl 0) (step := 0x10) (n := 64) (by decide),
    inFamily_eq_false h (base := Reg.HIF_RING_CFG 0) (step := 0x20) (n := 18) (by decide),
    inFamily_eq_false h (base := Reg.TOL_SHAPE_RATE 0) (step := 0x100) (n := 2) (by decide),
    inFamily_eq_false h (base := Reg.RXF_GAIN 0) (step := 0x100) (n := 2) (by decide),
    inFamily_eq_false h (base := Reg.TXC_CTRL 0) (step := 0x100) (n := 4) (by decide),
    Bool.false_and, Bool.false_eq_true, if_false]

theorem State.applyWrite_of_plain {a : Nat} {r : RegSpec} (h : a / 0x100000 ∈ plainBlocks) (hr : findReg a = some r)
    (s : State) (v : Word) : s.applyWrite a v = s.setReg a (r.written (s.reg a) v) := by
  unfold State.applyWrite
  simp only [hr, inFamily_eq_false h (base := Reg.TOL_SHAPE_RATE 0) (step := 0x100) (n := 2) (by decide),
    inFamily_eq_false h (base := Reg.TOL_SHAPE_BURST 0) (step := 0x100) (n := 2) (by decide),
    ne_of_block h (b := Reg.CAL_CR_BASE) (by decide), Bool.or_self, Bool.false_eq_true, if_false,
    State.writeSide_of_plain h]

theorem State.registerWrite_of_inRange {s : State} {a : Nat} {v : Word} {r : RegSpec} (ha : a % 4 = 0)
    (hown : s.ownWrite a v = none) (hw : s.takesWrites = true) (habs : s.absentReg a = false) (hr : findReg a = some r)
    (hrange : s.writeInRange a (r.asked v) = true) : s.registerWrite a 4 v =
      if atEdge a then { s with regWrites := s.regWrites ++ [(a, v)] } else s.applyWrite a v := by
  simp only [State.registerWrite, ha, hown, hw, habs, hr, hrange, ne_eq, not_true_eq_false, or_self, if_false,
    Bool.not_true, Bool.or_self, Bool.false_eq_true]

/-- Settles O13: the write waits for the edge, or is the register written. -/
theorem registerWrites : Obligations.registerWrites := by
  intro s a v r htidy ha hown hw habs hr hrange
  have hrun := State.registerWrite_of_inRange ha hown hw habs hr hrange
  constructor
  · intro hedge
    rw [hedge] at hrun
    exact ⟨_, next_of hrun, rfl, (Keeps.set_regWrites (List.mem_singleton_self _) (Keeps.refl s)).onlyIn⟩
  · intro hedge hblock
    rw [hedge] at hrun
    exact ⟨_, next_of (hrun.trans (State.applyWrite_of_plain hblock hr s v)), htidy.reg_setReg _ _,
      fun b hb => reg_setReg_other hb, s.setReg_onlyIn _ _⟩

end Sys2Proof.Machine

/-! The clock (O14): what leaves DTIME, TICKNO and the time that has passed as they are, and the edge. -/

namespace Sys2Proof.Machine

/-- What the device knows of the time: DTIME, TICKNO, and the nanoseconds passed (R26, R174). -/
def State.clock (s : State) : U64 × TickNo × Nat := (s.time.dtime, s.time.tickno, s.time.elapsed)

theorem State.clock_of_time {s t : State} (h : t.time = s.time) : t.clock = s.clock := by
  simp only [State.clock, h]

theorem Keeps.clock {W : List Part} {s t : State} (h : Keeps W s t) (hW : W.contains .time = false) : t.clock = s.clock :=
  State.clock_of_time (h.part .time hW)

theorem State.now_of_clock {s t : State} (h : t.clock = s.clock) : t.now = s.now := congrArg (fun c => c.1.toNat) h
theorem State.tick_of_clock {s t : State} (h : t.clock = s.clock) : t.tick = s.tick := congrArg (fun c => c.2.1.toNat) h
theorem State.elapsed_of_clock {s t : State} (h : t.clock = s.clock) : t.time.elapsed = s.time.elapsed :=
  congrArg (fun c => c.2.2) h

/-- A loop whose every pass leaves the clock leaves it. -/
theorem State.foldl_clock {α : Type} {f : State → α → State} (h : ∀ t a, (f t a).clock = t.clock) (l : List α) (s : State) :
    (l.foldl f s).clock = s.clock :=
  List.foldlRecOn l f (motive := fun t => t.clock = s.clock) rfl fun t ht a _ => (h t a).trans ht

theorem State.bump_clock (s : State) (a : Nat) : (s.bump a).clock = s.clock :=
  (State.bump_keeps (.of rfl) (Keeps.refl s) : Keeps [.regs] _ _).clock rfl

/-- The time after the check: HOLDOVER begins at this DTIME, or nothing changes (R43). -/
theorem State.holdoverCheck_time (s : State) : s.holdoverCheck.time =
    if (s.inStates [.active, .standby] && s.time.holdover.isNone && s.sourcesLost) = true
      then { s.time with holdover := some s.time.dtime } else s.time := by
  unfold State.holdoverCheck
  split <;> simp only [State.raise_time, post_time, State.setTime]

/-- The time after the end of a holdover, or what it was. -/
theorem State.holdoverClear_time (s : State) : s.holdoverClear.time =
    if (s.time.holdover.isSome && s.inStates [.active, .standby]) = true
      then { s.time with extraGuard := s.extraGuardFine, holdover := none } else s.time := by
  unfold State.holdoverClear
  split <;> simp only [State.raise_time, post_time, State.setTime]

theorem State.holdoverCheck_clock (s : State) : s.holdoverCheck.clock = s.clock := by
  simp only [State.clock, State.holdoverCheck_time]
  split <;> rfl

theorem State.holdoverClear_clock (s : State) : s.holdoverClear.clock = s.clock := by
  simp only [State.clock, State.holdoverClear_time]
  split <;> rfl

theorem State.holdoverAtEntry_clock (s : State) : s.holdoverAtEntry.clock = s.clock := by
  unfold State.holdoverAtEntry
  refine (State.holdoverCheck_clock _).trans ?_
  split
  · exact s.holdoverClear_clock
  · rfl

theorem State.setTime_clock (s : State) (f : TimeSt → TimeSt)
    (h : ((f s.time).dtime, (f s.time).tickno, (f s.time).elapsed) = (s.time.dtime, s.time.tickno, s.time.elapsed)) :
    (s.setTime f).clock = s.clock := h

/-- Taking a beacon for missed loses the source at most; the clock runs on (R47). -/
theorem State.parentMissed_clock (s : State) (b : Nat) : (s.parentMissed b).clock = s.clock := by
  unfold State.parentMissed
  extract_lets s1
  have hb : s1.clock = s.clock := (State.setTime_clock (s.bump (Reg.SCH_CNT b 7)) _ rfl).trans (s.bump_clock _)
  clear_value s1
  split
  · exact ((State.holdoverCheck_clock _).trans (State.setTime_clock s1 _ rfl)).trans hb
  · exact hb

theorem State.settleWatches_clock (s : State) : s.settleWatches.clock = s.clock := by
  unfold State.settleWatches
  refine State.foldl_clock (fun t w => ?_) _ s
  extract_lets t1
  split
  · exact (t1.parentMissed_clock w.band).trans rfl
  · exact ((State.standbyMissed_keeps (.of rfl) (Keeps.refl t1) : Keeps (Part.but .time) _ _).clock rfl).trans rfl

theorem State.searchRefresh_clock (s : State) : s.searchRefresh.clock = s.clock := rfl

theorem State.settleAir_clock (s : State) : s.settleAir.clock = s.clock :=
  ((State.searchRefresh_clock _).trans (State.settleWatches_clock _)).trans
    ((State.settleWaits_keeps (.of rfl) (Keeps.refl s) : Keeps (Part.but .time) _ _).clock rfl)

theorem State.standbyAtEntry_clock (s : State) : s.standbyAtEntry.clock = s.clock := by
  unfold State.standbyAtEntry
  exact (State.holdoverAtEntry_clock _).trans rfl

theorem State.resumeService_clock (s : State) : s.resumeService.clock = s.clock := by
  have he : (s.enter s.sys.held).clock = s.clock :=
    (State.enter_keeps (.of rfl) (Keeps.refl s) : Keeps (Part.but .time) _ _).clock rfl
  unfold State.resumeService
  split
  · rfl
  · extract_lets s1
    refine (State.settleAir_clock _).trans ?_
    split
    · exact (State.holdoverAtEntry_clock _).trans
        (((State.normalAssert_keeps (.of rfl) (Keeps.refl s1) : Keeps (Part.but .time) _ _).clock rfl).trans he)
    · exact (State.standbyAtEntry_clock s1).trans he
    · exact he

theorem State.resumeEdge_clock (s : State) : s.resumeEdge.clock = s.clock := by
  unfold State.resumeEdge
  split
  · exact (State.resumeService_clock _).trans rfl
  · rfl

theorem State.lockTick_clock (s : State) : s.lockTick.clock = s.clock := by
  simp only [State.lockTick, State.setTime, State.clock]
  split <;> rfl

theorem State.guardTick_clock (s : State) : s.guardTick.clock = s.clock := by
  unfold State.guardTick
  split <;> rfl

/-- The settings of an edge take effect; the time is the edge's already (R26). -/
theorem State.edgeSettings_clock (s : State) : s.edgeSettings.clock = s.clock := by
  unfold State.edgeSettings
  extract_lets s1 s2
  have h1 : s1.clock = s.clock :=
    ((State.applyEdgeWrites_keeps (.of rfl) (Keeps.refl s.resumeEdge) : Keeps (Part.but .time) _ _).clock rfl).trans
      s.resumeEdge_clock
  have h2 : s2.clock = s.clock :=
    (((State.queuesEdge_keeps (.of rfl) (Keeps.refl _) : Keeps (Part.but .time) _ _).clock rfl).trans
      ((State.guardTick_clock _).trans (State.lockTick_clock _))).trans h1
  exact ((State.redTick_keeps (.of rfl) (State.parTick_keeps (.of rfl) (Keeps.refl s2)) :
    Keeps (Part.but .time) s2 _).clock rfl).trans h2

/-- What follows the move of the clock at an edge moves it no further. -/
theorem State.edgeRest_clock (s : State) (x : TickSample) :
    ((x.upsets.foldl (fun (s : State) q => s.upsetQueue q)
      ((s.crowdCount.edgeSettings.edgeRadio x).decideSpans)).settleAir.settleOrphans).clock = s.clock := by
  have h0 : s.crowdCount.clock = s.clock :=
    (State.crowdCount_keeps (.of rfl) (Keeps.refl s) : Keeps (Part.but .time) _ _).clock rfl
  have h1 : ∀ u : State, (x.upsets.foldl (fun (s : State) q => s.upsetQueue q) ((u.edgeRadio x).decideSpans)).clock = u.clock :=
    fun u => (State.foldl_clock (fun t q => (State.upsetQueue_keeps (.of rfl) (Keeps.refl t) : Keeps (Part.but .time) _ _).clock rfl) _ _).trans
      ((State.decideSpans_keeps (.of rfl) (State.edgeRadio_keeps (.of rfl) (Keeps.refl u)) : Keeps (Part.but .time) u _).clock rfl)
  have h2 : ∀ u : State, u.settleOrphans.clock = u.clock := fun u =>
    (State.settleOrphans_keeps (.of rfl) (Keeps.refl u) : Keeps (Part.but .time) _ _).clock rfl
  exact (h2 _).trans ((State.settleAir_clock _).trans ((h1 _).trans ((State.edgeSettings_clock _).trans h0)))

/-- The calibrations that end late change no setting of the clock. -/
theorem State.toEdge_lateCalJobs_clock (s : State) :
    (s.lateCalJobs s.nextEdge).toEdge.clock =
      (BitVec.ofNat 64 s.nextEdge, BitVec.ofNat 48 (tickOf (s.nextEdge % 2 ^ 64) s.tp.tickPeriod),
        s.time.elapsed + (s.nextEdge - s.now)) := by
  have hk : Keeps [.cal, .regs, .free] s (s.lateCalJobs s.nextEdge) := State.lateCalJobs_keeps (.of rfl) (Keeps.refl s)
  generalize s.lateCalJobs s.nextEdge = u at hk
  have ht := hk.part .time rfl
  have hu := hk.part .truss rfl
  simp only [State.same] at ht hu
  simp only [State.clock, State.toEdge, State.setTime, State.nextEdge, State.now, State.tickNs, State.tp, ht, hu]

/-- The writes that waited for the edge are applied, each once. -/
theorem State.applyEdgeWrites_regWrites (s : State) : s.applyEdgeWrites.regWrites = [] := by
  unfold State.applyEdgeWrites
  have hk : Keeps [.que, .tol, .cal, .rf, .regs, .outbox] { s with regWrites := [] }
      (s.regWrites.foldl (fun (s : State) e => s.applyWrite e.1 e.2) { s with regWrites := [] }) :=
    Keeps.foldl (fun t e ht => State.applyWrite_keeps (.of rfl) ht) (Keeps.refl _)
  exact hk.part .regWrites rfl

theorem State.tickEdge_regWrites {s : State} (x : TickSample) (h : s.ticks = true) : (s.tickEdge x).regWrites = [] := by
  simp only [State.tickEdge, h, Bool.not_true, Bool.false_eq_true, if_false, State.edgeSettings]
  generalize hu : State.applyEdgeWrites _ = u
  have hu0 : u.regWrites = [] := hu ▸ State.applyEdgeWrites_regWrites _
  have hk : Keeps (Part.but .regWrites) u
      ((x.upsets.foldl (fun (s : State) q => s.upsetQueue q)
        ((u.lockTick.guardTick.queuesEdge.parTick.redTick.edgeRadio x).decideSpans)).settleAir.settleOrphans) := by
    refine State.settleOrphans_keeps (.of rfl) (State.settleAir_keeps (.of rfl) (Keeps.foldl
      (fun t q ht => State.upsetQueue_keeps (.of rfl) ht) ?_))
    exact State.decideSpans_keeps (.of rfl) (State.edgeRadio_keeps (.of rfl) (State.redTick_keeps (.of rfl)
      (State.parTick_keeps (.of rfl) (State.queuesEdge_keeps (.of rfl) (State.guardTick_keeps (.of rfl)
        (State.lockTick_keeps (.of rfl) (Keeps.refl u)))))))
  exact (hk.part .regWrites rfl).trans hu0

theorem State.tickEdge_clock {s : State} (x : TickSample) (h : s.ticks = true) :
    (s.tickEdge x).clock = (BitVec.ofNat 64 s.nextEdge, BitVec.ofNat 48 (tickOf (s.nextEdge % 2 ^ 64) s.tp.tickPeriod),
      s.time.elapsed + (s.nextEdge - s.now)) := by
  simp only [State.tickEdge, h, Bool.not_true, Bool.false_eq_true, if_false]
  exact (State.edgeRest_clock _ x).trans s.toEdge_lateCalJobs_clock

/-- Settles O14: what follows the move of the clock leaves it, and the writes that waited are applied before the rest. -/
theorem tickEdges : Obligations.tickEdges := by
  refine fun s x => ⟨fun h => ?_, fun h => next_of ?_⟩
  · have hc := State.tickEdge_clock x h
    exact ⟨_, rfl, congrArg (·.1) hc, congrArg (·.2.1) hc, State.tickEdge_regWrites x h,
      (State.tickEdge_keeps (.of rfl) (Keeps.refl s)).onlyIn⟩
  · simp [State.tickEdge, h]

end Sys2Proof.Machine

/-! Time sources, acquisition, lock and holdover (O15). -/

namespace Sys2Proof.Machine

/-- A move to an instant changes DTIME and the time passed, and no other setting of the clock. -/
theorem State.at__time (s : State) (i : U64) :
    (s.at_ i).time = { s.time with dtime := (s.at_ i).time.dtime, elapsed := (s.at_ i).time.elapsed } := by
  unfold State.at_
  split <;> rfl

@[simp] theorem State.at__role (s : State) (i : U64) : (s.at_ i).role = s.role := by
  simp only [State.role, State.tp, State.at__truss]

@[simp] theorem State.at__tp (s : State) (i : U64) : (s.at_ i).tp = s.tp := by
  simp only [State.tp, State.at__truss]

@[simp] theorem State.at__eth (s : State) (i : U64) (p : Nat) : (s.at_ i).eth p = s.eth p := by
  unfold State.at_
  split <;> rfl

@[simp] theorem State.at__heldOff (s : State) (i : U64) : (s.at_ i).heldOff = s.heldOff := by
  unfold State.at_
  split <;> rfl

/-- Outside acquisition a measurement within 1 ms is taken: phase and frequency follow it (R38). -/
theorem State.measure_of_near {s : State} {err adj : Int} (hs : s.inStates [.active, .standby] = true)
    (hlo : -1000000 ≤ err) (hhi : err ≤ 1000000) :
    s.measure err adj = s.setTime fun t => { t with
      phaseErr := clampS err 32, lastMeasure := some t.dtime, freqAdj := clampS (clampRate s.tp.slewMax adj) 32,
      acquired := true } := by
  have hb : s.inStates [.structured, .maintenance] = false := by
    simp only [State.inStates, List.contains_cons, List.contains_nil, Bool.or_false, Bool.or_eq_true, beq_iff_eq] at hs ⊢
    obtain h | h := hs <;> simp [h]
  have hfar : decide (err < -1000000 ∨ 1000000 < err) = false := by simp; omega
  simp [State.measure, hb, hfar, State.setTime]

theorem State.timed_of_service {s : State} (hs : s.inStates [.active, .standby] = true) : s.timed = true := by
  simp only [State.timed, State.inStates, List.contains_cons, List.contains_nil, Bool.or_false, Bool.or_eq_true, beq_iff_eq] at hs ⊢
  obtain h | h := hs <;> simp [h]

/-- R37: an edge of a device whose role uses PPS is the measurement of that instant. -/
theorem ppsEdge_measures {s : State} {i : U64} {adj e : Int} (hs : (s.at_ i).inStates [.active, .standby] = true)
    (hr : s.role = 1)
    (he : e = ((((s.at_ i).now + 500000000) / 1000000000 * 1000000000 : Nat) : Int) - ((s.at_ i).now : Int))
    (hlo : -1000000 ≤ e) (hhi : e ≤ 1000000) :
    s.ppsEdge i adj = (s.at_ i).setTime fun t => { t with
      ppsOk := true, selected := .pps, lastPps := t.elapsed, phaseErr := clampS e 32, lastMeasure := some t.dtime,
      freqAdj := clampS (clampRate s.tp.slewMax adj) 32, acquired := true } := by
  subst he
  have hu : (s.at_ i).role = 1 := (s.at__role i).trans hr
  have htp : (s.at_ i).tp = s.tp := s.at__tp i
  simp only [State.ppsEdge]
  rw [← htp]
  generalize s.at_ i = u at *
  rw [if_neg (by simp [State.timed_of_service hs, hu]), if_neg (by simp; omega),
    State.measure_of_near (by exact hs) hlo hhi]
  rfl

/-- R37: a loss of PPS falls back to PTP, or to no source and no lock. -/
theorem ppsLoss_time {s : State} {i : U64} (hr : s.role = 1) (hp : s.time.ppsOk = true)
    (hl : s.time.lastPps + 2000000000 ≤ (s.at_ i).time.elapsed) :
    (s.ppsLoss i).time.ppsOk = false ∧ (s.ppsLoss i).time.selected = (if s.time.ptpOk then .ptp else .none) ∧
      (s.ppsLoss i).time.locked = (s.time.ptpOk && s.time.locked) := by
  unfold State.ppsLoss
  extract_lets u s1
  have hu : u.role = 1 := (s.at__role i).trans hr
  have ht : u.time = { s.time with dtime := u.time.dtime, elapsed := u.time.elapsed } := s.at__time i
  have hp' : u.time.ppsOk = true := by rw [ht]; exact hp
  have hl' : u.time.lastPps + 2000000000 ≤ u.time.elapsed := by rw [ht]; exact hl
  rw [if_neg (by simpa [hu, hp'] using hl'), State.holdoverCheck_time]
  have hpk : s1.time.ptpOk = s.time.ptpOk := by simp only [s1, State.setTime]; rw [ht]
  have hlk : s1.time.locked = s.time.locked := by simp only [s1, State.setTime]; rw [ht]
  have h1 : s1.time.ppsOk = false := rfl
  clear_value s1
  simp only [← hpk, ← hlk]
  cases hq : s1.time.ptpOk <;> simp only [Bool.false_eq_true, if_true, if_false] <;> split <;>
    simp [h1, State.setTime, TimeSt.deselected]

/-- R38: a Sync beside PPS keeps PTP in service and measures nothing. -/
theorem ptpMessage_besidePps {s : State} {i : U64} {p : Nat} {err adj : Int} (htm : s.timed = true) (hr : s.role = 1)
    (hb : bit (s.reg (Reg.ETH_PTP p)) 31 = true) (hp : p = s.tp.ptpPort) (hup : s.ethUp p = true)
    (htk : s.ethTakes = true) (hpps : s.time.ppsOk = true) (hs : s.inStates [.active, .standby] = true) :
    s.ptpMessage i p (s.regFld (Reg.ETH_PTP p) 23 16) (some (err, adj)) = (s.at_ i).setTime fun t => { t with
      ptpOk := true, ptpAcquired := true, lastSync := t.elapsed, syncEvery := if t.ptpOk then t.elapsed - t.lastSync else 0 } := by
  have ht := s.at__time i
  have hpps' : (s.at_ i).time.ppsOk = true := by rw [ht]; exact hpps
  have hst : (s.at_ i).inStates [.structured, .maintenance] = false := by
    rw [State.at__inStates]
    simp only [State.inStates, List.contains_cons, List.contains_nil, Bool.or_false, Bool.or_eq_true, beq_iff_eq] at hs ⊢
    obtain h | h := hs <;> simp [h]
  have htm' : (s.at_ i).timed = true := by simpa only [State.timed, State.at__inStates] using htm
  have hup' : (s.at_ i).ethUp p = true := by
    simpa only [State.ethUp, State.reg, State.at__regs, State.at__eth] using hup
  have htk' : (s.at_ i).ethTakes = true := by
    simpa only [State.ethTakes, State.standingBy, State.at__sys, State.at__heldOff] using htk
  unfold State.ptpMessage
  extract_lets u
  have hreg : ∀ a, u.reg a = s.reg a := fun a => by simp only [State.reg, u, State.at__regs]
  have hfld : ∀ a h l, u.regFld a h l = s.regFld a h l := fun a h l => by simp only [State.regFld, hreg]
  rw [hreg, hfld, if_neg (by simp [hb, u, ← hp, hup', htk'])]
  simp only [State.ptpSync]
  rw [if_neg (by simp [u, htm', hr]), if_pos (by exact hpps'), if_neg]
  simp only [u, hst, Bool.false_and, Bool.false_eq_true, not_false_eq_true]

theorem ptpLoss_time {s : State} {i : U64} (hr : s.role = 1) (hp : s.time.ptpOk = true)
    (hl : s.time.lastSync + 4 * s.time.syncEvery ≤ (s.at_ i).time.elapsed) :
    (s.ptpLoss i).time.ptpOk = false ∧
      (s.ptpLoss i).time.selected = (if s.time.selected = .ptp then .none else s.time.selected) := by
  unfold State.ptpLoss
  extract_lets u s1
  have hu : u.role = 1 := (s.at__role i).trans hr
  have ht : u.time = { s.time with dtime := u.time.dtime, elapsed := u.time.elapsed } := s.at__time i
  have hp' : u.time.ptpOk = true := by rw [ht]; exact hp
  have hl' : u.time.lastSync + 4 * u.time.syncEvery ≤ u.time.elapsed := by rw [ht]; exact hl
  have hsel : s1.time.selected = s.time.selected := by simp only [s1, State.setTime]; rw [ht]
  rw [if_neg (by simpa [hu, hp'] using hl'), State.holdoverCheck_time, ← hsel]
  have h1 : s1.time.ptpOk = false := rfl
  clear_value s1
  by_cases hq : s1.time.selected = .ptp <;> simp only [hq, if_true, if_false] <;> split <;>
    simp [h1, hq, State.setTime, TimeSt.deselected]

/-- R40: after 60 s of search the span of the search begins anew, with its record. -/
theorem searchTimeout_renews {s : State} {i : U64} {b : Nat} (hsr : s.time.searching = some b)
    (hst : s.sys.state = .structured) (hr : s.role = 2) (hl : b + 60000000000 ≤ (s.at_ i).time.elapsed) :
    s.searchTimeout i =
      post ((s.at_ i).setTime fun x => { x with searching := some x.elapsed }) .warning 0x01 none 0 [] := by
  have ht := s.at__time i
  have hsr' : (s.at_ i).time.searching = some b := by rw [ht]; exact hsr
  simp only [State.searchTimeout, hsr', State.at__sys, State.at__role]
  rw [if_pos (by simpa [hst, hr] using hl)]

/-- R41, R43: lock ends a holdover of a device in service. -/
theorem lockAchieved_time {s : State} (h : 16 ≤ s.time.lockRun) :
    s.lockAchieved.time.locked = true ∧
      (s.inStates [.active, .standby] = true → s.lockAchieved.time.holdover = none) ∧
      s.lockAchieved.time.dtime = s.time.dtime := by
  simp only [State.lockAchieved, if_pos h, State.holdoverClear_time]
  split
  · exact ⟨rfl, fun _ => rfl, rfl⟩
  · next hn =>
    refine ⟨rfl, fun hs => ?_, rfl⟩
    have hs' : (s.setTime fun t => { t with locked := true }).inStates [.active, .standby] = true := hs
    simpa [hs'] using hn

theorem guardCapped_marks {s : State} {i e : U64} (hh : s.time.holdover = some e) (hc : s.time.capped = false)
    (hg : s.tp.holdoverGuardMax ≤ (s.at_ i).extraGuard) :
    s.guardCapped i = post ((s.at_ i).setTime fun x => { x with capped := true }) .warning 0x01 none 0 [] := by
  have ht := s.at__time i
  have hh' : (s.at_ i).time.holdover = some e := by rw [ht]; exact hh
  have hc' : (s.at_ i).time.capped = false := by rw [ht]; exact hc
  simp only [State.guardCapped, State.at__tp]
  rw [if_pos (by simpa [hh', hc'] using hg)]

/-- Settles O15: what each event makes of the time, field by field. -/
theorem sourcesAndLock : Obligations.sourcesAndLock := by
  refine ⟨⟨fun s i adj e hs hr he hlo hhi => ?_, fun s i hr hp hl => ?_, fun s i p err adj htm hr hb hp hup htk hpps hs => ?_,
    fun s i hr hp hl => ?_⟩, fun s i b hsr hst hr hl => ?_, fun s h => ?_, fun s i e hh hc hg => ?_⟩
  · exact ⟨_, next_of (ppsEdge_measures hs hr he hlo hhi), rfl, rfl, rfl, rfl, rfl, rfl,
      (Keeps.set_time (by decide) (State.at__keeps (.of rfl) (Keeps.refl s))).onlyIn⟩
  · obtain ⟨hok, hsel, hlk⟩ := ppsLoss_time hr hp hl
    exact ⟨_, rfl, hok, hsel, hlk, (State.ppsLoss_keeps (.of rfl) (Keeps.refl s)).onlyIn⟩
  · have ht := s.at__time i
    exact ⟨_, next_of (ptpMessage_besidePps htm hr hb hp hup htk hpps hs), rfl, (congrArg TimeSt.selected ht).trans rfl, rfl, rfl,
      (Keeps.set_time (by decide) (State.at__keeps (.of rfl) (Keeps.refl s))).onlyIn⟩
  · obtain ⟨hok, hsel⟩ := ptpLoss_time hr hp hl
    exact ⟨_, rfl, hok, hsel, (State.ptpLoss_keeps (.of rfl) (Keeps.refl s)).onlyIn⟩
  · refine ⟨_, rfl, ?_, (State.searchTimeout_keeps (.of rfl) (Keeps.refl s)).onlyIn⟩
    rw [searchTimeout_renews hsr hst hr hl, post_time]
    rfl
  · obtain ⟨hlk, hho, hd⟩ := lockAchieved_time h
    exact ⟨_, rfl, hlk, hho, hd, (State.lockAchieved_keeps (.of rfl) (Keeps.refl s)).onlyIn⟩
  · refine ⟨_, rfl, ?_, ?_, (State.guardCapped_keeps (.of rfl) (Keeps.refl s)).onlyIn⟩ <;>
      rw [guardCapped_marks hh hc hg, post_time]
    · rfl
    · exact (congrArg TimeSt.holdover (s.at__time i)).trans hh

end Sys2Proof.Machine

/-! The check channels: scans joined, ended and configured (O20). -/

namespace Sys2Proof.Machine

theorem State.chan_setChan {s : State} {n : Nat} (h : n < s.chk.chans.length) (c : ChkChan) : (s.setChan n c).chan n = c := by
  simp [State.chan, lset_eq_set, h]

theorem State.chan_congr {s t : State} (h : t.chk = s.chk) (n : Nat) : t.chan n = s.chan n := by
  simp only [State.chan, h]

/-- A completion is one record more, of its descriptor and status. -/
theorem State.complete_adds {s u : State} {d : Desc} {st : Status} {b4 b8 b12 : Word} (h : u.hif.held = s.hif.held) :
    ∃ c : Completion, (u.complete d st b4 b8 b12).hif.held = s.hif.held ++ [c] ∧ c.tag = d.tag ∧ c.status = st ∧ c.b8 = b8 :=
  ⟨_, by rw [State.complete_held, h], rfl, rfl, rfl⟩

/-- A scan with neither a context to load nor one to save joins its channel's queue (R336, R340). -/
theorem State.chkScan_joins {s : State} {d : Desc} (hb : d.byte 4 = 0xFF) (hst : s.inStates stSAYML = true)
    (hch : d.byte 8 ≤ 7) (hf : d.byte 9 < 16) (h10 : d.byte 10 = 0)
    (hz : d.unlistedZero ((List.range 24).map fun i => i + 8) = true)
    (ho : s.chanOwner (d.byte 8) = 0 ∨ s.chanOwner (d.byte 8) = 1) (hlen : (d.word 4).toNat ≤ 0x10000000)
    (hw : s.inWindow (d.word 3).toNat (d.word 4).toNat = true) (hj : (s.chan (d.byte 8)).jobs.length < 17)
    (hld : scanLoad d = false) (hsv : scanSave d = false) :
    s.chkScan d = s.setChan (d.byte 8) { s.chan (d.byte 8) with jobs := (s.chan (d.byte 8)).jobs ++ [d] } := by
  have ho' : ¬ (s.chanOwner (d.byte 8) ≠ 0 ∧ s.chanOwner (d.byte 8) ≠ 1) := by omega
  simp only [State.chkScan, State.command_runs hb hst, hld, hsv, Bool.or_false, Bool.false_and, hw, Bool.not_true]
  rw [if_neg (by simp only [hz]; simp; omega), if_neg (by simp; omega), if_neg (by omega)]

/-- The job at the head of a channel that judges no ALIVE octet and compares nothing ends OK (R334, R338). -/
theorem State.chkScanComplete_ends {s : State} {ch : Nat} {d : Desc} {rest : List Desc}
    (hj : (s.chan ch).jobs = d :: rest) (hm : (s.chan ch).mode ≠ 1) (hld : scanLoad d = false)
    (hsv : scanSave d = false) (hstart : scanStart d = true) (hcmp : scanCompare d = false) :
    let p := (s.chan ch).poly
    let value := crcFold p (crcFold p (crcInit p) (scanGuard (s.chan ch) d)) (s.readWin (d.word 3).toNat (d.word 4).toNat)
    let c1 := { s.chan ch with value := value, lastAlive := (s.chan ch).lastAlive, seen := (s.chan ch).seen }
    s.chkScanComplete ch = ((s.setChan ch (c1.jobEnds .ok rest)).bump (Reg.CHK_CNT ch 0)).complete d .ok
      (b4 := value) (b8 := value ^^^ crcXor p) (b12 := fld c1.lastAlive.toNat 0) := by
  have hld' : s.chanLoaded (s.chan ch) d = some (s.chan ch) := by simp [State.chanLoaded, hld]
  have hm' : decide ((s.chan ch).mode = 1) = false := by simpa using hm
  simp [State.chkScanComplete, hj, hld', State.scanRun, hsv, hstart, hcmp, hm']

/-- Settles O20: the job that joins, the job that ends, and the configuration of a free channel. -/
theorem scans : Obligations.scans := by
  refine ⟨fun s d hb hst hch hf h10 hz ho hlen hw hj hld hsv => ?_, fun s ch d rest hj hm hc hld hsv hstart hcmp => ?_,
    fun s n v hn hst ho hj => ?_⟩
  · exact ⟨_, next_of (State.chkScan_joins hb hst hch hf h10 hz ho hlen hw hj hld hsv), rfl,
      (State.setChan_keeps (.of rfl) (Keeps.refl s)).onlyIn⟩
  · refine ⟨_, next_of (State.chkScanComplete_ends hj hm hld hsv hstart hcmp), State.complete_adds ?_, fun hlt => ?_,
      (State.complete_keeps (.of rfl) (State.bump_keeps (.of rfl) (State.setChan_keeps (.of rfl) (Keeps.refl s)))).onlyIn⟩
    · rw [State.bump_hif]
      rfl
    · rw [State.chan_congr (State.complete_chk ..), State.chan_congr (State.bump_chk ..), State.chan_setChan hlt]
      simp [ChkChan.jobEnds, hc]
  · have hrun : s.chkCfgWrite n v = s.setChan n ((s.chan n).config (bits v 1 0) (bits v 4 4)) := by
      have ho' : ¬ (s.chanOwner n ≠ 0 ∧ s.chanOwner n ≠ 1) := by omega
      simp only [State.chkCfgWrite]
      rw [if_neg (by simp [State.inStates, hst, hn]), if_neg ho', if_pos hj]
    exact ⟨_, next_of hrun, rfl, (State.setChan_keeps (.of rfl) (Keeps.refl s)).onlyIn⟩

end Sys2Proof.Machine

/-! The cipher units: jobs that end, self-tests, and the slow units (O22, O23). -/

namespace Sys2Proof.Machine

/-- One frame after another is the frame of both. -/
theorem Keeps.comp {W : List Part} {s t u : State} (h : Keeps W s t) (k : Keeps W t u) : Keeps W s u :=
  ⟨k.1.trans h.1, fun hs => k.2.1 (h.2.1 hs), OnlyIn.step h.2.2 fun p => k.2.2 p⟩

theorem Keeps.widen {W V : List Part} {s t : State} (h : Keeps W s t) (hw : Within W V) : Keeps V s t :=
  ⟨h.1, h.2.1, fun p => (h.2.2 p).imp_left fun hp => hw.mem (List.contains_iff_mem.2 hp)⟩

theorem State.unit_setUnit {s : State} {u : Nat} (h : u < s.cip.units.length) (x : CipUnit) : (s.setUnit u x).unit u = x := by
  simp [State.unit, State.setUnit, lset_eq_set, h]

theorem State.unit_setUnit_of_ne {s : State} {u v : Nat} (h : v ≠ u) (x : CipUnit) : (s.setUnit u x).unit v = s.unit v := by
  simp [State.unit, State.setUnit, lset_eq_set, List.getD_eq_getElem?_getD, List.getElem?_set_ne (Ne.symm h)]

@[simp] theorem State.setUnit_setUnit (s : State) (u : Nat) (x y : CipUnit) :
    (s.setUnit u x).setUnit u y = s.setUnit u y := by
  simp [State.setUnit, lset_eq_set]

theorem State.unit_congr {s t : State} (h : t.cip = s.cip) (u : Nat) : t.unit u = s.unit u := by
  simp only [State.unit, h]

/-- A frame that does not name the cipher block keeps each of its units. -/
theorem Keeps.unit {W : List Part} {s t : State} (h : Keeps W s t) (hW : W.contains .cip = false) (u : Nat) :
    t.unit u = s.unit u := State.unit_congr (h.part .cip hW) u

@[simp] theorem State.setUnit_length (s : State) (u : Nat) (x : CipUnit) :
    (s.setUnit u x).cip.units.length = s.cip.units.length := by
  simp [State.setUnit, lset_eq_set]

/-- A unit's state, its test, and whether it runs a job: all of it but the mark of a job whose output nothing takes. -/
def CipUnit.mark (x : CipUnit) : UnitState × Option Desc × Bool := (x.state, x.test, x.run.isSome)

/-- The marks of the units, in order. -/
def State.unitMarks (s : State) : List (UnitState × Option Desc × Bool) := s.cip.units.map CipUnit.mark

theorem State.unit_mark {s t : State} (h : t.unitMarks = s.unitMarks) (u : Nat) : (t.unit u).mark = (s.unit u).mark := by
  have hd : ∀ x : State, (x.unit u).mark = x.unitMarks.getD u (CipUnit.mark {}) := fun x => by
    rw [State.unit, State.unitMarks, List.getD_eq_getElem?_getD, List.getD_eq_getElem?_getD, List.getElem?_map,
      Option.getD_map]
  rw [hd, hd, h]

theorem State.unitMarks_of_cip {s t : State} (h : t.cip = s.cip) : t.unitMarks = s.unitMarks := by
  simp only [State.unitMarks, h]

theorem Keeps.unitMarks {W : List Part} {s t : State} (h : Keeps W s t) (hW : W.contains .cip = false) :
    t.unitMarks = s.unitMarks := State.unitMarks_of_cip (h.part .cip hW)

theorem State.foldl_unitMarks {α : Type} {f : State → α → State} (h : ∀ t a, (f t a).unitMarks = t.unitMarks) (l : List α)
    (s : State) : (l.foldl f s).unitMarks = s.unitMarks :=
  List.foldlRecOn l f (motive := fun t => t.unitMarks = s.unitMarks) rfl fun t ht a _ => (h t a).trans ht

/-- A job withdrawn runs on (R319): only what becomes of its output changes. -/
theorem State.withdrawJob_unitMarks (s : State) (id : Nat) : (s.withdrawJob id).unitMarks = s.unitMarks := by
  simp only [State.unitMarks, State.withdrawJob, List.map_map]
  refine List.map_congr_left fun x _ => ?_
  simp only [Function.comp_apply]
  cases hr : x.run with
  | none => rfl
  | some r =>
    simp only
    split <;> simp [CipUnit.mark, hr]

theorem State.endClaim_unitMarks (s : State) (c : Claim) : (s.endClaim c).unitMarks = s.unitMarks :=
  s.withdrawJob_unitMarks c.id

/-- The end of a transmit descriptor withdraws the jobs of its attempts, and touches the units no further. -/
theorem State.txComplete_unitMarks (s : State) (x : TxDesc) (st : Status) : (s.txComplete x st).unitMarks = s.unitMarks := by
  unfold State.txComplete
  extract_lets s1 s2 s3 q s3' s4
  have h1 : s1.unitMarks = s.unitMarks :=
    (State.freeOwned_keeps (.of rfl) (Keeps.refl s) : Keeps (Part.but .cip) _ _).unitMarks rfl
  have h2 : s2.unitMarks = s1.unitMarks :=
    (Keeps.ite (State.releaseFlood_keeps (.of rfl) (Keeps.refl s1)) (Keeps.refl s1) : Keeps (Part.but .cip) _ _).unitMarks rfl
  have h3 : s3'.unitMarks = s2.unitMarks := rfl
  have h4 : s4.unitMarks = s3'.unitMarks := State.foldl_unitMarks (fun t c => t.endClaim_unitMarks c) _ _
  have h : s4.unitMarks = s.unitMarks := h4.trans (h3.trans (h2.trans h1))
  split
  · exact (State.unitMarks_of_cip rfl).trans h
  · exact h

theorem State.waitFailed_unitMarks (s : State) (n : Nat) : (s.waitFailed n).unitMarks = s.unitMarks := by
  unfold State.waitFailed
  split
  · rfl
  next x _ =>
  extract_lets s1 y
  have h1 : s1.unitMarks = s.unitMarks :=
    (State.bump_keeps (.of rfl) (Keeps.refl s) : Keeps (Part.but .cip) _ _).unitMarks rfl
  split
  · exact (State.txComplete_unitMarks ..).trans h1
  · split
    · exact (State.txComplete_unitMarks ..).trans
        (((State.updCtx_keeps (.of rfl) (State.bump_keeps (.of rfl) (Keeps.refl s1)) :
          Keeps (Part.but .cip) s1 _).unitMarks rfl).trans h1)
    · exact ((State.setDesc_keeps (.of rfl) (State.untake_keeps (.of rfl) (Keeps.refl s1)) :
        Keeps (Part.but .cip) s1 _).unitMarks rfl).trans h1

/-- What the air settles never stops a unit: it can only make a job's output go nowhere. -/
theorem State.settleAir_unitMarks (s : State) : s.settleAir.unitMarks = s.unitMarks := by
  have hw : s.settleWaits.unitMarks = s.unitMarks :=
    State.foldl_unitMarks (f := fun (s : State) (w : AckWait) =>
        (s.setRf fun r => { r with waits := r.waits.filter fun x => x.claim != w.claim }).waitFailed w.desc)
      (fun t w => (State.waitFailed_unitMarks _ w.desc).trans (State.unitMarks_of_cip rfl)) _ s
  exact ((State.searchRefresh_keeps (.of rfl) (State.settleWatches_keeps (.of rfl) (Keeps.refl s.settleWaits)) :
    Keeps (Part.but .cip) _ _).unitMarks rfl).trans hw

/-- One core in service is enough for the cores' jobs (R327). -/
theorem State.coresInService_ne_zero {s : State} {v : Nat} (h8 : v < 8) (hv : v < s.cip.units.length)
    (hs : (s.unit v).state = .inService) : s.coresInService ≠ 0 := by
  have hget : s.unit v = s.cip.units[v] := by simp [State.unit, hv]
  have hmem : s.unit v ∈ s.cip.units.take 8 := List.mem_take_iff_getElem.2 ⟨v, by omega, hget.symm⟩
  exact fun h0 => by
    have := List.length_eq_zero_iff.1 h0
    simpa [this] using List.mem_filter (p := fun x : CipUnit => x.state = .inService).2 ⟨hmem, decide_eq_true hs⟩

theorem State.noCoreLeft_of_core {s : State} (h : s.coresInService ≠ 0) : s.noCoreLeft = s := if_pos h
theorem State.flushMac_of_core {s : State} (h : s.coresInService ≠ 0) : s.flushMac = s := if_pos h

theorem State.countJob_keepsRegs (s : State) (c : JobClass) (st : Status) : Keeps [.regs] s (s.countJob c st) :=
  State.countJob_keeps (.of rfl) (Keeps.refl s)

/-- A submitted job that ends is one completion, of its descriptor and status. -/
theorem State.endHostJob_adds {s : State} {j : CipJob} {d : Desc} (h : j.owner = .host d) (st : Status) (out tag : List Byte)
    (u : Nat) : ∃ c : Completion, (s.endHostJob j st out tag u).hif.held = s.hif.held ++ [c] ∧ c.tag = d.tag ∧ c.status = st := by
  have hk : ∀ x : State, Keeps [.mem] s x →
      ∃ c : Completion, ((x.countJob .host st).completeSubmit d st u).hif.held = s.hif.held ++ [c] ∧ c.tag = d.tag ∧
        c.status = st := fun x hx => by
    obtain ⟨c, hc, htag, hst, -⟩ := State.complete_adds (s := s) (u := x.countJob .host st) (d := d) (st := st)
      (congrArg HifSt.held (((x.countJob_keepsRegs .host st).part .hif rfl).trans (hx.part .hif rfl)))
    exact ⟨c, hc, htag, hst⟩
  simp only [State.endHostJob, h]
  refine hk _ (Keeps.ite (State.writeWin_keeps (.of rfl) ?_) ?_) <;>
    exact Keeps.ite (State.writeWin_keeps (.of rfl) (Keeps.refl s)) (Keeps.refl s)

theorem State.freeUnit_of_noTest {s : State} {u : Nat} (h : (s.unit u).test = none) :
    s.freeUnit u = s.setUnit u { s.unit u with run := none } := by
  simp [State.freeUnit, h]

/-- R319, R324: a submitted job's run ends with its result. -/
theorem State.cipherJobComplete_ends {s : State} {i : U64} {u : Nat} {r : CipRun} {d : Desc} (hr : (s.unit u).run = some r)
    (hv : r.job.void = false) (ho : r.job.owner = .host d) (ht : (s.unit u).test = none) :
    let s1 := (s.at_ i).setUnit u { s.unit u with run := none }
    s.cipherJobComplete State.attestEnd i u =
      (if u < 8 then s1.bump (Reg.CIP_CORE_JOBS u) else s1).endHostJob r.job r.result.1 r.result.2.1 r.result.2.2 u := by
  have hu : (s.at_ i).unit u = s.unit u := State.unit_congr (s.at__cip i) u
  simp [State.cipherJobComplete, hu, hr, State.freeUnit_of_noTest (hu.symm ▸ ht), hv, ho, State.afterTest, ht]

/-- A unit that runs nothing starts its test at once (R329). -/
theorem State.beginTest_of_free {s : State} {u : Nat} {f : State → Status → List Byte → State} (hr : (s.unit u).run = none)
    (d : Desc) : s.beginTest f u d =
      (if (s.unit u).state = .inService && decide (u < 8) then
        ((s.setUnit u { state := .selfTest, test := some d }).noCoreLeft.flushMac).settleAir
       else s.setUnit u { state := .selfTest, test := some d }) := by
  simp [State.beginTest, State.stopRun, hr]

theorem State.cipSelfTest_begins {s : State} {d : Desc} (hb : d.byte 4 = 0xFF) (hst : s.inStates stSAYM = true)
    (hz : d.unlistedZero [8] = true) (h9 : d.byte 8 ≤ 9) (ht : (s.unit (d.byte 8)).test = none) :
    s.cipSelfTest State.attestEnd d = s.beginTest State.attestEnd (d.byte 8) d := by
  rw [State.cipSelfTest, State.command_runs hb hst, if_neg (by simp [hz]; omega), if_neg (by simp [ht])]

/-- With another core in service a test of a core stops nothing else (R329). -/
theorem State.beginTest_beside {s : State} {u v : Nat} {d : Desc} {f : State → Status → List Byte → State}
    (hr : (s.unit u).run = none) (hu : u < s.cip.units.length) (h8 : v < 8) (hne : v ≠ u) (hv : v < s.cip.units.length)
    (hs : (s.unit v).state = .inService) : ((s.beginTest f u d).unit u).mark = (.selfTest, some d, false) := by
  have hm : ((s.setUnit u { state := .selfTest, test := some d }).unit u).mark = (.selfTest, some d, false) := by
    rw [State.unit_setUnit hu]
    rfl
  rw [State.beginTest_of_free hr]
  split
  · have hcore := State.coresInService_ne_zero (s := s.setUnit u { state := .selfTest, test := some d }) h8 (by simpa using hv)
      ((congrArg CipUnit.state (State.unit_setUnit_of_ne hne _)).trans hs)
    rw [State.noCoreLeft_of_core hcore, State.flushMac_of_core hcore]
    exact (State.unit_mark (State.settleAir_unitMarks _) u).trans hm
  · exact hm

theorem State.selfTestComplete_passes {s : State} {i : U64} {u : Nat} {d : Desc} (hs : (s.unit u).state = .selfTest)
    (ht : (s.unit u).test = some d) :
    s.selfTestComplete i u true =
      (((s.at_ i).setFld (Reg.CIP_CORE_TEST u) 31 24 0).setUnit u { state := .inService }).complete d .ok := by
  have hu : (s.at_ i).unit u = s.unit u := State.unit_congr (s.at__cip i) u
  simp [State.selfTestComplete, hu, hs, State.selfTestEnd, ht]

/-- Settles O22: the run that ends, the test that begins, and the test that passes. -/
theorem cipherJobsEnd : Obligations.cipherJobsEnd := by
  refine ⟨fun s i u r d hu hr hv ho ht => ?_, fun s d hb hst hz h9 hu ht => ?_, fun s i u d hu hs ht => ?_⟩
  · refine ⟨_, next_of (State.cipherJobComplete_ends hr hv ho ht), ?_, ?_, ?_⟩
    · have hlen : u < (s.at_ i).cip.units.length := by simpa using hu
      generalize (s.at_ i) = v at *
      exact ((State.endHostJob_keeps (.of rfl) (Keeps.ite (State.bump_keeps (.of rfl) (Keeps.refl _)) (Keeps.refl _)) :
        Keeps (Part.but .cip) (v.setUnit u { s.unit u with run := none }) _).unit rfl u).trans (State.unit_setUnit hlen _)
    · obtain ⟨c, hc, htag, hst⟩ := State.endHostJob_adds (s := if u < 8 then
        (((s.at_ i).setUnit u { s.unit u with run := none }).bump (Reg.CIP_CORE_JOBS u)) else
        ((s.at_ i).setUnit u { s.unit u with run := none })) ho r.result.1 r.result.2.1 r.result.2.2 u
      have hh : (if u < 8 then (((s.at_ i).setUnit u { s.unit u with run := none }).bump (Reg.CIP_CORE_JOBS u)) else
        ((s.at_ i).setUnit u { s.unit u with run := none })).hif = s.hif :=
        ((Keeps.ite (State.bump_keeps (.of rfl) (State.setUnit_keeps (.of rfl) (State.at__keeps (.of rfl) (Keeps.refl s))))
          (State.setUnit_keeps (.of rfl) (State.at__keeps (.of rfl) (Keeps.refl s))) : Keeps (Part.but .hif) s _).part .hif rfl)
      exact ⟨c, hc.trans (by rw [hh]), htag, hst⟩
    · exact (State.endHostJob_keeps (.of rfl) (Keeps.ite (State.bump_keeps (.of rfl) (State.setUnit_keeps (.of rfl)
        (State.at__keeps (.of rfl) (Keeps.refl s)))) (State.setUnit_keeps (.of rfl) (State.at__keeps (.of rfl) (Keeps.refl s))))).onlyIn
  · refine ⟨_, next_of (State.cipSelfTest_begins hb hst hz h9 ht), fun hr hout => ?_, fun hr ⟨v, h8, hne, hv, hs⟩ => ?_, fun hr hs => ?_⟩
    · have hrun : s.beginTest State.attestEnd (d.byte 8) d = s.setUnit (d.byte 8) { state := .selfTest, test := some d } := by
        rw [State.beginTest_of_free hr, if_neg]
        obtain h | h := hout
        · simp; omega
        · simp [h]
      rw [hrun]
      exact ⟨State.unit_setUnit hu _, (State.setUnit_keeps (.of rfl) (Keeps.refl s)).onlyIn⟩
    · have hm := State.beginTest_beside (d := d) (f := State.attestEnd) hr hu h8 hne hv hs
      generalize ((s.beginTest State.attestEnd (d.byte 8) d).unit (d.byte 8)) = x at hm
      simp only [CipUnit.mark, Prod.mk.injEq] at hm
      exact ⟨hm.1, by simpa using hm.2.2, hm.2.1⟩
    · have hrun : s.beginTest State.attestEnd (d.byte 8) d = s.setUnit (d.byte 8) { s.unit (d.byte 8) with test := some d } := by
        simp only [State.beginTest]
        exact if_pos (by simp [Option.isSome_iff_ne_none, hr, hs])
      rw [hrun]
      exact ⟨State.unit_setUnit hu _, (State.setUnit_keeps (.of rfl) (Keeps.refl s)).onlyIn⟩
  · refine ⟨_, next_of (State.selfTestComplete_passes hs ht), ?_, ?_, ?_⟩
    · rw [State.unit_congr (State.complete_cip ..)]
      exact State.unit_setUnit (by simpa using hu) _
    · simp only [State.complete_held, State.setUnit, State.setFld_hif, State.at__hif]
    · exact (State.complete_keeps (.of rfl) (State.setUnit_keeps (.of rfl) (State.setFld_keeps (.of rfl)
        (State.at__keeps (.of rfl) (Keeps.refl s))))).onlyIn

theorem CipUnit.of_mark {x : CipUnit} {a : UnitState} {b : Option Desc} {c : Bool} (h : x.mark = (a, b, c)) :
    x.state = a ∧ x.test = b ∧ x.run.isSome = c := by
  simpa only [CipUnit.mark, Prod.mk.injEq] using h

/-- What a unit marked slow leaves behind it before the cores are looked at: itself, its record, and its MAC job again. -/
theorem State.slowMark_marks {s : State} {i : U64} {u : Nat} {r : CipRun} (hu : u < s.cip.units.length)
    (hr : (s.unit u).run = some r) (hs : (s.unit u).state = .inService)
    (hl : r.start + 4 * r.job.nominal ≤ (s.at_ i).time.elapsed)
    (hc : 8 ≤ u ∨ ∃ v, v < 8 ∧ v ≠ u ∧ v < s.cip.units.length ∧ (s.unit v).state = .inService) :
    ((s.slowMark i u).unit u).mark = (.slow, (s.unit u).test, true) ∧ (s.slowMark i u).clock = (s.at_ i).clock := by
  have hux : (s.at_ i).unit u = s.unit u := State.unit_congr (s.at__cip i) u
  have hcx : (s.at_ i).cip = s.cip := s.at__cip i
  unfold State.slowMark
  extract_lets w x s1
  have hxs : x.state = .inService := (congrArg CipUnit.state hux).trans hs
  have hxt : x.test = (s.unit u).test := congrArg CipUnit.test hux
  have hxr : x.run = some r := (congrArg CipUnit.run hux).trans hr
  have hws : ∀ v, w.unit v = s.unit v := State.unit_congr hcx
  have hwl : w.cip.units.length = s.cip.units.length := by rw [← hcx]
  have hl' : ¬ w.time.elapsed < r.start + 4 * r.job.nominal := Nat.not_lt.2 hl
  simp -zeta only [hxr]
  rw [if_neg (by simpa [hxs] using hl')]
  extract_lets s2 q j s3
  have hwc : w.clock = (s.at_ i).clock := rfl
  clear_value w x
  have h1 : Keeps (Part.but .cip) (w.setUnit u { x with state := .slow }) s2 :=
    post_keeps (.of rfl) (State.bump16_keeps (.of rfl) (State.bump_keeps (.of rfl) (Keeps.refl _)))
  have hunits : s3.cip.units = s2.cip.units := by
    simp only [s3]
    split
    · rw [State.bump_cip]
    · rfl
  have hmark : ∀ v, s3.unit v = (w.setUnit u { x with state := .slow }).unit v := fun v => by
    have h2 := h1.part .cip rfl
    simp only [State.same] at h2
    simp only [State.unit, hunits, h2]
  have hclk : s3.clock = w.clock := by
    have h2 : s2.clock = w.clock :=
      (State.clock_of_time ((post_time ..).trans ((State.bump16_time ..).trans (State.bump_time ..)))).trans rfl
    simp only [s3]
    split
    · exact (State.bump_clock _ _).trans h2
    · exact h2
  have hlen : s3.cip.units.length = w.cip.units.length := by
    have h2 := h1.part .cip rfl
    simp only [State.same] at h2
    rw [hunits, h2, State.setUnit_length]
  clear_value s3
  have hmu : (s3.unit u).mark = (.slow, (s.unit u).test, true) := by
    rw [hmark, State.unit_setUnit (hwl ▸ hu)]
    simp [CipUnit.mark, hxt, hxr]
  split
  · next h8 =>
    obtain hc | ⟨v, hv8, hne, hv, hvs⟩ := hc
    · omega
    · have hcore := State.coresInService_ne_zero (s := s3) hv8 (by omega)
        ((congrArg CipUnit.state ((hmark v).trans ((State.unit_setUnit_of_ne hne _).trans (hws v)))).trans hvs)
      rw [State.noCoreLeft_of_core hcore, State.flushMac_of_core hcore]
      exact ⟨(State.unit_mark (State.settleAir_unitMarks s3) u).trans hmu, (State.settleAir_clock s3).trans (hclk.trans hwc)⟩
  · exact ⟨hmu, hclk.trans hwc⟩

/-- R328: a submitted job stopped completes SLOW_UNIT, with its output zeroed, and its unit is free and slow. -/
theorem State.slowStop_ends {s : State} {i : U64} {u : Nat} {r : CipRun} {d : Desc} (hu : u < s.cip.units.length)
    (hr : (s.unit u).run = some r) (hl : r.start + 64 * r.job.nominal ≤ (s.at_ i).time.elapsed) (hv : r.job.void = false)
    (ho : r.job.owner = .host d) :
    let s1 := ((s.at_ i).setUnit u { s.unit u with state := .slow, run := none }).endHostJob r.job .slowUnit r.job.zeroed [] u
    s.slowStop State.attestEnd i u = s1.setUnit u { s.unit u with
      state := if (s.unit u).test.isSome then .selfTest else .slow, run := none } := by
  intro s1
  have hux : (s.at_ i).unit u = s.unit u := State.unit_congr (s.at__cip i) u
  have hlx : u < (s.at_ i).cip.units.length := by rw [State.at__cip]; exact hu
  have hs1 : s1.unit u = { s.unit u with state := .slow, run := none } :=
    ((State.endHostJob_keeps (.of rfl) (Keeps.refl _) : Keeps (Part.but .cip) _ s1).unit rfl u).trans (State.unit_setUnit hlx _)
  simp only [State.slowStop]
  rw [hux, hr]
  simp only
  rw [if_neg (Nat.not_lt.2 hl)]
  have hstop : ((s.at_ i).setUnit u { s.unit u with state := .slow }).stopRun State.attestEnd u = s1 := by
    simp only [State.stopRun, State.unit_setUnit hlx, hr, hv, ho, Bool.false_eq_true, if_false, s1,
      State.setUnit_setUnit]
  rw [← hr, hstop]
  clear_value s1
  simp [State.freeUnit, hs1]

theorem State.endHostJob_mem {s : State} {j : CipJob} {d : Desc} (h : j.owner = .host d) (out : List Byte) (u : Nat) :
    (s.endHostJob j .slowUnit out [] u).mem = (if j.mode.hasOutput then s.writeWin j.outOfs out else s).mem := by
  have hk : ∀ x : State, ((x.countJob .host .slowUnit).completeSubmit d .slowUnit u).mem = x.mem := fun x =>
    (State.completeSubmit_keeps (.of rfl) ((x.countJob_keepsRegs .host .slowUnit).widen (.of rfl)) :
      Keeps (Part.but .mem) x _).part .mem rfl
  simp only [State.endHostJob, h]
  exact hk _

/-- The host window is where the truss, or the loader, puts it (R23). -/
theorem State.window_congr {s t : State} (hs : t.sys = s.sys) (hb : t.boot = s.boot) (ht : t.truss = s.truss) :
    t.window = s.window := by
  simp only [State.window, hs, hb, ht]

theorem State.writeWin_mem_congr {s t : State} (hm : t.mem = s.mem) (hw : t.window = s.window) (o : Nat) (bs : List Byte) :
    (t.writeWin o bs).mem = (s.writeWin o bs).mem := by
  simp only [State.writeWin, State.writeMem, hm, hw]

/-- Settles O23: a slow unit keeps its run and its core's companions theirs; one stopped is free. -/
theorem slowUnits : Obligations.slowUnits := by
  refine ⟨fun s i u r hu hr hs hl hc => ?_, fun s i u r d hu hr hl hv ho => ?_⟩
  · obtain ⟨hm, hclk⟩ := State.slowMark_marks hu hr hs hl hc
    obtain ⟨hst, -, hrun⟩ := CipUnit.of_mark hm
    exact ⟨_, rfl, hst, hrun, State.now_of_clock hclk, (State.slowMark_keeps (.of rfl) (Keeps.refl s)).onlyIn⟩
  · refine ⟨_, next_of (State.slowStop_ends hu hr hl hv ho), ?_, ?_, ?_, ?_, ?_⟩
    all_goals
      have hkw : Keeps [.time, .cip] s ((s.at_ i).setUnit u { s.unit u with state := .slow, run := none }) :=
        State.setUnit_keeps (.of rfl) (State.at__keeps (.of rfl) (Keeps.refl s))
      have hlen : u < ((s.at_ i).setUnit u { s.unit u with state := .slow, run := none }).cip.units.length := by simpa using hu
      generalize (s.at_ i).setUnit u { s.unit u with state := .slow, run := none } = w at hkw hlen
      have hkc : Keeps (Part.but .cip) w (w.endHostJob r.job .slowUnit r.job.zeroed [] u) :=
        State.endHostJob_keeps (.of rfl) (Keeps.refl w)
      have hcip := hkc.part .cip rfl
      simp only [State.same] at hcip
    · exact congrArg CipUnit.run (State.unit_setUnit (by rw [hcip]; exact hlen) _)
    · exact congrArg CipUnit.state (State.unit_setUnit (by rw [hcip]; exact hlen) _)
    · refine (State.endHostJob_mem ho r.job.zeroed u).trans ?_
      have hmem : w.mem = s.mem := hkw.part .mem rfl
      split
      · exact State.writeWin_mem_congr hmem
          (State.window_congr (hkw.part .sys rfl) (hkw.part .boot rfl) (hkw.part .truss rfl)) _ _
      · exact hmem
    · obtain ⟨c, hc, htag, hst⟩ := State.endHostJob_adds (s := w) ho .slowUnit r.job.zeroed [] u
      exact ⟨c, hc.trans (congrArg (·.held ++ [c]) (hkw.part .hif rfl)), htag, hst⟩
    · exact (State.setUnit_keeps (.of rfl) (State.endHostJob_keeps (.of rfl) (hkw.widen (.of rfl)))).onlyIn

end Sys2Proof.Machine

/-! The Ethernet ports: link, control, pause, and the frames sent (O25 to O27). -/

namespace Sys2Proof.Machine

@[simp] theorem State.eth_setEth (s : State) (p : Nat) (x : EthPort) : (s.setEth p x).eth p = x := by
  simp only [State.setEth, State.eth]
  split <;> rfl

theorem State.eth_setEth_of_ne {s : State} {p q : Nat} (hp : p ≤ 1) (hq : q ≤ 1) (h : q ≠ p) (x : EthPort) :
    (s.setEth p x).eth q = s.eth q := by
  simp only [State.setEth, State.eth]
  split <;> split <;> first | omega | rfl

/-- A frame that names neither port keeps each. -/
theorem Keeps.eth {W : List Part} {s t : State} (h : Keeps W s t) (hA : W.contains .ethA = false)
    (hB : W.contains .ethB = false) (p : Nat) : t.eth p = s.eth p := by
  have ha := h.part .ethA hA
  have hb := h.part .ethB hB
  simp only [State.same] at ha hb
  simp only [State.eth, ha, hb]

theorem State.eth_congr {s t : State} (ha : t.ethA = s.ethA) (hb : t.ethB = s.ethB) (p : Nat) : t.eth p = s.eth p := by
  simp only [State.eth, ha, hb]

@[simp] theorem State.setEth_hif (s : State) (p : Nat) (x : EthPort) : (s.setEth p x).hif = s.hif :=
  (State.setEth_keeps (.of rfl) (Keeps.refl s) : Keeps [.ethA, .ethB] _ _).part .hif rfl

@[simp] theorem State.setEth_outbox (s : State) (p : Nat) (x : EthPort) : (s.setEth p x).outbox = s.outbox :=
  (State.setEth_keeps (.of rfl) (Keeps.refl s) : Keeps [.ethA, .ethB] _ _).part .outbox rfl

theorem State.raise_eth (s : State) (c p : Nat) : (s.raise c).eth p = s.eth p :=
  State.eth_congr (s.raise_ethA c) (s.raise_ethB c) p

/-- R431: the port's link follows the line, with an interrupt when it changes. -/
theorem State.ethLinkChange_eq {s : State} {p sp : Nat} {up : Bool} (ht : s.takesWrites = true)
    (he : bit (s.reg (Reg.ETH_CTRL p)) 31 = true) :
    let x := s.eth p
    let s1 := s.setEth p { x with link := up, speed := if up then sp % 4 else x.speed, paused := x.paused && up }
    s.ethLinkChange p up sp = if x.link = up then s1 else s1.raise (20 + p) := by
  simp only [State.takesWrites, Bool.and_eq_true] at ht
  simp only [State.ethLinkChange, he, ht.1, ht.2, Bool.and_true]

theorem State.ethCtrlWrite_ptp {s : State} {p : Nat} {v : Word} (hp : p ≤ 1) (ht : s.takesWrites = true) :
    s.ethCtrlWrite p true v = s.setReg (Reg.ETH_PTP p) (v &&& 0xC0FF0000) := by
  simp only [State.ethCtrlWrite]
  rw [if_neg (by simp [ht, hp]), if_pos trivial]

/-- A write that leaves EN and MODE as they were restarts no link (R436). -/
theorem State.ethCtrlWrite_plain {s : State} {p : Nat} {v : Word} (hp : p ≤ 1) (ht : s.takesWrites = true)
    (hm : bits v 30 29 ≠ 3) (hv : bits v 27 16 ≠ 0xFFF) (h : bits (s.reg (Reg.ETH_CTRL p)) 31 29 = bits v 31 29) :
    s.ethCtrlWrite p false v = s.setReg (Reg.ETH_CTRL p) (v &&& 0xFFFF03FF) := by
  simp only [State.ethCtrlWrite]
  rw [if_neg (by simp [ht, hp]), if_neg (by decide), if_neg (by simp [hm, hv]), if_pos h]

/-- Settles O26: the link, the two registers and the pause, each by the equation of its command. -/
theorem portsChange : Obligations.portsChange := by
  refine ⟨fun s p sp up hp ht he => ?_, fun s p v htidy hp ht => ⟨?_, fun hm hv h => ?_⟩, fun s p hp => ?_⟩
  · have hk : Keeps [.ethA, .ethB, .hif, .outbox, .regs] s (s.ethLinkChange p up sp) :=
      State.ethLinkChange_keeps (.of rfl) (Keeps.refl s)
    refine ⟨_, rfl, ?_, fun hup => ?_, ?_, fun hl => ?_, hk.onlyIn⟩ <;> rw [State.ethLinkChange_eq ht he]
    · split <;> simp only [State.raise_eth, State.eth_setEth]
    · split <;> simp only [State.raise_eth, State.eth_setEth, hup, if_true]
    · have hother := State.eth_setEth_of_ne (s := s) hp (by omega : 1 - p ≤ 1) (by omega)
      split <;> simp only [State.raise_eth, hother]
    · rw [if_pos hl, State.setEth_outbox]
  · exact ⟨_, next_of (State.ethCtrlWrite_ptp hp ht), htidy.reg_setReg _ _, State.setReg_onlyIn _ _ _⟩
  · exact ⟨_, next_of (State.ethCtrlWrite_plain hp ht hm hv h), htidy.reg_setReg _ _, State.setReg_onlyIn _ _ _⟩
  · exact ⟨_, rfl, State.eth_setEth .., State.eth_setEth_of_ne hp (by omega) (by omega) _,
      (State.setEth_keeps (.of rfl) (Keeps.refl s)).onlyIn⟩

theorem State.ethSend_queues {s : State} {d : Desc} (hb : d.byte 4 = 0xFF)
    (hst : s.inStates [.structured, .active, .maintenance, .alarm] = true)
    (hz : d.unlistedZero [8, 12, 13, 14, 15, 16, 17, 18, 19] = true) (hp : d.byte 8 ≤ 1) (h14 : 14 ≤ (d.word 4).toNat)
    (hn : (d.word 4).toNat ≤ 8192) (hw : s.inWindow (d.word 3).toNat (d.word 4).toNat = true)
    (hup : s.ethUp (d.byte 8) = true) :
    s.ethSend d = s.ethQueueOut (d.byte 8)
      { bytes := s.readWin (d.word 3).toNat (d.word 4).toNat ++ List.replicate (60 - (d.word 4).toNat) 0, cmd := some d,
        ahead := s.portItems (d.byte 8) } := by
  simp only [State.ethSend, State.command_runs hb hst]
  rw [if_neg (by simp only [hz]; simp; omega), if_neg (by simp [hw]; omega), if_neg (by simp [hup])]

/-- The oldest frame handed to a port leaves when no queued one goes before it (R434), and its command ends. -/
theorem State.ethernetEgress_hands {s : State} {p : Nat} {o : EthOut} {rest : List EthOut} {d : Desc}
    (hup : s.ethUp p = true) (hpa : (s.eth p).paused = false) (ho : (s.eth p).out = o :: rest) (hc : o.cmd = some d)
    (hq : s.egressOn = false ∨ s.egressNext p = none) :
    s.ethernetEgress p = ((s.setEth p { s.eth p with out := rest }).ethLeaves p o.bytes).complete d .ok := by
  have hnone : (if s.egressOn then s.egressNext p else none) = none := by
    obtain h | h := hq <;> simp [h]
  simp only [State.ethernetEgress]
  rw [if_neg (by simp [hup, hpa]), hnone, ho]
  simp only [hc]

/-- Settles O27: a frame that waits at its port, and the one that leaves. -/
theorem framesSent : Obligations.framesSent := by
  refine ⟨fun s d hb hst hz hp h14 hn hw hup => ?_, fun s p o rest d hp hup hpa ho hc hq => ?_⟩
  · exact ⟨_, next_of (State.ethSend_queues hb hst hz hp h14 hn hw hup), by rw [State.ethQueueOut, State.eth_setEth],
      State.setEth_hif .., (State.ethQueueOut_keeps (.of rfl) (Keeps.refl s)).onlyIn⟩
  · refine ⟨_, next_of (State.ethernetEgress_hands hup hpa ho hc hq), ?_, ?_, ?_, ?_⟩
    · rw [State.eth_congr (State.complete_ethA ..) (State.complete_ethB ..), State.ethLeaves,
        State.eth_congr (State.bump_ethA ..) (State.bump_ethB ..)]
      exact congrArg EthPort.out (State.eth_setEth s p _)
    · rw [State.complete_outbox, State.ethLeaves, State.bump_outbox, State.emit_outbox, State.setEth_outbox]
    · rw [State.complete_held, State.ethLeaves, State.bump_hif, State.emit_hif, State.setEth_hif]
    · exact (State.complete_keeps (.of rfl) (State.ethLeaves_keeps (.of rfl)
        (State.setEth_keeps (.of rfl) (Keeps.refl s)))).onlyIn

@[simp] theorem State.at__ethUp (s : State) (i : U64) (p : Nat) : (s.at_ i).ethUp p = s.ethUp p := by
  simp only [State.ethUp, State.at__reg, State.at__eth]

@[simp] theorem State.at__regFld (s : State) (i : U64) (a hi lo : Nat) : (s.at_ i).regFld a hi lo = s.regFld a hi lo := by
  simp only [State.regFld, State.at__reg]

theorem State.at__addressOk (s : State) (i : U64) (p : Nat) (bs : List Byte) : (s.at_ i).addressOk p bs = s.addressOk p bs := by
  simp only [State.addressOk, State.ethMac, State.at__reg]
  rfl

theorem State.at__mgmtBad (s : State) (i : U64) (p : Nat) (bs : List Byte) : (s.at_ i).mgmtBad p bs = s.mgmtBad p bs := by
  simp only [State.mgmtBad, State.at__regFld, State.at__truss]

/-- The exact-match lookup reads the tables and the commit bits of the spans. -/
theorem State.emLookup_congr {s t : State} (ht : t.tbl = s.tbl) (hs : t.spanc = s.spanc) (k : U64) :
    t.emLookup k = s.emLookup k := by
  have hf : ∀ m b, t.inForce m b = s.inForce m b := fun m b => by
    cases m <;> simp only [State.inForce, State.spanVis, State.span, hs]
  simp only [State.emLookup, State.emFind, State.emProbe, ht, hf]

section
/-! A whole frame of an allowed length on a port in service (R431). -/
variable {s : State} {i : U64} {p : Nat} {bs : List Byte} (hst : s.inStates stSAYML = true) (hup : s.ethUp p = true)
  (h60 : 60 ≤ bs.length) (hmax : bs.length ≤ 8192)
include hst hup h60 hmax

/-- A PAUSE frame on a port that obeys them stops it, or starts it again. -/
theorem State.ethFrameRx_pause {n : Nat} (hen : bit (s.reg (Reg.ETH_CTRL p)) 28 = true) (hpq : pauseQuanta bs = some n) :
    s.ethFrameRx i p bs true = ((s.at_ i).bump (Reg.ETH_CNT p 0)).setEth p
      { ((s.at_ i).bump (Reg.ETH_CNT p 0)).eth p with paused := decide (0 < n) } := by
  simp only [State.ethFrameRx]
  rw [if_neg (by simp [hst, hup]), if_neg (by simp; omega), State.at__reg, hen, if_pos rfl, hpq]

variable (hnp : bit (s.reg (Reg.ETH_CTRL p)) 28 = false ∨ pauseQuanta bs = none)
include hnp

theorem State.ethFrameRx_otherVlan (hv : vlanStrip (s.regFld (Reg.ETH_CTRL p) 27 16) bs = none) :
    s.ethFrameRx i p bs true = ((s.at_ i).bump (Reg.ETH_CNT p 0)).bump (Reg.ETH_CNT p 2) := by
  have hnone : (if bit (s.reg (Reg.ETH_CTRL p)) 28 then pauseQuanta bs else none) = none := by
    obtain h | h := hnp <;> simp [h]
  simp only [State.ethFrameRx]
  rw [if_neg (by simp [hst, hup]), if_neg (by simp; omega), State.at__reg, hnone, State.at__regFld, hv]

variable {f : List Byte} (hv : vlanStrip (s.regFld (Reg.ETH_CTRL p) 27 16) bs = some f)
include hv

theorem State.ethFrameRx_otherAddress (hok : s.addressOk p f = false) :
    s.ethFrameRx i p bs true = ((s.at_ i).bump (Reg.ETH_CNT p 0)).bump (Reg.ETH_CNT p 2) := by
  have hnone : (if bit (s.reg (Reg.ETH_CTRL p)) 28 then pauseQuanta bs else none) = none := by
    obtain h | h := hnp <;> simp [h]
  simp only [State.ethFrameRx]
  rw [if_neg (by simp [hst, hup]), if_neg (by simp; omega), State.at__reg, hnone, State.at__regFld, hv]
  simp [State.at__addressOk, hok]

variable (hok : s.addressOk p f = true)
include hok

/-- A frame whose source is a radio node's is dropped (R257). -/
theorem State.ethFrameRx_conflict {t : State} (hc : ((s.at_ i).bump (Reg.ETH_CNT p 0)).ethConflict p f = some t) :
    s.ethFrameRx i p bs true = t := by
  have hnone : (if bit (s.reg (Reg.ETH_CTRL p)) 28 then pauseQuanta bs else none) = none := by
    obtain h | h := hnp <;> simp [h]
  simp only [State.ethFrameRx]
  rw [if_neg (by simp [hst, hup]), if_neg (by simp; omega), State.at__reg, hnone, State.at__regFld, hv]
  simp [State.at__addressOk, hok, hc]

theorem State.ethFrameRx_mgmt (hc : ((s.at_ i).bump (Reg.ETH_CNT p 0)).ethConflict p f = none)
    (hm : beNat (slice f 12 2) = 0x88B5) :
    s.ethFrameRx i p bs true = ((s.at_ i).bump (Reg.ETH_CNT p 0)).bump (Reg.ETH_CNT p (if s.mgmtBad p f then 5 else 4)) := by
  have hnone : (if bit (s.reg (Reg.ETH_CTRL p)) 28 then pauseQuanta bs else none) = none := by
    obtain h | h := hnp <;> simp [h]
  simp only [State.ethFrameRx]
  rw [if_neg (by simp [hst, hup]), if_neg (by simp; omega), State.at__reg, hnone, State.at__regFld, hv]
  simp only [State.at__addressOk, hok, hc, hm, if_true, Bool.not_true, Bool.false_eq_true, if_false, State.at__mgmtBad]
  split <;> rfl

end

theorem State.ethConflict_none {s : State} {p : Nat} {f : List Byte}
    (h : bit (BitVec.ofNat 8 s.tp.learnEn) 2 = false ∨ s.emLookup (widen (slice f 6 6)) = none) : s.ethConflict p f = none := by
  obtain h | h := h <;> simp [State.ethConflict, h]

/-- A conflict is counted, and recorded at most; no port takes part. -/
theorem State.ethConflict_counts {s : State} {p : Nat} {f : List Byte} {e : EmEntry}
    (hle : bit (BitVec.ofNat 8 s.tp.learnEn) 2 = true) (hlk : s.emLookup (widen (slice f 6 6)) = some e) (hln : e.learned = true) :
    ∃ t, s.ethConflict p f = some t ∧ t.reg (Reg.TBL_CNT 10) = (s.bump (Reg.TBL_CNT 10)).reg (Reg.TBL_CNT 10) := by
  unfold State.ethConflict
  simp -zeta only [hle, Bool.not_true, Bool.false_eq_true, if_false]
  extract_lets mac s1 sec n
  rw [show s.emLookup (widen mac) = some e from hlk]
  simp -zeta only [hln, Bool.not_true, Bool.false_eq_true, if_false]
  clear_value n
  split
  · refine ⟨_, rfl, (post_reg (by decide)).trans rfl⟩
  · exact ⟨_, rfl, rfl⟩

theorem State.bump_reg_congr {s t : State} {a : Nat} (hs : s.tidy) (ht : t.tidy) (h : t.reg a = s.reg a) :
    (t.bump a).reg a = (s.bump a).reg a := by
  simp only [State.bump, State.bumpBy, State.setFld]
  rw [hs.reg_setReg, ht.reg_setReg, State.regFld, State.regFld, h]

/-- Settles O25: the branches of the classification of a frame, in their order. -/
theorem framesReceived : Obligations.framesReceived := by
  refine fun s i p bs hst hup => ⟨fun ok hbad => next_of ?_, fun h60 hmax => ⟨fun n hen hpq => ?_, fun hnp => ⟨fun hd => ?_,
    fun f hf hok => ⟨fun e htidy hle hlk hln => ?_, fun hno hm => ?_⟩⟩⟩⟩
  · simp only [State.ethFrameRx]
    rw [if_neg (by simp [hst, hup]), if_pos]
    obtain rfl | h | h := hbad
    · rfl
    · simp [h]
    · simp [h]
  · refine ⟨_, next_of (State.ethFrameRx_pause hst hup h60 hmax hen hpq), by rw [State.eth_setEth], ?_,
      (State.setEth_keeps (.of rfl) (State.bump_keeps (.of rfl) (State.at__keeps (.of rfl) (Keeps.refl s)))).onlyIn⟩
    rw [State.eth_setEth, State.eth_congr (State.bump_ethA ..) (State.bump_ethB ..), State.at__eth]
  · obtain hv | ⟨f, hv, hok⟩ := hd
    · exact next_of (State.ethFrameRx_otherVlan hst hup h60 hmax hnp hv)
    · exact next_of (State.ethFrameRx_otherAddress hst hup h60 hmax hnp hv hok)
  all_goals
    have hk : Keeps [.time, .regs] s ((s.at_ i).bump (Reg.ETH_CNT p 0)) :=
      State.bump_keeps (.of rfl) (State.at__keeps (.of rfl) (Keeps.refl s))
    have htp : ((s.at_ i).bump (Reg.ETH_CNT p 0)).tp = s.tp := congrArg (fun x => x.truss.params) (hk.part .truss rfl)
    have hlk' := State.emLookup_congr (hk.part .tbl rfl) (hk.part .spanc rfl) (widen (slice f 6 6))
  · have hreg : ((s.at_ i).bump (Reg.ETH_CNT p 0)).reg (Reg.TBL_CNT 10) = s.reg (Reg.TBL_CNT 10) := by
      rw [State.bump, State.bumpBy_reg (by simp [Reg.TBL_CNT, Reg.ETH_CNT]; omega), State.at__reg]
    obtain ⟨t, ht, hc⟩ := State.ethConflict_counts (p := p) (by rw [htp]; exact hle) (hlk'.trans hlk) hln
    have hkt : Keeps [.time, .evr, .free, .hif, .outbox, .que, .regs, .tbl] s t := by
      exact State.ethConflict_keeps (.of rfl) ht (hk.widen (.of rfl))
    exact ⟨t, next_of (State.ethFrameRx_conflict hst hup h60 hmax hnp hf hok ht),
      hc.trans (State.bump_reg_congr htidy (hk.tidy htidy) hreg), hkt.eth rfl rfl p, hkt.onlyIn⟩
  · refine next_of (State.ethFrameRx_mgmt hst hup h60 hmax hnp hf hok (State.ethConflict_none ?_) hm)
    rw [htp, hlk']
    exact hno

end Sys2Proof.Machine

/-! The queues: the head item popped, freed and delivered, and the commands over a queue (O34 to O36). -/

namespace Sys2Proof.Machine

theorem State.queue_congr {s t : State} (h : t.que = s.que) (q : Nat) : t.queue q = s.queue q := by
  simp only [State.queue, h]

theorem State.queue_setQueue_of_ne {s : State} {p q : Nat} (h : p ≠ q) (x : Queue) : (s.setQueue q x).queue p = s.queue p :=
  aget_aset_other h

/-- A register of another block than the queues' reads as before. -/
def SameElsewhere (s t : State) : Prop := ∀ a, a / 0x100000 ≠ 0x0C → t.reg a = s.reg a

theorem State.bump_queReg {s : State} {m hi k a : Nat} (hm : m < 8) (ha : a / 0x100000 ≠ 0x0C) :
    (s.bumpBy (Reg.QUE_CNT m) hi k).reg a = s.reg a := by
  refine State.bumpBy_reg fun h => ha ?_
  subst h
  simp only [Reg.QUE_CNT]
  omega

/-- What the removal of an item, a packet or a gap of one queue leaves: the other queues, and every register but the
counters of the block. -/
structure OneQueue (q : Nat) (s t : State) : Prop where
  others : ∀ p, p ≠ q → t.queue p = s.queue p
  regs : SameElsewhere s t

theorem OneQueue.refl (q : Nat) (s : State) : OneQueue q s s := ⟨fun _ _ => rfl, fun _ _ => rfl⟩

theorem OneQueue.trans {q : Nat} {s t u : State} (h : OneQueue q s t) (k : OneQueue q t u) : OneQueue q s u :=
  ⟨fun p hp => (k.others p hp).trans (h.others p hp), fun a ha => (k.regs a ha).trans (h.regs a ha)⟩

theorem OneQueue.setQueue {q : Nat} {s t : State} (h : OneQueue q s t) (x : Queue) : OneQueue q s (t.setQueue q x) :=
  ⟨fun p hp => (State.queue_setQueue_of_ne hp x).trans (h.others p hp), fun a ha => h.regs a ha⟩

theorem OneQueue.bumpBy {q m hi k : Nat} {s t : State} (h : OneQueue q s t) (hm : m < 8) :
    OneQueue q s (t.bumpBy (Reg.QUE_CNT m) hi k) :=
  ⟨fun p hp => (State.queue_congr (State.bumpBy_que ..) p).trans (h.others p hp),
    fun a ha => (State.bump_queReg hm ha).trans (h.regs a ha)⟩

theorem State.popFree_oneQueue (s : State) (q : Nat) : OneQueue q s (s.popFree q) := by
  unfold State.popFree
  extract_lets x
  split
  · exact (OneQueue.refl q s).setQueue _
  · exact OneQueue.refl q s

theorem State.dropBroken_oneQueue (s : State) (q : Nat) : OneQueue q s (s.dropBroken q) := by
  unfold State.dropBroken
  extract_lets x n
  split
  · split
    · exact OneQueue.refl q s
    · exact ((OneQueue.refl q s).bumpBy (by decide)).setQueue _
  · exact OneQueue.refl q s

theorem State.takeHead_oneQueue (s : State) (q : Nat) (hold : Bool) : OneQueue q s (s.takeHead q hold).1 := by
  unfold State.takeHead
  extract_lets x
  split
  · exact OneQueue.refl q s
  · extract_lets soj x1 again
    split
    · refine OneQueue.setQueue ?_ _
      split
      · exact (OneQueue.refl q s).bumpBy (by decide)
      · exact OneQueue.refl q s
    · split <;> exact (OneQueue.refl q s).setQueue _

theorem State.freeGaps_oneQueue (s : State) (q : Nat) : OneQueue q s (s.freeGaps q) := by
  unfold State.freeGaps
  extract_lets x n
  split
  · exact OneQueue.refl q s
  · split
    · exact OneQueue.refl q s
    · exact (OneQueue.refl q s).setQueue _

theorem State.skipGaps_oneQueue (q n : Nat) (s : State) : OneQueue q s (s.skipGaps q n) := by
  induction n generalizing s with
  | zero => exact OneQueue.refl q s
  | succ n ih =>
    unfold State.skipGaps
    split
    · split
      · exact (s.takeHead_oneQueue q false).trans (ih _)
      · exact OneQueue.refl q s
    · exact OneQueue.refl q s

/-- The head item is taken as it stands, but that one read before says so (R277). -/
theorem State.takeHead_of_head {s : State} {q : Nat} {i : QItem} {hold : Bool} (h : (s.queue q).headItem = some i) :
    ∃ j, (s.takeHead q hold).2 = some j ∧ j.seq = i.seq ∧ j.bytes = i.bytes := by
  unfold State.takeHead
  extract_lets x
  rw [show x.headItem = some i from h]
  simp only
  split
  · exact ⟨_, rfl, rfl, rfl⟩
  · split <;> exact ⟨_, rfl, rfl, rfl⟩

theorem State.checkPointers_of_good {s : State} {q : Nat} (h : (s.queue q).pointersBad = false) :
    s.checkPointers post q = s := by
  simp [State.checkPointers, h]

/-- R274: a pop of a queue with an item shows it and holds it, but for a queue that is read and not emptied. -/
theorem State.quePop_of_head {s : State} {q : Nat} {j : QItem} (hp : (s.queue q).popped = true)
    (hb : (s.queue q).pointersBad = false) (hj : (((s.popFree q).dropBroken q).takeHead q true).2 = some j) :
    let s1 := (s.popFree q).dropBroken q
    let s2 := (s1.takeHead q true).1
    s.quePop q = s2.setQueue q { s2.queue q with popWords := j.words, popHeld := !decide ((s1.queue q).type = .rewind) } := by
  simp only [State.quePop, State.checkPointers_of_good hb, hp, Bool.not_true, Bool.false_eq_true, if_false]
  generalize ((s.popFree q).dropBroken q).takeHead q true = r at hj ⊢
  obtain ⟨s2, o⟩ := r
  simp only at hj
  subst hj
  rfl

theorem State.quePopFree_of_held {s : State} {q : Nat} (hp : (s.queue q).popped = true)
    (hb : (s.queue q).pointersBad = false) (hh : (s.queue q).popHeld = true) :
    s.quePopFree q = s.setQueue q { s.queue q with items := (s.queue q).items.filter fun i => !i.taken, popHeld := false } := by
  simp only [State.quePopFree, State.checkPointers_of_good hb, hp, if_true, State.popFree, hh]

/-- Settles O34: what the pop shows is the head past the broken packet, and no step of it leaves its queue. -/
theorem queuesPopped : Obligations.queuesPopped := by
  refine ⟨fun s q i hp hb hi => ?_, fun s q hp hb hh => ?_⟩
  · obtain ⟨j, hj, hseq, hbytes⟩ := State.takeHead_of_head (hold := true) hi
    have hone : OneQueue q s ((((s.popFree q).dropBroken q).takeHead q true).1) :=
      (s.popFree_oneQueue q).trans ((State.dropBroken_oneQueue _ q).trans (State.takeHead_oneQueue _ q true))
    refine ⟨_, next_of (State.quePop_of_head hp hb hj), ⟨_, _, j, rfl, rfl, hseq, hbytes, rfl⟩, (hone.setQueue _).others, ?_⟩
    exact (State.setQueue_keeps (.of rfl) (State.takeHead_keeps (.of rfl) (State.dropBroken_keeps (.of rfl)
      (State.popFree_keeps (.of rfl) (Keeps.refl s))))).onlyIn
  · exact ⟨_, next_of (State.quePopFree_of_held hp hb hh), rfl, (State.setQueue_keeps (.of rfl) (Keeps.refl s)).onlyIn⟩

/-! ### The commands over a queue -/

@[simp] theorem State.queEnd_que (s : State) (w : Issuer) (d : Desc) (st : Status) (q n : Nat) :
    (s.queEnd w d st q n).que = s.que := by
  cases w <;> rfl

theorem State.queEnd_answered {s t : State} (h : t.hif = s.hif) (w : Issuer) (d : Desc) (q n : Nat) :
    (t.queEnd w d .ok q n).answered w d s := by
  cases w with
  | host =>
    obtain ⟨c, hc, htag, hst, -⟩ := State.complete_adds (s := s) (d := d) (st := .ok) (congrArg HifSt.held h)
    exact ⟨c, hc, htag, hst⟩
  | firmware => exact h

section
variable {s : State} {w : Issuer} {d : Desc} (hb : d.byte 4 = 0xFF) (hst : s.inStates stSAYM = true)
  (hq : d.half 8 < 1024) (ho : (s.queue (d.half 8)).issuerOk w = true) (hp : (s.queue (d.half 8)).pointersBad = false)
include hb hst hq ho hp

/-- A command its issuer may give, on a queue that is whole, runs (R277). -/
theorem State.queCommand_runs {rewind : Bool} {used : List Nat} {k : State → Nat → State × Status × Nat}
    (hz : d.unlistedZero used = true) (hd : (s.queue (d.half 8)).type ≠ .disabled)
    (hr : rewind = true → (s.queue (d.half 8)).type = .rewind) :
    s.queCommand w d rewind used k = (k s (d.half 8)).1.queEnd w d (k s (d.half 8)).2.1 (d.half 8) (k s (d.half 8)).2.2 := by
  have hrw : (rewind && (s.queue (d.half 8)).type != .rewind) = false := by
    cases rewind with
    | false => rfl
    | true => simp [hr rfl]
  simp only [State.queCommand]
  rw [if_neg (by simp [hb]), if_neg (by simp [hst]), if_neg (by simp only [hrw, hz, ho]; simp [hd]; omega), if_neg (by simp [hp])]

theorem State.queMark_runs (ht : (s.queue (d.half 8)).type = .rewind) (hz : d.unlistedZero [8, 9] = true) :
    s.queMark w d = (s.setQueue (d.half 8) { s.queue (d.half 8) with mark := (s.queue (d.half 8)).read }).queEnd w d .ok
      (d.half 8) 0 :=
  State.queCommand_runs hb hst hq ho hp hz (by simp [ht]) fun _ => ht

theorem State.queRewind_runs (ht : (s.queue (d.half 8)).type = .rewind) (hz : d.unlistedZero [8, 9] = true) :
    s.queRewind w d = (s.setQueue (d.half 8) { s.queue (d.half 8) with read := (s.queue (d.half 8)).mark }).queEnd w d .ok
      (d.half 8) ((s.queue (d.half 8)).read - (s.queue (d.half 8)).mark) :=
  State.queCommand_runs hb hst hq ho hp hz (by simp [ht]) fun _ => ht

/-- R278: the items up to the one named leave, a gap marker in part. -/
theorem State.queRelease_runs {n : Nat} {g : Option QItem} (ht : (s.queue (d.half 8)).type = .rewind)
    (hz : d.unlistedZero [8, 9, 10, 11] = true)
    (hg : releaseCount ((s.queue (d.half 8)).items.take (s.queue (d.half 8)).read) (BitVec.ofNat 16 (d.half 10)) = some (n, g)) :
    let x := s.queue (d.half 8)
    s.queRelease w d = (((s.bumpBy (Reg.QUE_CNT 6) 31 n).setQueue (d.half 8)
      { x with
        items := (match (generalizing := false) g with
          | some i => i :: x.items.drop (n + 1)
          | none => x.items.drop n)
        read := x.read - n, mark := x.mark - n, readMax := x.readMax - n }).freeGaps (d.half 8)).queEnd w d .ok (d.half 8) n := by
  rw [State.queRelease, State.queCommand_runs hb hst hq ho hp hz (by simp [ht]) fun _ => ht]
  simp only [State.releaseQueue, hg, Option.map_some] <;> cases g <;> rfl

theorem State.queDropRest_none (hd : (s.queue (d.half 8)).type ≠ .disabled) (hin : (s.queue (d.half 8)).inPacket = false)
    (hz : d.unlistedZero [8, 9] = true) : s.queDropRest w d = s.queEnd w d .ok (d.half 8) 0 := by
  rw [State.queDropRest, State.queCommand_runs hb hst hq ho hp hz hd (fun h => by simp at h)]
  simp only [hin, Bool.not_false, if_true]

/-- The rest of the packet leaves up to its EOP, or all that is there and the rest as it comes. -/
theorem State.queDropRest_rest {gone ahead : List QItem} {n : Nat} {drop : Bool} (hd : (s.queue (d.half 8)).type ≠ .disabled)
    (hin : (s.queue (d.half 8)).inPacket = true) (hz : d.unlistedZero [8, 9] = true)
    (hg : gone = (if (s.queue (d.half 8)).type = .rewind then (s.queue (d.half 8)).items.take (s.queue (d.half 8)).read
      else (s.queue (d.half 8)).items.filter fun i => i.taken))
    (ha : ahead = (if (s.queue (d.half 8)).type = .rewind then (s.queue (d.half 8)).items.drop (s.queue (d.half 8)).read
      else (s.queue (d.half 8)).items.filter fun i => !i.taken))
    (hn : (toEop ahead = some n ∧ drop = false) ∨ (toEop ahead = none ∧ n = ahead.length ∧ drop = true)) :
    s.queDropRest w d = ((s.bumpBy (Reg.QUE_CNT 4) 31 n).setQueue (d.half 8)
      { s.queue (d.half 8) with items := gone ++ ahead.drop n, inPacket := false, dropping := drop }).queEnd w d .ok (d.half 8) n := by
  rw [State.queDropRest, State.queCommand_runs hb hst hq ho hp hz hd (fun h => by simp at h)]
  simp only [hin, Bool.not_true, Bool.false_eq_true, if_false, ← hg, ← ha]
  obtain ⟨h, rfl⟩ | ⟨h, rfl, rfl⟩ := hn <;> simp only [h]

end

theorem State.freeGaps_que_congr {s t : State} (h : t.que = s.que) (q : Nat) : (t.freeGaps q).que = (s.freeGaps q).que := by
  have hq : t.queue q = s.queue q := State.queue_congr h q
  simp only [State.freeGaps, hq]
  split
  · exact h
  · split
    · exact h
    · simp only [State.setQueue, h]

/-- Settles O35: each command by its effect on its queue, and its answer. -/
theorem queuesCommanded : Obligations.queuesCommanded := by
  rintro s w d x hb hst hq rfl ho hp
  refine ⟨fun ht hz => ?_, fun ht hz => ?_, fun n g ht hz hg => ?_, fun gone ahead n drop hd hin hz hg ha hn => ?_, fun hd hin hz => ?_⟩
  · exact ⟨_, next_of (State.queMark_runs hb hst hq ho hp ht hz), by rw [State.queEnd_que]; rfl, State.queEnd_answered rfl ..,
      (State.queEnd_keeps (.of rfl) (State.setQueue_keeps (.of rfl) (Keeps.refl s))).onlyIn⟩
  · exact ⟨_, next_of (State.queRewind_runs hb hst hq ho hp ht hz), by rw [State.queEnd_que]; rfl, State.queEnd_answered rfl ..,
      (State.queEnd_keeps (.of rfl) (State.setQueue_keeps (.of rfl) (Keeps.refl s))).onlyIn⟩
  · refine ⟨_, next_of (State.queRelease_runs hb hst hq ho hp ht hz hg), ?_, State.queEnd_answered ?_ .., ?_⟩
    · rw [State.queEnd_que]
      exact State.freeGaps_que_congr (by cases g <;> simp only [State.setQueue, State.bumpBy_que]) _
    · exact (State.freeGaps_keeps (.of rfl) (State.setQueue_keeps (.of rfl) (State.bumpBy_keeps (.of rfl) (Keeps.refl s))) :
        Keeps (Part.but .hif) s _).part .hif rfl
    · exact (State.queEnd_keeps (.of rfl) (State.freeGaps_keeps (.of rfl) (State.setQueue_keeps (.of rfl)
        (State.bumpBy_keeps (.of rfl) (Keeps.refl s))))).onlyIn
  · refine ⟨_, next_of (State.queDropRest_rest hb hst hq ho hp hd hin hz hg ha hn), ?_, State.queEnd_answered ?_ .., ?_⟩
    · rw [State.queEnd_que, State.setQueue_que, State.bumpBy_que]
    · rw [State.setQueue_hif, State.bumpBy_hif]
    · exact (State.queEnd_keeps (.of rfl) (State.setQueue_keeps (.of rfl) (State.bumpBy_keeps (.of rfl) (Keeps.refl s)))).onlyIn
  · exact ⟨_, next_of (State.queDropRest_none hb hst hq ho hp hd hin hz), State.queEnd_que .., State.queEnd_answered rfl ..,
      (State.queEnd_keeps (.of rfl) (Keeps.refl s)).onlyIn⟩

/-! ### Delivery -/

theorem State.ringLog2_congr {s t : State} (h : SameElsewhere s t) {k : Nat} (hk : k < 18) : t.ringLog2 k = s.ringLog2 k := by
  simp only [State.ringLog2, State.regFld]
  rw [h _ (by simp only [Reg.HIF_RING_CFG]; omega)]

/-- The rings are the host interface's own: an item taken moves none of them. -/
theorem State.ring_congr {s t : State} (h : SameElsewhere s t) {k : Nat} (hk : k < 18) :
    t.ringProd k = s.ringProd k ∧ (∀ i n, t.ringAddr k i n = s.ringAddr k i n) ∧ (∀ i, t.ringPhase k i = s.ringPhase k i) := by
  have hsz : t.ringSize k = s.ringSize k := by simp only [State.ringSize, State.ringLog2_congr h hk]
  refine ⟨?_, fun i n => ?_, fun i => ?_⟩
  · simp only [State.ringProd, h (Reg.HIF_RING_PROD k) (by simp only [Reg.HIF_RING_PROD]; omega)]
  · simp only [State.ringAddr, hsz, h (Reg.HIF_RING_BASE_LO k) (by simp only [Reg.HIF_RING_BASE_LO]; omega),
      h (Reg.HIF_RING_BASE_HI k) (by simp only [Reg.HIF_RING_BASE_HI]; omega)]
  · simp only [State.ringPhase, hsz]

/-- An item is written at PROD of its ring, which advances (R422), and the turn of its queue is noted (R274). -/
def State.writeRing (s : State) (r q : Nat) (ty : QType) (i : QItem) : State :=
  let k := 10 + r
  let n := s.ringProd k
  let s3 := (s.emit (.hostWrite (s.ringAddr k n 32) (i.delivery (s.ringPhase k n)))).setReg (Reg.HIF_RING_PROD k) (pw (n + 1))
  let s4 := (s3.bump (Reg.HIF_CNT 3)).rsbWrite (0x60 + 4 * r) (leBytes (n + 1) 4)
  { s4 with que := { s4.que with lastServed := aset 0 s4.que.lastServed (turnKey r ty) (q + 1) } }.raise (1 + r)

theorem State.rxDelivery_delivers {s : State} {r q : Nat} {ty : QType} {j : QItem} (hr : r < 8) (hc : s.ringsCarry = true)
    (hl : s.linkUp = true) (he : s.ringEn (10 + r) = true) (hu : s.ringUsed (10 + r) < s.ringSize (10 + r))
    (hn : s.ringNext r = some (q, ty)) (hb : (s.queue q).pointersBad = false)
    (hj : (((s.dropBroken q).skipGaps q 65536).takeHead q false).2 = some j) :
    s.rxDelivery r = ((((s.dropBroken q).skipGaps q 65536).takeHead q false).1.freeGaps q).writeRing r q ty j := by
  simp only [State.rxDelivery]
  rw [if_neg (by simp [hr, hc, hl, he, hu])]
  simp only [hn, hb, Bool.false_eq_true, if_false]
  generalize ((s.dropBroken q).skipGaps q 65536).takeHead q false = p at hj ⊢
  obtain ⟨s2, o⟩ := p
  simp only at hj
  subst hj
  rfl

theorem State.rsbWrite_outbox {s : State} {o : Output} (h : o ∈ s.outbox) (a : Nat) (bs : List Byte) :
    o ∈ (s.rsbWrite a bs).outbox := by
  unfold State.rsbWrite
  split
  · exact List.mem_append_left _ h
  · exact h

theorem State.rsbWrite_reg (s : State) (a : Nat) (bs : List Byte) (b : Nat) : (s.rsbWrite a bs).reg b = s.reg b := by
  unfold State.rsbWrite
  split <;> rfl

theorem moved_ringProd {r : Nat} (hr : r < 8) : moved (Reg.HIF_RING_PROD (10 + r)) = false := by
  simp only [moved, Bool.or_eq_false_iff, decide_eq_false_iff_not]
  simp only [Reg.HIF_RING_PROD, Reg.HIF_INT_STATUS, Reg.HIF_CNT]
  omega

theorem State.writeRing_reg {s : State} (htidy : s.tidy) {r q : Nat} (hr : r < 8) (ty : QType) (i : QItem) :
    (s.writeRing r q ty i).reg (Reg.HIF_RING_PROD (10 + r)) = pw (s.ringProd (10 + r) + 1) := by
  have hne : Reg.HIF_RING_PROD (10 + r) ≠ Reg.HIF_CNT 3 := by simp only [Reg.HIF_RING_PROD, Reg.HIF_CNT]; omega
  unfold State.writeRing
  extract_lets k n s3 s4
  rw [State.raise_reg (moved_ringProd hr)]
  have h4 : s4.reg (Reg.HIF_RING_PROD k) = s3.reg (Reg.HIF_RING_PROD k) := by
    rw [State.rsbWrite_reg, State.bump, State.bumpBy_reg hne]
  exact h4.trans (reg_setReg_same htidy.rising)

theorem State.writeRing_outbox (s : State) (r q : Nat) (ty : QType) (i : QItem) :
    .hostWrite (s.ringAddr (10 + r) (s.ringProd (10 + r)) 32) (i.delivery (s.ringPhase (10 + r) (s.ringProd (10 + r)))) ∈
      (s.writeRing r q ty i).outbox := by
  unfold State.writeRing
  refine State.raise_outbox ?_ (1 + r)
  refine State.rsbWrite_outbox ?_ _ _
  rw [State.bump_outbox]
  exact List.mem_append_right _ (List.mem_singleton_self _)

/-- Settles O36: the item taken is the head past what is broken, and nothing before the write moves the ring. -/
theorem deliveries : Obligations.deliveries := by
  intro s r q ty i htidy hr hc hl he hu hn hb hi
  obtain ⟨j, hj, hseq, hbytes⟩ := State.takeHead_of_head (hold := false) hi
  have hk : Keeps [.que, .regs] s ((((s.dropBroken q).skipGaps q 65536).takeHead q false).1.freeGaps q) :=
    State.freeGaps_keeps (.of rfl) (State.takeHead_keeps (.of rfl) (State.skipGaps_keeps (.of rfl)
      (State.dropBroken_keeps (.of rfl) (Keeps.refl s))))
  have hone : OneQueue q s ((((s.dropBroken q).skipGaps q 65536).takeHead q false).1.freeGaps q) :=
    (s.dropBroken_oneQueue q).trans ((State.skipGaps_oneQueue q 65536 _).trans
      ((State.takeHead_oneQueue _ q false).trans (State.freeGaps_oneQueue _ q)))
  obtain ⟨hprod, haddr, hphase⟩ := State.ring_congr hone.regs (show 10 + r < 18 by omega)
  refine ⟨_, next_of (State.rxDelivery_delivers hr hc hl he hu hn hb hj), ?_, ⟨j, hseq, hbytes, ?_⟩, ?_⟩
  · rw [State.writeRing_reg (hk.tidy htidy) hr, hprod]
  · have hout := State.writeRing_outbox ((((s.dropBroken q).skipGaps q 65536).takeHead q false).1.freeGaps q) r q ty j
    rwa [haddr, hphase, hprod] at hout
  · rw [← State.rxDelivery_delivers hr hc hl he hu hn hb hj]
    exact (State.rxDelivery_keeps (.of rfl) (Keeps.refl s)).onlyIn

end Sys2Proof.Machine

/-! The event recorder's commands (O37). -/

namespace Sys2Proof.Machine

theorem testBit_bits {n : Nat} (w : BitVec n) (hi lo i : Nat) :
    (bits w hi lo).testBit i = (decide (i < hi + 1 - lo) && w.getLsbD (lo + i)) := by
  simp [bits, Nat.testBit_mod_two_pow, BitVec.getLsbD]

/-- A field written reads as written, cut to its width. -/
theorem bits_setBits_same {hi lo : Nat} (h : hi < 32) (w : Word) (v : Nat) :
    bits (setBits w hi lo v) hi lo = v % 2 ^ (hi + 1 - lo) := by
  refine Nat.eq_of_testBit_eq fun i => ?_
  rw [testBit_bits, Nat.testBit_mod_two_pow]
  by_cases hi' : i < hi + 1 - lo
  · have h32 : lo + i < 32 := by omega
    simp only [setBits, BitVec.getLsbD_or, BitVec.getLsbD_and, BitVec.getLsbD_not, BitVec.getLsbD_ofNat]
    simp [hi', h32, Nat.testBit_shiftLeft, Nat.testBit_mod_two_pow, Nat.testBit_two_pow_sub_one]
  · simp [hi']

theorem State.regFld_setFld_same {s : State} (h : s.tidy) {a hi lo v : Nat} (hh : hi < 32) :
    (s.setFld a hi lo v).regFld a hi lo = v % 2 ^ (hi + 1 - lo) := by
  simp only [State.regFld, State.setFld, h.reg_setReg, bits_setBits_same hh]

/-- Registers set one after another to the same word read it, and the others as before. -/
theorem State.foldl_setReg_reg {f : Nat → Nat} (v : Word) (l : List Nat) {s : State} (htidy : s.tidy) (a : Nat) :
    (l.foldl (fun (s : State) k => s.setReg (f k) v) s).reg a = if a ∈ l.map f then v else s.reg a := by
  induction l generalizing s with
  | nil => rfl
  | cons k l ih =>
    rw [List.foldl_cons, ih (htidy.setReg _ _)]
    by_cases ha : a = f k
    · simp [ha, htidy.reg_setReg]
    · simp [ha, reg_setReg_other ha]

/-! ### Reading -/

/-- R409: whole records from FROM on are copied, and the next one named. -/
theorem State.evrRead_copies {s : State} {d : Desc} {l got : List Rec} (hb : d.byte 4 = 0xFF) (hst : s.inStates stSAYML = true)
    (hz : d.unlistedZero [8, 9, 10, 11, 12, 13, 14, 15, 16, 17, 18, 19] = true)
    (hw : s.inWindow (d.word 3).toNat (d.word 4).toNat = true) (h4 : (d.word 3).toNat % 4 = 0)
    (hl : l = (s.evr.all.filter fun r => r.seq.toNat = (d.word 2).toNat || seqNewer r.seq.toNat (d.word 2).toNat))
    (hg : got = fitRecs l (d.word 4).toNat) (hne : got = [] → l = []) :
    s.evrRead d = (s.writeWin (d.word 3).toNat (got.flatMap fun r => ofWords r.words)).complete d .ok
      (b4 := pw got.length) (b8 := ((l.drop got.length).head?.map fun r => r.seq).getD s.evr.next) := by
  have hsome : (got.isEmpty && !l.isEmpty) = false := by
    cases got with
    | nil => simp [hne rfl]
    | cons _ _ => rfl
  simp only [State.evrRead, State.command_runs hb hst, ← hl, ← hg]
  rw [if_neg (by simp [hz]), if_neg (by simp [hw, h4, hsome])]
  cases l.drop got.length <;> rfl

/-! ### Writing -/

/-- While the log is not being read out, a record is written, or dropped, and that is all (R407). -/
theorem State.postAsk_of_noExport {s : State} (h : bit (s.reg Reg.EVR_CTRL) 3 = false) (v : Sev) (src : Nat)
    (st : Option Status) (ev : Nat) (pl : List Word) : s.postAsk v src st ev pl = s.writeRec v src st ev pl := by
  have hexp : ∀ u : State, u.reg Reg.EVR_CTRL = s.reg Reg.EVR_CTRL → ∀ x, u.exportWith (postVia postPlain) x = u := fun u hu x => by
    simp [State.exportWith, hu, h]
  have hreg : (s.writeRec v src st ev pl).2 = true → (s.writeRec v src st ev pl).1.reg Reg.EVR_CTRL = s.reg Reg.EVR_CTRL := by
    unfold State.writeRec
    extract_lets r u cap
    repeat' split
    all_goals simp [State.reg]
  unfold State.postAsk
  generalize s.writeRec v src st ev pl = r at hreg
  obtain ⟨u, ok⟩ := r
  cases ok with
  | false => rfl
  | true =>
    simp only [Prod.mk.injEq, and_true]
    exact hexp u (hreg rfl) v

/-- The record a write makes of its arguments, at this instant (Table 19-1). -/
def State.newRec (s : State) (v : Sev) (src : Nat) (st : Option Status) (ev : Nat) (pl : List Word) : Rec :=
  { seq := s.evr.next, dtime := s.time.dtime, sev := v, source := BitVec.ofNat 7 src,
    status := match st with
      | some x => BitVec.ofNat 6 x.code
      | none => 0x3F,
    event := BitVec.ofNat 8 ev, payload := pl }

theorem addSkip_length (g : List Rec) (n : Nat) : (addSkip g n).length = g.length := by
  unfold addSkip
  split
  · rfl
  · next r h =>
    have hne : g ≠ [] := fun h0 => by simp [h0] at h
    have := List.length_pos_iff.2 hne
    simp
    omega

/-- A record of the general area for which R408 makes room is the newest of the log. -/
theorem State.writeRec_room {s : State} {v : Sev} {src : Nat} {st : Option Status} {ev : Nat} {pl : List Word} {g : List Rec}
    (hrun : s.evr.running = true) (hv : v.code ≤ 4)
    (hg : makeRoom (evrOnChip + s.evr.ext) s.evr.wr (16 + 4 * pl.length) v s.evr.general = (g, true)) :
    ∃ (t : State) (o n w : Nat), s.writeRec v src st ev pl = (t, true) ∧ t = { s with evr := { s.evr with
      general := addSkip g n ++ [{ s.newRec v src st ev pl with off := o, occ := 16 + 4 * pl.length }], wr := w,
      newest := s.evr.next, next := s.evr.next + 1 } } := by
  have hv' : ¬ 6 ≤ v.code := by omega
  simp only [State.writeRec, hrun, Bool.not_true, Bool.false_eq_true, if_false, hv', Rec.bytes, hg]
  exact ⟨_, _, _, _, rfl, rfl⟩

/-- One for which it makes none is dropped and counted, after what was removed for it. -/
theorem State.writeRec_noRoom {s : State} {v : Sev} {src : Nat} {st : Option Status} {ev : Nat} {pl : List Word} {g : List Rec}
    (hrun : s.evr.running = true) (hv : v.code ≤ 4)
    (hg : makeRoom (evrOnChip + s.evr.ext) s.evr.wr (16 + 4 * pl.length) v s.evr.general = (g, false)) :
    s.writeRec v src st ev pl = ({ s with evr := { s.evr with general := g } }.dropRec v, false) := by
  have hv' : ¬ 6 ≤ v.code := by omega
  simp only [State.writeRec, hrun, Bool.not_true, Bool.false_eq_true, if_false, hv', Rec.bytes, hg]

theorem State.evrWrite_asks {s : State} {d : Desc} {v : Sev} (hb : d.byte 4 = 0xFF) (hst : s.inStates stSAYML = true)
    (hv : v.code = d.byte 8) (h4 : v.code ≤ 4) (hz : d.unlistedZero [8, 9, 12, 13, 14, 15, 16, 17] = true)
    (hn : d.half 16 % 4 = 0) (hmax : d.half 16 ≤ 1008) (hw : s.inWindow (d.word 3).toNat (d.half 16) = true)
    {t : State} {ok : Bool}
    (ha : s.postAsk v 0x7F none (d.byte 9) (toWords (s.readWin (d.word 3).toNat (d.half 16))) = (t, ok)) :
    s.evrWrite d = if ok then t.complete d .ok (b4 := s.evr.next) else t.complete d .noRoom := by
  have hrest : ¬ (d.half 16 % 4 ≠ 0 ∨ 1008 < d.half 16 ∨ (!s.inWindow (d.word 3).toNat (d.half 16)) = true) := by
    simp [hn, hw]
    omega
  have hz' : ¬ (!d.unlistedZero [8, 9, 12, 13, 14, 15, 16, 17]) = true := by simp [hz]
  cases v <;> simp only [Sev.code] at hv h4
  case critical | alarm | audit => omega
  all_goals
    simp only [State.evrWrite, State.command_runs hb hst, ← hv]
    rw [if_neg hz', if_neg hrest, ha]
    cases ok <;> rfl

/-- What EVR_WRITE does, by whether R408 makes room for its record. -/
theorem State.evrWrite_spec {s : State} {d : Desc} {v : Sev} (hb : d.byte 4 = 0xFF) (hst : s.inStates stSAYML = true)
    (hv : v.code = d.byte 8) (h4 : v.code ≤ 4) (hz : d.unlistedZero [8, 9, 12, 13, 14, 15, 16, 17] = true)
    (hn : d.half 16 % 4 = 0) (hmax : d.half 16 ≤ 1008) (hw : s.inWindow (d.word 3).toNat (d.half 16) = true)
    (hrun : s.evr.running = true) (hexp : bit (s.reg Reg.EVR_CTRL) 3 = false) :
    (∀ g, makeRoom (evrOnChip + s.evr.ext) s.evr.wr (16 + 4 * (toWords (s.readWin (d.word 3).toNat (d.half 16))).length) v
        s.evr.general = (g, true) →
      (s.evrWrite d).hif.held = s.hif.held ++ [{ tag := d.tag, status := .ok, b4 := s.evr.next }] ∧
        (s.evrWrite d).evr.next = s.evr.next + 1 ∧ (s.evrWrite d).evr.newest = s.evr.next ∧
        (s.evrWrite d).evr.general.length = g.length + 1 ∧ (s.evrWrite d).evr.reserved = s.evr.reserved ∧
        ∃ r ∈ (s.evrWrite d).evr.general, r.seq = s.evr.next ∧ r.sev = v ∧ r.source = 0x7F ∧
          r.event = BitVec.ofNat 8 (d.byte 9) ∧ r.payload = toWords (s.readWin (d.word 3).toNat (d.half 16))) ∧
    (∀ g, makeRoom (evrOnChip + s.evr.ext) s.evr.wr (16 + 4 * (toWords (s.readWin (d.word 3).toNat (d.half 16))).length) v
        s.evr.general = (g, false) →
      (s.evrWrite d).hif.held = s.hif.held ++ [{ tag := d.tag, status := .noRoom }] ∧
        (s.evrWrite d).evr = { s.evr with general := g }) := by
  refine ⟨fun g hg => ?_, fun g hg => ?_⟩
  · obtain ⟨t, o, n, w, ht, hte⟩ := State.writeRec_room (src := 0x7F) (st := none) (ev := d.byte 9) hrun h4 hg
    rw [State.evrWrite_asks hb hst hv h4 hz hn hmax hw ((State.postAsk_of_noExport hexp ..).trans ht), if_pos rfl, hte]
    refine ⟨rfl, rfl, rfl, ?_, rfl, _, List.mem_append_right _ (List.mem_singleton_self _), rfl, rfl, rfl, rfl, rfl⟩
    rw [State.complete_evr, List.length_append, addSkip_length]
    rfl
  · rw [State.evrWrite_asks hb hst hv h4 hz hn hmax hw ((State.postAsk_of_noExport hexp ..).trans
      (State.writeRec_noRoom (src := 0x7F) (st := none) (ev := d.byte 9) hrun h4 hg)), if_neg (by decide)]
    refine ⟨?_, ?_⟩
    · rw [State.complete_held, State.dropRec, State.bump_hif]
    · rw [State.complete_evr, State.dropRec, State.bump_evr]

/-! ### The clear -/

/-- An AUDIT record of a log just emptied is its one record (R413). -/
theorem State.writeRec_audit {s : State} {src ev : Nat} {pl : List Word} (hrun : s.evr.running = true)
    (hr : s.evr.reserved = []) (hl : pl.length ≤ 16380) :
    s.writeRec .audit src none ev pl = ({ s with evr := { s.evr with
      reserved := [{ s.newRec .audit src none ev pl with occ := 16 + 4 * pl.length }], newest := s.evr.next,
      next := s.evr.next + 1 } }, true) := by
  have hroom : s.evr.rsvUsed + (16 + 4 * pl.length) ≤ evrReserved := by
    simp only [EvrSt.rsvUsed, hr, List.foldl_nil, evrReserved]
    omega
  simp [State.writeRec, hrun, Sev.code, Rec.bytes, hroom, hr, State.newRec]

/-- The records removed, for the record that says so: first and last SEQ, the clears so far and the drop counts. -/
def State.clearPayload (s : State) : List Word :=
  let first := match s.evr.all.head? with
    | some r => r.seq
    | none => Config.freeWord s.free
  [first, if s.evr.all.isEmpty then first else s.evr.newest, pw (s.regFld Reg.EVR_STATUS 15 0)] ++
    (List.range 8).map fun v => s.reg (Reg.EVR_DROP v)

/-- The emptied log takes the record of its clear. -/
theorem State.clear_recorded {s : State} {pl : List Word} (hrun : s.evr.running = true)
    (hexp : bit (s.reg Reg.EVR_CTRL) 3 = false) (hl : pl.length ≤ 16380) :
    (({ s with evr := { s.evr with general := [], reserved := [], rsvFull := false } } : State).postAsk .audit 0x14 none 1 pl).1 =
      { s with evr := { s.evr with
        general := [], rsvFull := false, newest := s.evr.next, next := s.evr.next + 1,
        reserved := [{ s.newRec .audit 0x14 none 1 pl with occ := 16 + 4 * pl.length }] } } := by
  refine (congrArg Prod.fst (State.postAsk_of_noExport ?_ ..)).trans ?_
  · exact hexp
  · exact congrArg Prod.fst (State.writeRec_audit (s := { s with evr := { s.evr with
      general := [], reserved := [], rsvFull := false } }) hrun rfl hl)

/-- The log and the counts as a clear leaves them, before its completion. -/
theorem State.evrClear_clears {s : State} {d : Desc} (hb : d.byte 4 = 0xFF) (hst : s.inStates stSAYML = true)
    (hz : d.unlistedZero [8, 9, 10, 11] = true) (hw : s.inWindow (d.word 2).toNat 160 = true) (h4 : (d.word 2).toNat % 4 = 0)
    (hrun : s.evr.running = true) (hexp : bit (s.reg Reg.EVR_CTRL) 3 = false)
    (hok : s.clearTokenOk (s.readWin (d.word 2).toNat 160) = true) :
    ∃ u : State, Keeps [.evr, .free] s u ∧ u.evr = { s.evr with
        general := [], rsvFull := false, newest := s.evr.next, next := s.evr.next + 1,
        reserved := [{ s.newRec .audit 0x14 none 1 s.clearPayload with occ := 16 + 4 * s.clearPayload.length }] } ∧
      s.evrClear d = (((List.range 8).foldl (fun (s : State) v => s.setReg (Reg.EVR_DROP v) 0) u).setFld Reg.EVR_STATUS 15 0
        ((s.regFld Reg.EVR_STATUS 15 0 + 1) % 65536)).complete d .ok := by
  have hlen : ∀ a b c : Word, ([a, b, c] ++ (List.range 8).map fun v => s.reg (Reg.EVR_DROP v)).length ≤ 16380 := by simp
  simp only [State.evrClear, State.command_runs hb hst]
  rw [if_neg (by simp [hz]), if_neg (by simp [hw, h4]), if_neg (by simp [hok])]
  cases h : s.evr.all.head? with
  | some r =>
    have hp : s.clearPayload = [r.seq, if s.evr.all.isEmpty then r.seq else s.evr.newest, pw (s.regFld Reg.EVR_STATUS 15 0)] ++
        (List.range 8).map fun v => s.reg (Reg.EVR_DROP v) := by simp only [State.clearPayload, h]
    simp only
    rw [State.clear_recorded hrun hexp (hlen ..), ← hp]
    exact ⟨_, Keeps.set_evr (by decide) (Keeps.refl s), rfl, rfl⟩
  | none =>
    have hp : s.clearPayload = [Config.freeWord s.free, if s.evr.all.isEmpty then Config.freeWord s.free else s.evr.newest,
        pw (s.regFld Reg.EVR_STATUS 15 0)] ++ (List.range 8).map fun v => s.reg (Reg.EVR_DROP v) := by
      simp only [State.clearPayload, h]
    simp only
    rw [State.clear_recorded (s := s.nextFree) hrun hexp (hlen ..), ← hp]
    exact ⟨_, Keeps.set_evr (by decide) (State.nextFree_keeps (.of rfl) (Keeps.refl s)), rfl, rfl⟩

theorem State.evrClear_refused {s : State} {d : Desc} (hb : d.byte 4 = 0xFF) (hst : s.inStates stSAYML = true)
    (hz : d.unlistedZero [8, 9, 10, 11] = true) (hw : s.inWindow (d.word 2).toNat 160 = true) (h4 : (d.word 2).toNat % 4 = 0)
    (hok : s.clearTokenOk (s.readWin (d.word 2).toNat 160) = false) : s.evrClear d = s.complete d .authFail := by
  simp only [State.evrClear, State.command_runs hb hst]
  rw [if_neg (by simp [hz]), if_neg (by simp [hw, h4]), if_pos (by simp [hok])]

theorem State.clearPayload_spec (s : State) : s.clearPayload.length = 11 ∧
    (∀ a ∈ s.evr.all.head?, s.clearPayload.take 2 = [a.seq, s.evr.newest]) ∧
    s.clearPayload.drop 2 = pw (s.regFld Reg.EVR_STATUS 15 0) :: (List.range 8).map fun v => s.reg (Reg.EVR_DROP v) := by
  refine ⟨by simp [State.clearPayload], fun a ha => ?_, by simp [State.clearPayload]⟩
  have hne : s.evr.all.isEmpty = false := by
    cases h : s.evr.all with
    | nil => simp [h] at ha
    | cons _ _ => rfl
  simp only [State.clearPayload, Option.mem_def.1 ha, hne, Bool.false_eq_true, if_false]
  rfl

/-- The log after a clear under a valid token, with the counts it starts anew (R413). -/
theorem State.evrClear_spec {s : State} {d : Desc} (htidy : s.tidy) (hb : d.byte 4 = 0xFF) (hst : s.inStates stSAYML = true)
    (hz : d.unlistedZero [8, 9, 10, 11] = true) (hw : s.inWindow (d.word 2).toNat 160 = true) (h4 : (d.word 2).toNat % 4 = 0)
    (hrun : s.evr.running = true) (hexp : bit (s.reg Reg.EVR_CTRL) 3 = false)
    (hok : s.clearTokenOk (s.readWin (d.word 2).toNat 160) = true) :
    let t := s.evrClear d
    t.evr.general = [] ∧ t.evr.rsvFull = false ∧ t.evr.next = s.evr.next + 1 ∧
      (∃ r : Rec, t.evr.reserved = [r] ∧ r.seq = s.evr.next ∧ r.sev = .audit ∧ r.payload.length = 11 ∧
        (∀ a ∈ s.evr.all.head?, r.payload.take 2 = [a.seq, s.evr.newest]) ∧
        r.payload.drop 2 = pw (s.regFld Reg.EVR_STATUS 15 0) :: (List.range 8).map fun v => s.reg (Reg.EVR_DROP v)) ∧
      (∀ v : Nat, v < 8 → t.reg (Reg.EVR_DROP v) = 0) ∧
      t.regFld Reg.EVR_STATUS 15 0 = (s.regFld Reg.EVR_STATUS 15 0 + 1) % 65536 ∧
      t.hif.held = s.hif.held ++ [{ tag := d.tag, status := .ok }] := by
  intro t
  obtain ⟨u, hk, hevr, hrunc⟩ := State.evrClear_clears hb hst hz hw h4 hrun hexp hok
  obtain ⟨hlen, htake, hdrop⟩ := s.clearPayload_spec
  have htu := hk.tidy htidy
  have hkf : Keeps [.regs] u ((List.range 8).foldl (fun (s : State) v => s.setReg (Reg.EVR_DROP v) 0) u) :=
    Keeps.foldl (fun t v ht => State.setReg_keeps (.of rfl) ht) (Keeps.refl u)
  have hdrops : ∀ v < 8, ((List.range 8).foldl (fun (s : State) v => s.setReg (Reg.EVR_DROP v) 0) u).reg (Reg.EVR_DROP v) = 0 :=
    fun v hv => by rw [State.foldl_setReg_reg 0 _ htu, if_pos (List.mem_map_of_mem (List.mem_range.2 hv))]
  have ht : t = _ := hrunc
  clear_value t
  generalize (List.range 8).foldl (fun (s : State) v => s.setReg (Reg.EVR_DROP v) 0) u = w at hkf hdrops ht
  have hwe : w.evr = u.evr := hkf.part .evr rfl
  have hwh : w.hif = s.hif := (hkf.part .hif rfl).trans (hk.part .hif rfl)
  have he : t.evr = u.evr := by rw [ht, State.complete_evr, State.setFld_evr, hwe]
  rw [he, hevr]
  refine ⟨rfl, rfl, rfl, ⟨_, rfl, rfl, rfl, hlen, htake, hdrop⟩, fun v hv => ?_, ?_, ?_⟩ <;> rw [ht]
  · rw [State.complete_reg, State.setFld_reg (by simp only [Reg.EVR_DROP, Reg.EVR_STATUS]; omega), hdrops v hv]
  · have hc : ∀ x : State, (x.complete d .ok).regFld Reg.EVR_STATUS 15 0 = x.regFld Reg.EVR_STATUS 15 0 := fun x => by
      simp only [State.regFld, State.complete_reg]
    rw [hc, State.regFld_setFld_same (hkf.tidy htu) (by decide)]
    exact Nat.mod_mod _ _
  · rw [State.complete_held, State.setFld_hif, hwh]

/-- Settles O37: the records copied, the record written, and the log that is cleared. -/
theorem recordsCommanded : Obligations.recordsCommanded := by
  refine fun s d htidy hb hst => ⟨fun l got hz hw h4 hl hg hne => ?_, fun v hv h4 hz hn hmax hw hrun hexp => ?_,
    fun hz hw h4 hrun hexp => ?_⟩
  · refine ⟨_, next_of (State.evrRead_copies hb hst hz hw h4 hl hg hne), State.complete_mem .., ?_,
      (State.complete_keeps (.of rfl) (State.writeWin_keeps (.of rfl) (Keeps.refl s))).onlyIn⟩
    rw [State.complete_held, State.writeWin, State.writeMem_hif]
  · obtain ⟨hroom, hnone⟩ := State.evrWrite_spec hb hst hv h4 hz hn hmax hw hrun hexp
    have hk := (State.evrWrite_keeps (.of rfl) (Keeps.refl s) : Keeps [.evr, .free, .hif, .outbox, .que, .regs] s (s.evrWrite d))
    refine ⟨_, rfl, ?_, ?_, hk.onlyIn⟩ <;>
      rcases hm : makeRoom (evrOnChip + s.evr.ext) s.evr.wr
        (16 + 4 * (toWords (s.readWin (d.word 3).toNat (d.half 16))).length) v s.evr.general with ⟨g, _ | _⟩
    · exact hnone g hm
    · obtain ⟨hheld, hnext, hnew, hlen, -, hr⟩ := hroom g hm
      exact ⟨hheld, hnext, hnew, hlen, hr⟩
    · exact (congrArg EvrSt.reserved (hnone g hm).2).trans rfl
    · obtain ⟨-, -, -, -, hres, -⟩ := hroom g hm
      exact hres
  · refine ⟨_, rfl, ?_, (State.evrClear_keeps (.of rfl) (Keeps.refl s)).onlyIn⟩
    split
    · next hok => exact State.evrClear_spec htidy hb hst hz hw h4 hrun hexp hok
    · next hok =>
      rw [State.evrClear_refused hb hst hz hw h4 (by simpa using hok)]
      exact ⟨rfl, rfl, rfl⟩

end Sys2Proof.Machine

/-! The truss commands (O38). -/

namespace Sys2Proof.Machine

/-- What comes into force with a truss (R62): the truss itself, its source and its status, and nothing else of the truss unit. -/
theorem State.applyTruss_truss (s : State) (src : TrussSource) (new : Truss) :
    (s.applyTruss src new).truss = { s.truss with loaded := true, source := src, truss := new, lastStatus := .ok } := by
  have hu : (s.abortSpans .aborted).truss = s.truss :=
    (State.abortSpans_keeps (.of rfl) (Keeps.refl s) : Keeps (Part.but .truss) _ _).part .truss rfl
  unfold State.applyTruss
  generalize s.abortSpans .aborted = u at hu ⊢
  extract_lets v old ext
  have h1 : ∀ r : State × Option (Word × Word), r = (v, none) ∨ r = v.dropExtension → r.1.truss = s.truss := by
    rintro r (rfl | rfl)
    · exact hu
    · exact ((State.dropExtension_keeps (.of rfl) (Keeps.refl u) : Keeps (Part.but .truss) u _).part .truss rfl).trans hu
  generalize hr : (ite ext (v, none) v.dropExtension) = r
  have h2 : r.1.truss = s.truss := h1 r (by by_cases hx : ext <;> simp [← hr, hx])
  clear hr h1
  obtain ⟨s1, gone⟩ := r
  simp -zeta only at h2 ⊢
  extract_lets s2 e s3 s4 s4' s5 s6 s7
  have hw : (((s1.reloadMemory old.params new.params).reloadTables old new).reloadQueues old new).truss = s.truss :=
    ((State.reloadQueues_keeps (.of rfl) (State.reloadTables_keeps (.of rfl) (State.reloadMemory_keeps (.of rfl)
      (Keeps.refl s1))) : Keeps (Part.but .truss) s1 _).part .truss rfl).trans h2
  have hs3 : s3.truss = { s.truss with loaded := true, source := src, truss := new, lastStatus := .ok } :=
    congrArg (fun t : TrussSt => { t with loaded := true, source := src, truss := new, lastStatus := .ok }) hw
  clear_value s3
  have h4 : Keeps (Part.but .truss) s3 s4 := State.setTime_keeps (.of rfl) (State.setReg_keeps (.of rfl) (Keeps.refl s3))
  have h5 : Keeps (Part.but .truss) s3 s5 := by
    have h4' : Keeps (Part.but .truss) s3 s4' := Keeps.ite h4 (State.newRole_keeps (.of rfl) h4)
    exact Keeps.ite h4' (State.calEmpty_keeps (.of rfl) h4')
  have h7 : Keeps (Part.but .truss) s3 s7 := post_keeps (.of rfl) (State.mrExtend_keeps (.of rfl)
    (State.noteDiscard_keeps (.of rfl) (State.assignRoles_keeps (.of rfl) h5)))
  clear_value s7
  exact ((Keeps.ite (State.sessionEnd_keeps (.of rfl) h7) h7 : Keeps (Part.but .truss) s3 _).part .truss rfl).trans hs3

/-- On entry to MAINTENANCE the state left is the one to resume (R61). -/
theorem State.enterMaintenance_sys (s : State) :
    s.enterMaintenance.sys.state = .maintenance ∧ s.enterMaintenance.sys.held = s.sys.state := by
  unfold State.enterMaintenance
  extract_lets x s1
  have h1 : s1.sys.state = .maintenance := State.enter_state ..
  have h1h : s1.sys.held = s.sys.state := by
    simp only [s1, State.enter]
    split
    · rfl
    · rw [State.raise_sys]
  clear_value s1
  have hk : Keeps (Part.but .sys) s1 s1.undecideSpans.claimsLate.stopPiers.maintenanceTime :=
    State.maintenanceTime_keeps (.of rfl) (State.stopPiers_keeps (.of rfl) (State.claimsLate_keeps (.of rfl)
      (State.undecideSpans_keeps (.of rfl) (Keeps.refl s1))))
  have hs := hk.part .sys rfl
  simp only [State.same] at hs
  generalize s1.undecideSpans.claimsLate.stopPiers.maintenanceTime = u at hs
  have hr : u.releaseIlk.settleAir.sys = u.releaseIlk.sys :=
    (State.settleAir_keeps (.of rfl) (Keeps.refl _) : Keeps (Part.but .sys) _ _).part .sys rfl
  rw [hr]
  exact ⟨(congrArg SysSt.state hs).trans h1, (congrArg SysSt.held hs).trans h1h⟩

section
variable {s : State} {d : Desc} {n : Nat} (hb : d.byte 4 = 0xFF) (hst : s.inStates stSAY = true)
  (hz : d.unlistedZero [8, 12, 13, 14, 15] = true)
  (hn : n = max 0xB8 (min 262144 (leAt (s.readWin (d.word 3).toNat 16) 8 4)))
  (hw : d.byte 8 = 0 ∨ d.byte 8 = 1 ∧ (d.word 3).toNat % 4 = 0 ∧ s.inWindow (d.word 3).toNat n = true)
include hb hst hz hn hw

/-- A TRUSS_RELOAD in order begins at once, when no migration is under way (R60). -/
theorem State.trussReload_begins (hm : s.tbl.migration = none) : ∃ (src : TrussSource) (bs : List Byte),
    (d.byte 8 = 0 → bs = s.bankTrussBytes s.boot.bank) ∧ (d.byte 8 = 1 → bs = s.readWin (d.word 3).toNat n) ∧
    s.trussReload d = (s.enterMaintenance).setTruss fun t => { t with reload := some (d, src, bs) } := by
  have hrun : s.trussReload d = _ := State.command_runs hb hst
  simp only [← hn, hz, hm, State.afterMigration] at hrun
  obtain h0 | ⟨h1, h4, hw⟩ := hw
  · refine ⟨if s.boot.bank = 0 then .bankA else .bankB, s.bankTrussBytes s.boot.bank, fun _ => rfl, fun h => by omega, ?_⟩
    simpa [h0] using hrun
  · refine ⟨.window, _, fun h => by omega, fun _ => rfl, ?_⟩
    simpa [h1, h4, hw] using hrun

/-- Under a migration it waits for its end (R245). -/
theorem State.trussReload_waits {m : Migration} (hm : s.tbl.migration = some m) :
    s.trussReload d = { s with tbl := { s.tbl with migration := some { m with deferred := m.deferred ++ [d] } } } := by
  have hrun : s.trussReload d = _ := State.command_runs hb hst
  simp only [← hn, hz, hm, State.afterMigration] at hrun
  obtain h0 | ⟨h1, h4, hw⟩ := hw
  · simpa [h0] using hrun
  · simpa [h1, h4, hw] using hrun

end

section
variable {s : State} {i : U64} {d : Desc} {src : TrussSource} {bs : List Byte} (hr : s.truss.reload = some (d, src, bs))
include hr

/-- A truss refused leaves the old one in force, and says why (R62). -/
theorem State.trussReloadComplete_error {r : Refused} (hv : verifyTruss (s.at_ i) bs = .error r) :
    (s.trussReloadComplete i).truss = { s.truss with reload := none, resume := true, lastStatus := r.reason.status } ∧
      (s.trussReloadComplete i).hif.held = s.hif.held ++ [{ tag := d.tag, status := r.reason.status }] ∧
      Keeps [.hif, .regs, .time, .truss] s (s.trussReloadComplete i) := by
  have hrun : s.trussReloadComplete i =
      (((s.at_ i).setTruss fun t => { t with reload := none, resume := true }).refuseTruss r).complete d r.reason.status := by
    simp only [State.trussReloadComplete, State.at__truss, hr, hv]
  have hk : Keeps [.regs, .time, .truss] s (((s.at_ i).setTruss fun t => { t with reload := none, resume := true }).refuseTruss r) :=
    State.refuseTruss_keeps (.of rfl) (State.setTruss_keeps (.of rfl) (State.at__keeps (.of rfl) (Keeps.refl s)))
  have ht : (((s.at_ i).setTruss fun t => { t with reload := none, resume := true }).refuseTruss r).truss =
      { s.truss with reload := none, resume := true, lastStatus := r.reason.status } :=
    congrArg (fun t : TrussSt => { t with reload := none, resume := true, lastStatus := r.reason.status }) (s.at__truss i)
  rw [hrun]
  generalize ((s.at_ i).setTruss fun t => { t with reload := none, resume := true }).refuseTruss r = u at hk ht
  refine ⟨(State.complete_truss ..).trans ht, ?_, State.complete_keeps (.of rfl) (hk.widen (.of rfl))⟩
  rw [State.complete_held]
  exact congrArg (fun h : HifSt => h.held ++ [{ tag := d.tag, status := r.reason.status }]) (hk.part .hif rfl)

/-- A truss that verifies is the one in force (R62). -/
theorem State.trussReloadComplete_ok {new : Truss} (hv : verifyTruss (s.at_ i) bs = .ok new) :
    (s.trussReloadComplete i).truss = { s.truss with
        reload := none, resume := true, loaded := true, source := src, truss := new, lastStatus := .ok } ∧
      ∃ l, (s.trussReloadComplete i).hif.held = l ++ [{ tag := d.tag, status := .ok }] := by
  have hrun : s.trussReloadComplete i =
      (((s.at_ i).setTruss fun t => { t with reload := none, resume := true }).applyTruss src new).complete d .ok := by
    simp only [State.trussReloadComplete, State.at__truss, hr, hv]
  rw [hrun]
  refine ⟨?_, _, State.complete_held ..⟩
  rw [State.complete_truss, State.applyTruss_truss]
  exact congrArg (fun t : TrussSt => { t with
    reload := none, resume := true, loaded := true, source := src, truss := new, lastStatus := .ok }) (s.at__truss i)

end

/-- The octets a TRUSS_READ asks for: the header, or the section of its type (R66). -/
theorem State.trussRead_of_item {s : State} {d : Desc} {bs : List Byte} (hb : d.byte 4 = 0xFF) (hst : s.inStates stSAYML = true)
    (hz : d.unlistedZero [8, 9, 12, 13, 14, 15, 16, 17, 18, 19] = true)
    (hi : d.half 8 = 0 ∧ bs = s.truss.truss.header ∨ d.half 8 ≠ 0 ∧ ∃ x, s.truss.truss.sections.find?
      (fun x => x.type = d.half 8) = some x ∧ bs = x.raw)
    (hw : s.inWindow (d.word 3).toNat (d.word 4).toNat = true) :
    s.trussRead d = if (d.word 4).toNat < bs.length then s.complete d .length
      else (s.writeWin (d.word 3).toNat bs).complete d .ok := by
  obtain ⟨h0, rfl⟩ | ⟨hne, x, hx, rfl⟩ := hi
  · simp [State.trussRead, State.command_runs hb hst, hz, h0, hw]
  · simp [State.trussRead, State.command_runs hb hst, hz, hne, hx, hw]

/-- Settles O38: the copy taken, the truss applied or refused, and the section read. -/
theorem trussCommands : Obligations.trussCommands := by
  refine ⟨fun s d n hb hst hm hz hn hw => ?_, fun s d m n hb hst hm hz hn hw => ?_, fun s i d src bs hr => ?_,
    fun s d bs hb hst hz hi hw => ?_⟩
  · obtain ⟨src, bs, h0, h1, hrun⟩ := State.trussReload_begins hb hst hz hn hw hm
    have ht : s.enterMaintenance.truss = s.truss :=
      (State.enterMaintenance_keeps (.of rfl) (Keeps.refl s) : Keeps (Part.but .truss) _ _).part .truss rfl
    obtain ⟨hmn, hheld⟩ := s.enterMaintenance_sys
    have hk : Keeps [.cal, .cip, .ctxs, .evr, .free, .hif, .outbox, .que, .red, .regs, .rf, .spanc, .sys, .tbl, .time, .tol,
      .truss] s s.enterMaintenance := State.enterMaintenance_keeps (.of rfl) (Keeps.refl s)
    generalize s.enterMaintenance = u at hrun ht hmn hheld hk
    exact ⟨_, next_of hrun, hmn, hheld, ⟨src, bs, congrArg (fun t : TrussSt => { t with reload := some (d, src, bs) }) ht, h0, h1⟩,
      (State.setTruss_keeps (.of rfl) hk).onlyIn⟩
  · exact ⟨_, next_of (State.trussReload_waits hb hst hz hn hw hm), rfl, (Keeps.set_tbl (by decide) (Keeps.refl s)).onlyIn⟩
  · refine ⟨_, rfl, ?_⟩
    cases hv : verifyTruss (s.at_ i) bs with
    | error r =>
      obtain ⟨htr, hheld, hk⟩ := State.trussReloadComplete_error hr hv
      exact ⟨congrArg TrussSt.reload htr, congrArg TrussSt.resume htr, ⟨(congrArg TrussSt.truss htr).trans rfl,
        (congrArg TrussSt.loaded htr).trans rfl, (congrArg TrussSt.source htr).trans rfl, congrArg TrussSt.lastStatus htr, hheld,
        hk.onlyIn⟩,
        (State.trussReloadComplete_keeps (.of rfl) (Keeps.refl s)).onlyIn⟩
    | ok new =>
      obtain ⟨htr, hheld⟩ := State.trussReloadComplete_ok hr hv
      exact ⟨congrArg TrussSt.reload htr, congrArg TrussSt.resume htr, ⟨congrArg TrussSt.truss htr, congrArg TrussSt.loaded htr,
        congrArg TrussSt.source htr, congrArg TrussSt.lastStatus htr, hheld⟩,
        (State.trussReloadComplete_keeps (.of rfl) (Keeps.refl s)).onlyIn⟩
  · refine ⟨_, next_of (State.trussRead_of_item hb hst hz hi hw), ?_, ?_⟩
    · split
      · exact ⟨rfl, rfl⟩
      · exact ⟨rfl, by rw [State.complete_held, State.writeWin, State.writeMem_hif]⟩
    · split
      · exact (State.complete_keeps (.of rfl) (Keeps.refl s)).onlyIn
      · exact (State.complete_keeps (.of rfl) (State.writeWin_keeps (.of rfl) (Keeps.refl s))).onlyIn

end Sys2Proof.Machine

/-! The parapet and the duty windows (O33). -/

namespace Sys2Proof.Machine

@[simp] theorem State.parEnd_par (s : State) (d : Desc) (st : Status) : (s.parEnd d st).par = s.par := by
  rw [State.parEnd, State.complete_par, State.setFld_par]

theorem State.parEnd_held (s : State) (d : Desc) (st : Status) :
    (s.parEnd d st).hif.held = s.hif.held ++ [{ tag := d.tag, status := st }] := by
  rw [State.parEnd, State.complete_held, State.setFld_hif]

/-- R166: an image of the right form in a free slot is judged by its signature and then by the truss. -/
theorem State.parProgram_judges {s : State} {d : Desc} (hb : d.byte 4 = 0xFF) (hst : s.sys.state = .structured)
    (hlc : s.key.lc = .provisioned) (hu : s.par.state = .unwritten) (hbn : s.par.burn = none) (hsd : s.par.sealDue = none)
    (hz : d.unlistedZero [8, 9, 10, 11] = true) (h4 : (d.word 2).toNat % 4 = 0)
    (hw : s.inWindow (d.word 2).toNat 2048 = true) (hfree : s.par.burned 0 = false ∨ s.par.burned 1 = false)
    (hok : parImageOk (s.readWin (d.word 2).toNat 2048) = true) :
    s.parProgram d = if !s.parSigOk (s.readWin (d.word 2).toNat 2048) then s.parEnd d .authFail
      else if !parapetOk s.tp (s.readWin (d.word 2).toNat 2048) then s.parEnd d .parapet
      else { s with par := { s.par with
        burn := some (d, s.readWin (d.word 2).toNat 2048, if s.par.burned 0 then 1 else 0) } } := by
  have hin : s.inStates [.structured] = true := by simp [State.inStates, hst]
  have hfull : ¬ (s.par.burned 0 && s.par.burned 1) = true := by
    obtain h | h := hfree <;> simp [h]
  simp only [State.parProgram, State.command_runs hb hin]
  rw [if_neg (by simp [hlc, hu, hbn, hsd]), if_neg (by simp [hz]), if_neg (by simp [h4, hw]), if_neg hfull,
    if_neg (by simp [hok])]

/-- The image as it stands in its slot after the burn, with its seal word (R167). -/
def sealedImage (img : List Byte) : List Byte := slice img 0 2044 ++ leBytes 0x5EA10C0D 4

theorem State.mrExtend_held (s : State) (n : Nat) (dig : List Byte) : (s.mrExtend n dig).hif.held = s.hif.held := by
  unfold State.mrExtend
  extract_lets s1 pl
  split
  · rfl
  · have h := State.postAsk_held s1 .audit 0x11 none 0 pl
    split <;> rename_i u e <;> rw [e] at h <;> exact h

@[simp] theorem State.mrExtend_par (s : State) (n : Nat) (dig : List Byte) : (s.mrExtend n dig).par = s.par :=
  (State.mrExtend_keeps (.of rfl) (Keeps.refl s) : Keeps (Part.but .par) _ _).part .par rfl

section
variable {s : State} {d : Desc} {img : List Byte} {n : Nat} (hburn : s.par.burn = some (d, img, n))
include hburn

/-- A burn that reads back is measured, recorded and to be sealed (R167, R355). -/
theorem State.parBurnComplete_sealed :
    (s.parBurnComplete (sealedImage img)).par = (if n = 0
        then { s.par with burn := none, slot0 := sealedImage img, sealDue := some 0 }
        else { s.par with burn := none, slot1 := sealedImage img, sealDue := some 1 }) ∧
      (s.parBurnComplete (sealedImage img)).hif.held = s.hif.held ++ [{ tag := d.tag, status := .ok }] := by
  have heq : (sealedImage img != slice img 0 2044 ++ leBytes 0x5EA10C0D 4) = false := by simp only [sealedImage, bne_self_eq_false]
  unfold State.parBurnComplete
  rw [hburn]
  simp -zeta only
  extract_lets img1 p s1 s2
  rw [heq, if_neg (by decide)]
  refine ⟨?_, ?_⟩
  · rw [State.parEnd_par, post_par, State.mrExtend_par]
    rfl
  · rw [State.parEnd_held, post_held, State.mrExtend_held]

/-- One that does not is torn, and ends INTEGRITY (R167). -/
theorem State.parBurnComplete_torn {read : List Byte} (hne : read ≠ slice img 0 2044 ++ leBytes 0x5EA10C0D 4) :
    s.parBurnComplete read = (s.parTornWith n (mismatched img read)).parEnd d .integrity := by
  simp only [State.parBurnComplete, hburn]
  rw [if_pos (by simpa using hne)]

end

theorem State.parRead_copies {s : State} {d : Desc} (hb : d.byte 4 = 0xFF)
    (hst : s.inStates [.boot, .structured, .active, .standby, .maintenance, .alarm] = true)
    (hz : d.unlistedZero [8, 9, 10, 11] = true) (h4 : (d.word 2).toNat % 4 = 0)
    (hw : s.inWindow (d.word 2).toNat 4096 = true) :
    s.parRead d = (s.writeWin (d.word 2).toNat s.par.region).complete d .ok := by
  simp only [State.parRead, State.command_runs hb hst]
  rw [if_neg (by simp [hz]), if_neg (by simp [h4, hw])]

/-- R174, R177: each window of duty and dwell moves by one bucket. -/
theorem State.dutyAdvance_moves {s : State} {i : U64} (hsec : (s.at_ i).now % 1000000000 = 0)
    (hage : s.par.bucketAt + 1000000000 ≤ (s.at_ i).time.elapsed) :
    s.dutyAdvance i = { s.at_ i with par := { s.par with
      duty := s.par.duty.map fun e => (e.1, (0 :: e.2).take ((readRanges s.parImage (e.1 / 16)).getD (e.1 % 16) {}).dutyWindow),
      dwell := s.par.dwell.map fun e =>
        (e.1, (0 :: e.2).take ((readRanges s.parImage (e.1 / 1024 / 16)).getD (e.1 / 1024 % 16) {}).dwellPeriod),
      dwellAge := min 60 (s.par.dwellAge + 1), bucketAt := (s.at_ i).time.elapsed } } := by
  have hp : (s.at_ i).par = s.par := s.at__par i
  have him : (s.at_ i).parImage = s.parImage := by simp only [State.parImage, hp]
  simp only [State.dutyAdvance, hp, him]
  rw [if_pos (by simpa [hsec] using hage)]

/-- Settles O33: the image judged, the burn that ends, the region read, and the windows moved. -/
theorem parapetAndDuty : Obligations.parapetAndDuty := by
  refine ⟨⟨fun s d hb hst hlc hu hbn hsd hz h4 hw hfree hok => ?_, fun s d img n hburn hn => ?_,
    fun s d img read n hburn hne => ?_, fun s d hb hst hz h4 hw => ?_⟩, fun s i hsec hage => ?_⟩
  · have hrun := State.parProgram_judges hb hst hlc hu hbn hsd hz h4 hw hfree hok
    refine ⟨_, next_of hrun, ?_, fun hsig hpar => ?_, fun hsig hpar => ?_, fun hsig => ?_⟩
    · exact (Keeps.ite (State.parEnd_keeps (.of rfl) (Keeps.refl s)) (Keeps.ite (State.parEnd_keeps (.of rfl) (Keeps.refl s))
        (Keeps.set_par (by decide) (Keeps.refl s)))).onlyIn
    · rw [hsig, hpar]
      exact ⟨rfl, rfl⟩
    · rw [hsig, hpar]
      exact ⟨State.parEnd_par .., State.parEnd_held ..⟩
    · rw [hsig]
      exact ⟨State.parEnd_par .., State.parEnd_held ..⟩
  · obtain ⟨hpar, hheld⟩ := State.parBurnComplete_sealed hburn
    refine ⟨s.parBurnComplete (sealedImage img), rfl, ?_, ?_, fun h0 => ?_, fun h1 => ?_, hheld,
      (State.parBurnComplete_keeps (.of rfl) (Keeps.refl s)).onlyIn⟩ <;> rw [hpar]
    · split <;> rfl
    · obtain rfl | rfl : n = 0 ∨ n = 1 := by omega
      · rfl
      · rfl
    · subst h0
      exact ⟨rfl, rfl⟩
    · subst h1
      exact ⟨rfl, rfl⟩
  · have hrun := State.parBurnComplete_torn hburn hne
    refine ⟨_, next_of hrun, ?_, ?_, ?_⟩
    · rw [State.parEnd_par, State.parTornWith]
      split <;> rfl
    · rw [State.parEnd_held, State.parTornWith]
      split <;> rfl
    · exact (State.parEnd_keeps (.of rfl) (State.parTornWith_keeps (.of rfl) (Keeps.refl s))).onlyIn
  · exact ⟨_, next_of (State.parRead_copies hb hst hz h4 hw), rfl, by rw [State.complete_held, State.writeWin, State.writeMem_hif],
      (State.complete_keeps (.of rfl) (State.writeWin_keeps (.of rfl) (Keeps.refl s))).onlyIn⟩
  · exact ⟨_, next_of (State.dutyAdvance_moves hsec hage), rfl, rfl, rfl, rfl, rfl,
      (Keeps.set_par (by decide) (State.at__keeps (.of rfl) (Keeps.refl s))).onlyIn⟩

end Sys2Proof.Machine

/-! The node contexts: read, updated, repaired and scrubbed (O24). -/

namespace Sys2Proof.Machine

theorem State.tidy.rising_ctxs {s : State} (h : s.tidy) : risingKeys s.ctxs = true := by
  obtain ⟨-, -, -, hc, -, -⟩ := h
  simp only [canonical, Bool.and_eq_true] at hc
  exact hc.1

theorem State.line_congr {s t : State} (h : t.ctxs = s.ctxs) (n : Nat) : t.line n = s.line n := by
  simp only [State.line, h]

/-- The check value of a line is not among the octets it is over. -/
theorem Ctx.body_of_lineCrc (c : Ctx) (w : Word) : { c with lineCrc := w }.body = c.body := rfl

theorem State.line_setCtx {s : State} (h : s.tidy) (n : Nat) (c : Ctx) :
    (s.setCtx n c).line n = { ctx := { c with lineCrc := lineCrc (s.ctxAddr n) c.body }, found := false } :=
  aget_aset_same h.rising_ctxs

theorem State.line_setCtx_of_ne (s : State) {n m : Nat} (h : m ≠ n) (c : Ctx) : (s.setCtx n c).line m = s.line m :=
  aget_aset_other h

/-- A failing line is found once: it is marked, and no other line changes (R21). -/
theorem State.lineFound_line {s : State} (h : s.tidy) (n : Nat) :
    ((s.lineFound n).line n).found = true ∧ ∀ m, m ≠ n → (s.lineFound n).line m = s.line m := by
  unfold State.lineFound
  split
  · next hf => exact ⟨hf, fun _ _ => rfl⟩
  · have hp : ∀ (u : State) m, (post u .error 0x0A (some .integrity) 0 [pw n]).line m = u.line m := fun u m =>
      State.line_congr (post_ctxs ..) m
    simp only [hp]
    exact ⟨congrArg CtxLine.found (aget_aset_same h.rising_ctxs), fun m hm => aget_aset_other hm⟩

theorem State.lineFound_held (s : State) (n : Nat) : (s.lineFound n).hif.held = s.hif.held := by
  unfold State.lineFound
  split
  · rfl
  · rw [post_held]

/-! ### Reading -/

section
variable {s : State} {d : Desc} (hb : d.byte 4 = 0xFF) (hst : s.inStates stSAYML = true)
  (hz : d.unlistedZero [8, 9, 10, 11, 12, 13, 14, 15] = true) (hn : s.ctxNidxOk (d.word 2).toNat = true)
  (h4 : (d.word 3).toNat % 4 = 0) (hw : s.inWindow (d.word 3).toNat 128 = true)
include hb hst hz hn h4 hw

theorem State.ctxRead_of_usable (hu : s.lineUsable (d.word 2).toNat = true) :
    s.ctxRead d = (s.writeWin (d.word 3).toNat (s.line (d.word 2).toNat).ctx.bytes).complete d .ok := by
  have hu' : ∀ o bs, (s.writeWin o bs).lineUsable (d.word 2).toNat = true := fun _ _ => hu
  simp only [State.ctxRead, State.command_runs hb hst]
  rw [if_neg (by simp [hz, hn]), if_neg (by simp [h4, hw])]
  simp only [State.fetchCtx, hu', if_true]

/-- A line that is not usable is copied as it stands, and found (R20, R21). -/
theorem State.ctxRead_of_failing (hu : s.lineUsable (d.word 2).toNat = false) :
    s.ctxRead d = (((s.writeWin (d.word 3).toNat (s.line (d.word 2).toNat).ctx.bytes).lineFound (d.word 2).toNat).bump
      (Reg.MAC_CNT 10)).complete d .integrity := by
  have hu' : ∀ o bs, (s.writeWin o bs).lineUsable (d.word 2).toNat = false := fun _ _ => hu
  simp only [State.ctxRead, State.command_runs hb hst]
  rw [if_neg (by simp [hz, hn]), if_neg (by simp [h4, hw])]
  simp only [State.fetchCtx, hu', Bool.false_eq_true, if_false]

end

/-! ### Updating and repairing -/

section
variable {s : State} {d : Desc} (hb : d.byte 4 = 0xFF) (hst : s.inStates stSAY = true)
  (hz : d.unlistedZero [8, 9, 10, 11, 12, 13, 14, 15, 16, 17, 18, 19] = true) (hn : s.ctxNidxOk (d.word 2).toNat = true)
  (h4 : (d.word 4).toNat % 4 = 0) (hw : s.inWindow (d.word 4).toNat 128 = true)
include hb hst hz hn h4 hw

theorem State.ctxUpdate_of_args : s.ctxUpdate d =
    if s.lineUsable (d.word 2).toNat then
      if bit (d.word 3) 31 then s.complete d .unsupported
      else (s.setCtx (d.word 2).toNat (applyUpdate (s.line (d.word 2).toNat).ctx (s.readWin (d.word 4).toNat 128)
        (d.word 3))).complete d .ok
    else if d.word 3 = 0xFFFFFFFF then s.repairLine d
    else (s.fetchCtx (d.word 2).toNat).1.complete d .integrity := by
  have ha : s.ctxArgs d = none := by
    simp only [State.ctxArgs]
    rw [if_neg (by simp [hz, hn]), if_neg (by simp [h4, hw])]
  simp only [State.ctxUpdate, State.command_runs hb hst, ha]

end

/-- A repaired line is the image, and is no longer failing (R21). -/
theorem State.repairLine_line {s : State} {d : Desc} (htidy : s.tidy) :
    ((s.repairLine d).line (d.word 2).toNat).ctx.body = (readCtx (s.readWin (d.word 4).toNat 128)).body ∧
      ((s.repairLine d).line (d.word 2).toNat).found = false ∧
      (∀ m, m ≠ (d.word 2).toNat → (s.repairLine d).line m = s.line m) ∧
      (s.repairLine d).hif.held = s.hif.held ++ [{ tag := d.tag, status := .ok }] := by
  have htl : (s.lineFound (d.word 2).toNat).tidy :=
    (State.lineFound_keeps (.of rfl) (Keeps.refl s) : Keeps (Part.but .sys) _ _).tidy htidy
  have hline : ∀ m, (s.repairLine d).line m =
      ((s.lineFound (d.word 2).toNat).setCtx (d.word 2).toNat (readCtx (s.readWin (d.word 4).toNat 128))).line m := fun m =>
    State.line_congr ((State.complete_ctxs ..).trans (post_ctxs ..)) m
  refine ⟨?_, ?_, fun m hm => ?_, ?_⟩
  · rw [hline, State.line_setCtx htl]
    exact Ctx.body_of_lineCrc _ _
  · rw [hline, State.line_setCtx htl]
  · rw [hline, State.line_setCtx_of_ne _ hm, (State.lineFound_line htidy _).2 m hm]
  · rw [State.repairLine, State.complete_held, post_held]
    exact congrArg (· ++ [{ tag := d.tag, status := .ok }]) (s.lineFound_held _)

/-! ### The scrub -/

/-- R343: the scrub moves on by RATE lines, and finds what it finds. -/
theorem State.contextScrub_moves {s : State} (hst : s.inStates stSAYM = true) (ht : s.tp.scrubTop ≠ 0)
    (hon : bit (s.reg Reg.CHK_SCRUB) 31 = true) :
    s.contextScrub.chk = { s.chk with scrubPos := (s.chk.scrubPos + s.regFld Reg.CHK_SCRUB 14 0) % s.tp.scrubTop } := by
  have hk : Keeps (Part.but .chk) s ((List.range (s.regFld Reg.CHK_SCRUB 14 0)).foldl
      (fun u i => u.scrubLine ((u.chk.scrubPos + i) % s.tp.scrubTop)) s) :=
    Keeps.foldl (fun u i hu => State.scrubLine_keeps (.of rfl) hu) (Keeps.refl s)
  have hchk := hk.part .chk rfl
  simp only [State.same] at hchk
  simp only [State.contextScrub]
  rw [if_neg (by simp [hst, ht, hon]), State.bumpBy_chk]
  simp only [hchk]

/-- Settles O24: the line copied, the words updated, the line repaired or not, and the scrub. -/
theorem contextCommands : Obligations.contextCommands := by
  refine ⟨fun s d hb hst hz hn h4 hw hu => ?_, fun s d htidy hb hst hz hn h4 hw hu => ?_,
    fun s d htidy hb hst hz hn h4 hw hu hm => ?_, fun s d htidy hb hst hz hn h4 hw hu hm => ?_,
    fun s d hb hst hz hn h4 hw hu hm => ?_, fun s hst ht hon => ?_⟩
  · exact ⟨_, next_of (State.ctxRead_of_usable hb hst hz hn h4 hw hu), State.complete_mem ..,
      by rw [State.complete_held, State.writeWin, State.writeMem_hif],
      (State.complete_keeps (.of rfl) (State.writeWin_keeps (.of rfl) (Keeps.refl s))).onlyIn⟩
  · have hkw : Keeps [.mem] s (s.writeWin (d.word 3).toNat (s.line (d.word 2).toNat).ctx.bytes) :=
      State.writeWin_keeps (.of rfl) (Keeps.refl s)
    have hhif : (s.writeWin (d.word 3).toNat (s.line (d.word 2).toNat).ctx.bytes).hif = s.hif := hkw.part .hif rfl
    refine ⟨_, next_of (State.ctxRead_of_failing hb hst hz hn h4 hw hu), ?_, ?_, ?_, ?_⟩
    · rw [State.complete_mem, State.bump_mem]
      exact (State.lineFound_keeps (.of rfl) (Keeps.refl _) : Keeps (Part.but .mem) _ _).part .mem rfl
    · rw [State.line_congr ((State.complete_ctxs ..).trans (State.bump_ctxs ..))]
      exact (State.lineFound_line (hkw.tidy htidy) _).1
    · rw [State.complete_held, State.bump_hif, State.lineFound_held, hhif]
    · exact (State.complete_keeps (.of rfl) (State.bump_keeps (.of rfl) (State.lineFound_keeps (.of rfl)
        (hkw.widen (.of rfl))))).onlyIn
  · have hrun := State.ctxUpdate_of_args hb hst hz hn h4 hw
    rw [if_pos hu, if_neg (by simp [hm])] at hrun
    refine ⟨_, next_of hrun, ?_, fun m hne => ?_, State.complete_held ..,
      (State.complete_keeps (.of rfl) (State.setCtx_keeps (.of rfl) (Keeps.refl s))).onlyIn⟩
    · rw [State.line_congr (State.complete_ctxs ..), State.line_setCtx htidy]
      exact Ctx.body_of_lineCrc _ _
    · rw [State.line_congr (State.complete_ctxs ..), State.line_setCtx_of_ne _ hne]
  · have hrun := State.ctxUpdate_of_args hb hst hz hn h4 hw
    rw [if_neg (by simp [hu]), if_pos hm] at hrun
    obtain ⟨hbody, hfound, hother, hheld⟩ := State.repairLine_line (d := d) htidy
    exact ⟨_, next_of hrun, hbody, hfound, hother, hheld, (State.repairLine_keeps (.of rfl) (Keeps.refl s)).onlyIn⟩
  · have hrun := State.ctxUpdate_of_args hb hst hz hn h4 hw
    rw [if_pos hu, if_pos hm] at hrun
    exact ⟨_, next_of hrun, rfl, (State.complete_keeps (.of rfl) (Keeps.refl s)).onlyIn⟩
  · have hk : Keeps [.chk, .ctxs, .evr, .free, .hif, .outbox, .que, .regs] s s.contextScrub :=
      State.contextScrub_keeps (.of rfl) (Keeps.refl s)
    have hchk := State.contextScrub_moves hst ht hon
    exact ⟨_, rfl, congrArg ChkSt.scrubPos hchk, (congrArg ChkSt.chans hchk).trans rfl, hk.part .key rfl, hk.onlyIn⟩

end Sys2Proof.Machine

/-! Cipher jobs submitted and dispatched (O21). -/

namespace Sys2Proof.Machine

/-- R324: a submission whose descriptor is in order is queued with the next number. -/
theorem State.cipSubmit_queues {s : State} {d : Desc} {j : CipJob} (hb : d.byte 4 = 0xFF) (hst : s.inStates stSAYM = true)
    (hz : d.unlistedZero [8, 9, 10, 11] = true) (hw : s.inWindow (d.word 2).toNat 64 = true) (h64 : (d.word 2).toNat % 64 = 0)
    (hj : parseJob s d (s.readWin (d.word 2).toNat 64) = .ok j) (hu : j.mode.unit ≠ 0 ∨ s.coresInService ≠ 0)
    (hq : s.queued .host < 128) : s.cipSubmit d = s.queueJob j := by
  simp only [State.cipSubmit]
  rw [if_neg (by simp [hb]), if_neg (by simp [hst]), if_neg (by simp [hz]), if_neg (by simp [hw, h64]), hj]
  simp only
  rw [if_neg (by rcases hu with h | h <;> simp [h]), if_neg (by omega)]

/-- R316: the unit has the job, its keys as they are at this instant, and the job has left the queue. -/
theorem State.startRun_runs {s : State} {u : Nat} {j : CipJob} {aged : Bool} (hu : u < s.cip.units.length) :
    (∃ r, ((s.startRun u j aged).unit u).run = some r ∧ r.job = j ∧ r.start = s.time.elapsed ∧ r.key = (s.slot j.slot).key) ∧
      ∀ k ∈ (s.startRun u j aged).cip.queue, k.id = j.id → k.again ≠ j.again := by
  unfold State.startRun
  extract_lets q s1 x s2
  have hcip : ∀ x : Bool, (if x = true then s2.bump (Reg.CIP_CNT 9) else s2).cip = s2.cip := fun x => by
    split
    · exact State.bump_cip ..
    · rfl
  rw [hcip, State.unit_congr (hcip aged)]
  refine ⟨⟨_, congrArg CipUnit.run (State.unit_setUnit (s := s1) hu _), rfl, rfl, rfl⟩, fun k hk => ?_⟩
  have hmem : k ∈ s.cip.queue.filter fun k => k.id != j.id || k.again != j.again := hk
  simp only [List.mem_filter, Bool.or_eq_true, bne_iff_ne, ne_eq] at hmem
  exact fun h => hmem.2.resolve_left fun hn => hn h

theorem State.cipherDispatch_starts {s : State} {i : U64} {u : Nat} {j : CipJob} {aged : Bool} {d : Desc}
    (hr : (s.at_ i).unitReady u = true) (hn : (s.at_ i).nextJob u = some (j, aged)) (ho : j.owner = .host d) :
    s.cipherDispatch i u = (s.at_ i).startRun u j aged := by
  simp only [State.cipherDispatch, hr, hn, ho, Bool.not_true, Bool.false_eq_true, if_false]

/-- Settles O21: the job queued, and the unit that takes it. -/
theorem cipherJobsStart : Obligations.cipherJobsStart := by
  refine ⟨fun s d j hb hst hz hw h64 hj hu hq => ?_, fun s i u j aged d hu hr hn ho => ?_⟩
  · exact ⟨_, next_of (State.cipSubmit_queues hb hst hz hw h64 hj hu hq), rfl, rfl,
      (State.queueJob_keeps (.of rfl) (Keeps.refl s)).onlyIn⟩
  · obtain ⟨⟨r, hrun, hjob, hstart, hkey⟩, hq⟩ :=
      State.startRun_runs (s := s.at_ i) (u := u) (j := j) (aged := aged) (by simpa using hu)
    have hslot : (s.at_ i).slot j.slot = s.slot j.slot := by simp only [State.slot, State.at__key]
    exact ⟨_, next_of (State.cipherDispatch_starts hr hn ho), ⟨r, hrun, hjob, hstart, hslot ▸ hkey⟩, hq,
      (State.startRun_keeps (.of rfl) (State.at__keeps (.of rfl) (Keeps.refl s))).onlyIn⟩

end Sys2Proof.Machine

/-! The deadline of an acknowledgement (O31). -/

namespace Sys2Proof.Machine

theorem State.rxFrame_id {s : State} {id : Nat} {f : RxFrame} (h : s.rxFrame id = some f) : f.id = id := by
  simpa using List.find?_some h

theorem State.rxFrame_congr {s t : State} (h : t.rf = s.rf) (id : Nat) : t.rxFrame id = s.rxFrame id := by
  simp only [State.rxFrame, h]

/-- A frame held is the one last set for its number. -/
theorem State.rxFrame_setFrame {s : State} {f g : RxFrame} (h : s.rxFrame f.id = some g) :
    (s.setFrame f).rxFrame f.id = some f := by
  have hfun : ((fun x : RxFrame => decide (x.id = f.id)) ∘ fun x => if x.id = f.id then f else x) =
      fun x => decide (x.id = f.id) := by
    funext x
    simp only [Function.comp_apply]
    split
    · simp_all
    · rfl
  change (s.rf.frames.map fun x => if x.id = f.id then f else x).find? (fun x => decide (x.id = f.id)) = some f
  have hs : s.rf.frames.find? (fun x => decide (x.id = f.id)) = some g := h
  rw [List.find?_map, hfun, hs]
  simp [State.rxFrame_id h]

/-- A frame in a learn hold is not delivered yet (R256). -/
theorem State.release_of_hold {s : State} {id : Nat} {f : RxFrame} (h : s.rxFrame id = some f) (hh : f.inHold = true) :
    s.release id = s := by
  simp only [State.release, h, hh, Bool.or_true, if_true]

theorem State.settleAck_of_hold {s : State} {f : RxFrame} {acked noack capture : Bool} (h : s.rxFrame f.id = some f)
    (hs : f.settled = false) (hh : f.inHold = true) :
    s.settleAck f.id acked noack capture = s.setFrame { f with
      settled := true, acked := acked, noack := noack && !f.late, capture := capture, stage := .done, ackClaim := none } := by
  have hrel := State.rxFrame_setFrame (f := { f with
    settled := true, acked := acked, noack := noack && !f.late, capture := capture, stage := .done, ackClaim := none }) h
  simp only [State.settleAck, h, hs, Bool.false_eq_true, if_false]
  exact State.release_of_hold hrel hh

theorem State.claim_id {s : State} {id : Nat} {c : Claim} (h : s.claim id = some c) : c.id = id := by
  simpa using List.find?_some h

section
variable {s : State} {i : U64} {fid : Nat} {f : RxFrame} (hf : (s.at_ i).rxFrame fid = some f)
  (hd : f.ackDue ≤ (s.at_ i).now) (ho : f.owes = true)
include hf hd ho

/-- A frame still in its checks is late: its chain is given up (R111). -/
theorem State.ackCheckDeadline_late {cid : Nat} (hst : f.stage = .arrived ∨ f.stage = .checking) (hl : f.late = false)
    (hc : f.ackClaim = some cid) :
    s.ackCheckDeadline i fid = ((((s.at_ i).dropClaim cid).setFrame { f with ackClaim := none }).setFrame
      { f with late := true, ackClaim := none }).countLate 3 := by
  simp only [State.ackCheckDeadline, hf]
  rw [if_neg (Nat.not_lt.2 hd), if_neg (by simp [ho]), if_pos (by simpa using hst), if_neg (by simp [hl])]
  simp only [State.releaseAck, hc]

variable (hp : f.stage = .passed)
include hp

/-- A frame that passed, with nothing against its acknowledgement, is given its chain (R109). -/
theorem State.ackCheckDeadline_grants {cid : Nat} {c : Claim} (hc : f.ackClaim = some cid) (hcl : (s.at_ i).claim cid = some c)
    (hlr : (s.at_ i).laterReception f f.ackAt = false) (hrv : (s.at_ i).rivalHolds f = false)
    (hgv : (s.at_ i).ackGiven f = false) :
    s.ackCheckDeadline i fid = (((s.at_ i).setClaim { c with psdu := some f.ackPsdu, len := f.ackPsdu.length }).setFrame
      { f with stage := .acking }).setRf fun r => { r with acks := r.acks ++ [(f.band, f.channel, f.slotStart)] } := by
  simp only [State.ackCheckDeadline, hf]
  rw [if_neg (Nat.not_lt.2 hd), if_neg (by simp [ho]), if_neg (by simp [hp]), if_neg (by simp [hp]),
    if_neg (by simp [hlr, hrv, hgv])]
  simp only [State.ackGrant, hc, Option.bind_some, hcl]

/-- One that another frame has taken the place of goes without, and is counted (R110, R208). -/
theorem State.ackCheckDeadline_captured (hc : f.ackClaim = none) (hs : f.settled = false) (hdup : f.dup = false)
    (hhold : f.inHold = true)
    (hlost : (s.at_ i).laterReception f f.ackAt = true ∨ (s.at_ i).rivalHolds f = true ∨ (s.at_ i).ackGiven f = true) :
    s.ackCheckDeadline i fid = ((s.at_ i).bump (Reg.PIER_CNT f.band 10)).setFrame
      { f with settled := true, acked := false, noack := !f.late, capture := true, stage := .done, ackClaim := none } := by
  have hid := State.rxFrame_id hf
  have hfb : ((s.at_ i).bump (Reg.PIER_CNT f.band 10)).rxFrame f.id = some f := by
    rw [State.rxFrame_congr (State.bump_rf ..), hid, hf]
  simp only [State.ackCheckDeadline, hf]
  rw [if_neg (Nat.not_lt.2 hd), if_neg (by simp [ho]), if_neg (by simp [hp]), if_neg (by simp [hp]),
    if_pos (by simpa [or_assoc] using hlost)]
  have hdup' : ¬ f.dup = true := by simp [hdup]
  simp only [State.ackCaptured, hc, Option.bind_none]
  rw [if_neg hdup', State.settleAck_of_hold hfb hs hhold, Bool.true_and]

end

/-- Counting the same register of two tidy states that agree on it gives the same. -/
theorem State.bumpBy_reg_congr {s t : State} {a hi k : Nat} (hs : s.tidy) (ht : t.tidy) (h : t.reg a = s.reg a) :
    (t.bumpBy a hi k).reg a = (s.bumpBy a hi k).reg a := by
  simp only [State.bumpBy, State.setFld]
  rw [hs.reg_setReg, ht.reg_setReg, State.regFld, State.regFld, h]

/-- Settles O31: the chain given, the late frame, and the frame that goes without. -/
theorem acknowledgementGoes : Obligations.acknowledgementGoes := by
  intro s i fid f hf hd ho
  have hid := State.rxFrame_id hf
  have hrf : (s.at_ i).rf = s.rf := s.at__rf i
  refine ⟨fun cid c hp hc hcl hlr hrv hgv => ?_, fun cid htidy hstate hst hl hc => ?_, fun htidy hp hc hs hdup hhold hlost => ?_⟩
  · refine ⟨_, next_of (State.ackCheckDeadline_grants hf hd ho hp hc hcl hlr hrv hgv), ?_, ?_, ?_,
      (State.setRf_keeps (.of rfl) (State.setFrame_keeps (.of rfl) (State.setClaim_keeps (.of rfl)
        (State.at__keeps (.of rfl) (Keeps.refl s))))).onlyIn⟩
    · exact congrArg (fun r : RfSt => r.claims.map fun x => if x.id = c.id then
        { c with psdu := some f.ackPsdu, len := f.ackPsdu.length } else x) hrf
    · exact congrArg (fun r : RfSt => r.frames.map fun x => if x.id = f.id then { f with stage := .acking } else x) hrf
    · have hacks : (s.at_ i).rf.acks = s.rf.acks := congrArg RfSt.acks hrf
      rw [← hacks]
      rfl
  · have hrun := State.ackCheckDeadline_late hf hd ho hst hl hc
    generalize hu : (((s.at_ i).dropClaim cid).setFrame { f with ackClaim := none }).setFrame
      { f with late := true, ackClaim := none } = u at hrun
    have hk : Keeps [.time, .cip, .rf] s u := hu ▸ State.setFrame_keeps (.of rfl) (State.setFrame_keeps (.of rfl)
      (State.dropClaim_keeps (.of rfl) (State.at__keeps (.of rfl) (Keeps.refl s))))
    have hcount : u.countLate 3 = u.bump16 (Reg.TIME_LATE 3) := by
      have hin : u.inStates [.maintenance, .alarm] = false := by
        rw [State.inStates, show u.sys = s.sys from hk.part .sys rfl]
        exact hstate
      simp only [State.countLate, hin, Bool.false_eq_true, if_false]
    have hframe : u.rxFrame fid = some { f with late := true, ackClaim := none } := by
      have h1 : ((s.at_ i).dropClaim cid).rxFrame f.id = some f := by
        rw [hid]
        exact hf
      have h2 := State.rxFrame_setFrame (f := { f with ackClaim := none }) h1
      have h3 := State.rxFrame_setFrame (f := { f with late := true, ackClaim := none }) h2
      rw [← hid, ← hu]
      exact h3
    have hclaims : u.rf.claims = s.rf.claims.filter fun c => c.id != cid := by
      rw [← hu]
      exact congrArg (fun r : RfSt => r.claims.filter fun c => c.id != cid) hrf
    have hreg : u.reg (Reg.TIME_LATE 3) = s.reg (Reg.TIME_LATE 3) := by
      simp only [State.reg, show u.regs = s.regs from hk.part .regs rfl]
    rw [hcount] at hrun
    refine ⟨_, next_of hrun, ?_, ?_, ?_, (State.bump16_keeps (.of rfl) (hk.widen (.of rfl))).onlyIn⟩
    · rw [State.bump16_rf, hclaims]
    · rw [State.rxFrame_congr (State.bump16_rf ..), hframe]
    · exact State.bumpBy_reg_congr htidy (hk.tidy htidy) hreg
  · have hrun := State.ackCheckDeadline_captured hf hd ho hp hc hs hdup hhold hlost
    refine ⟨_, next_of hrun, ?_, ?_, (State.setFrame_keeps (.of rfl) (State.bump_keeps (.of rfl)
      (State.at__keeps (.of rfl) (Keeps.refl s)))).onlyIn⟩
    · have hfb : ((s.at_ i).bump (Reg.PIER_CNT f.band 10)).rxFrame f.id = some f := by
        rw [State.rxFrame_congr (State.bump_rf ..), hid, hf]
      rw [← hid]
      exact State.rxFrame_setFrame (f := { f with
        settled := true, acked := false, noack := !f.late, capture := true, stage := .done, ackClaim := none }) hfb
    · exact State.bump_reg_congr htidy (htidy.at_ i) (State.at__reg ..)

end Sys2Proof.Machine

/-! The timers of the MAC: learn holds, reassembly, lifetimes and repetitions (O32). -/

namespace Sys2Proof.Machine

/-! ### A transmit descriptor that ends -/

theorem State.endClaim_descs (s : State) (c : Claim) : (s.endClaim c).rf.descs = s.rf.descs := rfl

/-- What the end of a descriptor leaves before its completion is held: the descriptors but it, and the host interface. -/
theorem State.txComplete_split (s : State) (x : TxDesc) (st : Status) : ∃ u : State,
    u.hif = s.hif ∧ u.rf.descs = s.rf.descs.filter (fun y => y.num != x.num) ∧
      s.txComplete x st = match x.ring with
        | some k => u.hold (x.completion st k)
        | none => u := by
  unfold State.txComplete
  extract_lets s1 s2 s3 q s3' s4
  refine ⟨s4, ?_, ?_, rfl⟩
  all_goals
    have h2 : Keeps [.que, .regs] s s2 := Keeps.ite (State.releaseFlood_keeps (.of rfl) (State.freeOwned_keeps (.of rfl) (Keeps.refl s)))
      (State.freeOwned_keeps (.of rfl) (Keeps.refl s))
    have h4 : Keeps [.cip, .rf] s3' s4 := Keeps.foldl (fun t c ht => State.endClaim_keeps (.of rfl) ht) (Keeps.refl _)
  · exact (h4.part .hif rfl).trans (h2.part .hif rfl)
  · have hfold : s4.rf.descs = s3'.rf.descs :=
      List.foldlRecOn (s3.rf.claims.filter fun c => c.kind = .cell x.num && c.undecided) (fun s c => State.endClaim s c)
        (motive := fun t => t.rf.descs = s3'.rf.descs) rfl fun t ht c _ => (t.endClaim_descs c).trans ht
    refine hfold.trans ?_
    exact congrArg (fun r : RfSt => r.descs.filter fun y => y.num != x.num) (h2.part .rf rfl)

theorem State.txComplete_descs (s : State) (x : TxDesc) (st : Status) :
    (s.txComplete x st).rf.descs = s.rf.descs.filter fun y => y.num != x.num := by
  obtain ⟨u, -, hd, hrun⟩ := s.txComplete_split x st
  rw [hrun]
  cases x.ring <;> exact hd

theorem State.txComplete_hif_of_none {s : State} {x : TxDesc} (st : Status) (h : x.ring = none) :
    (s.txComplete x st).hif = s.hif := by
  obtain ⟨u, hh, -, hrun⟩ := s.txComplete_split x st
  rw [hrun, h]
  exact hh

theorem State.txComplete_held {s : State} {x : TxDesc} {k : Nat} (st : Status) (h : x.ring = some k) :
    (s.txComplete x st).hif.held = s.hif.held ++ [x.completion st k] := by
  obtain ⟨u, hh, -, hrun⟩ := s.txComplete_split x st
  rw [hrun, h]
  exact congrArg (fun a : HifSt => a.held ++ [x.completion st k]) hh

theorem State.txDesc_num {s : State} {n : Nat} {x : TxDesc} (h : s.txDesc n = some x) : x.num = n := by
  simpa using List.find?_some h

theorem State.txDesc_congr {s t : State} (h : t.rf = s.rf) (n : Nat) : t.txDesc n = s.txDesc n := by
  simp only [State.txDesc, h]

theorem State.txComplete_gone (s : State) (x : TxDesc) (st : Status) : (s.txComplete x st).txDesc x.num = none := by
  simp only [State.txDesc, State.txComplete_descs, List.find?_eq_none, List.mem_filter]
  rintro y ⟨-, hy⟩
  simpa using hy

theorem State.txDesc_setDesc {s : State} {x y : TxDesc} (h : s.txDesc x.num = some y) : (s.setDesc x).txDesc x.num = some x := by
  have hfun : ((fun z : TxDesc => decide (z.num = x.num)) ∘ fun z => if z.num = x.num then x else z) =
      fun z => decide (z.num = x.num) := by
    funext z
    simp only [Function.comp_apply]
    split
    · simp_all
    · rfl
  change (s.rf.descs.map fun z => if z.num = x.num then x else z).find? (fun z => decide (z.num = x.num)) = some x
  have hs : s.rf.descs.find? (fun z => decide (z.num = x.num)) = some y := h
  rw [List.find?_map, hfun, hs]
  simp [State.txDesc_num h]

/-! ### Learn holds -/

theorem State.release_of_unsettled {s : State} {id : Nat} {f : RxFrame} (h : s.rxFrame id = some f) (hs : f.settled = false) :
    s.release id = s := by
  simp only [State.release, h, hs, Bool.not_false, Bool.true_or, if_true]

section
variable {s : State} {eui : U64} {h : Hold} (hh : s.tbl.holds.find? (fun h => h.eui = eui) = some h)
  (ht : h.openTick.toNat + s.tp.learnHold ≤ s.tick)
include hh ht

theorem State.learnHoldClose_empty (hf : (s.rf.frames.filter fun f => h.frames.contains f.id) = []) :
    s.learnHoldClose eui = { s with tbl := { s.tbl with holds := s.tbl.holds.filter fun x => x.eui != eui } } := by
  simp only [State.learnHoldClose, hh, hf]
  rw [if_neg (by omega)]
  rfl

/-- A closed hold with one frame learns its key, and the frame goes on (R256). -/
theorem State.learnHoldClose_one {f : RxFrame} (hf : (s.rf.frames.filter fun f => h.frames.contains f.id) = [f])
    (hrx : s.rxFrame f.id = some f) (hs : f.settled = false) :
    s.learnHoldClose eui = (({ s with tbl := { s.tbl with holds := s.tbl.holds.filter fun x => x.eui != eui } }).learnKey eui
        (BitVec.ofNat 18 (f.node.getD 0)) (f.band = 1) (BitVec.ofNat 6 f.pier)).setFrame { f with inHold := false } ∧
      (s.learnHoldClose eui).rxFrame f.id = some { f with inHold := false } := by
  generalize hu : ({ s with tbl := { s.tbl with holds := s.tbl.holds.filter fun x => x.eui != eui } } : State).learnKey eui
    (BitVec.ofNat 18 (f.node.getD 0)) (f.band = 1) (BitVec.ofNat 6 f.pier) = u
  have hk : Keeps (Part.but .rf) { s with tbl := { s.tbl with holds := s.tbl.holds.filter fun x => x.eui != eui } } u :=
    hu ▸ State.learnKey_keeps (.of rfl) (Keeps.refl _)
  have hux : u.rxFrame f.id = some f := (State.rxFrame_congr (hk.part .rf rfl) f.id).trans hrx
  have hset := State.rxFrame_setFrame (f := { f with inHold := false }) hux
  have hrun : s.learnHoldClose eui = u.setFrame { f with inHold := false } := by
    simp only [State.learnHoldClose, hh, hf]
    rw [if_neg (by omega)]
    simp only [earliestSfd, sfdOrder, List.foldl_cons, List.foldl_nil, List.filter_cons, List.filter_nil, bne_self_eq_false,
      Bool.false_and, Bool.false_eq_true, if_false, hu, hux]
    exact State.release_of_unsettled hset hs
  exact ⟨hrun, hrun ▸ hset⟩

end

/-! ### Lifetimes -/

/-- R222, R223: a descriptor whose lifetime is over ends with its last outcome, or TIMEOUT. -/
theorem State.lifetimeExpiry_ends {s : State} {n : Nat} {x : TxDesc} (hx : s.txDesc n = some x)
    (ht : x.fetchTick + x.lifetime ≤ s.tick) (hl : x.lifetime ≠ 0) :
    ∃ u : State, u.hif = s.hif ∧ s.lifetimeExpiry n = u.txComplete x (x.last.getD .timeout) := by
  simp only [State.lifetimeExpiry, hx]
  rw [if_neg (by omega)]
  refine ⟨_, ?_, rfl⟩
  exact (Keeps.ite (State.noteWait_keeps (.of rfl) (Keeps.refl s)) (State.updCtx_keeps (.of rfl)
    (State.noteWait_keeps (.of rfl) (Keeps.refl s))) : Keeps (Part.but .hif) s _).part .hif rfl

/-! ### Repetitions of a flood -/

/-- A repetition reads its fragments again from the oldest (R230): MARK and READ, the count of replays, and what is left. -/
def State.floodAgain (s : State) (x : TxDesc) : State :=
  let rq := s.queue x.rq
  let k := x.frags.length
  let s1 := s.setQueue x.rq { rq with mark := 0, read := k, readMax := max rq.readMax k }
  let s2 := if decide (k ≤ rq.readMax) then s1.bumpBy (Reg.QUE_CNT 5) 31 k else s1
  s2.setDesc { x with left := k }

/-- One fragment of a repetition joins the downlink queue, as long as each before it has. -/
def State.floodPut (x n : Nat) (a : State × Bool × Nat) (f : List Byte) : State × Bool × Nat :=
  if !a.2.1 then a
  else match a.1.enqueue x { len := f.length, bytes := f, owner := some ⟨n, a.2.2⟩ } with
    | (t, some _) => (t, true, a.2.2 + 1)
    | (t, none) => (t, false, a.2.2 + 1)

/-- A fragment that joins, or does not, leaves the descriptors. -/
theorem State.floodPut_rf (q n : Nat) (a : State × Bool × Nat) (f : List Byte) : (State.floodPut q n a f).1.rf = a.1.rf := by
  have hk : ∀ it, (a.1.enqueue q it).1.rf = a.1.rf := fun it =>
    (State.enqueue_keeps (.of rfl) (Keeps.refl a.1) : Keeps (Part.but .rf) _ _).part .rf rfl
  unfold State.floodPut
  split
  · rfl
  · have h := hk { len := f.length, bytes := f, owner := some ⟨n, a.2.2⟩ }
    split <;> rename_i e <;> rw [e] at h <;> exact h

theorem State.floodPuts_rf (q n : Nat) (l : List (List Byte)) (a : State × Bool × Nat) :
    (l.foldl (State.floodPut q n) a).1.rf = a.1.rf :=
  List.foldlRecOn l (State.floodPut q n) (motive := fun b => b.1.rf = a.1.rf) rfl
    fun b hb f _ => (State.floodPut_rf q n b f).trans hb

section
variable {s : State} {n : Nat} {x : TxDesc} {i : QItem} {rest : List QItem} (hx : s.txDesc n = some x)
  (hf : x.form = .flood) (hl : x.left = 0) (hr : x.reps ≠ 0) (hi : (s.queue x.rq).items = i :: rest)
  (ho : i.ownedBy n = true) (hc : (s.queue x.rq).consumer = 1) (hs : s.serving = true)
include hx hf hl hr hi ho hc hs

theorem State.floodRepetition_puts : s.floodRepetition n =
    if !((s.floodAgain x).queue x.queue).downlink then
      ((s.floodAgain x).bump (Reg.QUE_CNT 8)).txComplete { x with left := x.frags.length } .unsupported
    else
      let r := x.frags.foldl (State.floodPut x.queue n) (s.floodAgain x, true, 0)
      if r.2.1 then r.1 else r.1.txComplete { x with left := x.frags.length } .noRoom := by
  simp only [State.floodRepetition, hx]
  rw [if_neg (by rw [hi]; simp [hf, hl, hr, ho, hc, hs])]
  change (if !((s.floodAgain x).queue x.queue).downlink then
      ((s.floodAgain x).bump (Reg.QUE_CNT 8)).txComplete { x with left := x.frags.length } .unsupported else _) = _
  split
  · rfl
  · change (match x.frags.foldl (State.floodPut x.queue n) (s.floodAgain x, true, 0) with
      | (t, true, _) => t
      | (t, false, _) => t.txComplete { x with left := x.frags.length } .noRoom) = _
    generalize x.frags.foldl (State.floodPut x.queue n) (s.floodAgain x, true, 0) = r
    obtain ⟨t, ok, k⟩ := r
    cases ok <;> rfl

end

theorem State.floodAgain_txDesc {s : State} {n : Nat} {x : TxDesc} (hx : s.txDesc n = some x) :
    (s.floodAgain x).txDesc n = some { x with left := x.frags.length } := by
  have hnum := State.txDesc_num hx
  unfold State.floodAgain
  extract_lets rq k s1 s2
  have h1 : s2.txDesc x.num = some x := by
    rw [hnum]
    refine (State.txDesc_congr ?_ n).trans hx
    simp only [s2]
    split
    · exact State.bumpBy_rf ..
    · rfl
  have h2 := State.txDesc_setDesc (x := { x with left := k }) h1
  exact hnum ▸ h2

theorem State.floodAgain_queue {s : State} {x : TxDesc} (hne : x.queue ≠ x.rq) :
    (s.floodAgain x).queue x.queue = s.queue x.queue := by
  unfold State.floodAgain
  extract_lets rq k s1 s2
  have h1 : s1.queue x.queue = s.queue x.queue := State.queue_setQueue_of_ne hne _
  have h2 : s2.queue x.queue = s1.queue x.queue := by
    simp only [s2]
    split
    · exact State.queue_congr (State.bumpBy_que ..) _
    · rfl
  exact h2.trans h1

theorem State.floodAgain_hif (s : State) (x : TxDesc) : (s.floodAgain x).hif = s.hif := by
  unfold State.floodAgain
  extract_lets rq k s1 s2
  have h2 : Keeps [.que, .regs] s s2 := Keeps.ite (State.bumpBy_keeps (.of rfl) (State.setQueue_keeps (.of rfl) (Keeps.refl s)))
    (State.setQueue_keeps (.of rfl) (Keeps.refl s))
  exact h2.part .hif rfl

/-- Settles O32: the hold that closes, the reassembly and the descriptor that expire, and the repetition. -/
theorem timersOfTheMac : Obligations.timersOfTheMac := by
  refine ⟨fun s eui h hh ht hf => ?_, fun s eui h f hh ht hf hrx hs => ?_, fun s n x hx ht => ?_, fun s n x hx ht hl => ?_,
    fun s n x i rest hx hf hl hr hi ho hc hs hne => ?_⟩
  · exact ⟨_, next_of (State.learnHoldClose_empty hh ht hf), rfl, (Keeps.set_tbl (by decide) (Keeps.refl s)).onlyIn⟩
  · obtain ⟨hrun, hframe⟩ := State.learnHoldClose_one hh ht hf hrx hs
    refine ⟨_, rfl, hrun, hframe, ?_⟩
    rw [hrun]
    exact (State.setFrame_keeps (.of rfl) (State.learnKey_keeps (.of rfl) (Keeps.set_tbl (by decide) (Keeps.refl s)))).onlyIn
  · have hrun : s.reassemblyTimeout n = (s.dropReasm x).bump (Reg.MAC_CNT 17) := by
      simp only [State.reassemblyTimeout, hx, if_pos ht]
    refine ⟨_, next_of hrun, ?_, ?_, (State.bump_keeps (.of rfl) (State.dropReasm_keeps (.of rfl) (Keeps.refl s))).onlyIn⟩
    · rw [State.bump_rf]
      rfl
    · rw [State.bump_rf]
      rfl
  · obtain ⟨u, hu, hrun⟩ := State.lifetimeExpiry_ends hx ht hl
    have hnum := State.txDesc_num hx
    refine ⟨_, rfl, ?_, fun h => ?_, fun k h => ?_, (State.lifetimeExpiry_keeps (.of rfl) (Keeps.refl s)).onlyIn⟩ <;> rw [hrun]
    · exact hnum ▸ State.txComplete_gone ..
    · exact (State.txComplete_hif_of_none _ h).trans hu
    · exact (State.txComplete_held _ h).trans (congrArg (fun a : HifSt => a.held ++ _) hu)
  · have hrun := State.floodRepetition_puts hx hf hl hr hi ho hc hs
    have hnum := State.txDesc_num hx
    have hgone : ∀ (u : State) (st : Status), (u.txComplete { x with left := x.frags.length } st).txDesc n = none := fun u st =>
      hnum ▸ State.txComplete_gone u { x with left := x.frags.length } st
    have hputs := State.floodPuts_rf x.queue n x.frags (s.floodAgain x, true, 0)
    rw [State.floodAgain_queue hne] at hrun
    refine ⟨_, rfl, ?_, fun hd => ?_, fun b q u v m hfr hd hq hu hv => ?_,
      (State.floodRepetition_keeps (.of rfl) (Keeps.refl s)).onlyIn⟩ <;> rw [hrun]
    · split
      · exact .inl (hgone ..)
      · simp only
        split
        · exact .inr ⟨_, (State.txDesc_congr hputs n).trans (State.floodAgain_txDesc hx), rfl⟩
        · exact .inl (hgone ..)
    · rw [if_pos (by simp [hd])]
      refine ⟨hgone .., fun k hk => ?_⟩
      have hh : ((s.floodAgain x).bump (Reg.QUE_CNT 8)).hif = s.hif := by
        rw [State.bump_hif, State.floodAgain_hif]
      exact (State.txComplete_held (x := { x with left := x.frags.length }) .unsupported hk).trans
        (congrArg (fun a : HifSt => a.held ++ _) hh)
    · have hag : s.floodAgain x = u.setDesc { x with left := 1 } := by
        rw [hu, hq]
        simp only [State.floodAgain, hfr, List.length_singleton, decide_eq_true_eq]
      have hput : x.frags.foldl (State.floodPut x.queue n) (s.floodAgain x, true, 0) = (v, true, 1) := by
        rw [hfr, hag]
        simp only [List.foldl_cons, List.foldl_nil, State.floodPut, Bool.not_true, Bool.false_eq_true, if_false, hv]
      have hone : x.frags.length = 1 := by rw [hfr, List.length_singleton]
      have htx := State.floodAgain_txDesc hx
      rw [hput] at hputs
      rw [if_neg (by simp [hd]), hput]
      rw [hone] at htx
      exact ⟨rfl, (State.txDesc_congr hputs n).trans htx⟩

end Sys2Proof.Machine

/-! The redundant pair: heartbeats and the interlock (O47, O48). -/

namespace Sys2Proof.Machine

@[simp] theorem State.at__hbEnabled (s : State) (i : U64) (p : Nat) : (s.at_ i).hbEnabled p = s.hbEnabled p := by
  simp only [State.hbEnabled, State.at__reg]

@[simp] theorem State.at__beats (s : State) (i : U64) : (s.at_ i).beats = s.beats := by
  simp only [State.beats, State.pair, State.at__reg, State.at__inStates]

/-! ### Heartbeats -/

/-- A management message waits at its port when the port is up, after what waits there (R434). -/
theorem State.sendMgmt_out {s : State} {dst : List Byte} {msg : Nat} {body : List Byte} (h : s.ethUp 0 = true) :
    ∃ f, (s.sendMgmt 0 dst msg body).ethA.out = s.ethA.out ++ [f] ∧ ∃ h, f.bytes = h ++ body := by
  simp only [State.sendMgmt, h, if_true]
  refine ⟨_, rfl, ?_⟩
  simp only [State.ethOwn]
  exact ⟨_, (List.append_assoc _ _ _).symm⟩

/-- A heartbeat on the direct link, when it is enabled. -/
def State.hbOnLink (s : State) (b : List Byte) : State := if s.hbEnabled 0 then s.emit (.hbLink b) else s

/-- A heartbeat over Ethernet, when it is enabled there. -/
def State.hbOnEth (s : State) (b : List Byte) : State :=
  if s.hbEnabled 1 then s.sendMgmt 0 (macOctets (s.reg Reg.RED_PEER_MAC_LO) (s.reg Reg.RED_PEER_MAC_HI)) 0x10 b else s

theorem State.hbOnLink_keeps (s : State) (b : List Byte) : Keeps [.outbox] s (s.hbOnLink b) :=
  Keeps.ite (State.emit_keeps (.of rfl) (Keeps.refl s)) (Keeps.refl s)

theorem State.hbOnEth_keeps (s : State) (b : List Byte) : Keeps [.ethA] s (s.hbOnEth b) :=
  Keeps.ite (Keeps.ite (Keeps.set_ethA (by decide) (Keeps.refl s)) (Keeps.refl s)) (Keeps.refl s)

theorem State.hbOnLink_outbox (s : State) (b : List Byte) :
    (s.hbOnLink b).outbox = if s.hbEnabled 0 then s.outbox ++ [.hbLink b] else s.outbox := by
  unfold State.hbOnLink
  split <;> rfl

theorem State.hbOnEth_out {s : State} {b : List Byte} (h : s.hbEnabled 1 = true) (hup : s.ethUp 0 = true) :
    ∃ f, (s.hbOnEth b).ethA.out = s.ethA.out ++ [f] ∧ ∃ h, f.bytes = h ++ b := by
  rw [State.hbOnEth, if_pos h]
  exact State.sendMgmt_out hup

/-- R390: a heartbeat leaves on the paths enabled, and ALIVE advances. -/
theorem State.heartbeatSend_sends {s : State} {i : U64} (hb : s.beats = true)
    (hp : s.hbEnabled 0 = true ∨ s.hbEnabled 1 = true) :
    s.heartbeatSend i true = ((((s.at_ i).hbOnLink (s.at_ i).heartbeatBody).hbOnEth (s.at_ i).heartbeatBody).setRed
      fun r => { r with alive := r.alive + 1 }).bump (Reg.RED_CNT 0) := by
  have hgo : (!s.beats || !true || !(s.hbEnabled 0 || s.hbEnabled 1)) = false := by
    rw [hb, Bool.or_eq_true_iff.mpr hp]
    rfl
  have hreg (a : Nat) : ((s.at_ i).hbOnLink (s.at_ i).heartbeatBody).reg a = s.reg a := by
    unfold State.hbOnLink
    split <;> simp only [State.reg, State.emit_regs, State.at__regs]
  simp only [State.heartbeatSend, State.at__beats, State.at__hbEnabled, hgo, Bool.false_eq_true, if_false, State.hbOnEth, hreg,
    State.at__reg]
  simp only [State.hbEnabled, hreg]
  simp only [State.hbOnLink, State.hbEnabled, State.at__reg] <;> rfl

/-- What a valid heartbeat notes of the peer (R392). -/
def hbNoted (p : Nat) (b : List Byte) (tick : BitVec 48) (r : RedSt) : RedSt :=
  { r with
    hb0 := r.hb0 || p = 0, hb1 := r.hb1 || p = 1, peerHeld := bit (b.getD 1 0) 0, peerTick := some tick,
    standbyTick := if leAt b 2 1 % 16 = SysState.standby.code then some tick else r.standbyTick }

/-- The records of a heartbeat, and the phase it is given, leave the two words of the peer's UID. -/
theorem State.heartbeatValid_spec {s : State} (p : Nat) (b : List Byte) (hs : s.tidy) :
    (s.heartbeatValid p b).red = hbNoted p b s.time.tickno s.red ∧
      (s.heartbeatValid p b).reg Reg.RED_PEER_UID_LO = pw (leAt b 0x10 8) ∧
      (s.heartbeatValid p b).reg Reg.RED_PEER_UID_HI = pw (leAt b 0x10 8 / 2 ^ 32) := by
  unfold State.heartbeatValid
  extract_lets st uid diff clash w s1 s2 s3 s4
  have hpost {t : State} {c : Prop} [Decidable c] (v : Sev) (a : Nat) (h : noted a = false) :
      (if c then post t v 0x13 none 0 [] else t).reg a = t.reg a := by
    split
    · exact post_reg h
    · rfl
  have hphase (a : Nat) (h : a ≠ Reg.RED_PEER_PHASE) : s4.reg a = s3.reg a := by
    simp only [s4]
    split
    · exact reg_setReg_other h
    · rfl
  have h1 : Keeps [.evr, .hif, .que, .regs, .outbox, .free] s s1 :=
    State.setReg_keeps (.of rfl) (State.setReg_keeps (.of rfl) (State.setReg_keeps (.of rfl) (Keeps.refl s)))
  have h2 : Keeps [.evr, .hif, .que, .regs, .outbox, .free] s s2 := Keeps.ite (post_keeps (.of rfl) h1) h1
  have h3 : Keeps [.evr, .hif, .que, .regs, .outbox, .free] s s3 := Keeps.ite (post_keeps (.of rfl) h2) h2
  have h4 : Keeps [.evr, .hif, .que, .regs, .outbox, .free] s s4 := Keeps.ite (State.setReg_keeps (.of rfl) h3) h3
  have hreg (a : Nat) (hp : a ≠ Reg.RED_PEER_PHASE) (hn : noted a = false) (hst : a ≠ Reg.RED_STATUS) :
      s4.reg a = ((s.setReg Reg.RED_PEER_UID_LO (pw uid)).setReg Reg.RED_PEER_UID_HI (pw (uid / 2 ^ 32))).reg a :=
    (hphase a hp).trans ((hpost _ a hn).trans ((hpost _ a hn).trans (reg_setReg_other hst)))
  refine ⟨?_, ?_, ?_⟩
  · rw [State.setRed_red, show s4.red = s.red from h4.part .red rfl]
    rfl
  · exact (hreg _ (by decide) (by decide) (by decide)).trans ((reg_setReg_other (by decide)).trans (hs.reg_setReg _ _))
  · exact (hreg _ (by decide) (by decide) (by decide)).trans ((hs.setReg _ _).reg_setReg _ _)

/-! ### The takeover -/

theorem State.enter_sys (s : State) (x : SysState) : (s.enter x).sys = { s.sys with state := x } := by
  by_cases h : s.sys.state = x
  · rw [State.enter, if_pos h, ← h]
  · rw [State.enter, if_neg h]
    exact congrArg (fun y : SysSt => { y with state := x }) (State.raise_sys s 9)

/-- What a takeover leaves in the device's state, in the pair's and in the radio's (R393, R394). -/
structure TakenOver (s : State) (cause : Nat) (t : State) : Prop where
  sys : t.sys = { s.sys with state := .active, ilkOut := true }
  red : t.red = { s.red with
    outSince := s.time.elapsed, forced := cause = 2, recover := true, initDue := false,
    released := if cause = 1 then some s.time.elapsed else none }
  leap : t.rf.leap = true

/-- The records, the counter and the interrupt of a takeover touch none of what it leaves. -/
theorem TakenOver.keeps {s t z : State} {cause : Nat} (h : TakenOver s cause t)
    (hk : Keeps [.time, .evr, .hif, .que, .regs, .outbox, .free] t z) : TakenOver s cause z where
  sys := (hk.part .sys rfl).trans h.sys
  red := (hk.part .red rfl).trans h.red
  leap := (congrArg RfSt.leap (hk.part .rf rfl)).trans h.leap

theorem State.takeover_takenOver (s : State) (cause : Nat) : TakenOver s cause (s.takeover cause) := by
  unfold State.takeover
  extract_lets entered s1 s2 s3 s4
  have h : TakenOver s cause s1.startLeap :=
    ⟨congrArg (fun y : SysSt => { y with ilkOut := true }) (s.enter_sys .active),
      by simp only [s1, State.startLeap, State.setRf_red, State.setRed_red, State.assertIlk, State.enter_red, State.enter_time], rfl⟩
  have h2 : TakenOver s cause s2 := h.keeps (post_keeps (.of rfl) (Keeps.refl _))
  have h3 : TakenOver s cause s3 :=
    h2.keeps (State.setReg_keeps (.of rfl) (State.setReg_keeps (.of rfl) (State.setReg_keeps (.of rfl) (Keeps.refl _))))
  have h4 : TakenOver s cause s4 := h3.keeps (State.raise_keeps (.of rfl) (State.bump_keeps (.of rfl) (Keeps.refl _)))
  exact h4.keeps (Keeps.ite (State.holdoverAtEntry_keeps (.of rfl) (Keeps.refl _)) (Keeps.refl _))

/-! ### Beats heard and missed -/

/-- R391: a heartbeat of 32 octets, whole, of another device on this bridge and of this tick is judged by its ALIVE. -/
theorem State.heartbeatRx_valid {s : State} {i : U64} {p : Nat} {b : List Byte} (hb : s.beats = true) (hp : p < 2)
    (hl : b.length = 32) (hc : (crc 2 (b.take 28)).toNat = leAt b 0x1C 4) (hu : leAt b 0x10 8 ≠ s.key.uid.toNat)
    (hid : leAt b 3 1 = s.truss.truss.brId.toNat) (ht : leAt b 4 4 = s.tick % 2 ^ 32)
    (ha : ((s.at_ i).aliveCheck p (b.getD 0 0)).2 = true) :
    s.heartbeatRx i p b = ((s.at_ i).aliveCheck p (b.getD 0 0)).1.heartbeatValid p b := by
  simp only [State.heartbeatRx]
  rw [if_neg (by simp [hb]; omega), if_neg (by simp [hl, hc, hu, hid, ht]), if_pos ha]

/-- The runs of misses and their counters, after a tick that missed what `m0` and `m1` say (R392). -/
def State.missCounted (s : State) (m0 m1 : Bool) : State :=
  let s1 := s.setReg Reg.RED_MISS
    (missRun (missRun (missRun (s.reg Reg.RED_MISS) 7 0 m0) 15 8 m1) 23 16 (m0 && m1))
  let s2 := if m0 then s1.bump (Reg.RED_CNT 1) else s1
  if m1 then s2.bump (Reg.RED_CNT 2) else s2

theorem State.missCounted_keeps (s : State) (m0 m1 : Bool) : Keeps [.regs] s (s.missCounted m0 m1) := by
  have h1 := State.setReg_keeps (W := [.regs]) (addr := Reg.RED_MISS) (v := missRun (missRun (missRun (s.reg Reg.RED_MISS) 7 0 m0)
    15 8 m1) 23 16 (m0 && m1)) (.of rfl) (Keeps.refl s)
  have h2 := Keeps.ite (c := m0 = true) (State.bump_keeps (addr := Reg.RED_CNT 1) (.of rfl) h1) h1
  exact Keeps.ite (State.bump_keeps (.of rfl) h2) h2

/-- The miss judged, with its runs (R392). -/
def State.missJudged (s : State) (m0 m1 : Bool) (run : Nat) : State :=
  (s.missCounted m0 m1).setRed fun r => { r with
    bothRun := run, armRun := if s.sys.state = .standby && !(m0 && m1) then min 16 (r.armRun + 1) else 0 }

section
variable {s : State} {i : U64} {m0 m1 : Bool} {run : Nat} (hb : s.beats = true) (h0 : m0 = (!s.hbEnabled 0 || !s.red.hb0))
  (h1 : m1 = (!s.hbEnabled 1 || !s.red.hb1)) (hrun : run = if m0 && m1 then s.red.bothRun + 1 else 0)
include hb h0 h1 hrun

theorem State.heartbeatMiss_judges : s.heartbeatMiss i =
    if s.sys.state = .standby && s.red.armed && s.red.peerHeld && decide (3 ≤ run) then
      ((s.at_ i).missJudged m0 m1 run).takeover 2
    else if s.sys.state = .active && !s.heldOff && run % 3 = 0 && (m0 && m1) then
      post ((s.at_ i).missJudged m0 m1 run) .notice 0x13 none 0 []
    else (s.at_ i).missJudged m0 m1 run := by
  subst hrun h0 h1
  have hgo : (!s.beats) = false := by rw [hb]; rfl
  simp only [State.heartbeatMiss, State.at__beats, hgo, Bool.false_eq_true, if_false, State.missJudged, State.missCounted,
    State.at__hbEnabled, State.at__red, State.at__sys, State.at__heldOff]

/-- R394: the third tick in a row missed on both paths makes an armed standby whose peer held the interlock active. -/
theorem State.heartbeatMiss_takesOver
    (h : s.sys.state = .standby ∧ s.red.armed = true ∧ s.red.peerHeld = true ∧ 3 ≤ run) :
    s.heartbeatMiss i = ((s.at_ i).missJudged m0 m1 run).takeover 2 := by
  obtain ⟨hst, ha, hp, h3⟩ := h
  rw [State.heartbeatMiss_judges hb h0 h1 hrun, if_pos (by simp [hst, ha, hp, h3])]

theorem State.heartbeatMiss_keeps_rest
    (h : ¬ (s.sys.state = .standby ∧ s.red.armed = true ∧ s.red.peerHeld = true ∧ 3 ≤ run)) :
    Keeps [.evr, .hif, .que, .regs, .outbox, .free] ((s.at_ i).missJudged m0 m1 run) (s.heartbeatMiss i) := by
  rw [State.heartbeatMiss_judges hb h0 h1 hrun, if_neg (by simpa [and_assoc] using h)]
  exact Keeps.ite (post_keeps (.of rfl) (Keeps.refl _)) (Keeps.refl _)

end

theorem State.missJudged_red (s : State) (m0 m1 : Bool) (run : Nat) : (s.missJudged m0 m1 run).red = { s.red with
    bothRun := run, armRun := if s.sys.state = .standby && !(m0 && m1) then min 16 (s.red.armRun + 1) else 0 } := by
  rw [State.missJudged, State.setRed_red, show _ = s.red from (s.missCounted_keeps m0 m1).part .red rfl]

/-! ### The obligations -/

theorem State.heartbeatSend_spec {s : State} {i : U64} {b : List Byte} (hb : s.beats = true)
    (hp : s.hbEnabled 0 = true ∨ s.hbEnabled 1 = true) (hbody : b = (s.at_ i).heartbeatBody) :
    let t := s.heartbeatSend i true
    t.red = { s.red with alive := s.red.alive + 1 } ∧
      t.outbox = (if s.hbEnabled 0 then s.outbox ++ [.hbLink b] else s.outbox) ∧
      (s.hbEnabled 1 = true → s.ethUp 0 = true → ∃ f, t.ethA.out = s.ethA.out ++ [f] ∧ ∃ h, f.bytes = h ++ b) := by
  have hl := (s.at_ i).hbOnLink_keeps b
  have he := ((s.at_ i).hbOnLink b).hbOnEth_keeps b
  have hall : Keeps [.time, .outbox] s ((s.at_ i).hbOnLink b) :=
    (State.at__keeps (.of rfl) (Keeps.refl s)).comp (hl.widen (.of rfl))
  rw [State.heartbeatSend_sends hb hp, ← hbody]
  refine ⟨?_, ?_, fun h hup => ?_⟩
  · rw [State.bump_red, State.setRed_red, show _ = s.red from (he.part .red rfl).trans (hall.part .red rfl)]
  · rw [State.bump_outbox, State.setRed_outbox, show _ = _ from he.part .outbox rfl, State.hbOnLink_outbox, State.at__hbEnabled,
      State.at__outbox]
  · rw [State.bump_ethA, State.setRed_ethA, ← show _ = s.ethA from hall.part .ethA rfl]
    refine State.hbOnEth_out ?_ ?_
    · simpa only [State.hbEnabled, State.reg, show _ = s.regs from hall.part .regs rfl] using h
    · simpa only [State.ethUp, State.eth, State.reg, show _ = s.regs from hall.part .regs rfl,
        show _ = s.ethA from hall.part .ethA rfl, show _ = s.ethB from hall.part .ethB rfl] using hup

theorem State.aliveCheck_keeps_state (s : State) (p : Nat) (a : Byte) : Keeps [.chk, .regs] s (s.aliveCheck p a).1 :=
  State.aliveCheck_keeps (.of rfl) (Keeps.refl s)

/-- Settles O47: each event of the heartbeats by the lemma of what it sends, notes or judges, and the third miss by what every
takeover leaves. -/
theorem pairBeats : Obligations.pairBeats := by
  refine ⟨fun s i b hb hp hbody => ?_, fun s i p b hs hb hp hl hc hu hid ht ha => ?_, fun s i m0 m1 run hb h0 h1 hrun => ?_,
    fun s hst ha => next_of (if_pos (by simp [hst, ha]))⟩
  · obtain ⟨hred, hout, heth⟩ := State.heartbeatSend_spec hb hp hbody
    refine ⟨_, rfl, hred, hout, heth, ?_⟩
    rw [State.heartbeatSend_sends hb hp]
    exact (State.bump_keeps (.of rfl) (State.setRed_keeps (.of rfl)
      (((State.at__keeps (W := [.time, .red, .outbox, .ethA, .regs]) (.of rfl) (Keeps.refl s)).comp
        ((State.hbOnLink_keeps _ _).widen (.of rfl))).comp ((State.hbOnEth_keeps _ _).widen (.of rfl))))).onlyIn
  · have hk := (State.at__keeps (t := i) (W := [.time, .chk, .regs]) (.of rfl) (Keeps.refl s)).comp
      (((s.at_ i).aliveCheck_keeps_state p (b.getD 0 0)).widen (.of rfl))
    obtain ⟨hred, hlo, hhi⟩ := State.heartbeatValid_spec p b (hk.tidy hs)
    have htick : ((s.at_ i).aliveCheck p (b.getD 0 0)).1.time.tickno = s.time.tickno := by
      rw [show _ = (s.at_ i).time from ((s.at_ i).aliveCheck_keeps_state p (b.getD 0 0)).part .time rfl, State.at__time]
    rw [htick, show _ = s.red from hk.part .red rfl] at hred
    refine ⟨_, next_of (State.heartbeatRx_valid hb hp hl hc hu hid ht ha), ?_, ?_, ?_, ?_, fun h => ?_, hlo, hhi,
      (State.heartbeatValid_keeps (.of rfl) (hk.widen (.of rfl))).onlyIn⟩
    · rw [hred]; rfl
    · rw [hred]; rfl
    · rw [hred]; rfl
    · rw [hred]; rfl
    · rw [hred]
      exact if_pos h
  · have hu := ((s.at_ i).missJudged_red m0 m1 run)
    rw [State.at__red, State.at__sys] at hu
    have hsys : ((s.at_ i).missJudged m0 m1 run).sys = s.sys :=
      (show _ = (s.at_ i).sys from ((s.at_ i).missCounted_keeps m0 m1).part .sys rfl).trans (State.at__sys s i)
    have hrf : ((s.at_ i).missJudged m0 m1 run).rf = s.rf :=
      (show _ = (s.at_ i).rf from ((s.at_ i).missCounted_keeps m0 m1).part .rf rfl).trans (State.at__rf s i)
    have honly := (State.heartbeatMiss_keeps (t := i) (W := [.time, .sys, .red, .rf, .regs, .evr, .free, .hif, .outbox, .que])
      (.of rfl) (Keeps.refl s)).onlyIn
    by_cases h : s.sys.state = .standby ∧ s.red.armed = true ∧ s.red.peerHeld = true ∧ 3 ≤ run
    · obtain ⟨htsys, htred, hleap⟩ := State.takeover_takenOver ((s.at_ i).missJudged m0 m1 run) 2
      rw [← State.heartbeatMiss_takesOver hb h0 h1 hrun h] at htsys htred hleap
      rw [hu] at htred
      refine ⟨_, rfl, ?_, fun _ => ⟨?_, ?_, ?_, ?_, hleap⟩, fun hn => absurd h hn, honly⟩
      · rw [htred]
      · rw [htsys]
      · rw [htsys]
      · rw [htred]; rfl
      · rw [htred]
    · have hk := State.heartbeatMiss_keeps_rest (i := i) hb h0 h1 hrun h
      have hred := (show _ = ((s.at_ i).missJudged m0 m1 run).red from hk.part .red rfl).trans hu
      refine ⟨_, rfl, ?_, fun hn => absurd hn h, fun _ => ⟨?_, ?_, ?_⟩, honly⟩
      · rw [hred]
      · exact (show _ = ((s.at_ i).missJudged m0 m1 run).sys from hk.part .sys rfl).trans hsys
      · exact (show _ = ((s.at_ i).missJudged m0 m1 run).rf from hk.part .rf rfl).trans hrf
      · rw [hred]
        cases m0 <;> cases m1 <;> simp

/-! ### The interlock -/

/-- ILK_IN low, noted with its instant (R387). -/
def State.ilkCleared (s : State) : State :=
  ({ s with sys := { s.sys with ilkIn := false } }.setFld Reg.RED_STATUS 29 29 0).setRed fun r => { r with inClear := s.time.elapsed }

theorem State.at__standingBy (s : State) (i : U64) : (s.at_ i).standingBy = s.standingBy := by
  simp only [State.standingBy, State.at__heldOff, State.at__sys]

section
variable {s : State} {i : U64} (hin : s.sys.ilkIn = true)
include hin

theorem State.ilkInRelease_clears : s.ilkInRelease i =
    if s.standingBy then (s.at_ i).ilkCleared.takeover 1
    else if (s.at_ i).ilkCleared.red.recover && (s.at_ i).ilkCleared.red.released.isNone then
      (s.at_ i).ilkCleared.setRed fun r => { r with released := some (s.at_ i).time.elapsed }
    else (s.at_ i).ilkCleared := by
  have hgo : ¬ ((!(s.at_ i).sys.ilkIn) = true) := by simp [hin]
  rw [← State.at__standingBy s i]
  exact if_neg hgo

/-- R393: a chip in STANDBY takes over when ILK_IN falls. -/
theorem State.ilkInRelease_takesOver (h : s.standingBy = true) : TakenOver (s.at_ i).ilkCleared 1 (s.ilkInRelease i) := by
  rw [State.ilkInRelease_clears hin, if_pos h]
  exact State.takeover_takenOver _ _

theorem State.ilkInRelease_notes (h : s.standingBy = false) :
    (s.ilkInRelease i).sys = { s.sys with ilkIn := false } ∧ (s.ilkInRelease i).red.inClear = (s.at_ i).time.elapsed := by
  have hsys : (s.at_ i).ilkCleared.sys = { s.sys with ilkIn := false } := by
    simp only [State.ilkCleared, State.setRed_sys, State.setFld_sys, State.at__sys]
  rw [State.ilkInRelease_clears hin, if_neg (by simp [h])]
  split
  · exact ⟨hsys, rfl⟩
  · exact ⟨hsys, rfl⟩

end

/-- A chip that gives way has ILK_OUT released and its descriptors answered (R388). -/
theorem State.preempted_sys (s : State) : s.preempted.sys = { s.sys with ilkOut := false } := by
  unfold State.preempted
  extract_lets s1 s2 s3
  have hk : Keeps [.evr, .hif, .que, .cip, .rf, .regs, .outbox, .free] s1 s3 :=
    State.raise_keeps (.of rfl) (State.bump_keeps (.of rfl) (post_keeps (.of rfl) (Keeps.refl s1)))
  have h4 : Keeps [.evr, .hif, .que, .cip, .rf, .regs, .outbox, .free] s1 (if s.pair then s3.forgetDescs else s3) :=
    Keeps.ite (State.forgetDescs_keeps (.of rfl) hk) hk
  exact h4.part .sys rfl

/-- ILK_IN high, noted. -/
def State.ilkRaised (s : State) : State := { s with sys := { s.sys with ilkIn := true } }

section
variable {s : State} {i : U64} (hin : s.sys.ilkIn = false)
include hin

/-- R388: when ILK_IN rises, a chip that has held ILK_OUT for 1 µs, or that has the lower priority, releases it. -/
theorem State.ilkInActive_givesWay (hst : s.sys.state = .active) (hout : s.sys.ilkOut = true)
    (h : s.red.outSince + 1000 ≤ (s.at_ i).time.elapsed ∨ s.prio = false) :
    (s.ilkInActive i).sys = { s.sys with ilkIn := true, ilkOut := false } := by
  have h' : (s.at_ i).red.outSince + 1000 ≤ (s.at_ i).time.elapsed ∨ (!(s.at_ i).prio) = true := by
    simpa only [State.prio, State.at__reg, State.at__red, Bool.not_eq_true'] using h
  simp only [State.ilkInActive]
  rw [if_neg (by simp [hin]), if_pos (by simp [hst, hout]), if_pos h', State.preempted_sys,
    show _ = _ from (State.interlockLost_keeps (W := Part.but .sys) (.of rfl) (Keeps.refl _)).part .sys rfl, State.at__sys]

theorem State.ilkInActive_notes (h : s.sys.state ≠ .active ∨ s.sys.ilkOut = false) :
    s.ilkInActive i = if s.pair then (s.at_ i).ilkRaised.forgetDescs else (s.at_ i).ilkRaised := by
  have hgo : ¬ ((s.at_ i).sys.ilkIn = true) := by simp [hin]
  have hno : ¬ ((decide ((s.at_ i).sys.state = .active) && (s.at_ i).sys.ilkOut) = true) := by
    rw [State.at__sys]
    simpa [Decidable.imp_iff_not_or] using h
  rw [show s.pair = (s.at_ i).pair by simp only [State.pair, State.at__reg]]
  exact (if_neg hgo).trans (if_neg hno)

end

/-- R386: an interlock still held one tick after a forced assertion is marked stuck. -/
theorem State.stuckCheck_marks {s : State} {i : U64} (hst : s.sys.state = .active) (hout : s.sys.ilkOut = true)
    (hin : s.sys.ilkIn = true) (hf : s.red.forced = true) (ht : s.red.outSince + s.tickNs ≤ (s.at_ i).time.elapsed)
    (hb : bit (s.reg Reg.RED_STATUS) 29 = false) :
    s.stuckCheck i = (post ((s.at_ i).setFld Reg.RED_STATUS 29 29 1) .error 0x13 none 0 []).raise 12 := by
  have ht' : s.red.outSince + (s.at_ i).tickNs ≤ (s.at_ i).time.elapsed := by rwa [State.tickNs, State.at__tp]
  simp only [State.stuckCheck]
  rw [if_pos (by simp [hst, hout, hin, hf, ht', hb])]

theorem State.stuckCheck_regFld {s : State} {i : U64} (hs : s.tidy) :
    ((post ((s.at_ i).setFld Reg.RED_STATUS 29 29 1) .error 0x13 none 0 []).raise 12).regFld Reg.RED_STATUS 29 29 = 1 := by
  rw [State.regFld, State.raise_reg (by decide), post_reg (by decide), ← State.regFld]
  exact (State.regFld_setFld_same (hs.at_ i) (by decide)).trans rfl

/-! ### The rings a new active takes up -/

/-- The counts of ring `r` in the ring state block, taken into its registers (R401). -/
def State.takeRing (rsb : List Byte) (s : State) (r : Nat) : State :=
  (s.setReg (Reg.HIF_RING_CONS (2 + r)) (pw (leAt rsb (0x20 + 8 * r) 4))).setReg (Reg.HIF_RING_PROD (10 + r))
    (pw (leAt rsb (0x60 + 4 * r) 4))


theorem State.takeRing_keeps (rsb : List Byte) (s : State) (r : Nat) : Keeps [.regs] s (s.takeRing rsb r) :=
  State.setReg_keeps (.of rfl) (State.setReg_keeps (.of rfl) (Keeps.refl s))

theorem ringCons_ne_ringProd (k j : Nat) : Reg.HIF_RING_CONS k ≠ Reg.HIF_RING_PROD j := by
  unfold Reg.HIF_RING_CONS Reg.HIF_RING_PROD
  omega

theorem State.takeRing_reg {rsb : List Byte} {s : State} {r a : Nat} (hc : a ≠ Reg.HIF_RING_CONS (2 + r))
    (hp : a ≠ Reg.HIF_RING_PROD (10 + r)) : (s.takeRing rsb r).reg a = s.reg a :=
  (reg_setReg_other hp).trans (reg_setReg_other hc)

/-- What the ring state block holds of ring `r`, in its registers. -/
def State.RingTaken (rsb : List Byte) (s : State) (r : Nat) : Prop :=
  s.reg (Reg.HIF_RING_CONS (2 + r)) = pw (leAt rsb (0x20 + 8 * r) 4) ∧
    s.reg (Reg.HIF_RING_PROD (10 + r)) = pw (leAt rsb (0x60 + 4 * r) 4)

theorem State.takeRing_takes {rsb : List Byte} {s : State} (hs : s.tidy) (r : Nat) : (s.takeRing rsb r).RingTaken rsb r :=
  ⟨(reg_setReg_other (ringCons_ne_ringProd _ _)).trans (hs.reg_setReg _ _), (hs.setReg _ _).reg_setReg _ _⟩

/-- Each ring's registers stay as they are while the other rings are taken. -/
theorem State.takeRings (rsb : List Byte) {s : State} (hs : s.tidy) (n : Nat) :
    Keeps [.regs] s ((List.range n).foldl (State.takeRing rsb) s) ∧
      ∀ r < n, ((List.range n).foldl (State.takeRing rsb) s).RingTaken rsb r := by
  induction n with
  | zero => exact ⟨Keeps.refl s, fun r h => absurd h (Nat.not_lt_zero r)⟩
  | succ n ih =>
    obtain ⟨hk, ht⟩ := ih
    rw [List.range_succ, List.foldl_append, List.foldl_cons, List.foldl_nil]
    refine ⟨hk.comp (State.takeRing_keeps rsb _ n), fun r hr => ?_⟩
    rcases Nat.lt_succ_iff_lt_or_eq.mp hr with h | rfl
    · have hcc : Reg.HIF_RING_CONS (2 + r) ≠ Reg.HIF_RING_CONS (2 + n) := by unfold Reg.HIF_RING_CONS; omega
      have hpp : Reg.HIF_RING_PROD (10 + r) ≠ Reg.HIF_RING_PROD (10 + n) := by unfold Reg.HIF_RING_PROD; omega
      exact ⟨(State.takeRing_reg hcc (ringCons_ne_ringProd _ _)).trans (ht r h).1,
        (State.takeRing_reg (ringCons_ne_ringProd _ _).symm hpp).trans (ht r h).2⟩
    · exact State.takeRing_takes (hk.tidy hs) r

/-- The completions given for a ring's open descriptors are held, each counted in RED_CNT 7 (R401). -/
theorem State.recoverRing_reg {rsb : List Byte} {tags : List (Nat × Nat × BitVec 16)} {s : State} {r a : Nat}
    (h : a ≠ Reg.RED_CNT 7) : (s.recoverRing rsb tags r).reg a = s.reg a :=
  List.foldlRecOn _ _ (motive := fun t : State => t.reg a = s.reg a) rfl fun t ht j _ => by
    dsimp only
    split
    · exact ht
    · exact (State.bumpBy_reg h).trans ht

/-- R401: a new active takes the counts of its rings and the block's number, and answers what it finds open. -/
theorem State.ringRecovery_recovers {s : State} (rsb : List Byte) (tags : List (Nat × Nat × BitVec 16))
    (hr : s.red.recover = true) (hp : s.pair = true) (hst : s.sys.state = .active) (ho : s.sys.ilkOut = true) :
    ∃ (f : RedSt → RedSt) (bs : List Byte), s.ringRecovery rsb tags = (List.range 8).foldl (State.recoverRing rsb tags)
        ((((List.range 8).foldl (State.takeRing rsb) s).setRed f).rsbWrite 4 bs) ∧
      ∀ x, (f x).recover = false ∧ (f x).seq = BitVec.ofNat 32 (leAt rsb 4 4) + 1 := by
  have hgo : ¬ ((!(s.red.recover && s.pair && s.sys.state = .active && s.sys.ilkOut)) = true) := by simp [hr, hp, hst, ho]
  refine ⟨_, _, if_neg hgo, fun x => ⟨rfl, rfl⟩⟩

theorem State.setRed_reg (s : State) (f : RedSt → RedSt) (a : Nat) : (s.setRed f).reg a = s.reg a := rfl

theorem State.ringRecovery_spec {s : State} (rsb : List Byte) (tags : List (Nat × Nat × BitVec 16)) (hs : s.tidy)
    (hr : s.red.recover = true) (hp : s.pair = true) (hst : s.sys.state = .active) (ho : s.sys.ilkOut = true) :
    let t := s.ringRecovery rsb tags
    t.red.recover = false ∧ t.red.seq = BitVec.ofNat 32 (leAt rsb 4 4) + 1 ∧ ∀ r < 8, t.RingTaken rsb r := by
  obtain ⟨f, bs, hrun, hf⟩ := State.ringRecovery_recovers rsb tags hr hp hst ho
  rw [hrun]
  generalize hu : (((List.range 8).foldl (State.takeRing rsb) s).setRed f).rsbWrite 4 bs = u
  have hk : Keeps [.hif, .regs] u ((List.range 8).foldl (State.recoverRing rsb tags) u) :=
    Keeps.foldl (fun _ _ h => State.recoverRing_keeps (.of rfl) h) (Keeps.refl u)
  have hreg (a : Nat) (h : a ≠ Reg.RED_CNT 7) :
      ((List.range 8).foldl (State.recoverRing rsb tags) u).reg a = ((List.range 8).foldl (State.takeRing rsb) s).reg a :=
    (List.foldlRecOn _ _ (motive := fun t : State => t.reg a = u.reg a) rfl fun t ht r _ =>
      (State.recoverRing_reg h).trans ht).trans (hu ▸ (State.rsbWrite_reg _ 4 bs a).trans (State.setRed_reg _ f a))
  have hred : u.red = f ((List.range 8).foldl (State.takeRing rsb) s).red := by
    rw [← hu]
    exact (State.rsbWrite_keeps (W := [.outbox]) (.of rfl) (Keeps.refl _)).part .red rfl
  have hcnt (k : Nat) : Reg.HIF_RING_CONS k ≠ Reg.RED_CNT 7 ∧ Reg.HIF_RING_PROD k ≠ Reg.RED_CNT 7 := by
    unfold Reg.HIF_RING_CONS Reg.HIF_RING_PROD Reg.RED_CNT
    omega
  have hred' := (show _ = u.red from hk.part .red rfl).trans hred
  refine ⟨?_, ?_, fun r h => ?_⟩
  · rw [hred', (hf _).1]
  · rw [hred', (hf _).2]
  · obtain ⟨hc, hpr⟩ := (State.takeRings rsb hs 8).2 r h
    exact ⟨(hreg _ (hcnt _).1).trans hc, (hreg _ (hcnt _).2).trans hpr⟩

/-- Settles O48: ILK_IN's fall and rise, the stuck interlock and the recovery of the rings, each by its lemma. -/
theorem interlockMoves : Obligations.interlockMoves := by
  refine ⟨fun s i hin => ?_, fun s i hin => ⟨_, rfl, State.ilkInActive_givesWay hin, fun h => ?_,
      (State.ilkInActive_keeps (.of rfl) (Keeps.refl s)).onlyIn⟩,
    fun s i hs hst ho hin hf ht hb => ⟨_, next_of (State.stuckCheck_marks hst ho hin hf ht hb), State.stuckCheck_regFld hs, ?_⟩,
    fun s rsb tags hs hr hp hst ho => ?_⟩
  · have honly := (State.ilkInRelease_keeps (t := i)
      (W := [.time, .sys, .red, .rf, .regs, .evr, .free, .hif, .outbox, .que]) (.of rfl) (Keeps.refl s)).onlyIn
    have hsys : (s.at_ i).ilkCleared.sys = { s.sys with ilkIn := false } := by
      simp only [State.ilkCleared, State.setRed_sys, State.setFld_sys, State.at__sys]
    cases h : s.standingBy with
    | true =>
      obtain ⟨htsys, htred, hleap⟩ := State.ilkInRelease_takesOver (i := i) hin h
      rw [hsys] at htsys
      refine ⟨_, rfl, ?_, ?_, fun _ => ⟨?_, ?_, ?_, ?_⟩, fun h => by simp at h, honly⟩
      · rw [htsys]
      · rw [htred]; rfl
      · rw [htsys]
      · rw [htsys]
      · rw [htred]
      · rw [htred]; rfl
    | false =>
      obtain ⟨htsys, hclear⟩ := State.ilkInRelease_notes (i := i) hin h
      exact ⟨_, rfl, by rw [htsys], hclear, fun h => by simp at h, fun _ => htsys, honly⟩
  · have hsys : (s.at_ i).ilkRaised.sys = { s.sys with ilkIn := true } := by rw [State.ilkRaised, State.at__sys]
    have hred : (s.at_ i).ilkRaised.red = s.red := State.at__red s i
    have hk : Keeps [.hif, .que, .cip, .rf, .regs] (s.at_ i).ilkRaised (s.at_ i).ilkRaised.forgetDescs :=
      State.forgetDescs_keeps (.of rfl) (Keeps.refl _)
    rw [State.ilkInActive_notes hin h]
    refine ⟨?_, ?_, fun hp => ?_⟩
    · exact (Keeps.ite (c := s.pair = true) hk (Keeps.refl _)).part .sys rfl |>.trans hsys
    · exact (Keeps.ite (c := s.pair = true) hk (Keeps.refl _)).part .red rfl |>.trans hred
    · rw [if_neg (by simp [hp])]
      exact (Keeps.set_sys (by decide) (State.at__keeps (W := [.time, .sys]) (.of rfl) (Keeps.refl s))).onlyIn
  · exact (State.raise_keeps (.of rfl) (post_keeps (.of rfl) (State.setFld_keeps (.of rfl)
      (State.at__keeps (.of rfl) (Keeps.refl s))))).onlyIn
  · obtain ⟨hrec, hseq, hrings⟩ := State.ringRecovery_spec rsb tags hs hr hp hst ho
    exact ⟨_, rfl, hrec, hseq, hrings, (State.ringRecovery_keeps (.of rfl) (Keeps.refl s)).onlyIn⟩

end Sys2Proof.Machine

/-! Planned switch-over and entry to service (O49). -/

namespace Sys2Proof.Machine

/-- Completing a list of commands holds their completions, in order, and changes nothing else. -/
theorem State.foldl_complete_ok (l : List Desc) (s : State) :
    Keeps [.hif] s (l.foldl (fun s d => s.complete d .ok) s) ∧
      (l.foldl (fun s d => s.complete d .ok) s).hif.held =
        s.hif.held ++ l.map fun d => { tag := d.tag, status := .ok, b4 := 0, b8 := 0, b12 := 0 } := by
  induction l generalizing s with
  | nil => exact ⟨Keeps.refl s, (List.append_nil _).symm⟩
  | cons d l ih =>
    obtain ⟨hk, hh⟩ := ih (s.complete d .ok)
    refine ⟨(State.complete_keeps (.of rfl) (Keeps.refl s)).comp hk, ?_⟩
    rw [List.foldl_cons, hh, State.complete_held, List.append_assoc]
    rfl

theorem State.standbyAtEntry_red (s : State) : s.standbyAtEntry.red =
    { s.red with armed := false, armRun := 0, bothRun := 0, recover := false } :=
  (State.holdoverAtEntry_keeps (W := [.time, .evr, .hif, .que, .regs, .outbox, .free]) (.of rfl) (Keeps.refl _)).part .red rfl

theorem State.standbyAtEntry_sys (s : State) : s.standbyAtEntry.sys = s.sys :=
  (State.standbyAtEntry_keeps (W := [.time, .evr, .hif, .que, .red, .regs, .outbox, .free]) (.of rfl) (Keeps.refl s)).part .sys rfl

/-! ### Leaving ACTIVE (R402) -/

/-- The chip in STANDBY, its interlock released and its switch-overs taken off the list. -/
def State.standsDown (s : State) : State :=
  ((s.forgetDescs.releaseIlk.setRed fun r => { r with leaving := [] }).enter .standby).standbyAtEntry

theorem State.standsDown_sys (s : State) : s.standsDown.sys = { s.sys with state := .standby, ilkOut := false } := by
  have h : s.forgetDescs.sys = s.sys :=
    (State.forgetDescs_keeps (W := [.hif, .que, .cip, .rf, .regs]) (.of rfl) (Keeps.refl s)).part .sys rfl
  rw [State.standsDown, State.standbyAtEntry_sys, State.enter_sys, State.setRed_sys, State.releaseIlk, State.setRed_sys, h]

theorem State.standsDown_red (s : State) : s.standsDown.red.leaving = [] ∧ s.standsDown.red.armed = false := by
  rw [State.standsDown, State.standbyAtEntry_red, State.enter_red]
  exact ⟨rfl, rfl⟩

theorem State.switchoverRelease_leaves {s : State} {i : U64} (hl : s.red.leaving ≠ []) (hst : s.sys.state = .active)
    (ha : s.airClear = true) (hm : s.tbl.migration = none) :
    s.switchoverRelease i = s.red.leaving.foldl (fun s d => s.complete d .ok) (s.at_ i).standsDown := by
  have ha' : (s.at_ i).airClear = true := by rwa [State.airClear, State.at__rf]
  have hgo : ¬ ((s.at_ i).red.leaving = [] ∨ (s.at_ i).sys.state ≠ .active ∨ (!(s.at_ i).airClear) = true ∨
      (s.at_ i).tbl.migration.isSome = true) := by
    simp [hl, hst, ha', hm]
  rw [← State.at__red s i]
  exact if_neg hgo

/-! ### Taking up service (R428) -/

section
variable {s : State} {d : Desc}

theorem State.redSwitch_starts (hb : d.byte 4 = 0xFF) (hst : s.sys.state = .active) (hz : d.unlistedZero [] = true)
    (hh : s.heldOff = false) (hl : s.lately s.red.standbyTick = true) : s.redSwitch d = s.startLeaving d := by
  have hs : s.inStates [.active] = true := by simp [State.inStates, hst]
  simp only [State.redSwitch, State.command_runs hb hs]
  rw [if_neg (by simp [hz]), if_neg (by simp [hh, hl])]

theorem State.sysServe_waits (hb : d.byte 4 = 0xFF) (hst : s.sys.state = .structured)
    (hlc : s.key.lc = .provisioned ∨ s.key.lc = .deployed) (hz : d.unlistedZero [8] = true)
    (hrole : (d.byte 8 = 1 ∧ s.pair = true) ∨ (d.byte 8 = 0 ∧ (s.pair = true → s.rsbAddr ≠ 0) ∧
      bit (s.reg Reg.RED_STATUS) 27 = false ∧ s.sys.ilkIn = false)) :
    s.sysServe d = { s with sys := { s.sys with serve := s.sys.serve ++ [(d, decide (d.byte 8 = 0))] } } := by
  have hlc' : ¬ (s.key.lc ≠ .provisioned ∧ s.key.lc ≠ .deployed) := by
    rcases hlc with h | h <;> simp [h]
  simp only [State.sysServe]
  rcases hrole with ⟨h8, hp⟩ | ⟨h8, hp, hc, hin⟩
  · rw [if_neg (by simp [hb]), if_neg (by simp [hst]), if_neg hlc', if_neg (by simp [h8, hz, hp]), if_neg (by simp [h8]),
      if_neg (by simp [h8]), if_neg (by simp [h8]), if_neg (by simp [hst])]
  · rw [if_neg (by simp [hb]), if_neg (by simp [hst]), if_neg hlc', if_neg (by simp [h8, hz]),
      if_neg (fun h => hp h.2.1 h.2.2), if_neg (by simp [hc]), if_neg (by simp [hin]), if_neg (by simp [hst])]

end

theorem State.serveActive_sys (s : State) : s.serveActive.sys = (s.enter .active).normalAssert.sys := by
  unfold State.serveActive
  extract_lets s1 s2
  have h2 : Keeps (Part.but .sys) s1 s2 := by
    refine Keeps.ite (State.setRed_keeps (.of rfl) (State.rsbInit_keeps (.of rfl) (State.startLeap_keeps (.of rfl) (Keeps.refl s1))))
      (Keeps.refl s1)
  exact (State.holdoverAtEntry_keeps (.of rfl) h2).part .sys rfl

theorem State.normalAssert_sys (s : State) : s.normalAssert.sys.state = s.sys.state ∧ s.normalAssert.sys.serve = s.sys.serve := by
  unfold State.normalAssert
  split <;> exact ⟨rfl, rfl⟩

/-- R386: ILK_OUT is asserted when the interlock has been clear for long enough. -/
theorem State.normalAssert_asserts {s : State} (hst : s.sys.state = .active) (ho : s.sys.ilkOut = false)
    (hc : s.ilkClear = true) : s.normalAssert.sys.ilkOut = true := by
  rw [State.normalAssert, if_pos (by simp [hst, ho, hc])]
  rfl

theorem State.enter_ilkClear (s : State) (x : SysState) : (s.enter x).ilkClear = s.ilkClear := by
  simp only [State.ilkClear, State.enter_sys, State.enter_red, State.enter_time]

theorem State.serveEntry_serves {s : State} {d : Desc} {active : Bool} (hst : s.sys.state = .structured)
    (hm : s.tbl.migration = none) (hl : s.sys.serve = [(d, active)]) :
    s.serveEntry = (State.serveOne { s with sys := { s.sys with serve := [] } } (d, active)).settleAir := by
  rw [State.serveEntry, if_pos (by simp [hst, hm, hl])]
  simp only [hl]
  rfl

/-- The service that a waiting SYS_SERVE names, taken up (R428). -/
def State.serveAs (s : State) (active : Bool) : State :=
  if active then s.serveActive else (s.enter .standby).standbyAtEntry

theorem State.serveOne_enters {s : State} (h : s.sys.state = .structured) (d : Desc) (active : Bool) :
    s.serveOne (d, active) = (s.serveAs active).complete d .ok := by
  cases active <;> simp only [State.serveOne, h] <;> rfl

theorem State.serveAs_sys (s : State) (active : Bool) :
    (s.serveAs active).sys.state = (if active then .active else .standby) ∧ (s.serveAs active).sys.serve = s.sys.serve := by
  cases active with
  | false => exact ⟨by simp [State.serveAs, State.standbyAtEntry_sys], by simp [State.serveAs, State.standbyAtEntry_sys, State.enter_sys]⟩
  | true =>
    obtain ⟨hst, hserve⟩ := (s.enter .active).normalAssert_sys
    rw [show s.serveAs true = s.serveActive from rfl, State.serveActive_sys, hst, hserve, State.enter_sys]
    exact ⟨rfl, rfl⟩

theorem State.serveAs_ilkOut {s : State} (ho : s.sys.ilkOut = false) (hc : s.ilkClear = true) :
    (s.serveAs true).sys.ilkOut = true := by
  rw [show s.serveAs true = s.serveActive from rfl, State.serveActive_sys]
  exact State.normalAssert_asserts (s.enter_state _) (by rw [State.enter_sys]; exact ho) ((s.enter_ilkClear _).trans hc)

/-- Settles O49: each command and event by the lemma of what it does; service is entered through `serveActive` or
`standbyAtEntry`. -/
theorem rolesChange : Obligations.rolesChange := by
  refine ⟨fun s d hb hst hz hh hl => ⟨_, next_of (State.redSwitch_starts hb hst hz hh hl), rfl,
      (State.setRed_keeps (.of rfl) (Keeps.refl s)).onlyIn⟩,
    fun s i hl hst ha hm => ?_, fun s d hb hst hlc hz hrole => ⟨_, next_of (State.sysServe_waits hb hst hlc hz hrole), rfl,
      (Keeps.set_sys (by decide) (Keeps.refl s)).onlyIn⟩, fun s d active hst hm hl => ⟨_, next_of (State.serveEntry_serves hst hm hl), ?_⟩⟩
  · have hrun := State.switchoverRelease_leaves (i := i) hl hst ha hm
    obtain ⟨hk, hh⟩ := State.foldl_complete_ok s.red.leaving (s.at_ i).standsDown
    have hsys := (show _ = (s.at_ i).standsDown.sys from hk.part .sys rfl).trans (State.standsDown_sys _)
    have hred : _ = (s.at_ i).standsDown.red := hk.part .red rfl
    have honly := (State.switchoverRelease_keeps (t := i)
      (W := [.time, .sys, .cip, .red, .rf, .regs, .evr, .free, .hif, .outbox, .que]) (.of rfl) (Keeps.refl s)).onlyIn
    rw [hrun] at honly
    obtain ⟨hleave, harm⟩ := (s.at_ i).standsDown_red
    refine ⟨_, next_of hrun, ?_, ?_, ?_, ?_, ⟨_, hh⟩, honly⟩
    · rw [hsys]
    · rw [hsys]
    · rw [hred, hleave]
    · rw [hred, harm]
  · generalize hz : ({ s with sys := { s.sys with serve := [] } } : State) = z
    have hzst : z.sys.state = .structured := by rw [← hz]; exact hst
    have hzserve : z.sys.serve = [] := by rw [← hz]
    have hk : Keeps [.time, .sys, .red, .rf, .regs, .evr, .free, .hif, .outbox, .que] s z :=
      hz ▸ Keeps.set_sys (by decide) (Keeps.refl s)
    have honly := (State.serveOne_keeps (x := (d, active)) (.of rfl) hk).onlyIn
    rw [State.serveOne_enters hzst] at honly ⊢
    obtain ⟨hstate, hserve⟩ := z.serveAs_sys active
    refine ⟨hstate, hserve.trans hzserve, fun ha ho hc => ?_, ⟨_, State.complete_held ..⟩, honly⟩
    subst ha hz
    exact State.serveAs_ilkOut ho hc

end Sys2Proof.Machine

/-! The viaduct: sessions of updates from hop to hop (O50). -/

namespace Sys2Proof.Machine

/-! ### What the shared operations leave of a session -/

@[simp] theorem State.sendVia_upd (s : State) (dst : List Byte) (msg : Nat) (fields : List (List Byte)) :
    (s.sendVia dst msg fields).upd = s.upd :=
  (State.sendVia_keeps (.of rfl) (Keeps.refl (W := [.ethA, .ethB]) s)).part .upd rfl

@[simp] theorem State.sendVia_mem (s : State) (dst : List Byte) (msg : Nat) (fields : List (List Byte)) :
    (s.sendVia dst msg fields).mem = s.mem :=
  (State.sendVia_keeps (.of rfl) (Keeps.refl (W := [.ethA, .ethB]) s)).part .mem rfl

@[simp] theorem State.clearFeed_upd (s : State) : s.clearFeed.upd = s.upd :=
  (State.clearFeed_keeps (.of rfl) (Keeps.refl (W := [.que]) s)).part .upd rfl

@[simp] theorem State.reportHop_upd (s : State) (n : Nat) (st : Status) : (s.reportHop n st).upd = s.upd :=
  (State.reportHop_keeps (.of rfl) (Keeps.refl (W := [.ethA, .ethB, .regs]) s)).part .upd rfl

/-- The outcome of a session is shown, and no command waits for it any more. -/
theorem State.sessionOutcome_upd (s : State) (st : Status) (tell : Bool) :
    (s.sessionOutcome st tell).upd = { s.upd with lastStatus := st, cmd := none } := by
  unfold State.sessionOutcome
  extract_lets s1 s2
  have h2 : s2.upd = s1.upd := by
    simp only [s2]
    split
    · rfl
    · split
      · exact State.reportHop_upd ..
      · rfl
  exact (State.raise_upd s2 19).trans h2

/-- R371: a session at its end feeds no neighbour and shows its outcome. -/
theorem State.sessionEnd_upd (s : State) (st : Status) (tell : Bool) (next : Session) : (s.sessionEnd st tell next).upd =
    { s.upd with down := .none, session := next, buildDone := false, lastStatus := st, cmd := none } := by
  rw [State.sessionEnd, State.sessionOutcome_upd, State.setUpd_upd, State.clearFeed_upd]

/-- The next entry of the chain is offered the session, or there is none to feed (R367, R369). -/
theorem State.offerNext_upd (s : State) : s.offerNext.upd.chain = s.upd.chain ∧
    s.offerNext.upd.down = if s.upd.chain = [] then .none else .offered := by
  unfold State.offerNext
  cases h : s.upd.chain with
  | nil => exact ⟨(congrArg UpdSt.chain (s.clearFeed_upd)).trans h, rfl⟩
  | cons e rest =>
    simp only [State.sendVia_upd, State.setUpd_upd]
    exact ⟨h, rfl⟩

/-- R369: a neighbour that is skipped leaves the chain, and the next entry is offered the session. -/
theorem State.skipHop_upd {s : State} {e : HopEntry} {rest : List HopEntry} (st : Status) (h : s.upd.chain = e :: rest) :
    (s.skipHop st).upd.chain = rest ∧ (s.skipHop st).upd.down = if rest = [] then .none else .offered := by
  simp only [State.skipHop, h]
  exact State.offerNext_upd _

/-! ### Offers -/

section
variable {s : State} {i : U64} {mac : List Byte} {id : Word} {total mb : Nat} {hd : List Byte} {chain : List HopEntry}

/-- The session of an OFFER taken afresh (R367). -/
def UpdSt.offered (u : UpdSt) (cfg : UpdCfg) (mac : List Byte) (id : Word) (total mb : Nat) (hd : List Byte)
    (chain : List HopEntry) (now : Nat) : UpdSt :=
  { u with
    session := .receiving, cmd := none, head := false, headMac := hd, imageId := id, cfg := cfg, mb := mb,
    total := total, manifestOk := false, next := 0, lastBlock := now, upMac := mac, chain := chain.drop 1,
    chainAt := chain.length, man := [], down := .none, nextDown := 0, sendNext := 0, sentTo := 0, buildDone := false }

theorem State.viaOffer_refuses {r : Nat} (hst : s.inStates stSAYML = true)
    (hr : (s.at_ i).offerReason id (total - mb) true = some r) : s.viaOffer i mac id total mb hd chain =
      (s.at_ i).sendMgmt (s.regFld Reg.UPD_CTRL 30 30) mac 0x22 (Config.viaductBody 0x22 [leBytes id.toNat 4, leBytes r 1]) := by
  simp only [State.viaOffer, State.at__inStates, hst, hr, Bool.not_true, Bool.false_eq_true, if_false, State.at__regFld]

theorem State.viaOffer_takes (hst : s.inStates stSAYML = true)
    (hr : (s.at_ i).offerReason id (total - mb) true = none) (hs : s.upd.session = .idle ∨ id ≠ s.upd.imageId) :
    s.viaOffer i mac id total mb hd chain = ((s.at_ i).setUpd fun u =>
      u.offered (s.at_ i).updCfg mac id total mb hd chain (s.at_ i).time.elapsed).sendVia mac 0x21 [leBytes 0 4] := by
  have hfresh : ¬ ((s.upd.session != .idle && id = s.upd.imageId) = true) := by
    rcases hs with h | h <;> simp [h]
  simp only [State.viaOffer, State.at__inStates, hst, hr, Bool.not_true, Bool.false_eq_true, if_false, State.at__upd]
  rw [if_neg hfresh]
  rfl

end

/-! ### The feed of the neighbour -/

/-- A rewind queue without its first `k` items. -/
def Queue.acked (x : Queue) (k : Nat) : Queue :=
  { x with items := x.items.drop k, read := x.read - k, mark := 0, readMax := x.readMax - k }

/-- The feed of a neighbour that has confirmed the blocks up to `n`. -/
def UpdSt.acked (u : UpdSt) (n now : Nat) : UpdSt :=
  { u with nextDown := n, sendNext := max u.sendNext n, downSince := now, retxAt := now }

section
variable {s : State} {i : U64} {mac : List Byte} {id : Word} {n : Nat} (hd : s.fromDown mac id = true)
include hd

theorem State.at__fromDown : (s.at_ i).fromDown mac id = true := by
  rw [State.fromDown, State.at__upd]
  exact hd

/-- R368: an ACCEPT feeds the neighbour from its NEXT. -/
theorem State.viaAccept_feeds (hn : n < s.upd.total) : s.viaAccept i mac id n = (s.at_ i).clearFeed.setUpd fun u => { u with
    down := .feeding, nextDown := n, sendNext := n, sentTo := n, downSince := (s.at_ i).time.elapsed,
    retxAt := (s.at_ i).time.elapsed } := by
  have hle : ¬ s.upd.total < n := by omega
  have hne : n ≠ s.upd.total := by omega
  simp only [State.viaAccept, State.at__fromDown hd, State.at__upd]
  rw [if_neg (by simp [hle]), if_neg hne]

/-- R368: an ACK releases the blocks it confirms and advances the neighbour's NEXT. -/
theorem State.viaAck_advances (hf : s.upd.down = .feeding) (hlo : s.upd.nextDown < n) (hhi : n ≤ s.upd.sentTo)
    (hne : n ≠ s.upd.total) : ∃ k, k = min (n - s.upd.nextDown) (s.queue s.upd.cfg.rq).items.length ∧
      s.viaAck i mac id n = (((s.at_ i).bumpBy (Reg.QUE_CNT 6) 31 k).setQueue s.upd.cfg.rq
        ((s.queue s.upd.cfg.rq).acked k)).setUpd fun u => u.acked n (s.at_ i).time.elapsed := by
  refine ⟨_, rfl, ?_⟩
  rw [State.queue_congr (State.at__que s i).symm s.upd.cfg.rq]
  simp only [State.viaAck, State.at__fromDown hd, State.at__upd]
  rw [if_neg (by simp [hf]; omega), if_neg hne]
  rfl

theorem State.viaRefuse_skips (ho : s.upd.down = .offered) (reason : Nat) : s.viaRefuse i mac id reason =
    ((s.at_ i).bump (Reg.UPD_CNT 7)).skipHop (if reason = 3 then .noRoom else .state) := by
  simp only [State.viaRefuse, State.at__fromDown hd, State.at__upd]
  rw [if_pos (by simp [ho])]

end

theorem State.hopSkip_skips {s : State} {i : U64} (h : s.upd.down = .offered ∨ s.upd.outstanding = true)
    (ht : s.upd.cfg.hopTimeout ≤ (s.at_ i).msSince s.upd.downSince) : s.hopSkip i = (s.at_ i).skipHop .timeout := by
  simp only [State.hopSkip, State.at__upd]
  rw [if_pos (by rcases h with h | h <;> simp [h, ht])]

theorem State.viaRetransmit_rewinds {s : State} {i : U64} (ho : s.upd.outstanding = true)
    (ht : s.upd.cfg.retx ≤ (s.at_ i).msSince s.upd.retxAt) : s.viaRetransmit i =
      (((s.at_ i).rewindQueue s.upd.cfg.rq).bump (Reg.UPD_CNT 5)).setUpd fun u =>
        { u with sendNext := u.nextDown, retxAt := (s.at_ i).time.elapsed } := by
  simp only [State.viaRetransmit, State.at__upd]
  rw [if_neg (by simp [ho, ht])]

theorem State.sessionIdleTimeout_ends {s : State} {i : U64} (hs : s.upd.session = .receiving) (hh : s.upd.head = false)
    (ht : 4 * s.upd.cfg.hopTimeout ≤ (s.at_ i).msSince s.upd.lastBlock) :
    s.sessionIdleTimeout i = (s.at_ i).sessionEnd .timeout true .failed := by
  simp only [State.sessionIdleTimeout, State.at__upd]
  rw [if_pos (by simp [hs, hh, ht])]

/-- R371: the head notes what an entry of its chain reports. -/
theorem State.viaReport_notes {s : State} {i : U64} {id : Word} {n st : Nat} (hh : s.upd.head = true) (hid : id = s.upd.imageId)
    (hn : n < s.upd.chainAt) (h64 : n < 64) (hst : st ≤ 0x17) :
    s.viaReport i id n st = ((s.at_ i).setFld (Reg.UPD_HOP n) 31 24 st).setFld (Reg.UPD_HOP n) 23 23 1 := by
  simp only [State.viaReport, State.at__upd]
  rw [if_pos (by simp [hh, hid, hn, h64, hst])]

/-! ### Blocks -/

/-- Where the next block of a session is staged (R363). -/
def State.blockAt (s : State) : Nat :=
  if s.upd.next < s.upd.mb then s.stagingBase + 4096 * s.upd.next
  else s.stagingBase + 0x100000 + 4096 * (s.upd.next - s.upd.mb)

/-- A session with one more block staged. -/
def UpdSt.staged (u : UpdSt) (now : Nat) : UpdSt :=
  { u with next := u.next + 1, lastBlock := now, session := if u.next + 1 = u.total then .building else u.session }

/-- A block that does not complete the manifest is staged at its place, and NEXT advances. -/
theorem State.stageBlock_stages {s : State} (b : List Byte) (h : s.upd.next + 1 ≠ s.upd.mb) : s.stageBlock b =
    (((s.writeMem s.blockAt (slice b 16 4096)).bump (Reg.UPD_CNT 0)).setUpd fun _ => s.upd.staged s.time.elapsed, none) := by
  simp only [State.stageBlock, if_neg h]
  rfl

theorem State.viaBlock_stages {s : State} {i : U64} {b : List Byte} (hs : s.upd.session = .receiving) (hh : s.upd.head = false)
    (hj : (s.at_ i).judgeBlock b = .ok) (hmb : s.upd.next + 1 ≠ s.upd.mb) : ∃ (dst : List Byte) (fields : List (List Byte)),
      s.viaBlock i b = ((((s.at_ i).writeMem (s.at_ i).blockAt (slice b 16 4096)).bump (Reg.UPD_CNT 0)).setUpd fun _ =>
        s.upd.staged (s.at_ i).time.elapsed).sendVia dst 0x24 fields := by
  have hrec : ¬ ((!s.upd.received) = true) := by simp [UpdSt.received, hs, hh]
  have hmb' : (s.at_ i).upd.next + 1 ≠ (s.at_ i).upd.mb := by rwa [State.at__upd]
  simp only [State.viaBlock, State.at__upd, hj, State.stageBlock_stages b hmb']
  rw [if_neg hrec, if_neg (by simp [hs])]
  exact ⟨_, _, rfl⟩

theorem State.at__blockAt (s : State) (i : U64) : (s.at_ i).blockAt = s.blockAt := by
  simp only [State.blockAt, State.stagingBase, State.at__upd, State.at__tp]

/-- The neighbour's feed with one more block on its way (R368). -/
def UpdSt.fed (u : UpdSt) (n : Nat) (fresh : Bool) (now : Nat) : UpdSt :=
  { u with
    sendNext := n + 1, sentTo := max u.sentTo (n + 1), downSince := if fresh then now else u.downSince,
    retxAt := if fresh then now else u.retxAt }

/-- The block `k` places on in the rewind queue, taken for the neighbour. -/
def State.feedsBlock (s : State) (k : Nat) : State :=
  (((s.setQueue s.upd.cfg.rq { s.queue s.upd.cfg.rq with read := k }).takeHead s.upd.cfg.rq false).1).setUpd fun u =>
    u.fed s.upd.sendNext (!s.upd.outstanding) s.time.elapsed

theorem State.feedsBlock_taken (s : State) (k : Nat) : ∃ u, Keeps [.que, .regs] s u ∧
    s.feedsBlock k = u.setUpd fun u => u.fed s.upd.sendNext (!s.upd.outstanding) s.time.elapsed :=
  ⟨_, State.takeHead_keeps (.of rfl) (State.setQueue_keeps (.of rfl) (Keeps.refl s)), rfl⟩

theorem State.feedsBlock_upd (s : State) (k : Nat) :
    (s.feedsBlock k).upd = s.upd.fed s.upd.sendNext (!s.upd.outstanding) s.time.elapsed := by
  obtain ⟨u, hk, hu⟩ := s.feedsBlock_taken k
  rw [hu, State.setUpd_upd, show u.upd = s.upd from hk.part .upd rfl]

/-- R368: the next block leaves the rewind queue for the neighbour. -/
theorem State.viaBlockSend_sends {s : State} {i : U64} {x : Queue} {k : Nat} (hd : s.upd.down = .feeding)
    (hn : s.upd.sendNext < s.upd.next) (hw : s.upd.sendNext < s.upd.nextDown + 64) (hm : s.upd.manifestOk = true)
    (hx : x = s.queue s.upd.cfg.rq) (hty : x.type = .rewind) (hc : x.consumer = 1) (hp : x.pointersBad = false)
    (hk : k = s.upd.sendNext - s.upd.nextDown) (hlt : k < x.items.length) :
    s.viaBlockSend i = (s.at_ i).feedsBlock k ∨ ∃ (mac : List Byte) (fields : List (List Byte)),
      s.viaBlockSend i = (((s.at_ i).feedsBlock k).bump (Reg.UPD_CNT 4)).sendVia mac 0x23 fields := by
  subst hx hk
  rw [State.queue_congr (State.at__que s i).symm s.upd.cfg.rq] at hty hc hp hlt
  simp only [State.viaBlockSend, State.at__upd]
  rw [if_neg (by simp [hd, hm, hty, hc]; omega), if_neg (by simp [hp])]
  simp only [if_pos hlt]
  rw [if_neg (by simp)]
  rw [← State.at__upd s i]
  cases (s.at_ i).upd.chain with
  | nil => exact .inl rfl
  | cons e rest => exact .inr ⟨_, _, rfl⟩

/-- Settles O50: each event of the viaduct by the lemma of what it does to the session. -/
theorem sessionsMove : Obligations.sessionsMove := by
  refine ⟨fun s i mac id total mb hd chain hst => ⟨fun r hr => ?_, fun hr hs => ?_⟩,
    fun s i mac id n hd => ⟨fun hn => ?_, fun hf hlo hhi hne => ?_⟩,
    fun s i mac id reason e rest hc => ⟨fun hd ho => ?_, fun h ht => ?_⟩,
    fun s i b hs hh hj hmb => ?_, fun s i id n st htidy hh hid hn h64 hst => ?_,
    fun s i x k hd hn hw hm hx hty hc hp hk hlt => ?_, fun s i ho ht => ?_, fun s i hs hh ht => ?_⟩
  · have hk := State.sendMgmt_keeps (W := [.time, .ethA, .ethB]) (p := s.regFld Reg.UPD_CTRL 30 30) (dst := mac) (msg := 0x22)
      (body := Config.viaductBody 0x22 [leBytes id.toNat 4, leBytes r 1]) (.of rfl)
      (State.at__keeps (t := i) (.of rfl) (Keeps.refl s))
    exact ⟨_, next_of (State.viaOffer_refuses hst hr), hk.part .upd rfl, hk.onlyIn⟩
  · refine ⟨_, next_of (State.viaOffer_takes hst hr hs), ?_⟩
    simp only [State.sendVia_upd, State.setUpd_upd]
    exact ⟨rfl, rfl, rfl, rfl, rfl, rfl, rfl, rfl, rfl, (State.sendVia_keeps (.of rfl) (State.setUpd_keeps (.of rfl)
      (State.at__keeps (.of rfl) (Keeps.refl s)))).onlyIn⟩
  · refine ⟨_, next_of (State.viaAccept_feeds hd hn), ?_⟩
    simp only [State.setUpd_upd, State.clearFeed_upd, State.at__upd]
    exact ⟨trivial, trivial, trivial, trivial, trivial, (State.setUpd_keeps (.of rfl) (State.clearFeed_keeps (.of rfl)
      (State.at__keeps (.of rfl) (Keeps.refl s)))).onlyIn⟩
  · obtain ⟨k, hk, hrun⟩ := State.viaAck_advances (i := i) hd hf hlo hhi hne
    have hitems : ((s.queue s.upd.cfg.rq).acked k).items = (s.queue s.upd.cfg.rq).items.drop (n - s.upd.nextDown) :=
      List.drop_eq_drop_iff.mpr (by omega)
    refine ⟨_, next_of hrun, ?_⟩
    simp only [State.setUpd_upd, State.setQueue_upd, State.bumpBy_upd, State.at__upd, State.setUpd_que, State.setQueue_que,
      State.bumpBy_que, State.at__que]
    exact ⟨rfl, rfl, ⟨_, rfl, hitems⟩, (State.setUpd_keeps (.of rfl) (State.setQueue_keeps (.of rfl)
      (State.bumpBy_keeps (.of rfl) (State.at__keeps (.of rfl) (Keeps.refl s))))).onlyIn⟩
  · have hc' : ((s.at_ i).bump (Reg.UPD_CNT 7)).upd.chain = e :: rest := by rw [State.bump_upd, State.at__upd, hc]
    obtain ⟨hchain, hdown⟩ := State.skipHop_upd (if reason = 3 then .noRoom else .state) hc'
    exact ⟨_, next_of (State.viaRefuse_skips hd ho reason), hchain, hdown, (State.skipHop_keeps (.of rfl)
      (State.bump_keeps (.of rfl) (State.at__keeps (.of rfl) (Keeps.refl s)))).onlyIn⟩
  · have hc' : (s.at_ i).upd.chain = e :: rest := by rw [State.at__upd, hc]
    obtain ⟨hchain, hdown⟩ := State.skipHop_upd .timeout hc'
    exact ⟨_, next_of (State.hopSkip_skips h ht), hchain, hdown, (State.skipHop_keeps (.of rfl)
      (State.at__keeps (.of rfl) (Keeps.refl s))).onlyIn⟩
  · obtain ⟨dst, fields, hrun⟩ := State.viaBlock_stages hs hh hj hmb
    refine ⟨_, next_of hrun, ?_⟩
    simp only [State.sendVia_upd, State.setUpd_upd, State.sendVia_mem, State.setUpd_mem, State.bump_mem, State.writeMem_mem,
      State.at__mem, State.at__blockAt, UpdSt.staged, hs]
    exact ⟨trivial, trivial, rfl, (State.sendVia_keeps (.of rfl) (State.setUpd_keeps (.of rfl) (State.bump_keeps (.of rfl)
      (State.writeMem_keeps (.of rfl) (State.at__keeps (.of rfl) (Keeps.refl s)))))).onlyIn⟩
  · have hreg : ((s.at_ i).setFld (Reg.UPD_HOP n) 31 24 st).reg (Reg.UPD_HOP n) =
        setBits (s.reg (Reg.UPD_HOP n)) 31 24 st := by
      rw [State.setFld, (htidy.at_ i).reg_setReg, State.at__reg]
    have htidy1 : ((s.at_ i).setFld (Reg.UPD_HOP n) 31 24 st).tidy := (htidy.at_ i).setReg _ _
    refine ⟨_, next_of (State.viaReport_notes hh hid hn h64 hst), ?_, fun a ha => ?_, (State.setFld_keeps (.of rfl)
      (State.setFld_keeps (.of rfl) (State.at__keeps (.of rfl) (Keeps.refl s)))).onlyIn⟩
    · rw [State.setFld, htidy1.reg_setReg, hreg]
    · rw [State.setFld_reg ha, State.setFld_reg ha, State.at__reg]
  · have hrun := State.viaBlockSend_sends (i := i) hd hn hw hm hx hty hc hp hk hlt
    have hupd := (s.at_ i).feedsBlock_upd k
    obtain ⟨u, hku, hu⟩ := (s.at_ i).feedsBlock_taken k
    have hkf : Keeps [.time, .upd, .que, .regs, .ethA, .ethB] s ((s.at_ i).feedsBlock k) :=
      hu ▸ State.setUpd_keeps (.of rfl) ((State.at__keeps (.of rfl) (Keeps.refl s)).comp (hku.widen (.of rfl)))
    rw [State.at__upd] at hupd
    rcases hrun with hrun | ⟨mac, fields, hrun⟩
    · refine ⟨_, next_of hrun, ?_⟩
      rw [hupd]
      exact ⟨rfl, rfl, rfl, hkf.onlyIn⟩
    · refine ⟨_, next_of hrun, ?_⟩
      rw [State.sendVia_upd, State.bump_upd, hupd]
      exact ⟨rfl, rfl, rfl, (State.sendVia_keeps (.of rfl) (State.bump_keeps (.of rfl) hkf)).onlyIn⟩
  · have hque : ((s.at_ i).rewindQueue s.upd.cfg.rq).que = (s.rewindQueue s.upd.cfg.rq).que := by
      simp only [State.rewindQueue, State.setQueue_que, State.queue, State.at__que]
    refine ⟨_, next_of (State.viaRetransmit_rewinds ho ht), ?_⟩
    rw [State.setUpd_upd, State.bump_upd, State.setUpd_que, State.bump_que, hque]
    exact ⟨congrArg UpdSt.nextDown (s.at__upd i), rfl, (State.setUpd_keeps (.of rfl) (State.bump_keeps (.of rfl)
      (State.rewindQueue_keeps (.of rfl) (State.at__keeps (.of rfl) (Keeps.refl s))))).onlyIn⟩
  · refine ⟨_, next_of (State.sessionIdleTimeout_ends hs hh ht), ?_⟩
    rw [State.sessionEnd_upd]
    exact ⟨rfl, rfl, rfl, (State.sessionEnd_keeps (.of rfl) (State.at__keeps (.of rfl) (Keeps.refl s))).onlyIn⟩

end Sys2Proof.Machine

/-! Images: taken, built, verified, aborted (O51). -/

namespace Sys2Proof.Machine

/-! ### Building and verifying -/

/-- Writing a bank reads nothing but the flash. -/
theorem State.writeBank_flash_congr {s t : State} (h : t.flash = s.flash) (b : Nat) (x : Built) :
    (t.writeBank b x).flash = (s.writeBank b x).flash := by
  simp only [State.writeBank, State.flashWrite, h]

theorem State.eraseSlot15_keeps_key (s : State) (m : Manifest) : Keeps [.key] s (s.eraseSlot15 m) :=
  State.eraseSlot15_keeps (.of rfl) (Keeps.refl s)

/-- The session of an image built in the bank not running (R372). -/
def UpdSt.built (u : UpdSt) (x : Built) : UpdSt :=
  { u with
    buildDone := true, builtFw := x.fw.length, builtTruss := x.truss.length,
    session := if u.down = .none then .verifying else .forwarding }

theorem State.imageBuild_builds {s : State} {i : U64} {m : Manifest} {key bs : List Byte} {x : Built}
    (hs : s.upd.session = .building) (hm : m = readManifest s.upd.man)
    (hbase : m.full = true ∨ (imageSha ((s.at_ i).bankFw s.boot.bank) = m.baseFw ∧
      trussSha ((s.at_ i).bankTrussBytes s.boot.bank) = m.baseTruss))
    (hkey : (s.at_ i).imageKey s.upd.cfg.wrapSlot m = .ok key)
    (hst : (s.at_ i).stagedStream (s.at_ i).stagingBase m key = (bs, true))
    (hb : buildStream ((s.at_ i).bankFw s.boot.bank) ((s.at_ i).bankTrussBytes s.boot.bank) m.full bs = (x, true)) :
    s.imageBuild i true = (((s.at_ i).writeBank (1 - s.boot.bank) x).eraseSlot15 m).setUpd fun u => u.built x := by
  subst hm
  simp only [State.imageBuild, State.at__upd, State.at__boot]
  rw [if_neg (by simp [hs]), if_neg (by rcases hbase with h | ⟨h1, h2⟩ <;> simp [*])]
  simp only [hkey, hst, hb]
  rfl

/-- The image read back over the staged stream (R373). -/
def State.readBack (s : State) (fw tr : List Byte) : State :=
  ((s.writeMem s.stagingBase fw).writeMem (s.stagingBase + bankTruss) tr).setUpd fun u => { u with manifestOk := false }

section
variable {s : State} {i : U64} {fw tr : List Byte} (hs : s.upd.session = .verifying)
  (hfw : fw = (s.at_ i).flashRead (bankBase (1 - s.boot.bank)) s.upd.builtFw)
  (htr : tr = (s.at_ i).flashRead (bankBase (1 - s.boot.bank) + bankTruss) s.upd.builtTruss)
include hs hfw htr

theorem State.imageVerify_ok {n : Truss} (h : builtCheck ((s.at_ i).readBack fw tr) (readManifest s.upd.man) fw tr = .ok n) :
    s.imageVerify i = post (((s.at_ i).readBack fw tr).sessionEnd .ok true .built) .notice 0x12 none 0 [] := by
  subst hfw htr
  unfold State.readBack at h
  simp only [State.imageVerify, State.at__upd, State.at__boot, h]
  rw [if_neg (by simp [hs])]
  rfl

theorem State.imageVerify_error {e : Status}
    (h : builtCheck ((s.at_ i).readBack fw tr) (readManifest s.upd.man) fw tr = .error e) :
    s.imageVerify i = (((s.at_ i).readBack fw tr).setUpd fun u => { u with next := 0 }).sessionEnd e true .failed := by
  subst hfw htr
  unfold State.readBack at h
  simp only [State.imageVerify, State.at__upd, State.at__boot, h]
  rw [if_neg (by simp [hs])]
  rfl

end

/-! ### Blocks taken by UPD_START -/

/-- What a session's blocks leave as it is, but for NEXT and the end of the session. -/
def UpdSt.marks (u : UpdSt) : Session × Option Desc × Bool × Word × Nat × Nat :=
  (u.session, u.cmd, u.head, u.imageId, u.total, u.next)

theorem State.endForward_marks {s : State} (h : s.upd.session = .receiving) : s.endForward.upd.marks = s.upd.marks := by
  simp only [State.endForward, State.setUpd_upd, State.clearFeed_upd, UpdSt.marks, h]
  rfl

theorem State.offerNext_marks {s : State} (h : s.upd.session = .receiving) : s.offerNext.upd.marks = s.upd.marks := by
  unfold State.offerNext
  cases s.upd.chain with
  | nil => exact State.endForward_marks h
  | cons e rest =>
    dsimp only
    rw [State.sendVia_upd]
    rfl

theorem State.manifestDone_marks {s t : State} (h : s.upd.session = .receiving) (ht : s.manifestDone = (t, none)) :
    t.upd.marks = s.upd.marks := by
  unfold State.manifestDone at ht
  extract_lets bs at ht
  split at ht
  · simp at ht
  · split at ht
    · simp at ht
    · obtain ⟨rfl, -⟩ := Prod.mk.inj ht
      exact State.offerNext_marks h

/-- A block taken advances NEXT, and the last one of a session has its image built. -/
theorem State.stageBlock_marks {s t : State} {b : List Byte} (h : s.upd.session = .receiving)
    (ht : s.stageBlock b = (t, none)) : t.upd.marks =
      (if s.upd.next + 1 = s.upd.total then .building else .receiving, s.upd.cmd, s.upd.head, s.upd.imageId, s.upd.total,
        s.upd.next + 1) := by
  unfold State.stageBlock at ht
  extract_lets u i a s1 s2 at ht
  have h1 : s1.upd = s.upd := (State.bump_upd _ _).trans rfl
  have h2 (v : State) (hv : s2 = (v, none)) : v.upd.marks = s.upd.marks := by
    rw [← h1]
    simp only [s2] at hv
    split at hv
    · exact State.manifestDone_marks (h1 ▸ h) hv
    · rw [(Prod.mk.inj hv).1]
  clear_value s2
  split at ht
  · simp at ht
  next v =>
    obtain ⟨rfl, -⟩ := Prod.mk.inj ht
    have hv := h2 v rfl
    simp only [UpdSt.marks, Prod.mk.injEq] at hv
    obtain ⟨hses, hcmd, hhead, hid, htot, -⟩ := hv
    simp only [UpdSt.marks, State.setUpd_upd, hses, hcmd, hhead, hid, htot, h]
    rfl

theorem State.takeBlock_marks {s t : State} {b : List Byte} (h : s.upd.session = .receiving)
    (ht : s.takeBlock b = (t, none)) : t.upd.marks =
      (if s.upd.next + 1 = s.upd.total then .building else .receiving, s.upd.cmd, s.upd.head, s.upd.imageId, s.upd.total,
        s.upd.next + 1) := by
  unfold State.takeBlock at ht
  split at ht
  · simp at ht
  · simp at ht
  · simp at ht
  · exact State.stageBlock_marks h ht

/-- A stream of blocks taken to its end leaves the session with all of them, its image to be built. -/
theorem State.takeBlocks_marks {size o : Nat} (k i : Nat) {s t : State} (h : s.upd.session = .receiving)
    (hn : s.upd.next + k = s.upd.total) (hk : 0 < k) (ht : s.takeBlocks size o i k = (t, none)) :
    t.upd.marks = (.building, s.upd.cmd, s.upd.head, s.upd.imageId, s.upd.total, s.upd.total) := by
  induction k generalizing s i with
  | zero => exact absurd hk (Nat.lt_irrefl 0)
  | succ k ih =>
    rw [State.takeBlocks] at ht
    split at ht
    · simp at ht
    next v hv =>
      have hm := State.takeBlock_marks h hv
      simp only [UpdSt.marks, Prod.mk.injEq] at hm
      obtain ⟨hses, hcmd, hhead, hid, htot, hnext⟩ := hm
      rcases Nat.eq_zero_or_pos k with rfl | hpos
      · obtain ⟨rfl, -⟩ := Prod.mk.inj ht
        rw [if_pos (by omega)] at hses
        simp only [UpdSt.marks, hses, hcmd, hhead, hid, htot, hnext, hn]
      · rw [if_neg (by omega)] at hses
        rw [ih (i + 1) hses (by omega) hpos ht, hcmd, hhead, hid, htot]

/-! ### UPD_START and UPD_ABORT -/

section
variable {s : State} {d : Desc} {o total co n db : Nat} {b : List Byte}
  (hb4 : d.byte 4 = 0xFF) (hst : s.inStates stSAY = true) (ho : o = (d.word 2).toNat) (ht : total = (d.word 3).toNat)
  (hco : co = (d.word 4).toNat) (hn : n = d.byte 20) (hb : b = s.readWin o 4116) (hdb : db = leAt b 0x20 4)
  (hz : d.unlistedZero [8, 9, 10, 11, 12, 13, 14, 15, 16, 17, 18, 19, 20] = true) (h63 : n ≤ 63)
  (hw : s.inWindow o (total * 4116) = true) (hwc : s.inWindow co (8 * n) = true) (h1 : 1 ≤ db) (h2 : db ≤ 7936)
  (hm : manifestBlocks db + db = total) (ha : s.upd.session.active = false)
  (hr : s.offerReason (BitVec.ofNat 32 (leAt b 4 4)) db false = none)

/-- The session that UPD_START starts as its head (R371). -/
def State.headSession (s : State) (d : Desc) (id : Word) (mb total n : Nat) (l : List HopEntry) : State :=
  (s.setHops l).setUpd fun u => { u with
    session := .receiving, cmd := some d, head := true, headMac := s.ethMac s.updCfg.port,
    imageId := id, cfg := s.updCfg, mb := mb, total := total, manifestOk := false,
    next := 0, lastBlock := s.time.elapsed, upMac := [], chain := l, chainAt := n, man := [], down := .none,
    nextDown := 0, sendNext := 0, sentTo := 0, buildDone := false }

include hb4 hst ho ht hco hn hb hdb hz h63 hw hwc h1 h2 hm ha hr

theorem State.updStart_takes {u t : State} (hu : u = s.headSession d (BitVec.ofNat 32 (leAt b 4 4)) (manifestBlocks db) total n
      (readHops (s.readWin co (8 * n)) n)) (hrun : u.takeBlocks 4116 o 0 total = (t, none)) : s.updStart d = t := by
  subst ho ht hco hn hu
  unfold State.headSession at hrun
  simp only [State.updStart, State.command_runs hb4 hst, ← hb, ← hdb]
  rw [if_neg (by simp [hz]; omega), if_neg (by simp [hw, hwc]), if_neg (by omega), if_neg (by simp [ha])]
  rw [hr]
  rw [show blockSize = 4116 from rfl]
  simp only [hrun]

theorem State.updStart_fails {u v : State} {e : Status} (hu : u = s.headSession d (BitVec.ofNat 32 (leAt b 4 4))
      (manifestBlocks db) total n (readHops (s.readWin co (8 * n)) n))
    (hrun : u.takeBlocks 4116 o 0 total = (v, some e)) : s.updStart d = v.sessionEnd e false .failed := by
  subst ho ht hco hn hu
  unfold State.headSession at hrun
  simp only [State.updStart, State.command_runs hb4 hst, ← hb, ← hdb]
  rw [if_neg (by simp [hz]; omega), if_neg (by simp [hw, hwc]), if_neg (by omega), if_neg (by simp [ha])]
  rw [hr]
  rw [show blockSize = 4116 from rfl]
  simp only [hrun]

end

/-- R381: UPD_ABORT ends a session, or discards a built image, and completes OK. -/
theorem State.updAbort_completes {s : State} {d : Desc} (hb : d.byte 4 = 0xFF) (hst : s.inStates stSAYM = true)
    (hz : d.unlistedZero [] = true) : s.updAbort d =
      (if s.upd.session = .built then s.sessionEnd .aborted false .idle
        else if s.upd.session.active then s.sessionEnd .aborted false .failed
        else s).complete d .ok := by
  simp only [State.updAbort, State.command_runs hb hst]
  rw [if_neg (by simp [hz])]

/-- Settles O51: the build, the check of what was built, the blocks of UPD_START taken one by one, and UPD_ABORT. -/
theorem imagesAreBuilt : Obligations.imagesAreBuilt := by
  refine ⟨fun s u i m key bs x hu hs hm hbase hkey hst hb => ?_, fun s u v i fw tr hu hs hfw htr hv => ?_,
    fun s u d o total co n db b l hb4 hst ho ht hco hn hb hdb hz h63 hw hwc h1 h2 hm ha hr hl hu => ⟨fun t hrun => ?_, fun v e hrun => ?_⟩,
    fun s d hb hst hz => ⟨_, next_of (State.updAbort_completes hb hst hz), fun h => ?_, fun h => ?_, fun h => ?_, fun hn ha => ?_,
      ⟨_, State.complete_held ..⟩, ?_⟩⟩
  · subst hu
    have hupd : (((s.at_ i).writeBank (1 - s.boot.bank) x).eraseSlot15 m).upd = s.upd :=
      ((State.eraseSlot15_keeps_key _ m).part .upd rfl).trans
        (((State.writeBank_keeps (W := [.flash]) (.of rfl) (Keeps.refl (s.at_ i))).part .upd rfl).trans (s.at__upd i))
    have hk := (State.at__keeps (t := i) (W := [.time, .upd, .flash, .key]) (.of rfl) (Keeps.refl s)).comp
      (State.eraseSlot15_keeps (m := m) (.of rfl) (State.writeBank_keeps (b := 1 - s.boot.bank) (x := x) (.of rfl) (Keeps.refl (s.at_ i))))
    have hflash : (((s.at_ i).writeBank (1 - s.boot.bank) x).eraseSlot15 m).flash = (s.writeBank (1 - s.boot.bank) x).flash :=
      ((State.eraseSlot15_keeps_key _ m).part .flash rfl).trans (State.writeBank_flash_congr (s.at__flash i) _ x)
    refine ⟨_, next_of (State.imageBuild_builds hs hm hbase hkey hst hb), ?_⟩
    generalize ((s.at_ i).writeBank (1 - s.boot.bank) x).eraseSlot15 m = z at hk hflash hupd ⊢
    rw [State.setUpd_upd, hupd]
    exact ⟨rfl, rfl, rfl, rfl, hflash, (State.setUpd_keeps (.of rfl) hk).onlyIn⟩
  · subst hu
    have hv' : v = (s.at_ i).readBack fw tr := hv
    subst hv'
    have hkeeps := State.imageVerify_keeps (t := i)
      (W := [.time, .upd, .mem, .que, .regs, .ethA, .ethB, .evr, .free, .hif, .outbox]) (.of rfl) (Keeps.refl s)
    refine ⟨_, rfl, fun n h => ?_, fun e h => ?_, hkeeps.part .flash rfl, hkeeps.onlyIn⟩
    · rw [State.imageVerify_ok hs hfw htr h, post_upd, State.sessionEnd_upd]
      exact ⟨rfl, rfl⟩
    · rw [State.imageVerify_error hs hfw htr h, State.sessionEnd_upd]
      exact ⟨rfl, rfl, rfl⟩
  · have hu' : u = s.headSession d (BitVec.ofNat 32 (leAt b 4 4)) (manifestBlocks db) total n
        (readHops (s.readWin co (8 * n)) n) := hl ▸ hu
    have hrun' := State.updStart_takes hb4 hst ho ht hco hn hb hdb hz h63 hw hwc h1 h2 hm ha hr hu' hrun
    have hkeeps := State.updStart_keeps (d := d) (W := [.ethA, .ethB, .evr, .free, .hif, .mem, .outbox, .que, .regs, .upd])
      (.of rfl) (Keeps.refl s)
    have hmarks := State.takeBlocks_marks total 0 (s := u) (by rw [hu']; rfl) (by rw [hu']; exact Nat.zero_add _) (by omega) hrun
    rw [hu'] at hmarks
    simp only [UpdSt.marks, Prod.mk.injEq] at hmarks
    obtain ⟨hses, hcmd, hhead, hid, htot, hnext⟩ := hmarks
    rw [hrun'] at hkeeps
    exact ⟨next_of hrun', hses, hnext, htot, hhead, hcmd, hid, hkeeps.onlyIn⟩
  · have hu' : u = s.headSession d (BitVec.ofNat 32 (leAt b 4 4)) (manifestBlocks db) total n
        (readHops (s.readWin co (8 * n)) n) := hl ▸ hu
    have hrun' := State.updStart_fails hb4 hst ho ht hco hn hb hdb hz h63 hw hwc h1 h2 hm ha hr hu' hrun
    have hkeeps := State.updStart_keeps (d := d) (W := [.ethA, .ethB, .evr, .free, .hif, .mem, .outbox, .que, .regs, .upd])
      (.of rfl) (Keeps.refl s)
    rw [hrun'] at hkeeps
    refine ⟨_, next_of hrun', ?_⟩
    rw [State.sessionEnd_upd]
    exact ⟨rfl, rfl, rfl, rfl, hkeeps.onlyIn⟩
  · rw [State.complete_upd, if_pos h, State.sessionEnd_upd]
  · have hne : s.upd.session ≠ .built := fun hb => by simp [hb, Session.active] at h
    rw [State.complete_upd, if_neg hne, if_pos h, State.sessionEnd_upd]
  · rw [State.complete_upd]
    split
    · rw [State.sessionEnd_upd]
      exact ⟨rfl, rfl⟩
    · rw [if_pos (h.resolve_left ‹_›), State.sessionEnd_upd]
      exact ⟨rfl, rfl⟩
  · rw [State.complete_upd, if_neg hn, if_neg (by simp [ha])]
  · have hk {next : Session} := State.sessionEnd_keeps (st := .aborted) (tell := false) (next := next)
      (W := [.upd, .que, .regs, .ethA, .ethB, .hif, .outbox]) (.of rfl) (Keeps.refl s)
    exact (State.complete_keeps (.of rfl) (Keeps.ite hk (Keeps.ite hk (Keeps.refl s)))).onlyIn

end Sys2Proof.Machine

/-! Activation, trial and the resident loader (O52). -/

namespace Sys2Proof.Machine

/-! ### The bank record -/

theorem State.bankRec_congr {s t : State} (h : t.flash = s.flash) : t.bankRec = s.bankRec := by
  simp only [State.bankRec, State.bankRecAt, State.flashRead, h]

theorem State.writeBankRec_flash_congr {s t : State} (h : t.flash = s.flash) (r : BankRec) :
    (t.writeBankRec r).flash = (s.writeBankRec r).flash := by
  have hat : t.bankRecAt = s.bankRecAt := by simp only [State.bankRecAt, State.flashRead, h]
  unfold State.writeBankRec
  rw [hat]
  cases s.bankRecAt <;> simp only [State.flashWrite, h]

theorem State.writeBankRec_keeps_flash (s : State) (r : BankRec) : Keeps [.flash] s (s.writeBankRec r) :=
  State.writeBankRec_keeps (.of rfl) (Keeps.refl s)

/-! ### The truss that comes into force -/

/-- A truss comes into force without a session's being ended, unless one stands in a staging partition that has moved. -/
theorem State.applyTruss_or_ends (s : State) (src : TrussSource) (new : Truss) : ∃ u, Keeps (Part.but .upd) s u ∧
    (s.applyTruss src new = u ∨
      (u.upd.session.active = true ∨ u.upd.session = .built) ∧ s.applyTruss src new = u.sessionEnd .aborted false .failed) := by
  have hu : Keeps (Part.but .upd) s (s.abortSpans .aborted) := State.abortSpans_keeps (.of rfl) (Keeps.refl s)
  unfold State.applyTruss
  generalize s.abortSpans .aborted = u at hu ⊢
  extract_lets v old ext
  have h1 : Keeps (Part.but .upd) s (ite ext (v, none) v.dropExtension).1 :=
    Keeps.iteFst hu (State.dropExtension_keeps (.of rfl) hu)
  generalize (ite ext (v, none) v.dropExtension) = r at h1 ⊢
  obtain ⟨s1, gone⟩ := r
  simp -zeta only at h1 ⊢
  extract_lets s2 e s3 s4 s4' s5 s6 s7
  have h3 : Keeps (Part.but .upd) s s3 := Keeps.set_evr (by decide) (State.setTruss_keeps (.of rfl)
    (State.reloadQueues_keeps (.of rfl) (State.reloadTables_keeps (.of rfl) (State.reloadMemory_keeps (.of rfl) h1))))
  have h4 : Keeps (Part.but .upd) s s4 := State.setTime_keeps (.of rfl) (State.setReg_keeps (.of rfl) h3)
  have h5 : Keeps (Part.but .upd) s s5 := by
    have h4' : Keeps (Part.but .upd) s s4' := Keeps.ite h4 (State.newRole_keeps (.of rfl) h4)
    exact Keeps.ite h4' (State.calEmpty_keeps (.of rfl) h4')
  have h7 : Keeps (Part.but .upd) s s7 := post_keeps (.of rfl) (State.mrExtend_keeps (.of rfl)
    (State.noteDiscard_keeps (.of rfl) (State.assignRoles_keeps (.of rfl) h5)))
  clear_value s7
  refine ⟨s7, h7, ?_⟩
  split
  next h => exact .inr ⟨h.2, rfl⟩
  next => exact .inl rfl

/-- With no session, a truss comes into force and leaves the update unit as it is. -/
theorem State.applyTruss_upd {s : State} (h : s.upd.session = .idle) (src : TrussSource) (new : Truss) :
    (s.applyTruss src new).upd = s.upd := by
  obtain ⟨u, hk, hu | ⟨hs, -⟩⟩ := s.applyTruss_or_ends src new
  · rw [hu]
    exact hk.part .upd rfl
  · rw [show u.upd = s.upd from hk.part .upd rfl, h] at hs
    exact absurd hs (by decide)

/-! ### Activation (R376, R377) -/

theorem State.writeDefaults_upd (s : State) (old : Nat) (m : Manifest) (ver : Word) :
    (s.writeDefaults old m ver).upd = { s.upd with defaulted := true } := by
  unfold State.writeDefaults
  extract_lets serial o s1 s2
  exact post_upd ..

theorem State.refuseTruss_truss (s : State) (r : Refused) : (s.refuseTruss r).truss.truss = s.truss.truss := rfl

/-- What a restart on a new bank leaves, before the settings and the record (steps 1 and 2 of Table 17-7). -/
theorem State.restartOn_spec (s : State) (d : Desc) (m : Manifest) (new : Truss) (fw : List Byte) (keep : Bool) (old : Nat) :
    let t := s.restartOn d m new fw keep old
    t.upd.session = .idle ∧ t.upd.activation = some d ∧ t.upd.resumeDue = true ∧ t.boot.bank = 1 - s.boot.bank ∧
      t.truss.truss = new ∧ t.truss.loaded = true := by
  unfold State.restartOn
  extract_lets b s1 s2 s3
  have hupd : s1.upd = { s.upd with session := .idle, activation := some d, resumeDue := true } := State.applyTruss_upd rfl _ _
  have htruss : s1.truss.truss = new ∧ s1.truss.loaded = true := by
    simp only [s1, State.applyTruss_truss]
    trivial
  clear_value s1
  have h3 : s3.upd = { s1.upd with defaulted := !keep } := by
    cases hk : keep with
    | true => simp only [s3, hk, if_true, State.setUpd_upd]; rfl
    | false =>
      simp only [s3, hk, Bool.false_eq_true, if_false, State.writeDefaults_upd]
      rfl
  have hk3 : Keeps [.evr, .hif, .que, .upd, .flash, .regs, .outbox, .free] s2 s3 :=
    Keeps.ite (State.setUpd_keeps (.of rfl) (Keeps.refl s2)) (State.writeDefaults_keeps (.of rfl) (Keeps.refl s2))
  have hk4 : Keeps [.evr, .hif, .que, .regs, .outbox, .free] s3 (s3.restartAudit m fw) :=
    State.restartAudit_keeps (.of rfl) (Keeps.refl s3)
  have hbank : (s3.restartAudit m fw).boot.bank = b :=
    congrArg BootSt.bank ((show _ = s3.boot from hk4.part .boot rfl).trans (hk3.part .boot rfl))
  have ht : (s3.restartAudit m fw).truss = s1.truss :=
    (show _ = s3.truss from hk4.part .truss rfl).trans (hk3.part .truss rfl)
  rw [hbank, ht, show _ = s3.upd from hk4.part .upd rfl, h3, hupd]
  exact ⟨rfl, rfl, rfl, rfl, htruss⟩

/-- R376: a staged truss that verifies comes into force, and the other bank runs on trial. -/
theorem State.updActivate_runs {s u : State} {d : Desc} (hb : d.byte 4 = 0xFF) (hst : s.inStates stSAY = true)
    (hz : d.unlistedZero [] = true) (hs : s.upd.session = .built) (ha : s.auditFits 25 = true) (hm : s.tbl.migration = none)
    (hu : u = (s.writeBankRec (s.trialRec (readManifest s.upd.man))).enterMaintenance) :
    (∀ n : Truss, verifyTruss u (s.readMem (s.stagingBase + bankTruss) s.upd.builtTruss) = .ok n →
      s.updActivate d = u.restartOn d (readManifest s.upd.man) n (s.readMem s.stagingBase s.upd.builtFw)
        (s.keepsSettings (readManifest s.upd.man)) s.bankRec.settings) ∧
    (∀ r : Refused, verifyTruss u (s.readMem (s.stagingBase + bankTruss) s.upd.builtTruss) = .error r →
      s.updActivate d = ((((u.refuseTruss r).writeBankRec s.bankRec).setTruss fun t => { t with resume := true }).setUpd
        fun u => { u with lastStatus := r.reason.status }).complete d r.reason.status) := by
  have hact : s.upd.session.active = false := by rw [hs]; rfl
  subst hu
  refine ⟨fun n hv => ?_, fun r hv => ?_⟩
  · simp only [State.updActivate, State.command_runs hb hst]
    rw [if_neg (by simp [hz]), if_neg (by simp [hact]), if_neg (by simp [hs]), if_neg (by simp [ha])]
    simp only [State.afterMigration, hm, hv]
  · simp only [State.updActivate, State.command_runs hb hst]
    rw [if_neg (by simp [hz]), if_neg (by simp [hact]), if_neg (by simp [hs]), if_neg (by simp [ha])]
    simp only [State.afterMigration, hm, hv]

/-! ### The state resumed -/

theorem State.resumeService_state {s : State} (h : s.sys.state = .maintenance) : s.resumeService.sys.state = s.sys.held := by
  have hair (u : State) : u.settleAir.sys = u.sys :=
    (State.settleAir_keeps (W := Part.but .sys) (.of rfl) (Keeps.refl u)).part .sys rfl
  have hhold (u : State) : u.holdoverAtEntry.sys = u.sys :=
    (State.holdoverAtEntry_keeps (W := Part.but .sys) (.of rfl) (Keeps.refl u)).part .sys rfl
  unfold State.resumeService
  rw [if_neg (by simp [h])]
  simp only
  rw [hair]
  split
  next he => rw [hhold, (State.normalAssert_sys _).1, State.enter_state]
  next he => rw [State.standbyAtEntry_sys, State.enter_state]
  next => exact State.enter_state ..

theorem State.resumeService_upd (s : State) : s.resumeService.upd = s.upd :=
  (State.resumeService_keeps (W := Part.but .upd) (.of rfl) (Keeps.refl s)).part .upd rfl

theorem State.activationResume_completes {s : State} {i : U64} {d : Desc} (h : s.upd.activation = some d) :
    s.activationResume i = ((((s.at_ i).setUpd fun u =>
      { u with activation := none, resumeDue := false, lastStatus := .ok }).resumeService).complete d .ok).startTrial := by
  simp only [State.activationResume, State.at__upd, h]

/-! ### The trial (R378) -/

section
variable {s : State} {d : Desc}

theorem State.updConfirm_confirms (hb : d.byte 4 = 0xFF) (hst : s.inStates [.active, .standby] = true)
    (hz : d.unlistedZero [] = true) (ht : s.upd.trial ≠ none) (hrun : s.evr.running = true)
    (hroom : s.evr.rsvUsed + 20 ≤ evrReserved) : ∃ u, u = (s.postAsk .audit 0x12 none 3 [s.bankRec.imageId]).1 ∧
      s.updConfirm d = (((((u.writeBankRec { u.bankRec with trial := false, fellBack := false }).setUpd fun u =>
        { u with trial := none }).setFld Reg.UPD_BANK 4 4 0).complete d .ok).raise 19) := by
  have hw := State.postAsk_audit_written (s := s) (src := 0x12) (ev := 3) (st := none) (pl := [s.bankRec.imageId]) hrun hroom
  have hnone : ¬ (s.upd.trial.isNone = true) := by simpa [Option.isNone_iff_eq_none] using ht
  refine ⟨_, rfl, ?_⟩
  simp only [State.updConfirm, State.command_runs hb hst]
  rw [if_neg (by simp [hz]), if_neg hnone]
  cases hp : s.postAsk .audit 0x12 none 3 [s.bankRec.imageId] with
  | mk u ok =>
    rw [hp] at hw
    subst hw
    rfl

end

theorem State.trialExpiry_falls {s : State} {i : U64} (ht : s.upd.trial ≠ none) (ha : s.sys.state ≠ .alarm)
    (hl : (s.at_ i).trialLeft = 0) : ∃ u, Keeps [.time, .flash, .hif, .regs, .outbox] s u ∧
      u.flash = (s.writeBankRec s.bankRec.fallBack).flash ∧
      s.trialExpiry i = (u.warmBoot 0).setBoot fun b => { b with held := b.held ++ [(.warning, 0x12, none, 0, [])] } := by
  have hk := (s.at_ i).writeBankRec_keeps_flash (s.at_ i).bankRec.fallBack
  have hfl : ((s.at_ i).writeBankRec (s.at_ i).bankRec.fallBack).flash = (s.writeBankRec s.bankRec.fallBack).flash := by
    rw [State.bankRec_congr (s.at__flash i), State.writeBankRec_flash_congr (s.at__flash i)]
  refine ⟨_, ?_, ?_, if_neg (by simp [ht, ha, hl])⟩
  · exact State.raise_keeps (.of rfl) (State.setFld_keeps (.of rfl)
      ((State.at__keeps (.of rfl) (Keeps.refl s)).comp (hk.widen (.of rfl))))
  · rw [State.raise_flash, State.setFld_flash, hfl]

/-! ### The resident loader (R380) -/

section
variable {s : State} {d : Desc} (tests : List Bool) (hb : d.byte 4 = 0xFF) (h8 : d.byte 8 < 2) (hz : d.unlistedZero [8] = true)
include hb h8 hz

theorem State.updResident_resets (hst : s.inStates stSAYM = true) (hbank : d.byte 8 = s.boot.bank)
    (hm : s.upd.manifestOk = true) (hn : s.upd.next = s.upd.total) (hf : (readManifest s.upd.man).full = true)
    (hd : s.upd.down = .none) : s.updResident d tests = ((s.writeBankRec { s.bankRec with resident := true }).setUpd fun u =>
      { u with resident := some (d.byte 8, s.stagingBase) }).warmBoot 0 := by
  have hnb : s.sys.state ≠ .boot := fun h => by simp [State.inStates, stSAYM, h] at hst
  simp only [State.updResident]
  rw [if_neg (by simp [hb]), if_neg (by simp [hst]), if_neg (by simp [hz]; omega), if_neg hnb,
    if_neg (by simp [hbank, hm, hn, hf, hd])]

theorem State.updResident_loads (hst : s.sys.state = .boot) (hr : s.boot.stage = .recovery) {u : State} {st : Status}
    (hl : s.residentLoad (d.byte 8) 0 = (u, st)) : s.updResident d tests = (u.complete d st).bootBanks tests := by
  simp only [State.updResident]
  rw [if_neg (by simp [hb]), if_neg (by simp [hst, hr]), if_neg (by simp [hz]; omega), if_pos hst]
  simp only [hl]

end

/-- Settles O52: an activation through `restartOn`, its resumption through `resumeService`, and the two resets through the
warm boot. -/
theorem activations : Obligations.activations := by
  refine ⟨fun s u d tr hb hst hz hs ha hm htr hu => ?_, fun s i d h => ?_, fun s d hb hst hz ht hrun hroom => ?_,
    fun s i hs ht ha hr hl => ?_, fun s d tests hb h8 hz => ⟨fun hs hst hbank hm hn hf hd => ?_,
      fun hst hr u st hl => next_of (State.updResident_loads tests hb h8 hz hst hr hl)⟩⟩
  · subst htr
    obtain ⟨hok, herr⟩ := State.updActivate_runs hb hst hz hs ha hm hu
    have hk : Keeps [.flash, .sys, .time, .evr, .hif, .spanc, .tbl, .que, .tol, .cip, .cal, .rf, .red, .regs, .ctxs, .outbox,
        .free] s u :=
      hu ▸ State.enterMaintenance_keeps (.of rfl) ((s.writeBankRec_keeps_flash _).widen (.of rfl))
    have hupd : u.upd = s.upd := hk.part .upd rfl
    have hboot : u.boot = s.boot := hk.part .boot rfl
    have htruss : u.truss = s.truss := hk.part .truss rfl
    refine ⟨fun n hv => ⟨_, next_of (hok n hv), ?_⟩, fun r hv => ⟨_, next_of (herr r hv), ?_⟩⟩
    · rw [← hboot]
      exact u.restartOn_spec ..
    · have hw := (u.refuseTruss r).writeBankRec_keeps_flash s.bankRec
      have hwupd : ((u.refuseTruss r).writeBankRec s.bankRec).upd = s.upd := (hw.part .upd rfl).trans hupd
      have hwboot : ((u.refuseTruss r).writeBankRec s.bankRec).boot = s.boot := (hw.part .boot rfl).trans hboot
      have hwtruss : ((u.refuseTruss r).writeBankRec s.bankRec).truss.truss = s.truss.truss :=
        (congrArg TrussSt.truss (hw.part .truss rfl)).trans ((u.refuseTruss_truss r).trans (congrArg TrussSt.truss htruss))
      refine ⟨?_, ?_, ?_, ?_, ?_, ⟨_, State.complete_held ..⟩⟩
      · rw [State.complete_upd, State.setUpd_upd]
      · rw [State.complete_upd, State.setUpd_upd, State.setTruss_upd, hwupd, hs]
      · rw [State.complete_truss, State.setUpd_truss, State.setTruss_truss]
      · rw [State.complete_truss, State.setUpd_truss, State.setTruss_truss, hwtruss]
      · rw [State.complete_boot, State.setUpd_boot, State.setTruss_boot, hwboot]
  · refine ⟨_, next_of (State.activationResume_completes h), ?_⟩
    generalize hz : ((s.at_ i).setUpd fun u => { u with activation := none, resumeDue := false, lastStatus := .ok }) = z
    have hzsys : z.sys = s.sys := by rw [← hz, State.setUpd_sys, State.at__sys]
    have hupd : z.resumeService.upd = z.upd := z.resumeService_upd
    have helapsed : z.resumeService.time.elapsed = (s.at_ i).time.elapsed := by
      rw [State.elapsed_of_clock z.resumeService_clock, ← hz]
      rfl
    have ht : ((z.resumeService.complete d .ok).startTrial).upd =
        { z.upd with trial := some 30000000000, trialAt := (s.at_ i).time.elapsed } := by
      rw [State.startTrial, State.raise_upd, State.setUpd_upd, State.complete_upd, hupd, State.complete_time, helapsed]
    have hzupd : z.upd = { s.upd with activation := none, resumeDue := false, lastStatus := .ok } := by
      rw [← hz, State.setUpd_upd, State.at__upd]
    rw [ht, hzupd]
    refine ⟨rfl, rfl, rfl, rfl, rfl, fun hm => ?_, ?_⟩
    · rw [State.startTrial, State.raise_sys, State.setUpd_sys, State.complete_sys, ← hzsys]
      exact State.resumeService_state (by rw [hzsys, hm])
    · rw [State.startTrial, State.raise_held, State.setUpd_hif, State.complete_held]
      exact ⟨_, rfl⟩
  · obtain ⟨u, hu, hconf⟩ := State.updConfirm_confirms hb hst hz ht hrun hroom
    have hk : Keeps [.evr, .hif, .que, .regs, .outbox, .free] s u := hu ▸ State.postAsk_keeps (.of rfl) (Keeps.refl s)
    have hheld : u.hif.held = s.hif.held := hu ▸ s.postAsk_held ..
    have hfl : u.flash = s.flash := hk.part .flash rfl
    have hw := u.writeBankRec_keeps_flash { u.bankRec with trial := false, fellBack := false }
    refine ⟨_, next_of hconf, ?_, ?_, ?_, ?_⟩
    · rw [State.raise_upd, State.complete_upd, State.setFld_upd, State.setUpd_upd, show _ = u.upd from hw.part .upd rfl,
        show u.upd = s.upd from hk.part .upd rfl]
    · rw [State.raise_flash, State.complete_flash, State.setFld_flash, State.setUpd_flash, State.bankRec_congr hfl,
        State.writeBankRec_flash_congr hfl]
    · rw [State.raise_held, State.complete_held, State.setFld_hif, State.setUpd_hif, show _ = u.hif from hw.part .hif rfl, hheld]
    · exact (State.raise_keeps (.of rfl) (State.complete_keeps (.of rfl) (State.setFld_keeps (.of rfl) (State.setUpd_keeps (.of rfl)
        ((hk.widen (.of rfl)).comp (hw.widen (.of rfl))))))).onlyIn
  · obtain ⟨u, hk, hfl, hrun⟩ := State.trialExpiry_falls (i := i) ht ha hl
    have hne : u.sys.state ≠ .reset := by rwa [show u.sys = s.sys from hk.part .sys rfl]
    obtain ⟨hst, hflash, -, hslots, hcause⟩ := State.warmBoot_enters_reset (hk.tidy hs) hne 0
    exact ⟨_, next_of hrun, hst, hflash.trans hfl, hslots, hcause⟩
  · have hrun := State.updResident_resets tests hb h8 hz hst hbank hm hn hf hd
    have hw := s.writeBankRec_keeps_flash { s.bankRec with resident := true }
    generalize s.writeBankRec { s.bankRec with resident := true } = u at hrun hw ⊢
    have hk : Keeps [.flash, .upd] s (u.setUpd fun u => { u with resident := some (d.byte 8, s.stagingBase) }) :=
      State.setUpd_keeps (.of rfl) (hw.widen (.of rfl))
    have hne : s.sys.state ≠ .reset := fun h => by simp [State.inStates, stSAYM, h] at hst
    obtain ⟨hreset, hflash, -, hslots, -⟩ := State.warmBoot_enters_reset (hk.tidy hs)
      (by rwa [show _ = s.sys from hk.part .sys rfl]) 0
    exact ⟨_, next_of hrun, hreset, hflash, hslots⟩

end Sys2Proof.Machine

/-! Calibration jobs: where each is placed (O17). -/

namespace Sys2Proof.Machine

/-! ### What a calibration is chosen from -/

section
variable (s : State) (i : U64) (c : Nat)

@[simp] theorem State.at__tickNs : (s.at_ i).tickNs = s.tickNs := by
  simp only [State.tickNs, State.at__tp]

@[simp] theorem State.at__edgeNs : (s.at_ i).edgeNs = s.edgeNs := by
  simp only [State.edgeNs, State.at__tick, State.at__tickNs]

theorem State.at__calEntry (k : Nat) : (s.at_ i).calEntry c k = s.calEntry c k := by
  simp only [State.calEntry, State.at__tp, State.at__cal]

@[simp] theorem State.at__calDelta (k : Nat) : (s.at_ i).calDelta c k = s.calDelta c k := by
  simp only [State.calDelta, State.chainTemp, State.at__regFld, State.at__calEntry, State.at__cal]

theorem State.at__calCond (k : Nat) : (s.at_ i).calCond c k = s.calCond c k := by
  simp only [State.calCond, State.at__calEntry, State.at__calDelta]

@[simp] theorem State.at__calIn (x : CalCond) : (s.at_ i).calIn c x = s.calIn c x := by
  simp only [State.calIn, State.at__tp, State.at__calCond]

@[simp] theorem State.at__calChains : (s.at_ i).calChains = s.calChains := by
  simp only [State.calChains, State.at__tp, State.at__reg]

@[simp] theorem State.at__calJob : (s.at_ i).calJob c = s.calJob c := by
  simp only [State.calJob, State.at__cal]

@[simp] theorem State.at__calBlock : (s.at_ i).calBlock c = s.calBlock c := by
  simp only [State.calBlock, State.at__cal, State.at__tp, State.at__calChains, State.at__calIn]

theorem State.at__calBefore : (s.at_ i).calBefore c = s.calBefore c := by
  funext a b
  simp only [State.calBefore, State.at__calCond, State.at__calDelta]

@[simp] theorem State.at__calOrder : (s.at_ i).calOrder c = s.calOrder c := by
  simp only [State.calOrder, State.calPending, State.at__cal, State.at__calBefore]

end

/-! ### Jobs added one by one -/

/-- The chains with the jobs `l` after those they have. -/
def State.withJobs (s : State) (l : List CalJob) : State := s.setCalSt fun x => { x with jobs := x.jobs ++ l }

theorem State.withJobs_nil (s : State) : s.withJobs [] = s := by
  simp only [State.withJobs, State.setCalSt, List.append_nil]

theorem State.withJobs_withJobs (s : State) (l m : List CalJob) : (s.withJobs l).withJobs m = s.withJobs (l ++ m) := by
  simp only [State.withJobs, State.setCalSt, List.append_assoc]

theorem State.calJob_withJobs (s : State) (l : List CalJob) (c : Nat) :
    (s.withJobs l).calJob c = (s.calJob c).or (l.find? fun j => j.chain = c) :=
  List.find?_append

theorem State.calJob_withJobs_none {s : State} {l : List CalJob} {c : Nat} (h : s.calJob c = none) (hl : ∀ x ∈ l, x.chain ≠ c) :
    (s.withJobs l).calJob c = none := by
  rw [State.calJob_withJobs, h, Option.none_or, List.find?_eq_none]
  simpa using hl

theorem State.calBlock_withJobs {s : State} {l : List CalJob} {c : Nat} (hl : ∀ x ∈ l, x.chain ≠ c) :
    (s.withJobs l).calBlock c = s.calBlock c := by
  have h : (l.any fun j => j.chain = c && j.rank = 1) = false := by
    rw [List.any_eq_false]
    intro x hx
    simp [hl x hx]
  have hany : ((s.cal.jobs ++ l).any fun j => j.chain = c && j.rank = 1) = s.cal.jobs.any fun j => j.chain = c && j.rank = 1 := by
    rw [List.any_append, h, Bool.or_false]
  simp only [State.calBlock]
  exact congrArg (fun b => b || _) hany

section
variable {z : State} {f : State → Nat → State}
  (hstep : ∀ l k, ∃ m, f (z.withJobs l) k = z.withJobs (l ++ m) ∧ ∀ x ∈ m, x.chain = k)
include hstep

/-- A pass over the chains adds jobs, and does nothing else. -/
theorem foldl_withJobs (cs : List Nat) (l : List CalJob) : ∃ m, cs.foldl f (z.withJobs l) = z.withJobs (l ++ m) := by
  induction cs generalizing l with
  | nil => exact ⟨[], by rw [List.append_nil]; rfl⟩
  | cons k cs ih =>
    obtain ⟨m, hm, -⟩ := hstep l k
    obtain ⟨n, hn⟩ := ih (l ++ m)
    exact ⟨m ++ n, by rw [List.foldl_cons, hm, hn, List.append_assoc]⟩

/-- A pass over the chains gives a chain without a job the one that is placed on it. -/
theorem foldl_places {j : CalJob} (hz : z.calJob j.chain = none)
    (hplace : ∀ l, (∀ x ∈ l, x.chain ≠ j.chain) → f (z.withJobs l) j.chain = z.withJobs (l ++ [j])) {cs : List Nat}
    (hc : j.chain ∈ cs) (l : List CalJob) (hl : ∀ x ∈ l, x.chain ≠ j.chain) :
    (cs.foldl f (z.withJobs l)).calJob j.chain = some j := by
  induction cs generalizing l with
  | nil => exact absurd hc List.not_mem_nil
  | cons k cs ih =>
    rw [List.foldl_cons]
    by_cases hk : k = j.chain
    · obtain ⟨m, hm⟩ := foldl_withJobs hstep cs (l ++ [j])
      have hnone : (l.find? fun x => x.chain = j.chain) = none := List.find?_eq_none.mpr (by simpa using hl)
      rw [hk, hplace l hl, hm, State.calJob_withJobs, hz, Option.none_or, List.append_assoc, List.find?_append, hnone]
      simp
    · obtain ⟨m, hm, hmk⟩ := hstep l k
      rw [hm]
      refine ih ((List.mem_cons.mp hc).resolve_left (Ne.symm hk)) (l ++ m) fun x hx => ?_
      rcases List.mem_append.mp hx with h | h
      · exact hl x h
      · rw [hmk x h]
        exact hk

end

/-! ### The sweep (R146) -/

/-- The job of a sweep on chain `c`. -/
def State.sweepJob (s : State) (c : Nat) : CalJob :=
  { chain := c, kind := 1, rank := 10, entries := (s.calIn c .empty).take ((s.tickNs - 110000) / 200000),
    start := s.edgeNs + 100000, due := s.edgeNs + s.tickNs }

/-- The sweep of one chain. -/
def State.sweepPlace (s : State) (c : Nat) : State :=
  if (s.sweepJob c).entries = [] ∨ (s.calJob c).isSome ∨ s.calBlock c then s else s.withJobs [s.sweepJob c]

theorem State.calibrationSweep_places {s : State} {i : U64} (hst : s.inStates [.structured, .maintenance] = true)
    (hf : s.tp.calFull = true) (hd : (s.at_ i).placementDue = true) :
    s.calibrationSweep i = s.calChains.foldl State.sweepPlace (s.at_ i).notePlaced := by
  have hgo : ¬ ((!(s.at_ i).inStates [.structured, .maintenance] || !(s.at_ i).tp.calFull || !(s.at_ i).placementDue) = true) := by
    simp [hst, hf, hd]
  rw [← State.at__calChains s i]
  exact if_neg hgo

theorem State.sweepJob_withJobs (s : State) (l : List CalJob) (c : Nat) : (s.withJobs l).sweepJob c = s.sweepJob c := rfl

theorem State.sweepPlace_step (z : State) (l : List CalJob) (k : Nat) :
    ∃ m, (z.withJobs l).sweepPlace k = z.withJobs (l ++ m) ∧ ∀ x ∈ m, x.chain = k := by
  unfold State.sweepPlace
  split
  · exact ⟨[], by rw [List.append_nil], fun x h => absurd h List.not_mem_nil⟩
  · exact ⟨_, State.withJobs_withJobs .., fun x h => by rw [List.mem_singleton.mp h]; rfl⟩

/-- A chain with empty entries and no other job takes the sweep's. -/
theorem State.sweepPlace_places {z : State} {c : Nat} (hj : z.calJob c = none) (hb : z.calBlock c = false)
    (hn : (z.sweepJob c).entries ≠ []) {l : List CalJob} (hl : ∀ x ∈ l, x.chain ≠ c) :
    (z.withJobs l).sweepPlace c = z.withJobs (l ++ [z.sweepJob c]) := by
  have hne : ((z.withJobs l).sweepJob c).entries ≠ [] := hn
  rw [State.sweepPlace, if_neg (by simp [hne, State.calJob_withJobs_none hj hl, State.calBlock_withJobs hl, hb]),
    State.withJobs_withJobs, State.sweepJob_withJobs]

/-! ### The background job (R151, R153) -/

/-- A gap begins at the instant it is sought from, or later. -/
theorem State.calGap_start {s : State} {l : List Claim} {from_ edge a n : Nat} (h : s.calGap l from_ edge = some (a, n)) :
    from_ ≤ a := by
  have hstarts : ∀ x ∈ from_ :: ((l.map fun x => s.occupiedTo x).filter fun z => decide (from_ < z ∧ z < edge)), from_ ≤ x := by
    intro x hx
    rcases List.mem_cons.mp hx with rfl | hx
    · exact Nat.le_refl _
    · have hlate := of_decide_eq_true (List.mem_filter.mp hx).2
      omega
  unfold State.calGap at h
  revert a n
  refine List.foldlRecOn _ _ (motive := fun m : Option (Nat × Nat) => ∀ {a n : Nat}, m = some (a, n) → from_ ≤ a)
    (fun h => by simp at h) fun m hm x hx a n h => ?_
  have hx' := hstarts x hx
  split at h
  · split at h
    · split at h
      · split at h
        · simp only [Option.some.injEq, Prod.mk.injEq] at h
          omega
        · exact hm h
      · simp only [Option.some.injEq, Prod.mk.injEq] at h
        omega
    · exact hm h
  · exact hm h

theorem State.calFits_mem {s : State} {edge c rank : Nat} {j : CalJob} (h : s.calFits edge c rank = some j) :
    j.chain = c ∧ j.kind = 1 ∧ j.rank = rank ∧ j.entries.length ≤ s.tp.calBudget / 200 ∧ edge + 100000 ≤ j.start ∧
      j.due = edge + s.tickNs := by
  unfold State.calFits at h
  extract_lets l at h
  split at h
  · simp at h
  next a g hg =>
    dsimp only at h
    split at h
    · simp at h
    · obtain rfl := Option.some.inj h
      have hstart := State.calGap_start hg
      exact ⟨rfl, rfl, rfl, Nat.le_trans (List.length_take_le _ _) (by omega), hstart, rfl⟩

theorem State.calChoose_of_unstarved {s : State} (h : s.cal.starved = []) (edge c : Nat) :
    s.calChoose edge c = s.calFits edge c 10 := by
  unfold State.calChoose
  split
  next j _ =>
    rw [if_neg]
    simp [State.holdsStarved, h]
  next => rfl

/-- The background job of a chain that nothing else is claimed on: its pending entries, as many as the tick and the budget
hold. -/
def State.backgroundJob (s : State) (c : Nat) : CalJob :=
  { chain := c, kind := 1, rank := 10, start := s.edgeNs + 100000, due := s.edgeNs + s.tickNs,
    entries := (s.calOrder c).take (min (s.calOrder c).length (min ((s.tickNs - 100000) / 200000) (s.tp.calBudget / 200))) }

theorem State.calGap_nil {s : State} {a e : Nat} (h : a + 200000 ≤ e) : s.calGap [] a e = some (a, e - a) := by
  have hend : s.gapEnd [] a e = some e := rfl
  unfold State.calGap
  extract_lets starts
  have hs : starts = [a] := rfl
  rw [hs, List.foldl_cons, List.foldl_nil, hend]
  exact if_pos h

theorem State.calFits_of_gap {s : State} {edge c rank a g : Nat}
    (hg : s.calGap (s.boundingClaims c rank) (edge + 100000) (edge + s.tickNs) = some (a, g))
    (hj : min (s.calOrder c).length (min (g / 200000) (s.tp.calBudget / 200)) ≠ 0) : s.calFits edge c rank = some
      { chain := c, kind := 1, rank := rank, start := a, due := edge + s.tickNs,
        entries := (s.calOrder c).take (min (s.calOrder c).length (min (g / 200000) (s.tp.calBudget / 200))) } := by
  unfold State.calFits
  rw [hg]
  exact if_neg hj

theorem State.calFits_background {s : State} {c : Nat} (ho : s.calOrder c ≠ []) (ht : 100000 + 200000 ≤ s.tickNs)
    (hb : 200 ≤ s.tp.calBudget) (hc : ∀ x ∈ s.rf.claims, x.chain ≠ c) :
    s.calFits s.edgeNs c 10 = some (s.backgroundJob c) := by
  have hnone : s.boundingClaims c 10 = [] := by
    rw [State.boundingClaims, List.filter_eq_nil_iff]
    intro x hx
    simp [hc x hx]
  have hgap : s.calGap [] (s.edgeNs + 100000) (s.edgeNs + s.tickNs) = some (s.edgeNs + 100000, s.tickNs - 100000) := by
    rw [State.calGap_nil (by omega), Nat.add_sub_add_left]
  have hlen : 0 < (s.calOrder c).length := List.length_pos_iff.mpr ho
  have hpos : min (s.calOrder c).length (min ((s.tickNs - 100000) / 200000) (s.tp.calBudget / 200)) ≠ 0 := by
    omega
  rw [← hnone] at hgap
  exact State.calFits_of_gap hgap hpos

theorem State.calJobPlacement_places {s : State} {i : U64} (hst : s.inStates [.active, .standby] = true)
    (hf : s.tp.calFull = true) (hb : bit (s.reg Reg.CAL_CTRL) 0 = true) (hd : (s.at_ i).placementDue = true) :
    s.calJobPlacement i = s.calChains.foldl (fun s c => s.calPlace s.edgeNs c) (s.at_ i).notePlaced := by
  have hgo : ¬ ((!(s.at_ i).inStates [.active, .standby] || !(s.at_ i).tp.calFull || !bit ((s.at_ i).reg Reg.CAL_CTRL) 0 ||
      !(s.at_ i).placementDue) = true) := by
    simp [hst, hf, hb, hd]
  rw [← State.at__calChains s i]
  exact if_neg hgo

/-- A job of rank 10 takes no claim's place. -/
theorem State.calPlace_of_unstarved {s : State} (h : s.cal.starved = []) (edge c : Nat) : s.calPlace edge c =
    if (s.calJob c).isSome ∨ s.calBlock c then s
    else s.withJobs (s.calFits edge c 10).toList := by
  unfold State.calPlace
  split
  · rfl
  · rw [State.calChoose_of_unstarved h]
    cases hj : s.calFits edge c 10 with
    | none => exact (State.withJobs_nil s).symm
    | some j =>
      obtain ⟨-, -, hrank, -⟩ := State.calFits_mem hj
      dsimp -zeta only
      extract_lets hit
      have hhit : hit = [] := List.filter_eq_nil_iff.mpr fun x _ => by simp [hrank]
      rw [hhit]
      rfl

theorem State.calPlace_step {z : State} (h : z.cal.starved = []) (l : List CalJob) (k : Nat) :
    ∃ m, (z.withJobs l).calPlace (z.withJobs l).edgeNs k = z.withJobs (l ++ m) ∧ ∀ x ∈ m, x.chain = k := by
  rw [State.calPlace_of_unstarved (s := z.withJobs l) h]
  split
  · exact ⟨[], by rw [List.append_nil], fun x h => absurd h List.not_mem_nil⟩
  · exact ⟨_, State.withJobs_withJobs .., fun x hx => (State.calFits_mem (Option.mem_toList.mp hx)).1⟩

theorem State.calPlace_places {z : State} {c : Nat} (hs : z.cal.starved = []) (hj : z.calJob c = none)
    (hb : z.calBlock c = false) (ho : z.calOrder c ≠ []) (ht : 100000 + 200000 ≤ z.tickNs) (hbud : 200 ≤ z.tp.calBudget)
    (hc : ∀ x ∈ z.rf.claims, x.chain ≠ c) {l : List CalJob} (hl : ∀ x ∈ l, x.chain ≠ c) :
    (z.withJobs l).calPlace (z.withJobs l).edgeNs c = z.withJobs (l ++ [z.backgroundJob c]) := by
  rw [State.calPlace_of_unstarved (s := z.withJobs l) hs,
    if_neg (by simp [State.calJob_withJobs_none hj hl, State.calBlock_withJobs hl, hb]),
    State.calFits_background (s := z.withJobs l) ho ht hbud hc, Option.toList_some, State.withJobs_withJobs]
  rfl

/-! ### What a placement keeps, whatever is chosen -/

/-- A job that a placement adds (R151): within the budget, and between the edge's instant and the end of its tick. -/
def CalJob.Placed (s : State) (j : CalJob) : Prop :=
  j.kind = 1 ∧ (j.rank = 7 ∨ j.rank = 10) ∧ j.entries.length ≤ s.tp.calBudget / 200 ∧ s.edgeNs + 100000 ≤ j.start ∧
    j.due = s.edgeNs + s.tickNs

theorem State.calChoose_placed {s : State} {c : Nat} {j : CalJob} (h : s.calChoose s.edgeNs c = some j) : j.Placed s := by
  have hfit {rank : Nat} (hr : rank = 7 ∨ rank = 10) (h : s.calFits s.edgeNs c rank = some j) : j.Placed s := by
    obtain ⟨-, hk, hrank, hlen, hstart, hdue⟩ := State.calFits_mem h
    exact ⟨hk, hrank ▸ hr, hlen, hstart, hdue⟩
  unfold State.calChoose at h
  split at h
  next j' hj' =>
    split at h
    · exact hfit (.inl rfl) (hj'.trans h)
    · exact hfit (.inr rfl) h
  next => exact hfit (.inr rfl) h

/-- One chain's placement: at most one job more, as R151 has it. -/
theorem State.calPlace_jobs (s : State) (c : Nat) : (s.calPlace s.edgeNs c).cal.jobs = s.cal.jobs ∨
    ∃ j, (s.calPlace s.edgeNs c).cal.jobs = s.cal.jobs ++ [j] ∧ j.Placed s := by
  unfold State.calPlace
  split
  · exact .inl rfl
  · split
    · exact .inl rfl
    next j hj =>
      extract_lets hit
      have hk : Keeps [.hif, .que, .cip, .rf, .regs] s
          (hit.foldl (fun s x => (s.claimLate x).bump (Reg.CAL_CNT c 5)) s) :=
        Keeps.foldl (fun _ _ h => State.bump_keeps (.of rfl) (State.claimLate_keeps (.of rfl) h)) (Keeps.refl s)
      refine .inr ⟨j, ?_, State.calChoose_placed hj⟩
      rw [State.setCalSt_cal, show _ = s.cal from hk.part .cal rfl]

/-- A placement over the chains keeps every job there is and adds only what R151 allows. -/
theorem State.calPlaces_jobs (s : State) (cs : List Nat) :
    let t := cs.foldl (fun s c => s.calPlace s.edgeNs c) s
    (∀ j ∈ t.cal.jobs, j ∈ s.cal.jobs ∨ j.Placed s) ∧ ∀ j ∈ s.cal.jobs, j ∈ t.cal.jobs := by
  induction cs generalizing s with
  | nil => exact ⟨fun _ h => .inl h, fun _ h => h⟩
  | cons c cs ih =>
    obtain ⟨hnew, hold⟩ := ih (s.calPlace s.edgeNs c)
    have hk : Keeps [.hif, .que, .cip, .cal, .rf, .regs] s (s.calPlace s.edgeNs c) := State.calPlace_keeps (.of rfl) (Keeps.refl s)
    have hplaced (j : CalJob) : j.Placed (s.calPlace s.edgeNs c) ↔ j.Placed s := by
      generalize s.calPlace s.edgeNs c = u at hk
      simp only [CalJob.Placed, State.edgeNs, State.tickNs, State.tick, State.tp, show u.time = s.time from hk.part .time rfl,
        show u.truss = s.truss from hk.part .truss rfl]
    simp only [hplaced] at hnew
    rcases s.calPlace_jobs c with h | ⟨k, h, hp⟩
    · rw [h] at hnew hold
      exact ⟨hnew, hold⟩
    · rw [h] at hnew hold
      refine ⟨fun j hj => ?_, fun j hj => hold j (List.mem_append_left _ hj)⟩
      rcases hnew j hj with h | h
      · rcases List.mem_append.mp h with h | h
        · exact .inl h
        · exact .inr (List.mem_singleton.mp h ▸ hp)
      · exact .inr h

/-! ### Mandatory and compact calibration (R145, R148) -/

/-- The order of R153 puts the larger change of temperature first, among entries that are not empty. -/
theorem State.calBefore_delta {s : State} {c a b : Nat} (ha : s.calCond c a ≠ .empty) (hb : s.calCond c b ≠ .empty) :
    if s.calBefore c a b then s.calDelta c b ≤ s.calDelta c a else s.calDelta c a ≤ s.calDelta c b := by
  simp only [State.calBefore, ha, hb, decide_false, bne_self_eq_false, Bool.false_eq_true, if_false, Bool.not_false, and_true]
  by_cases hne : s.calDelta c a = s.calDelta c b
  · simp [hne]
  · simp only [hne, not_false_eq_true, ne_eq, if_true, decide_eq_true_eq]
    split <;> omega

/-- Entries inserted in the order of R153 before or after a first one: the first of them all has the largest change of
temperature. -/
theorem State.calInsert_fold {s : State} {c : Nat} (l : List Nat) (hl : ∀ x ∈ l, s.calCond c x ≠ .empty) {e : Nat}
    (he : s.calCond c e ≠ .empty) (r : List Nat) : ∃ e' r', l.foldl (fun l i => calInsert (s.calBefore c) i l) (e :: r) = e' :: r' ∧
      e' ∈ e :: l ∧ ∀ x ∈ e :: l, s.calDelta c x ≤ s.calDelta c e' := by
  induction l generalizing e r with
  | nil =>
    refine ⟨e, r, rfl, List.mem_singleton.mpr rfl, fun x hx => ?_⟩
    exact Nat.le_of_eq (congrArg _ (List.mem_singleton.mp hx))
  | cons i l ih =>
    have hi : s.calCond c i ≠ .empty := hl i List.mem_cons_self
    have hrest : ∀ x ∈ l, s.calCond c x ≠ .empty := fun x hx => hl x (List.mem_cons_of_mem _ hx)
    have hcmp := State.calBefore_delta hi he
    rw [List.foldl_cons, calInsert]
    split
    next h =>
      rw [if_pos h] at hcmp
      obtain ⟨e', r', hfold, hmem, hmax⟩ := ih hrest hi (e :: r)
      refine ⟨e', r', hfold, List.mem_cons_of_mem _ hmem, fun x hx => ?_⟩
      rcases List.mem_cons.mp hx with rfl | hx
      · exact Nat.le_trans hcmp (hmax i List.mem_cons_self)
      · exact hmax x hx
    next h =>
      rw [if_neg h] at hcmp
      obtain ⟨e', r', hfold, hmem, hmax⟩ := ih hrest he (calInsert (s.calBefore c) i r)
      refine ⟨e', r', hfold, ?_, fun x hx => ?_⟩
      · rcases List.mem_cons.mp hmem with rfl | hmem
        · exact List.mem_cons_self
        · exact List.mem_cons_of_mem _ (List.mem_cons_of_mem _ hmem)
      · rcases List.mem_cons.mp hx with rfl | hx
        · exact hmax x List.mem_cons_self
        · rcases List.mem_cons.mp hx with rfl | hx
          · exact Nat.le_trans hcmp (hmax e List.mem_cons_self)
          · exact hmax x (List.mem_cons_of_mem _ hx)

/-- The first of the expired entries in the order of R153 has the largest change of temperature. -/
theorem State.calInsert_first {s : State} {c : Nat} (l : List Nat) (hl : ∀ x ∈ l, s.calCond c x ≠ .empty) (hne : l ≠ []) :
    ∃ e r, l.foldl (fun l i => calInsert (s.calBefore c) i l) [] = e :: r ∧ e ∈ l ∧ ∀ x ∈ l, s.calDelta c x ≤ s.calDelta c e := by
  cases l with
  | nil => exact absurd rfl hne
  | cons a l => exact State.calInsert_fold l (fun x hx => hl x (List.mem_cons_of_mem _ hx)) (hl a List.mem_cons_self) []

theorem State.rank1Free_of {s : State} {i : U64} {c : Nat} (ha : s.chainOnAir c = false) (hj : s.calJob c = none) :
    (s.at_ i).rank1Free c = true := by
  have hnow : s.now ≤ (s.at_ i).now := by
    unfold State.at_
    split
    next h => exact h.1
    next => exact Nat.le_refl _
  have hair : (s.at_ i).chainOnAir c = false := by
    simp only [State.chainOnAir, State.at__rf, List.any_eq_false] at ha ⊢
    intro x hx
    have := ha x hx
    simp only [Bool.and_eq_true, Bool.or_eq_true, decide_eq_true_eq, not_and, not_or] at this ⊢
    intro hc
    obtain ⟨h1, h2⟩ := this hc
    exact ⟨h1, fun he hlt => h2 he (by omega)⟩
  simp only [State.rank1Free, hair, State.at__calJob, hj]
  rfl

/-- A chain without a job takes one of rank 1. -/
theorem State.takeChain_calJob {s : State} {j : CalJob} (h : s.calJob j.chain = none) :
    (s.takeChain j).calJob j.chain = some j ∧ (s.takeChain j).cal = (s.withJobs [j]).cal := by
  have hcal : (s.takeChain j).cal = (s.withJobs [j]).cal := by
    simp only [State.takeChain, h, State.bump_cal, State.setCalSt_cal]
    rfl
  refine ⟨?_, hcal⟩
  rw [State.calJob, hcal]
  refine (State.calJob_withJobs s [j] j.chain).trans ?_
  rw [h, Option.none_or, List.find?_cons_of_pos (by simp)]

section
variable {s : State} {i : U64} {c : Nat} (h1 : s.calRank1 = true) (hc : s.calChains.contains c = true)
  (ha : s.chainOnAir c = false) (hj : s.calJob c = none)
include h1 hc ha hj

theorem State.mandatoryRecalibration_takes (hf : s.tp.calFull = true) (he : s.calIn c .expired ≠ []) :
    ∃ e ∈ s.calIn c .expired, (∀ x ∈ s.calIn c .expired, s.calDelta c x ≤ s.calDelta c e) ∧
      s.mandatoryRecalibration i c =
        (s.at_ i).takeChain { chain := c, kind := 1, rank := 1, entries := [e], start := (s.at_ i).now } := by
  have hmem : ∀ x ∈ s.calIn c .expired, s.calCond c x ≠ .empty := by
    intro x hx
    rw [of_decide_eq_true (List.mem_filter.mp hx).2]
    decide
  obtain ⟨e, r, hfold, hem, hmax⟩ := State.calInsert_first _ hmem he
  refine ⟨e, hem, hmax, ?_⟩
  have h1' : (s.at_ i).calRank1 = true := by rwa [State.calRank1, State.at__inStates]
  simp only [State.mandatoryRecalibration, State.at__tp, State.at__calChains, State.at__calIn, State.at__calBefore]
  rw [if_neg (by simp only [h1', hf, hc, State.rank1Free_of ha hj, Bool.not_true, Bool.or_self, Bool.false_eq_true,
    not_false_eq_true])]
  simp only [hfold]

theorem State.compactCalibration_takes (hf : s.tp.calFull = false) (hd : s.cal.compactDue.contains c = true) :
    s.compactCalibration i c =
      ((s.at_ i).takeChain { chain := c, kind := 2, rank := 1, start := (s.at_ i).now }).setCalSt fun x =>
        { x with compactDue := x.compactDue.filter (· != c), cmds := x.cmds.map fun y => y.started c } := by
  have h1' : (s.at_ i).calRank1 = true := by rwa [State.calRank1, State.at__inStates]
  simp only [State.compactCalibration, State.at__tp, State.at__calChains, State.at__cal]
  rw [if_neg (by simp only [h1', hf, hc, hd, State.rank1Free_of ha hj, Bool.not_true, Bool.or_self, Bool.false_eq_true,
    not_false_eq_true])]

end

section
variable (s : State) (c : Nat)
theorem State.notePlaced_sweepJob : s.notePlaced.sweepJob c = s.sweepJob c := rfl
theorem State.notePlaced_backgroundJob : s.notePlaced.backgroundJob c = s.backgroundJob c := rfl
theorem State.notePlaced_calOrder : s.notePlaced.calOrder c = s.calOrder c := rfl
theorem State.notePlaced_tickNs : s.notePlaced.tickNs = s.tickNs := rfl
theorem State.notePlaced_tp : s.notePlaced.tp = s.tp := rfl
theorem State.notePlaced_rf : s.notePlaced.rf = s.rf := rfl
end

/-- The state at which a placement begins: the tick's placement noted. -/
theorem State.notePlaced_at (s : State) (i : U64) (c : Nat) :
    (s.at_ i).notePlaced.calJob c = s.calJob c ∧ (s.at_ i).notePlaced.calBlock c = s.calBlock c ∧
      (s.at_ i).notePlaced.sweepJob c = s.sweepJob c ∧ (s.at_ i).notePlaced.backgroundJob c = s.backgroundJob c := by
  refine ⟨s.at__calJob i c, s.at__calBlock i c, ?_, ?_⟩
  · rw [State.notePlaced_sweepJob]
    simp only [State.sweepJob, State.at__calIn, State.at__tickNs, State.at__edgeNs]
  · rw [State.notePlaced_backgroundJob]
    simp only [State.backgroundJob, State.at__calOrder, State.at__tickNs, State.at__edgeNs, State.at__tp]

theorem State.withJobs_placed (s : State) (i : U64) (l : List CalJob) :
    ((s.at_ i).notePlaced.withJobs l).cal.placed = some s.tick := congrArg some (s.at__tick i)

theorem State.notePlaced_withJobs_keeps (s : State) (i : U64) (l : List CalJob) :
    Keeps [.time, .cal] s ((s.at_ i).notePlaced.withJobs l) :=
  State.setCalSt_keeps (.of rfl) (State.setCalSt_keeps (.of rfl) (State.at__keeps (.of rfl) (Keeps.refl s)))

/-- Settles O17: the sweep and the background job by what a pass over the chains places, the jobs of rank 1 by what takes a
chain. -/
theorem calibrationStarts : Obligations.calibrationStarts := by
  refine ⟨fun s i c hst hf hd hc he ht hj hb => ?_, fun s i c hst hf hbit hd hc hj hb hs ho ht hbud hcl => ?_,
    fun s i hst hf hbit => ?_, fun s i c h1 hf hc ha hj he => ?_, fun s i c h1 hf hd hc ha hj => ?_⟩
  · obtain ⟨hjz, hbz, hsweep, -⟩ := s.notePlaced_at i c
    have hstep := (s.at_ i).notePlaced.sweepPlace_step
    obtain ⟨m, hm⟩ := foldl_withJobs hstep s.calChains []
    have hn : ((s.at_ i).notePlaced.sweepJob c).entries ≠ [] := by
      rw [hsweep]
      simp only [State.sweepJob, ne_eq, List.take_eq_nil_iff, he, or_false]
      omega
    have hplaces := foldl_places hstep (j := (s.at_ i).notePlaced.sweepJob c) (hjz.trans hj)
      (fun l hl => State.sweepPlace_places (hjz.trans hj) (hbz.trans hb) hn hl) hc [] (fun x h => absurd h List.not_mem_nil)
    have hrun := State.calibrationSweep_places hst hf hd
    rw [State.withJobs_nil] at hm hplaces
    rw [hsweep] at hplaces
    rw [hm] at hrun hplaces
    exact ⟨_, next_of hrun, hplaces, s.withJobs_placed i _, (s.notePlaced_withJobs_keeps i _).onlyIn⟩
  · obtain ⟨hjz, hbz, -, hjob⟩ := s.notePlaced_at i c
    have hsz : (s.at_ i).notePlaced.cal.starved = [] := (show _ = (s.at_ i).cal.starved from rfl).trans ((congrArg CalSt.starved (s.at__cal i)).trans hs)
    have hstep := State.calPlace_step hsz
    obtain ⟨m, hm⟩ := foldl_withJobs (f := fun s c => s.calPlace s.edgeNs c) hstep s.calChains []
    have hplaces := foldl_places (f := fun s c => s.calPlace s.edgeNs c) hstep (j := (s.at_ i).notePlaced.backgroundJob c) (hjz.trans hj)
      (fun l hl => State.calPlace_places hsz (hjz.trans hj) (hbz.trans hb)
        (by rw [State.notePlaced_calOrder, State.at__calOrder]; exact ho)
        (by rw [State.notePlaced_tickNs, State.at__tickNs]; exact ht)
        (by rw [State.notePlaced_tp, State.at__tp]; exact hbud)
        (by rw [State.notePlaced_rf, State.at__rf]; exact hcl) hl)
      hc [] (fun x h => absurd h List.not_mem_nil)
    have hrun := State.calJobPlacement_places hst hf hbit hd
    rw [State.withJobs_nil] at hm hplaces
    rw [hjob] at hplaces
    rw [hm] at hrun hplaces
    have hk := s.notePlaced_withJobs_keeps i ([] ++ m)
    exact ⟨_, next_of hrun, hplaces, s.withJobs_placed i _, hk.part .rf rfl, hk.onlyIn⟩
  · have hk := State.calJobPlacement_keeps (t := i) (W := [.time, .cal, .cip, .hif, .que, .regs, .rf]) (.of rfl) (Keeps.refl s)
    cases hd : (s.at_ i).placementDue with
    | false =>
      have hrun : s.calJobPlacement i = s.at_ i := if_pos (by simp [hd])
      refine ⟨_, next_of hrun, fun j hj => .inl ?_, fun j hj => ?_, by rw [hrun] at hk; exact hk.onlyIn⟩
      · rwa [State.at__cal] at hj
      · rwa [State.at__cal]
    | true =>
      have hrun := State.calJobPlacement_places hst hf hbit hd
      obtain ⟨hnew, hold⟩ := (s.at_ i).notePlaced.calPlaces_jobs s.calChains
      rw [hrun] at hk
      have hjobs : (s.at_ i).notePlaced.cal.jobs = s.cal.jobs :=
        (show _ = (s.at_ i).cal.jobs from rfl).trans (congrArg CalSt.jobs (s.at__cal i))
      have hplaced (j : CalJob) (h : j.Placed (s.at_ i).notePlaced) : j.Placed s := by
        have h' : j.Placed (s.at_ i) := h
        simpa only [CalJob.Placed, State.at__tp, State.at__edgeNs, State.at__tickNs] using h'
      rw [hjobs] at hnew hold
      exact ⟨_, next_of hrun, fun j hj => (hnew j hj).imp_right (hplaced j), hold, hk.onlyIn⟩
  · obtain ⟨e, hem, hmax, hrun⟩ := State.mandatoryRecalibration_takes (i := i) h1 hc ha hj hf he
    obtain ⟨hjob, -⟩ := State.takeChain_calJob (s := s.at_ i)
      (j := { chain := c, kind := 1, rank := 1, entries := [e], start := (s.at_ i).now }) ((s.at__calJob i c).trans hj)
    exact ⟨_, next_of hrun, ⟨e, hem, hjob, hmax⟩, (State.takeChain_keeps (.of rfl) (State.at__keeps (.of rfl) (Keeps.refl s))).onlyIn⟩
  · have hrun := State.compactCalibration_takes (i := i) h1 hc ha hj hf hd
    obtain ⟨hjob, hcal⟩ := State.takeChain_calJob (s := s.at_ i)
      (j := { chain := c, kind := 2, rank := 1, start := (s.at_ i).now }) ((s.at__calJob i c).trans hj)
    refine ⟨_, next_of hrun, hjob, ?_, (State.setCalSt_keeps (.of rfl) (State.takeChain_keeps (.of rfl)
      (State.at__keeps (.of rfl) (Keeps.refl s)))).onlyIn⟩
    rw [State.setCalSt_cal, hcal, ← State.at__cal s i]
    rfl

end Sys2Proof.Machine

/-! Calibration jobs end, and entries are shown (O18). -/

namespace Sys2Proof.Machine

/-! ### The end of a job (R152, R148) -/

theorem State.calJob_chain {s : State} {c : Nat} {j : CalJob} (h : s.calJob c = some j) : j.chain = c := by
  have := List.find?_some h
  simpa using this

/-- A chain whose jobs have been taken from the list has none. -/
theorem State.endCalJob_calJob (s : State) (j : CalJob) (st : Status) (done : List Nat) :
    (s.endCalJob j st done).calJob j.chain = none := by
  unfold State.endCalJob
  extract_lets s1
  rw [State.calJob, State.setFld_cal, State.setCalSt_cal, List.find?_eq_none]
  intro x hx
  have := (List.mem_filter.mp hx).2
  simpa using this

theorem State.endCalCmds_jobs (s : State) (c : Nat) : (s.endCalCmds c).cal.jobs = s.cal.jobs := by
  unfold State.endCalCmds
  extract_lets l
  generalize hz : (s.setCalSt fun x => { x with cmds := l.filter fun y => !y.chains.isEmpty }) = z
  have hk : Keeps [.hif] z ((l.filter fun x => x.chains.isEmpty).foldl (fun s x => s.complete x.cmd .ok) z) :=
    Keeps.foldl (fun _ _ h => State.complete_keeps (.of rfl) h) (Keeps.refl z)
  rw [show _ = z.cal from hk.part .cal rfl, ← hz]
  rfl

theorem State.compactDone_jobs (s : State) (c : Nat) : (s.compactDone c).cal.jobs = s.cal.jobs := by
  unfold State.compactDone
  extract_lets e s1
  rw [State.endCalCmds_jobs, State.bump_cal, State.setFld_cal]
  simp only [s1, State.setCalSt_cal, State.nextFree_cal]

theorem State.calJobComplete_ends {s : State} {i : U64} {c : Nat} {j : CalJob} (hj : s.calJob c = some j)
    (hd : j.start + s.calJobNs j ≤ (s.at_ i).now) : (s.calJobComplete i c).calJob c = none := by
  have hc := State.calJob_chain hj
  have hd' : ¬ ((s.at_ i).now < j.start + (s.at_ i).calJobNs j) := by
    rw [show (s.at_ i).calJobNs j = s.calJobNs j by simp only [State.calJobNs, State.at__tp]]
    omega
  simp only [State.calJobComplete, State.at__calJob, hj]
  rw [if_neg hd']
  subst hc
  split
  · rw [State.calJob, State.compactDone_jobs]
    exact State.endCalJob_calJob ..
  · exact State.endCalJob_calJob ..

/-! ### CAL_SYNTH (R149) -/

section
variable {s : State} {d : Desc} (hb : d.byte 4 = 0xFF) (hst : s.inStates stSAY = true)
  (hz : d.unlistedZero [8, 10, 11] = true) (hc : s.calChains.contains (d.byte 8) = true) (h8 : d.byte 8 ≠ 0xFF)
include hb hst hz hc h8

theorem State.calSynth_marks (hf : s.tp.calFull = true) (hlt : d.half 10 < s.tp.calCount (d.byte 8)) (hn : d.half 10 ≠ 0xFFFF) :
    s.calSynth d = (s.calMark (d.byte 8) (d.half 10)).calRepend.complete d .ok := by
  simp only [State.calSynth, State.command_runs hb hst, if_neg h8]
  rw [if_neg (by simp only [hz, hc, Bool.not_true, Bool.and_false, Bool.or_self, Bool.false_eq_true, not_false_eq_true]), if_pos hf,
    if_neg (by simpa using fun _ => hlt)]
  simp only [hn, decide_false, Bool.false_eq_true, if_false, List.foldl_cons, List.foldl_nil]

theorem State.calSynth_waits (hf : s.tp.calFull = false) (hn : d.half 10 = 0xFFFF) :
    s.calSynth d = (s.compactDueOn (d.byte 8)).setCalSt fun x => { x with
      cmds := x.cmds ++ [{ cmd := d, chains := [(d.byte 8, false)] }] } := by
  have hl : [d.byte 8].filter s.calChains.contains = [d.byte 8] := by rw [List.filter_cons_of_pos hc, List.filter_nil]
  simp only [State.calSynth, State.command_runs hb hst, if_neg h8]
  rw [if_neg (by simp only [hz, hc, Bool.not_true, Bool.and_false, Bool.or_self, Bool.false_eq_true, not_false_eq_true]),
    if_neg (by simp [hf]), if_neg (by simp [hn])]
  simp only [hl, List.cons_ne_nil, if_false, List.foldl_cons, List.foldl_nil, List.map_cons, List.map_nil]

end

theorem State.calRepend_marked (s : State) : s.calRepend.cal.marked = s.cal.marked := by
  unfold State.calRepend
  split <;> rfl

theorem State.calMark_marked (s : State) (c i : Nat) : (s.calMark c i).cal.marked.contains (calKey c i) = true := by
  rw [State.calMark, State.setCalSt_cal]
  dsimp only
  split
  · assumption
  · simp

theorem State.compactDueOn_due (s : State) (c : Nat) : (s.compactDueOn c).cal.compactDue.contains c = true := by
  rw [State.compactDueOn, State.setCalSt_cal]
  dsimp only
  split
  · assumption
  · simp

/-! ### The crowd's window (R156, R157) -/

/-- What CAL_CR_COUNT shows at the end of a window: how many samples it had, and whether they were enough. -/
def State.crowdShown (s : State) : Word :=
  fld (b2n (decide (max 1 (s.regFld Reg.CAL_CR_CTRL 31 16) ≤ s.cal.samples.length))) 31 |||
    fld (min s.cal.samples.length 0x3FFFF) 0

/-- A window at its end leaves no samples, and shows how many it had, with its median when they were enough (R156). -/
theorem State.crowdWindowEnd_shows {s : State} {i : U64} (hst : s.inStates [.active, .standby] = true)
    (hw : s.crWindow ≤ s.cal.windowTick) : ∃ (y : CalSt) (x : Option Int) (b m : Word) (c : Prop) (_ : Decidable c) (v : State),
      v = ({ s.at_ i with cal := { y with samples := [], windowTick := 0, termDue := x } }.setReg Reg.CAL_CR_BASE b).setReg
        Reg.CAL_CR_COUNT (s.at_ i).crowdShown ∧
      s.crowdWindowEnd i = (if c then v.setReg Reg.CAL_CR_MEDIAN m else v) ∧ y.entries = s.cal.entries := by
  have hw' : ¬ (s.cal.windowTick < (s.at_ i).crWindow) := by
    rw [State.crWindow, State.at__regFld]
    exact Nat.not_lt.mpr hw
  have hgo : ¬ ((!(s.at_ i).inStates [.active, .standby] || decide ((s.at_ i).cal.windowTick < (s.at_ i).crWindow)) = true) := by
    simp [hst, hw']
  refine ⟨_, _, _, _, _, _, _, rfl, if_neg hgo, ?_⟩
  rw [← State.at__cal s i]
  repeat' split
  all_goals rfl

theorem State.crowdWindowEnd_spec {s : State} {i : U64} (hs : s.tidy) (hst : s.inStates [.active, .standby] = true)
    (hw : s.crWindow ≤ s.cal.windowTick) :
    let t := s.crowdWindowEnd i
    t.cal.samples = [] ∧ t.cal.windowTick = 0 ∧ t.cal.entries = s.cal.entries ∧ t.reg Reg.CAL_CR_COUNT = s.crowdShown := by
  obtain ⟨y, x, b, m, c, _, v, hv, hrun, hy⟩ := State.crowdWindowEnd_shows (i := i) hst hw
  have hcount : (s.at_ i).crowdShown = s.crowdShown := by
    simp only [State.crowdShown, State.at__regFld, State.at__cal]
  have hcal : (s.crowdWindowEnd i).cal = v.cal := by
    rw [hrun]
    split <;> rfl
  have hreg : (s.crowdWindowEnd i).reg Reg.CAL_CR_COUNT = v.reg Reg.CAL_CR_COUNT := by
    rw [hrun]
    split
    · exact reg_setReg_other (by decide)
    · rfl
  have htidy : ({ s.at_ i with cal := { y with samples := [], windowTick := 0, termDue := x } } : State).tidy :=
    (Keeps.set_cal (W := [.cal]) (by decide) (Keeps.refl (s.at_ i))).tidy (hs.at_ i)
  intro t
  rw [hcal, hreg, hv, (htidy.setReg _ _).reg_setReg, hcount]
  exact ⟨rfl, rfl, hy, rfl⟩

/-! ### CAL_ENTRY_DATA (R162) -/

/-- The words of an entry latched: each register holds its own. -/
theorem State.latchWords_reg {s : State} (hs : s.tidy) (w : Nat → Word) (n k : Nat) (h : k < n) :
    ((List.range n).foldl (fun s k => s.setReg (Reg.CAL_ENTRY_DATA k) (w k)) s).reg (Reg.CAL_ENTRY_DATA k) = w k := by
  induction n with
  | zero => exact absurd h (Nat.not_lt_zero k)
  | succ n ih =>
    have hk : Keeps [.regs] s ((List.range n).foldl (fun s k => s.setReg (Reg.CAL_ENTRY_DATA k) (w k)) s) :=
      Keeps.foldl (fun _ _ h => State.setReg_keeps (.of rfl) h) (Keeps.refl s)
    rw [List.range_succ, List.foldl_append, List.foldl_cons, List.foldl_nil]
    rcases Nat.lt_succ_iff_lt_or_eq.mp h with h | rfl
    · have hne : Reg.CAL_ENTRY_DATA k ≠ Reg.CAL_ENTRY_DATA n := by
        unfold Reg.CAL_ENTRY_DATA
        omega
      rw [reg_setReg_other hne]
      exact ih h
    · exact (hk.tidy hs).reg_setReg _ _

theorem leNat_of_zero {l : List Byte} (h : ∀ b ∈ l, b = 0) : leNat l = 0 := by
  induction l with
  | nil => rfl
  | cons b l ih =>
    rw [leNat, h b List.mem_cons_self, ih fun x hx => h x (List.mem_cons_of_mem b hx)]
    rfl

theorem leAt_replicate_zero (n o k : Nat) : leAt (List.replicate n 0) o k = 0 := by
  refine leNat_of_zero fun b hb => ?_
  rcases List.mem_append.mp hb with h | h
  · exact List.eq_of_mem_replicate (List.mem_of_mem_drop (List.mem_of_mem_take h))
  · exact List.eq_of_mem_replicate h

/-- Settles O18: the end of a job, the two forms of CAL_SYNTH, the crowd's window and the words of an entry, each by its lemma. -/
theorem calibrationEndsAndShows : Obligations.calibrationEndsAndShows := by
  refine ⟨⟨fun s i c j hj hd => ⟨_, rfl, State.calJobComplete_ends hj hd,
      (State.calJobComplete_keeps (.of rfl) (Keeps.refl s)).onlyIn⟩,
    fun s d hb hst hz hc hf h8 hlt hn => ⟨_, next_of (State.calSynth_marks hb hst hz hc h8 hf hlt hn), ?_, ?_, ?_⟩,
    fun s d hb hst hz hc hf h8 hn => ⟨_, next_of (State.calSynth_waits hb hst hz hc h8 hf hn), s.compactDueOn_due _, rfl,
      (State.setCalSt_keeps (.of rfl) (State.compactDueOn_keeps (.of rfl) (Keeps.refl s))).onlyIn⟩⟩,
    ⟨fun s i hs hst hw => ?_, fun s k hs hk => ?_⟩⟩
  · rw [State.complete_cal, State.calRepend_marked]
    exact s.calMark_marked _ _
  · have hk := State.calRepend_keeps (W := [.cal]) (.of rfl) (State.calMark_keeps (c := d.byte 8) (i := d.half 10) (.of rfl) (Keeps.refl s))
    rw [State.complete_held, show _ = s.hif from hk.part .hif rfl]
  · exact (State.complete_keeps (.of rfl) (State.calRepend_keeps (.of rfl) (State.calMark_keeps (.of rfl) (Keeps.refl s)))).onlyIn
  · obtain ⟨h1, h2, h3, h4⟩ := State.crowdWindowEnd_spec (i := i) hs hst hw
    exact ⟨_, rfl, h1, h2, h3, h4, (State.crowdWindowEnd_keeps (.of rfl) (Keeps.refl s)).onlyIn⟩
  · refine ⟨_, rfl, ?_, (State.calEntryDataRead_keeps (.of rfl) (Keeps.refl s)).onlyIn⟩
    refine (State.latchWords_reg hs (fun k => pw (leAt (if s.tp.calFull && decide
      (s.regFld Reg.CAL_ENTRY_SEL 8 0 < s.tp.calCount (s.regFld Reg.CAL_ENTRY_SEL 17 16)) then
        (s.calEntry (s.regFld Reg.CAL_ENTRY_SEL 17 16) (s.regFld Reg.CAL_ENTRY_SEL 8 0)).bytes else List.replicate 16 0) (4 * k) 4))
      4 k hk).trans ?_
    simp only [Bool.and_eq_true, decide_eq_true_eq]
    split
    · rfl
    · rw [leAt_replicate_zero]
      rfl

end Sys2Proof.Machine

/-! Spans commit together, report and are cleaned up (O42). -/

namespace Sys2Proof.Machine

/-! ### The bits of the decided spans are set (R82) -/

/-- An outcome of span `n` to be written, with status OK. -/
def State.OkDue (s : State) (n : Nat) (c : Option Desc) : Prop :=
  ∃ o ∈ s.spanc.outcomes, o.span = n ∧ o.status = .ok ∧ o.armCmd = c

/-- A span shown as committed. -/
def Span.shown (x : Span) (tick : Nat) : Span :=
  { x with state := .committed, clean := false, decided := false, vis := true, armCmd := none, target := BitVec.ofNat 48 tick }

section
variable {s : State} {n : Nat}

theorem State.showSpan_span (h : n < s.spanc.spans.length) : (s.showSpan n).span n = (s.span n).shown s.tick :=
  State.span_setSpan_same (n := n) (by exact h) _

theorem State.showSpan_span_of_ne {m : Nat} (h : m ≠ n) : (s.showSpan n).span m = s.span m :=
  (State.span_setSpan_of_ne h _).trans rfl

theorem State.showSpan_length : (s.showSpan n).spanc.spans.length = s.spanc.spans.length := by
  simp only [State.showSpan, State.setSpan, lset_eq_set, List.length_set]
  rfl

/-- Every outcome owed stays so, whatever results are filled in. -/
theorem State.showSpan_okDue {m : Nat} {c : Option Desc} (h : (s.reportSpan n .ok (fun _ => (.ok, 0)) s.tick).OkDue m c) :
    (s.showSpan n).OkDue m c := by
  obtain ⟨o, ho, hm, hst, hc⟩ := h
  refine ⟨_, List.mem_map_of_mem ho, ?_⟩
  split
  · exact ⟨hm, hst, hc⟩
  · exact ⟨hm, hst, hc⟩

theorem State.showSpan_okDue_same : (s.showSpan n).OkDue n (s.span n).armCmd :=
  State.showSpan_okDue ⟨_, List.mem_append_right _ List.mem_cons_self, rfl, rfl, rfl⟩

theorem State.showSpan_okDue_of {m : Nat} {c : Option Desc} (h : s.OkDue m c) : (s.showSpan n).OkDue m c := by
  obtain ⟨o, ho, hx⟩ := h
  exact State.showSpan_okDue ⟨o, List.mem_append_left _ ho, hx⟩

end

/-- The decided spans shown one after the other: each as it stood before any of them. -/
theorem State.showSpans (l : List Nat) (hl : l.Nodup) (s : State) (hlen : ∀ n ∈ l, n < s.spanc.spans.length) :
    let t := l.foldl (fun s n => s.showSpan n) s
    Keeps [.spanc] s t ∧ (∀ m, m ∉ l → t.span m = s.span m) ∧ (∀ m c, s.OkDue m c → t.OkDue m c) ∧
      ∀ n ∈ l, t.span n = (s.span n).shown s.tick ∧ t.OkDue n (s.span n).armCmd := by
  induction l generalizing s with
  | nil => exact ⟨Keeps.refl s, fun _ _ => rfl, fun _ _ h => h, fun n h => absurd h List.not_mem_nil⟩
  | cons k l ih =>
    obtain ⟨hk, hl⟩ := List.nodup_cons.mp hl
    have hkeep : Keeps [.spanc] s (s.showSpan k) := State.showSpan_keeps (.of rfl) (Keeps.refl s)
    have htick : (s.showSpan k).tick = s.tick := State.tick_of_clock (hkeep.clock rfl)
    obtain ⟨hkeeps, hother, hdue, hin⟩ := ih hl (s.showSpan k) fun n hn => by
      rw [State.showSpan_length]
      exact hlen n (List.mem_cons_of_mem k hn)
    refine ⟨hkeep.comp hkeeps, fun m hm => ?_, fun m c h => hdue m c (State.showSpan_okDue_of h), fun n hn => ?_⟩
    · obtain ⟨hmk, hml⟩ := not_or.mp fun h => hm (List.mem_cons.mpr h)
      exact (hother m hml).trans (State.showSpan_span_of_ne hmk)
    · rcases List.mem_cons.mp hn with rfl | hn
      · exact ⟨(hother n hk).trans (State.showSpan_span (hlen n List.mem_cons_self)), hdue _ _ State.showSpan_okDue_same⟩
      · have hne : n ≠ k := fun h => hk (h ▸ hn)
        obtain ⟨hspan, hok⟩ := hin n hn
        rw [State.showSpan_span_of_ne hne] at hspan hok
        rw [htick] at hspan
        exact ⟨hspan, hok⟩

/-! ### An outcome written (R87) -/

/-- The span's outcome taken from those owed, its results written to the host window and its status noted. -/
def State.outcomeWritten (s : State) (n : Nat) (o : SpanOutcome) : State :=
  let s1 := { s with spanc := { s.spanc with outcomes := dropFirst s.spanc.outcomes o } }
  let s2 := s1.writeWin o.resultOffset (o.results.flatMap fun r => leBytes (r.1.code + r.2 * 65536) 8)
  (s2.setSpan n { s2.span n with lastStatus := o.status, lastFirstBad := BitVec.ofNat 16 o.firstBad }).bump16
    (Reg.SPAN_COUNT (outcomeClass o.status))

theorem State.outcomeWritten_spec (s : State) (n : Nat) (o : SpanOutcome) :
    (s.outcomeWritten n o).spanc.outcomes = dropFirst s.spanc.outcomes o ∧
      (s.outcomeWritten n o).mem =
        (s.writeWin o.resultOffset (o.results.flatMap fun r => leBytes (r.1.code + r.2 * 65536) 8)).mem ∧
      (s.outcomeWritten n o).hif = s.hif := by
  unfold State.outcomeWritten
  extract_lets s1 s2
  rw [State.bump16_spanc, State.bump16_mem, State.bump16_hif]
  exact ⟨rfl, rfl, rfl⟩

theorem State.spanOutcome_writes {s : State} {n : Nat} {o : SpanOutcome} (h : s.spanc.outcomes.find? (fun o => o.span = n) = some o) :
    ∃ (c : Completion) (st : List Desc), s.spanOutcome n =
        { s.outcomeWritten n o with hif := { (s.outcomeWritten n o).hif with
          started := st, held := (s.outcomeWritten n o).hif.held ++ [c] } } ∧ c.status = o.status ∧
      c.tag = ((o.armCmd.map fun d => d.tag).getD o.tag) ∧ c.b4 = (fld n 0 ||| fld (o.tick.toNat % 65536) 16) ∧
      c.b8 = pw (o.tick.toNat / 65536) ∧ c.b12 = (fld (o.results.length % 65536) 0 ||| fld o.firstBad 16) := by
  unfold State.spanOutcome
  simp only [h]
  cases o.armCmd with
  | none => exact ⟨_, _, rfl, rfl, rfl, rfl, rfl, rfl⟩
  | some d => exact ⟨_, _, rfl, rfl, rfl, rfl, rfl, rfl⟩

/-! ### Cleanup (R88) -/

/-- What the cleanup of a span makes of a table: its own entries plain or gone, and every other as it is. -/
theorem settled_settle {α : Type} (mark : α → Mark) (mine : α → Bool) (plain : α → α) (commit : Bool) (l : List (Nat × α)) :
    Settled mark (fun x => mine x = true) plain (commit = true) l (settle mark mine plain commit l) := by
  intro e
  simp only [settle, List.mem_filterMap]
  constructor
  · rintro ⟨o, ho, hx⟩
    cases hm : mine o.2 with
    | false =>
      simp only [hm, Bool.not_false, if_true, Option.some.injEq] at hx
      exact .inl ⟨hx ▸ ho, .inl (by simp [← hx, hm])⟩
    | true =>
      simp only [hm, Bool.not_true, Bool.false_eq_true, if_false] at hx
      cases hk : mark o.2 with
      | plain =>
        simp only [hk, Option.some.injEq] at hx
        exact .inl ⟨hx ▸ ho, .inr (hx ▸ hk)⟩
      | pendingAdd =>
        simp only [hk, Option.ite_none_right_eq_some, Option.some.injEq] at hx
        exact .inr ⟨o, ho, hm, hx.2.symm, .inl ⟨hx.1, hk⟩⟩
      | pendingDelete =>
        simp only [hk, Option.ite_none_left_eq_some, Option.some.injEq] at hx
        exact .inr ⟨o, ho, hm, hx.2.symm, .inr ⟨hx.1, hk⟩⟩
  · rintro (⟨he, h | h⟩ | ⟨o, ho, hm, rfl, ⟨hc, hk⟩ | ⟨hc, hk⟩⟩)
    · exact ⟨e, he, by simp [h]⟩
    · exact ⟨e, he, by simp [h]⟩
    · exact ⟨o, ho, by simp [hm, hk, hc]⟩
    · exact ⟨o, ho, by simp [hm, hk, hc]⟩

theorem State.spanCleanup_settles {s : State} {n : Nat} (h : (s.span n).clean = false) :
    ∃ (t : TblSt) (k : KeySt), s.spanCleanup n = { s with tbl := t, key := k }.setSpan n
        { s.span n with clean := true, vis := false, items := [], starts := [], alignForward := false } ∧
      t.em = settle (·.mark) (fun e => e.span.toNat = n) (fun e => { e with mark := .plain, span := 0 })
        (decide ((s.span n).state = .committed)) s.tbl.em ∧
      t.lpm = settle (·.mark) (fun e => e.span.toNat = n) (fun e => { e with mark := .plain, span := 0 })
        (decide ((s.span n).state = .committed)) s.tbl.lpm ∧
      t.seen = settle (·.mark) (fun e => e.span.toNat = n) (fun e => { e with mark := .plain, span := 0 })
        (decide ((s.span n).state = .committed)) s.tbl.seen :=
  ⟨_, _, if_neg (by simp [h]), rfl, rfl, rfl⟩

theorem State.commitWindowClose_eq (s : State) (i : U64) : s.commitWindowClose i =
    (((s.at_ i).commitSpans State.endQueued).applyHeldAll.flushMac).calRepend.settleAir := rfl

theorem Settled.of_settle {α : Type} {mark : α → Mark} {mine : α → Prop} [DecidablePred mine] {plain : α → α} {commit : Prop}
    [Decidable commit] {old new : List (Nat × α)} (h : new = settle mark (fun x => decide (mine x)) plain (decide commit) old) :
    Settled mark mine plain commit old new := by
  have := settled_settle mark (fun x => decide (mine x)) plain (decide commit) old
  simpa only [decide_eq_true_eq, h] using this

/-- Settles O42: the decided spans are shown together, an outcome is written as it stands, and cleanup settles the tables. -/
theorem spansEnd : Obligations.spansEnd := by
  refine ⟨fun s i hlen => ?_, fun s n o h => ?_, fun s n hn hc => ?_⟩
  · have hnodup : ((List.range 16).filter fun n => (s.span n).decided).Nodup := List.nodup_range.filter _
    have hmem {n : Nat} : n ∈ (List.range 16).filter (fun n => (s.span n).decided) ↔ n < 16 ∧ (s.span n).decided = true := by
      simp
    have hat (n : Nat) : (s.at_ i).span n = s.span n := by simp only [State.span, State.at__spanc]
    obtain ⟨hk, hother, -, hin⟩ := State.showSpans _ hnodup (s.at_ i) fun n hn => by
      rw [State.at__spanc, hlen]
      exact (hmem.mp hn).1
    refine ⟨_, _, fun n hn hd => ?_, fun n hn hd => ?_,
      ((State.at__keeps (t := i) (W := [.spanc, .time]) (.of rfl) (Keeps.refl s)).comp (hk.widen (.of rfl))).onlyIn, rfl, ?_⟩
    · obtain ⟨hspan, hok⟩ := hin n (hmem.mpr ⟨hn, hd⟩)
      rw [hat] at hspan hok
      rw [hspan]
      exact ⟨rfl, rfl, rfl, rfl, hok⟩
    · rw [hother n fun h => by simp [(hmem.mp h).2] at hd, hat]
    · refine next_of ((State.commitWindowClose_eq s i).trans ?_)
      rw [State.applyHeldAll]
      simp only [State.commitSpans, hat] <;> rfl
  · obtain ⟨c, st, hrun, hstatus, htag, h4, h8, h12⟩ := State.spanOutcome_writes h
    have honly := (State.spanOutcome_keeps (n := n) (W := [.hif, .mem, .regs, .spanc]) (.of rfl) (Keeps.refl s)).onlyIn
    rw [hrun] at honly
    obtain ⟨hout, hmem, hhif⟩ := s.outcomeWritten_spec n o
    exact ⟨_, next_of hrun, hout, hmem, ⟨c, congrArg (fun h : HifSt => h.held ++ [c]) hhif, hstatus, htag, h4, h8, h12⟩, honly⟩
  · obtain ⟨t, k, hrun, hem, hlpm, hseen⟩ := State.spanCleanup_settles hc
    have hsame := State.span_setSpan_same (s := ({ s with tbl := t, key := k } : State)) (n := n) hn
      { s.span n with clean := true, vis := false, items := [], starts := [], alignForward := false }
    have honly := (State.spanCleanup_keeps (n := n) (W := [.key, .spanc, .tbl]) (.of rfl) (Keeps.refl s)).onlyIn
    rw [hrun] at honly
    refine ⟨_, next_of hrun, ?_, ?_, ?_, ?_, fun m hm => ?_, .of_settle hem, .of_settle hlpm, .of_settle hseen,
      honly⟩
    · rw [hsame]
    · rw [hsame]
    · rw [hsame]
    · rw [hsame]
    · exact State.span_setSpan_of_ne hm _

end Sys2Proof.Machine

/-! The table commands (O43). -/

namespace Sys2Proof.Machine

/-! ### Association lists -/

section
variable {α : Type} {m : List (Nat × α)} {k j : Nat} {v : α}

theorem afind_aput_same : afind (aput m k v) k = some v := by
  induction m with
  | nil => simp [aput, afind]
  | cons e r ih =>
    obtain ⟨a, x⟩ := e
    simp only [aput]
    split
    · simp [afind]
    · split
      · simp [afind]
      · rw [afind, if_neg (by omega), ih]

theorem afind_aput_other (h : j ≠ k) : afind (aput m k v) j = afind m j := by
  induction m with
  | nil => simp [aput, afind, Ne.symm h]
  | cons e r ih =>
    obtain ⟨a, x⟩ := e
    simp only [aput]
    split
    · rw [afind, if_neg (Ne.symm h)]
    · split
      next _ hk =>
        simp only [afind]
        rw [if_neg (Ne.symm h), if_neg (by omega)]
      · simp only [afind, ih]

theorem afind_aerase_other (h : j ≠ k) : afind (aerase m k) j = afind m j := by
  induction m with
  | nil => rfl
  | cons e r ih =>
    obtain ⟨a, x⟩ := e
    rw [aerase, List.filter_cons]
    split
    · rw [afind, afind, ← ih]
      rfl
    next hk =>
      have hak : a = k := by simpa using hk
      rw [afind, if_neg (by omega), ← ih]
      rfl

end

/-! ### A run of slots written -/

/-- A table with one slot written: its entry, or none. -/
def writeEntry {α : Type} (m : List (Nat × α)) (w : Nat × (Option α × Nat)) : List (Nat × α) :=
  match w.2.1 with
  | some e => aput m w.1 e
  | none => aerase m w.1

theorem afind_writeEntry_same {α : Type} (m : List (Nat × α)) (p : Nat) (x : Option α) (c : Nat) :
    afind (writeEntry m (p, (x, c))) p = x := by
  cases x with
  | none => exact afind_aerase_same m p
  | some e => exact afind_aput_same

theorem afind_writeEntry_other {α : Type} {m : List (Nat × α)} {p q : Nat} {x : Option α} {c : Nat} (h : q ≠ p) :
    afind (writeEntry m (p, (x, c))) q = afind m q := by
  cases x with
  | none => exact afind_aerase_other h
  | some e => exact afind_aput_other h

/-- A run of slots written from `a` on: each holds what was written to it, and every other slot what it held. -/
theorem afind_writeRun {α : Type} (m : List (Nat × α)) (a : Nat) (r : Nat → Option α × Nat) (k : Nat) :
    let t := ((List.range k).map fun i => (a + i, r i)).foldl writeEntry m
    (∀ i < k, afind t (a + i) = (r i).1) ∧ ∀ p, p < a ∨ a + k ≤ p → afind t p = afind m p := by
  induction k with
  | zero => exact ⟨fun i h => absurd h (Nat.not_lt_zero i), fun _ _ => rfl⟩
  | succ k ih =>
    obtain ⟨hin, hout⟩ := ih
    rw [List.range_succ, List.map_append, List.foldl_append]
    refine ⟨fun i hi => ?_, fun p hp => ?_⟩
    · rcases Nat.lt_succ_iff_lt_or_eq.mp hi with h | rfl
      · exact (afind_writeEntry_other (by omega)).trans (hin i h)
      · exact afind_writeEntry_same ..
    · exact (afind_writeEntry_other (by omega)).trans (hout p (by omega))

/-- The slots of `n` buckets from bucket `f` on are in a row. -/
theorem bucketSlots_run (f n : Nat) :
    ((List.range n).flatMap fun i => bucketSlots (f + i)) = (List.range (4 * n)).map fun i => 4 * f + i := by
  induction n with
  | zero => rfl
  | succ n ih =>
    rw [List.range_succ, List.flatMap_append, ih, show 4 * (n + 1) = 4 * n + 4 by omega, List.range_add, List.map_append]
    congr 1
    simp [bucketSlots, List.range_succ]
    omega

/-! ### A write of seen-cache units (R260) -/

/-- The slots that a write of `n` seen-cache units from unit `f` on names, with what is written to each. -/
theorem writeSlots_seen (f n : Nat) (data : List Byte) : writeSlots 3 f n 16 data readSeen =
    (List.range (4 * n)).map fun i => (4 * f + i, readSeen (slice data (16 * i) 16)) := by
  have hps : ((List.range n).flatMap fun i => unitSlots 3 (f + i)) = (List.range (4 * n)).map fun i => 4 * f + i :=
    bucketSlots_run f n
  simp only [writeSlots, hps, List.length_map, List.length_range]
  refine List.map_congr_left fun i hi => ?_
  rw [List.getD_eq_getElem?_getD, List.getElem?_map, List.getElem?_range (List.mem_range.mp hi)]
  rfl

section
variable {s : State} {f n : Nat} {data : List Byte} {new : Nat → Option SeenEntry}
  (hnew : ∀ i : Nat, new i = (readSeen (slice data (16 * i) 16)).1)
  (hin : ∀ i : Nat, i < 4 * n → (readSeen (slice data (16 * i) 16)).2 = 0 ∧
    (∀ e : SeenEntry, afind s.tbl.seen (4 * f + i) = some e → e.mark = .plain) ∧
    (∀ e : SeenEntry, new i = some e → 4 * f + i ∈ seenSlots e.seed e.seq))
  (hd : distinct (((List.range (4 * n)).filterMap fun i => (new i).map fun e => seenKey e.seed.toNat e.seq.toNat) ++
    (s.tbl.seen.filter fun e => !decide (4 * f ≤ e.1 ∧ e.1 < 4 * (f + n)) && s.inForce e.2.mark e.2.span && s.seenLive e.2).map
      fun e => seenKey e.2.seed.toNat e.2.seq.toNat) = true)
include hnew hin hd

theorem State.writeSeen_ok : ∃ l : List Nat, s.writeSeen (writeSlots 3 f n 16 data readSeen) =
    .ok (l.foldl (fun s k => s.changed ⟨.seen, k⟩ none 2 0)
      { s with tbl := { s.tbl with seen := (writeSlots 3 f n 16 data readSeen).foldl writeEntry s.tbl.seen } }) := by
  have hmarked : marked (·.mark) s.tbl.seen (writeSlots 3 f n 16 data readSeen) = false := by
    rw [writeSlots_seen, marked, List.any_map, List.any_eq_false]
    intro i hi
    simp only [Function.comp]
    split
    next e he => simp [(hin i (List.mem_range.mp hi)).2.1 e he]
    next => simp
  have hmine (p : Nat) : ((writeSlots 3 f n 16 data readSeen).any fun w => w.1 = p) = decide (4 * f ≤ p ∧ p < 4 * (f + n)) := by
    rw [writeSlots_seen, List.any_map, Bool.eq_iff_iff, List.any_eq_true, decide_eq_true_eq]
    constructor
    · rintro ⟨i, hi, h⟩
      have := List.mem_range.mp hi
      simp only [Function.comp, decide_eq_true_eq] at h
      omega
    · intro h
      exact ⟨p - 4 * f, List.mem_range.mpr (by omega), by simp only [Function.comp, decide_eq_true_eq]; omega⟩
  have hkeys : distinct (((writeSlots 3 f n 16 data readSeen).filterMap fun w => w.2.1.map SeenEntry.key) ++
      (s.tbl.seen.filter fun e => !((writeSlots 3 f n 16 data readSeen).any fun w => w.1 = e.1) && s.inForce e.2.mark e.2.span &&
        s.seenLive e.2).map fun e => e.2.key) = true := by
    rw [← hd]
    simp only [hmine]
    simp only [writeSlots_seen, List.filterMap_map, Function.comp_def, hnew]
    rfl
  unfold State.writeSeen
  extract_lets outside keys same m
  have hm : m = (writeSlots 3 f n 16 data readSeen).foldl writeEntry s.tbl.seen := by
    refine congrArg (fun g => List.foldl g s.tbl.seen (writeSlots 3 f n 16 data readSeen)) (funext fun a => funext fun w => ?_)
    obtain ⟨p, x, c⟩ := w
    cases x <;> rfl
  rw [if_neg (by simp [hmarked]), if_neg ?_, if_neg (by rw [show distinct keys = true from hkeys]; decide), hm]
  · exact ⟨_, rfl⟩
  · rw [writeSlots_seen, List.any_map, Bool.not_eq_true, List.any_eq_false]
    intro i hi
    obtain ⟨hzero, -, hslot⟩ := hin i (List.mem_range.mp hi)
    rw [hnew] at hslot
    simp only [Function.comp, hzero]
    split
    next e he => simp [hslot e he]
    next => simp

end

/-- R260: a write of seen-cache units in locked regions takes effect at once, or waits for the span that its entries are
targets of (R82). -/
theorem State.tblWriteNow_seen {s s1 : State} {d : Desc} {f n : Nat} {data : List Byte} (h8 : d.byte 8 = 3)
    (hf : f = (d.word 3).toNat) (hn : n = (d.word 4).toNat) (hdata : data = s.readWin (d.word 5).toNat (n * 64))
    (hlock : ∀ i : Nat, i < n → s.locked 2 (regionOf 2 (4 * (f + i))) = true)
    (hok : s.writeSeen (writeSlots 3 f n 16 data readSeen) = .ok s1) : s.tblWriteNow d =
      if (s.writeObjects 3 f n data).any fun o => s.decidedOn o then s.holdChange (.write d)
      else s1.complete d .ok (b4 := d.word 4) := by
  have hall : (List.range n).all (fun i => s.locked (lockTable 3) (regionOf (lockTable 3) (unitPos 3 (f + i)))) = true :=
    List.all_eq_true.mpr fun i hi => hlock i (List.mem_range.mp hi)
  simp only [State.tblWriteNow, h8, ← hf, ← hn]
  rw [show unitBytes 3 = 64 from rfl, ← hdata, if_neg (by simp [hall])]
  simp only [hok]

/-- The changes that a write makes raise versions and mark items, and touch no table. -/
theorem State.changes_keeps (s : State) (l : List Nat) :
    Keeps [.spanc] s (l.foldl (fun s k => s.changed ⟨.seen, k⟩ none 2 0) s) :=
  Keeps.foldl (fun _ _ h => State.changed_keeps (.of rfl) h) (Keeps.refl s)

/-! ### TBL_LOCK (R261) -/

/-- The tick of one region's lock, noted or forgotten. -/
def State.noteLock (s : State) (a : Nat) (v : Word) (k : Nat) : State :=
  if bit v k then
    (if (afind s.tbl.lockedAt (a + k)).isSome then s
     else { s with tbl := { s.tbl with lockedAt := aput s.tbl.lockedAt (a + k) s.time.tickno } })
  else { s with tbl := { s.tbl with lockedAt := aerase s.tbl.lockedAt (a + k) } }

theorem State.writeLock_eq (s : State) (t h : Nat) (v : Word) : s.writeLock t h v =
    ((List.range 32).foldl (fun s k => s.noteLock (64 * t + 32 * h) v k) s).setReg (Reg.TBL_LOCK t h) v := rfl

section
variable (s : State) (a : Nat) (v : Word)

/-- What a lock's note is of region `a + k`: the tick of the first lock, or none. -/
def State.lockNote (k : Nat) : Option TickNo :=
  if bit v k then some ((afind s.tbl.lockedAt (a + k)).getD s.time.tickno) else none

/-- What notes of locks leave as it is: all but their own list. -/
theorem State.noteLock_else (k : Nat) : ∃ l, s.noteLock a v k = { s with tbl := { s.tbl with lockedAt := l } } := by
  unfold State.noteLock
  split
  · split
    · exact ⟨_, rfl⟩
    · exact ⟨_, rfl⟩
  · exact ⟨_, rfl⟩

theorem State.afind_noteLock_same (k : Nat) : afind (s.noteLock a v k).tbl.lockedAt (a + k) = s.lockNote a v k := by
  unfold State.noteLock State.lockNote
  split
  · split
    next h =>
      obtain ⟨x, hx⟩ := Option.isSome_iff_exists.mp h
      rw [hx]
      rfl
    next h =>
      rw [Option.not_isSome_iff_eq_none.mp h]
      exact afind_aput_same
  · exact afind_aerase_same _ _

theorem State.afind_noteLock_other {j k : Nat} (h : j ≠ a + k) : afind (s.noteLock a v k).tbl.lockedAt j = afind s.tbl.lockedAt j := by
  unfold State.noteLock
  split
  · split
    · rfl
    · exact afind_aput_other h
  · exact afind_aerase_other h

theorem State.noteLocks (n : Nat) :
    let t := (List.range n).foldl (fun s k => s.noteLock a v k) s
    (∃ l, t = { s with tbl := { s.tbl with lockedAt := l } }) ∧
      (∀ k < n, afind t.tbl.lockedAt (a + k) = s.lockNote a v k) ∧
      ∀ j, a + n ≤ j → afind t.tbl.lockedAt j = afind s.tbl.lockedAt j := by
  induction n with
  | zero => exact ⟨⟨_, rfl⟩, fun k h => absurd h (Nat.not_lt_zero k), fun _ _ => rfl⟩
  | succ n ih =>
    obtain ⟨⟨l, hl⟩, hin, hout⟩ := ih
    rw [List.range_succ, List.foldl_append, List.foldl_cons, List.foldl_nil]
    generalize (List.range n).foldl (fun s k => s.noteLock a v k) s = u at hl hin hout ⊢
    obtain ⟨l', hl'⟩ := u.noteLock_else a v n
    refine ⟨⟨l', by rw [hl', hl]⟩, fun k hk => ?_, fun j hj => ?_⟩
    · rcases Nat.lt_succ_iff_lt_or_eq.mp hk with h | rfl
      · rw [State.afind_noteLock_other _ _ _ (by omega), hin k h]
      · rw [State.afind_noteLock_same, State.lockNote, hout _ (Nat.le_refl _), hl]
        rfl
    · rw [State.afind_noteLock_other _ _ _ (by omega), hout j (by omega)]

end

/-- Settles O43: the units read as they are stored, the seen-cache's slots written one by one, and each region's lock noted. -/
theorem tablesCommanded : Obligations.tablesCommanded := by
  refine ⟨fun s d hb hst ha => ?_, fun s d f n data new hb hst ha h8 hf hn hdata hnew hlock hin hd => ?_,
    fun s t h v hs hw ht hh => ?_⟩
  · have hrun : s.tblRead d = (s.writeWin (d.word 5).toNat ((List.range (d.word 4).toNat).flatMap fun i =>
        s.tblUnit (d.byte 8) ((d.word 3).toNat + i))).complete d .ok (b4 := d.word 4) := by
      simp only [State.tblRead, State.command_runs hb hst, ha]
    exact ⟨_, next_of hrun, State.complete_mem .., State.complete_held ..,
      (State.complete_keeps (.of rfl) (State.writeWin_keeps (.of rfl) (Keeps.refl s))).onlyIn⟩
  · obtain ⟨l, hok⟩ := State.writeSeen_ok hnew hin hd
    have hrun : s.tblWrite d = s.tblWriteNow d := by
      simp only [State.tblWrite, State.command_runs hb hst, ha]
    rw [State.tblWriteNow_seen h8 hf hn hdata hlock hok] at hrun
    refine ⟨_, next_of hrun, ?_⟩
    split
    · exact ⟨rfl, rfl, (State.holdChange_keeps (.of rfl) (Keeps.refl s)).onlyIn⟩
    · rw [writeSlots_seen]
      generalize hm : ((List.range (4 * n)).map fun i => (4 * f + i, readSeen (slice data (16 * i) 16))).foldl writeEntry s.tbl.seen
        = m
      obtain ⟨hrun4, hother⟩ := afind_writeRun s.tbl.seen (4 * f) (fun i => readSeen (slice data (16 * i) 16)) (4 * n)
      rw [hm] at hrun4 hother
      have hk := State.changes_keeps { s with tbl := { s.tbl with seen := m } } l
      have hseen := congrArg TblSt.seen (hk.part .tbl rfl)
      refine ⟨fun i hi => ?_, fun p hp => ?_, ?_, ?_⟩
      · rw [State.complete_tbl, hseen, hnew]
        exact hrun4 i hi
      · rw [State.complete_tbl, hseen]
        exact hother p (by omega)
      · rw [State.complete_held, show _ = s.hif from hk.part .hif rfl]
      · exact (State.complete_keeps (.of rfl) ((Keeps.set_tbl (W := [.tbl, .spanc, .hif]) (by decide) (Keeps.refl s)).comp
          (hk.widen (.of rfl)))).onlyIn
  · have hrun : s.tblLockWrite t h v = s.writeLock t h v := if_pos (by simp [hw, ht, hh])
    obtain ⟨⟨l, hl⟩, hin, -⟩ := s.noteLocks (64 * t + 32 * h) v 32
    rw [State.writeLock_eq] at hrun
    generalize (List.range 32).foldl (fun s k => s.noteLock (64 * t + 32 * h) v k) s = u at hl hin hrun
    subst hl
    have htidy := (Keeps.set_tbl (W := [.tbl]) (x := { s.tbl with lockedAt := l }) (by decide) (Keeps.refl s)).tidy hs
    exact ⟨_, next_of hrun, htidy.reg_setReg _ _, fun a ha => reg_setReg_other ha, hin, rfl, rfl, rfl,
      (State.setReg_keeps (.of rfl) (Keeps.set_tbl (W := [.tbl, .regs]) (by decide) (Keeps.refl s))).onlyIn⟩

end Sys2Proof.Machine

/-! The tables in time: waiting insertions, locks that expire, the overflow, migrations and ages (O44). -/

namespace Sys2Proof.Machine

/-! ### Changes and their versions (R80) -/

/-- A change raises the version of its object. -/
theorem State.changed_version {s : State} {o : Obj} {self : Option Nat} {cause other : Nat}
    (h : risingKeys s.spanc.versions = true) : (s.changed o self cause other).version o = (s.version o + 1) % 65536 :=
  aget_aset_same h

/-! ### The insertion that waits for a region (R262) -/

section
variable {s : State} {w : WaitInsert} {p : Nat}

/-- An insertion into the seen-cache takes the first slot that holds nothing live. -/
theorem State.seenInsert_done (hl : ∀ q ∈ seenSlots w.eui w.seq, s.locked 2 (regionOf 2 q) = false)
    (hp : s.seenFree w.eui w.seq = some p) : s.seenInsert w.eui w.seq w.age =
      ({ s with tbl := { s.tbl with
        seen := aput s.tbl.seen p { seed := w.eui, seq := w.seq, expiry := s.expiryOf w.age } } }, .done) := by
  have hnone : ((seenSlots w.eui w.seq).find? fun p => s.locked 2 (regionOf 2 p)) = none :=
    List.find?_eq_none.mpr fun q hq => by simp [hl q hq]
  simp only [State.seenInsert, hnone, hp]

theorem State.seenPut_done (hl : ∀ q ∈ seenSlots w.eui w.seq, s.locked 2 (regionOf 2 q) = false)
    (hp : s.seenFree w.eui w.seq = some p) (hd : s.decidedOn ⟨.seen, seenKey w.eui.toNat w.seq.toNat⟩ = false) :
    s.seenPut w.eui w.seq w.age = State.changed { s with tbl := { s.tbl with
      seen := aput s.tbl.seen p { seed := w.eui, seq := w.seq, expiry := s.expiryOf w.age } } }
        ⟨.seen, seenKey w.eui.toNat w.seq.toNat⟩ none 1 0 := by
  rw [State.seenPut, if_neg (by simp [hd]), State.seenInsert_done hl hp]

theorem State.lockWaitApply_inserts {r : Nat} (hr : s.locked 2 r = false) (hw : s.tbl.waits = [w]) (ht : w.table = 2)
    (hreg : w.region = some r) (hl : ∀ q ∈ seenSlots w.eui w.seq, s.locked 2 (regionOf 2 q) = false)
    (hp : s.seenFree w.eui w.seq = some p) (hd : s.decidedOn ⟨.seen, seenKey w.eui.toNat w.seq.toNat⟩ = false) :
    s.lockWaitApply 2 r = State.changed { s with tbl := { s.tbl with
      waits := [], seen := aput s.tbl.seen p { seed := w.eui, seq := w.seq, expiry := s.expiryOf w.age } } }
        ⟨.seen, seenKey w.eui.toNat w.seq.toNat⟩ none 1 0 := by
  have hmine : [w].filter (fun w : WaitInsert => w.table = 2 && w.region = some r) = [w] :=
    List.filter_cons_of_pos (by simp [ht, hreg])
  have hothers : [w].filter (fun x : WaitInsert => !(x.table = 2 && x.region = some r)) = [] :=
    List.filter_cons_of_neg (by simp [ht, hreg])
  rw [State.lockWaitApply, if_neg (by simp [hr])]
  simp only [State.applyWaits, hw, hmine, hothers, List.foldl_cons, List.foldl_nil]
  rw [State.applyWait, if_pos ht]
  exact State.seenPut_done (s := { s with tbl := { s.tbl with waits := [] } }) hl hp hd

end

/-! ### Locks (R264) -/

/-- A bit written leaves every other bit of the word. -/
theorem bit_setBits_bit (w : Word) {k j : Nat} (hk : k < 32) (v : Nat) :
    bit (setBits w k k v) j = if j = k then decide (v % 2 = 1) else bit w j := by
  rw [bit, bit]
  simp only [setBits, BitVec.getLsbD_or, BitVec.getLsbD_and, BitVec.getLsbD_not, BitVec.getLsbD_ofNat, Nat.add_sub_cancel_left,
    Nat.pow_one, Nat.testBit_shiftLeft]
  by_cases h : j = k
  · subst h
    simp [hk]
  · have hbit : ∀ m : Nat, m < 2 → (decide (k ≤ j) && m.testBit (j - k)) = false := by
      intro m hm
      rcases Nat.lt_or_gt_of_ne h with hlt | hgt
      · simp [Nat.not_le.mpr hlt]
      · have : m.testBit (j - k) = false := Nat.testBit_lt_two_pow
          (Nat.lt_of_lt_of_le hm (Nat.pow_le_pow_right (n := 2) (by decide) (by omega : 1 ≤ j - k)))
        simp [this]
    rw [if_neg h]
    simp only [ge_iff_le, hbit (2 - 1) (by decide), hbit (v % 2) (Nat.mod_lt v (by decide)), Bool.and_false, Bool.not_false,
      Bool.and_true, Bool.or_false]
    by_cases h32 : j < 32
    · simp [h32]
    · simp [BitVec.getLsbD_of_ge w j (Nat.not_lt.mp h32)]

theorem tblLock_noted {t h : Nat} (ht : t < 3) (hh : h < 2) : noted (Reg.TBL_LOCK t h) = false := by
  simp only [noted, moved, Bool.or_eq_false_iff, decide_eq_false_iff_not]
  simp only [Reg.TBL_LOCK, Reg.HIF_INT_STATUS, Reg.HIF_CNT]
  omega

theorem State.lockExpiry_unlocks {s : State} {t r : Nat} {k : TickNo} (h : afind s.tbl.lockedAt (64 * t + r) = some k)
    (hk : s.regFld Reg.TBL_LOCK_MAX 15 0 < (s.tick + 2 ^ 48 - k.toNat) % 2 ^ 48) :
    s.lockExpiry t r = (post ((s.unlock t r).bump (Reg.TBL_CNT 14)) .warning 0x0B none 0 [pw t, pw r]).raise 15 := by
  simp only [State.lockExpiry, h, if_pos hk]

/-- The registers of the locks after one region's lock has expired. -/
theorem State.lockExpiry_reg {s : State} {t r t' h' : Nat} {k : TickNo} (hs : s.tidy)
    (h : afind s.tbl.lockedAt (64 * t + r) = some k)
    (hk : s.regFld Reg.TBL_LOCK_MAX 15 0 < (s.tick + 2 ^ 48 - k.toNat) % 2 ^ 48) (ht : t' < 3) (hh : h' < 2) :
    (s.lockExpiry t r).reg (Reg.TBL_LOCK t' h') = if Reg.TBL_LOCK t' h' = Reg.TBL_LOCK t (r / 32) then
      setBits (s.reg (Reg.TBL_LOCK t' h')) (r % 32) (r % 32) 0 else s.reg (Reg.TBL_LOCK t' h') := by
  have hn := tblLock_noted ht hh
  have hm : moved (Reg.TBL_LOCK t' h') = false := by
    simp only [noted, Bool.or_eq_false_iff] at hn
    exact hn.1.1
  have hcnt : Reg.TBL_LOCK t' h' ≠ Reg.TBL_CNT 14 := by
    unfold Reg.TBL_LOCK Reg.TBL_CNT
    omega
  rw [State.lockExpiry_unlocks h hk, State.raise_reg hm, post_reg hn, State.bump, State.bumpBy_reg hcnt, State.unlock]
  split
  next he => 
    rw [he]
    exact (Keeps.set_tbl (W := [.tbl]) (by decide) (Keeps.refl s)).tidy hs |>.reg_setReg _ _
  next hne => exact State.setFld_reg hne

theorem State.lockExpiry_locked {s : State} {t r : Nat} {k : TickNo} (hs : s.tidy) (ht : t < 3) (hr : r < 64)
    (h : afind s.tbl.lockedAt (64 * t + r) = some k)
    (hk : s.regFld Reg.TBL_LOCK_MAX 15 0 < (s.tick + 2 ^ 48 - k.toNat) % 2 ^ 48) {t' r' : Nat} (ht' : t' < 3) (hr' : r' < 64) :
    (s.lockExpiry t r).locked t' r' = (s.locked t' r' && decide ((t', r') ≠ (t, r))) := by
  rw [State.locked, State.lockExpiry_reg hs h hk ht' (by omega), State.locked]
  split
  next he =>
    rw [bit_setBits_bit _ (Nat.mod_lt _ (by decide))]
    unfold Reg.TBL_LOCK at he
    by_cases hrr : r' % 32 = r % 32
    · have heq : t' = t ∧ r' = r := by omega
      simp [hrr, heq.1, heq.2]
    · have hne : (t', r') ≠ (t, r) := fun h => hrr (by rw [(Prod.mk.inj h).2])
      simp [hrr, hne]
  next hne =>
    have hne' : (t', r') ≠ (t, r) := fun h => hne (by rw [(Prod.mk.inj h).1, (Prod.mk.inj h).2])
    simp [hne']

/-! ### The overflow (R240) -/

/-- An overflow entry moves to the free slot of a candidate bucket. -/
theorem State.drainOne_moves {s : State} {p q : Nat} {e : EmEntry} (he : afind s.tbl.em p = some e)
    (hp : s.locked 0 (regionOf 0 p) = false) (hq : s.freeSlot (emBucket s.tbl.seed0 e.eui) = some q)
    (hl : s.locked 0 (regionOf 0 q) = false) :
    s.drainOne p = State.bump { s with tbl := { s.tbl with em := aerase (aput s.tbl.em q e) p } } (Reg.TBL_CNT 9) := by
  simp only [State.drainOne, he]
  rw [if_neg (by simp [hp]), hq]
  simp only [Option.filter, hl, Bool.not_false, if_true]
  rfl

theorem State.overflowDrain_moves {s : State} {p q : Nat} {e : EmEntry} (hm : s.tbl.migration = none)
    (hd : s.tbl.drainDue = true) (hf : (s.tbl.em.filter fun e => decide (ovfBase ≤ e.1)) = [(p, e)])
    (he : afind s.tbl.em p = some e) (hp : s.locked 0 (regionOf 0 p) = false)
    (hq : s.freeSlot (emBucket s.tbl.seed0 e.eui) = some q) (hl : s.locked 0 (regionOf 0 q) = false) :
    ∃ u, u = State.bump { s with tbl := { s.tbl with em := aerase (aput s.tbl.em q e) p } } (Reg.TBL_CNT 9) ∧
      s.overflowDrain = { u with tbl := { u.tbl with drainDue := u.drainable } } := by
  refine ⟨_, rfl, ?_⟩
  rw [State.overflowDrain, State.drainOverflow, if_neg (by simp [hm, hd])]
  simp only [hf, List.map_cons, List.map_nil, List.foldl_cons, List.foldl_nil, State.drainOne_moves he hp hq hl]

/-! ### The end of a migration (R244) -/

/-- The image that a migration leaves in force: each entry as it stands now. -/
def State.imageNow (s : State) (m : Migration) : List (Nat × EmEntry) :=
  m.image.map fun e => (e.1, ((s.tbl.em.find? fun x => x.2.eui = e.2.eui).map Prod.snd).getD e.2)

/-- With no insertion waiting for the migration, none is applied. -/
theorem State.applyWaits_of_regions {s : State} (h : ∀ w ∈ s.tbl.waits, w.region ≠ none) (t : Nat) :
    s.applyWaits t none = s := by
  have hmine : s.tbl.waits.filter (fun w : WaitInsert => w.table = t && w.region = none) = [] :=
    List.filter_eq_nil_iff.mpr fun w hw => by simp [h w hw]
  have hothers : s.tbl.waits.filter (fun w : WaitInsert => !(w.table = t && w.region = none)) = s.tbl.waits :=
    List.filter_eq_self.mpr fun w hw => by simp [h w hw]
  simp only [State.applyWaits, hmine, hothers, List.foldl_nil]

theorem State.endMigration_image {s : State} {m : Migration} (hm : s.tbl.migration = some m)
    (hw : ∀ w ∈ s.tbl.waits, w.region ≠ none) : s.endMigration =
      post (State.setFld { s with tbl := { s.tbl with migration := none, em := s.imageNow m } } Reg.TBL_EM_STATUS 31 31 0)
        .info 0x0B none 0 [] := by
  simp only [State.endMigration, hm]
  refine (State.applyWaits_of_regions (by rw [post_tbl]; exact hw) 0).trans ?_
  refine congrArg (fun l => post (State.setFld { s with tbl := { s.tbl with migration := none, em := l } } Reg.TBL_EM_STATUS 31 31 0)
    .info 0x0B none 0 []) (List.map_congr_left fun e _ => ?_)
  cases s.tbl.em.find? fun x => x.2.eui = e.2.eui <;> rfl

theorem State.migrationEnd_ends {s : State} {i : U64} {m : Migration} (hm : s.tbl.migration = some m) (hd : m.deferred = [])
    (hw : ∀ w ∈ s.tbl.waits, w.region ≠ none) : s.migrationEnd i =
      post (State.setFld { s.at_ i with tbl := { s.tbl with migration := none, em := s.imageNow m } } Reg.TBL_EM_STATUS 31 31 0)
        .info 0x0B none 0 [] := by
  simp only [State.migrationEnd, State.at__tbl, hm, hd, List.foldl_nil]
  have h := State.endMigration_image (s := s.at_ i) (m := m) (by rw [State.at__tbl, hm]) (by rw [State.at__tbl]; exact hw)
  rw [h]
  simp only [State.imageNow, State.at__tbl]

/-! ### Ages (R253) -/

theorem State.agedOut_dead {s : State} {e : SeenEntry} (h : e ∈ s.agedOut) : s.seenLive e = false := by
  obtain ⟨x, hx, rfl⟩ := List.mem_map.mp h
  have he := (List.mem_filter.mp hx).2
  simp only [Bool.and_eq_true, decide_eq_true_eq] at he
  simp only [State.seenLive, he.2, BitVec.toNat_ofNat, decide_eq_false_iff_not]
  omega

theorem State.seenAgeOut_keeps_else (s : State) : Keeps [.spanc] s s.seenAgeOut :=
  State.seenAgeOut_keeps (.of rfl) (Keeps.refl s)

/-- Settles O44: each event by the lemma of the change it makes to the tables. -/
theorem tablesAdvance : Obligations.tablesAdvance := by
  refine ⟨fun s r p w o hr hw ht hreg hl hp ho hd hv => ?_, fun s t r k hs ht hr h hk => ?_,
    fun s p q e hm hd hf he hp hq hl => ?_, fun s i m hm hd hw => ?_, fun s => ?_⟩
  · subst ho
    have hk : Keeps [.spanc] _ _ := State.changed_keeps (o := ⟨.seen, seenKey w.eui.toNat w.seq.toNat⟩) (self := none) (cause := 1)
      (other := 0) (.of rfl) (Keeps.refl { s with tbl := { s.tbl with
        waits := [], seen := aput s.tbl.seen p { seed := w.eui, seq := w.seq, expiry := s.expiryOf w.age } } })
    have htbl := hk.part .tbl rfl
    simp only [State.same] at htbl
    refine ⟨_, next_of (State.lockWaitApply_inserts hr hw ht hreg hl hp hd), ?_, ?_, ?_, State.changed_version hv,
      ((Keeps.set_tbl (W := [.spanc, .tbl]) (by decide) (Keeps.refl s)).comp (hk.widen (.of rfl))).onlyIn⟩
    · rw [htbl]
    · rw [htbl]
    · rw [htbl]
  · have hlocked {t' r' : Nat} (ht' : t' < 3) (hr' : r' < 64) := State.lockExpiry_locked hs ht hr h hk ht' hr'
    have hrun := State.lockExpiry_unlocks h hk
    have htbl : (s.lockExpiry t r).tbl = { s.tbl with lockedAt := aerase s.tbl.lockedAt (64 * t + r) } := by
      rw [hrun, State.raise_tbl, post_tbl, State.bump_tbl]
      rfl
    refine ⟨_, rfl, ?_, fun t' r' ht' hr' hne => ?_, ?_, ?_, ?_, ?_, (State.lockExpiry_keeps (.of rfl) (Keeps.refl s)).onlyIn⟩
    · simp [hlocked ht hr]
    · simp [hlocked ht' hr', hne]
    · rw [htbl]
    · rw [htbl]
    · rw [htbl]
    · rw [htbl]
  · obtain ⟨u, hu, hrun⟩ := State.overflowDrain_moves hm hd hf he hp hq hl
    have htbl : u.tbl = { s.tbl with em := aerase (aput s.tbl.em q e) p } := by
      rw [hu, State.bump_tbl]
    have honly := (State.overflowDrain_keeps (W := [.tbl, .regs]) (.of rfl) (Keeps.refl s)).onlyIn
    rw [hrun] at honly
    refine ⟨_, next_of hrun, ?_, honly⟩
    have hdrain : State.drainable { u with tbl := { u.tbl with drainDue := u.drainable } } = u.drainable := rfl
    rw [hdrain]
    exact congrArg (fun t : TblSt => { t with drainDue := u.drainable }) htbl
  · refine ⟨_, next_of (State.migrationEnd_ends hm hd hw), ?_⟩
    rw [post_tbl, State.setFld_tbl]
    exact ⟨rfl, rfl, rfl, rfl, rfl, (post_keeps (.of rfl) (State.setFld_keeps (.of rfl) (Keeps.set_tbl (by decide)
      (State.at__keeps (.of rfl) (Keeps.refl s))))).onlyIn⟩
  · have hk := s.seenAgeOut_keeps_else
    refine ⟨_, rfl, fun e he => ?_, fun e o ha ho hd hv => ?_, fun e ha hd => ?_, hk.onlyIn⟩
    · rw [← State.agedOut_dead he]
      simp only [State.seenLive, State.tick_of_clock (hk.clock rfl)]
    · subst ho
      rw [State.seenAgeOut, ha, List.foldl_cons, List.foldl_nil, State.ageOut, if_neg (by simp [hd])]
      exact State.changed_version hv
    · rw [State.seenAgeOut, ha, List.foldl_cons, List.foldl_nil, State.ageOut, if_pos hd]
      exact ⟨rfl, rfl⟩

end Sys2Proof.Machine
/-! The receive front end and the piers (O39): what a pier reads after a write, the gain that steps down, and the windows
that open and close. -/
namespace Sys2Proof.Machine

/-! ## A pier after a write -/

theorem State.pier_setPier_same {s : State} {p : Nat} (x : Pier) (hp : p < s.rf.piers.length) :
    (s.setPier p x).pier p = x := by
  simp [State.pier, State.setPier, lset_eq_set, List.getD_eq_getElem?_getD, hp]

theorem State.pier_setPier_other {s : State} {p q : Nat} (x : Pier) (h : q ≠ p) : (s.setPier p x).pier q = s.pier q := by
  simp [State.pier, State.setPier, lset_eq_set, List.getD_eq_getElem?_getD, List.getElem?_set_ne h.symm]

theorem State.pier_congr {s t : State} (h : t.rf = s.rf) (p : Nat) : t.pier p = s.pier p := by
  rw [State.pier, h, State.pier]

@[simp] theorem State.bump_pier (s : State) (a p : Nat) : (s.bump a).pier p = s.pier p :=
  State.pier_congr (State.bump_rf ..) p

/-! ## A band that clips -/

/-- The gain of a band after it was set: its two counters are other registers. -/
theorem State.gain_after_clip {s : State} (htidy : s.tidy) {b : Nat} (hb : b < 2) (n : Nat) :
    (((s.setGain b (s.gain b - 4)).bump (Reg.RXF_CNT b 3)).bumpBy (Reg.RXF_CNT b 4) 31 n).gain b = s.gain b - 4 := by
  have h3 : Reg.RXF_GAIN b ≠ Reg.RXF_CNT b 3 := by
    have hcase : b = 0 ∨ b = 1 := by omega
    rcases hcase with rfl | rfl <;> decide
  have h4 : Reg.RXF_GAIN b ≠ Reg.RXF_CNT b 4 := by
    have hcase : b = 0 ∨ b = 1 := by omega
    rcases hcase with rfl | rfl <;> decide
  have hlt : s.gain b < 2 ^ 6 := by
    rw [State.gain, State.regFld, bits]
    exact Nat.mod_lt _ (by decide)
  have hset := State.regFld_setFld_same (v := s.gain b - 4) htidy (a := Reg.RXF_GAIN b) (hi := 5) (lo := 0) (by decide)
  rw [State.gain, State.regFld, State.bumpBy_reg h4, State.bump, State.bumpBy_reg h3]
  exact hset.trans (Nat.mod_eq_of_lt (by omega))

/-! ## Windows -/

theorem State.rxWindowOpen_opens {s r : State} {i : U64} {p : Nat} {w : Window} (hr : r = s.airAt i)
    (hprim : r.isPrimary p = true) (hw : (r.pier p).window = some w) (hopens : r.opensWindow w = true)
    (hshut : (r.pier p).windowOpen = false) (hidle : (r.pier p).state = .idle) :
    s.rxWindowOpen i p = r.setPier p { (r.pier p).to .search with
      channel := w.channel
      connected := true
      windowOpen := true
      band := if r.pierRole p = .primaryA then 0 else 1 } := by
  unfold State.rxWindowOpen
  rw [← hr]
  simp only [hw]
  exact if_neg (by simp [hprim, hopens, hshut, hidle])

/-- The state in which a window has ended, before the waits, watches and searches are settled: its pier goes on or idles,
and a beacon window left unheard is watched (R107, R194). -/
def State.windowShut (s : State) (p : Nat) (w : Window) : State :=
  let x := s.pier p
  let y := { x with windowOpen := false }
  let s1 := s.setPier p (if y.receiving || y.state = .blanked then y else y.idle)
  if (w.parent || w.beacon) && !w.heard then
    s1.setRf fun r => { r with watches := r.watches ++
      [{ band := x.band, channel := w.channel, slotStart := w.slotStart, parent := w.parent }] }
  else if w.beacon then { s1 with red := if x.band = 0 then { s1.red with missA := 0 } else { s1.red with missB := 0 } }
  else s1

theorem State.rxWindowClose_shuts {s r : State} {i : U64} {p : Nat} {w : Window} (hr : r = s.airAt i)
    (hw : (r.pier p).window = some w) (hopen : (r.pier p).windowOpen = true) (hsearch : w.search = false) :
    s.rxWindowClose i p = (r.windowShut p w).settleAir := by
  unfold State.rxWindowClose
  rw [← hr]
  have hgo : ¬ (!(r.pier p).windowOpen || w.search) = true := by simp [hopen, hsearch]
  dsimp only
  split
  next hnone => rw [hw] at hnone; cases hnone
  next w' hsome =>
    obtain rfl : w = w' := Option.some.inj (hw.symm.trans hsome)
    exact if_neg hgo

/-- The piers of a window that has ended are those its own pier was written in. -/
theorem State.windowShut_pier (s : State) (p : Nat) (w : Window) (q : Nat) :
    (s.windowShut p w).pier q = (s.setPier p (if (s.pier p).receiving || (s.pier p).state = .blanked then
      { s.pier p with windowOpen := false } else { s.pier p with windowOpen := false }.idle)).pier q := by
  unfold State.windowShut
  split
  · rfl
  · split <;> rfl

theorem State.windowShut_watches (s : State) (p : Nat) (w : Window) : (s.windowShut p w).rf.watches =
    s.rf.watches ++ (if (w.parent || w.beacon) && !w.heard then
      [{ band := (s.pier p).band, channel := w.channel, slotStart := w.slotStart, parent := w.parent }] else []) := by
  unfold State.windowShut
  split
  · rfl
  · split <;> exact (List.append_nil _).symm

theorem State.windowShut_keeps {W : List Part} {z s : State} {p : Nat} {w : Window} (hw : Within [.red, .rf] W)
    (h : Keeps W z s) : Keeps W z (s.windowShut p w) := by
  have h1 {x : Pier} : Keeps W z (s.setPier p x) := State.setPier_keeps (hw.mono rfl) h
  unfold State.windowShut
  exact Keeps.ite (State.setRf_keeps (hw.mono rfl) h1) (Keeps.ite (Keeps.set_red (hw.mem (by decide)) h1) h1)

theorem State.airAt_of_eq {s r : State} {i : U64} (hr : r = s.airAt i) : Keeps [.time, .rf] s r := by
  rw [hr]
  exact State.airAt_keeps (.of rfl) (Keeps.refl s)

/-- Settles O39: the gain that steps down, and the windows that open and close. -/
theorem windowsOpenAndClose : Obligations.windowsOpenAndClose := by
  refine ⟨fun s i b htidy hb hsamp hpres hgain => ?_, fun s r i p w hr hp hprim hw hopens hshut hidle => ?_,
    fun s r i p w hr hp hw hopen hsearch => ?_⟩
  · have hk := (State.at__keeps (.of rfl) (Keeps.refl s) : Keeps [.time] s (s.at_ i))
    have hg : (s.at_ i).gain b = s.gain b := by rw [State.gain, State.gain, State.at__regFld]
    have hgo : ¬ (!(s.at_ i).sampling || !((s.at_ i).tp.band b).present || (s.at_ i).gain b = 0) = true := by
      have hs : (s.at_ i).sampling = true := (State.at__inStates ..).trans hsamp
      simp [hs, State.at__tp, hpres, hg, hgain]
    refine ⟨_, rfl, ?_, ?_, (State.clippingStep_keeps (.of rfl) (Keeps.refl s)).onlyIn⟩
    · rw [State.clippingStep, if_neg hgo, ← hg]
      exact State.gain_after_clip (hk.tidy htidy) hb _
    · rw [State.clippingStep, if_neg hgo]
      simp only [State.setRf_rf, State.bumpBy_rf, State.bump_rf, State.setGain, State.setFld_rf]
      rw [show (s.at_ i).rf = s.rf from hk.part .rf rfl]
  · have hrun := State.rxWindowOpen_opens hr hprim hw hopens hshut hidle
    refine ⟨_, next_of hrun, ?_, fun q hq => State.pier_setPier_other _ hq,
      (State.setPier_keeps (.of rfl) ((State.airAt_of_eq hr).widen (.of rfl))).onlyIn⟩
    rw [State.pier_setPier_same _ hp]
    simp [Pier.to, PierState.agc]
  · refine ⟨_, next_of (State.rxWindowClose_shuts hr hw hopen hsearch), ?_, fun q hq => ?_, State.windowShut_watches ..,
      (State.windowShut_keeps (.of rfl) ((State.airAt_of_eq hr).widen (.of rfl))).onlyIn⟩
    · rw [State.windowShut_pier, State.pier_setPier_same _ hp]
    · rw [State.windowShut_pier, State.pier_setPier_other _ hq]

end Sys2Proof.Machine
/-! A frame from its preamble to its end (O40): the detection, the SFD, the PHR, and the hand-over to the MAC. -/
namespace Sys2Proof.Machine

/-! ## Receptions read the piers and the truss alone -/

@[simp] theorem State.bump_tp (s : State) (a : Nat) : (s.bump a).tp = s.tp := rfl

@[simp] theorem State.bump_isPrimary (s : State) (a p : Nat) : (s.bump a).isPrimary p = s.isPrimary p := rfl

@[simp] theorem State.bump_receptions (s : State) (a b ch : Nat) (but : Option Nat) :
    (s.bump a).receptions b ch but = s.receptions b ch but := rfl

@[simp] theorem State.bump_freeTwins (s : State) (a : Nat) : (s.bump a).freeTwins = s.freeTwins := rfl

/-! ## A preamble -/

/-- What a preamble must be to be considered (R98, R99, R101): over the thresholds and within the pull-in range, at an
open window of a primary pier, and no repeat of a reception under way. -/
structure State.Detects (r : State) (p : Nat) (x : Pier) (d : Preamble) : Prop where
  primary : r.isPrimary p = true
  windowOpen : x.windowOpen = true
  unblanked : r.blankedBy x.band x.channel = false
  corr : bits (r.reg (Reg.RXF_DET x.band)) 7 0 ≤ d.corr
  power : signed (bits (r.reg (Reg.RXF_DET x.band)) 23 16) 8 * 4 ≤ d.power
  pullsIn : (r.tp.band x.band).pullsIn d.cfo = true
  fresh : ((r.receptions x.band x.channel (some p)).any fun q =>
    withinSymbol ((r.tp.band x.band).symbolNs 1) q.timing d.start) = false

theorem State.preambleDetect_search {s r : State} {i : U64} {p : Nat} {x : Pier} {d : Preamble} (hr : r = s.airAt i)
    (hx : x = r.pier p) (h : r.Detects p x d) (hst : x.state = .search) :
    s.preambleDetect i p d = (r.bump (Reg.PIER_CNT x.band 0)).startSync p x d := by
  obtain ⟨hprim, hopen, hblank, hcorr, hpow, hpull, hfresh⟩ := h
  have hmid : x.midFrame = false := by simp [Pier.midFrame, hst]
  unfold State.preambleDetect
  rw [← hr]
  dsimp only
  rw [← hx, if_neg (by simp [hprim, hopen, hblank, hst, hpull, hcorr, hpow]), if_neg (by simp [hfresh]),
    if_neg (by simp [hmid]), if_pos hst]

theorem State.preambleDetect_twin {s r : State} {i : U64} {p w : Nat} {x : Pier} {d : Preamble} {v : Int} {l : List Nat}
    (hr : r = s.airAt i) (hx : x = r.pier p) (h : r.Detects p x d) (hmid : x.midFrame = true)
    (hnew : withinSymbol ((r.tp.band x.band).symbolNs 1) x.timing d.start = false)
    (hv : strongest (r.receptions x.band x.channel none) = some v) (hle : v + 2 * r.tp.captureMargin ≤ d.power)
    (hfree : r.freeTwins = w :: l) :
    s.preambleDetect i p d = ((r.bump (Reg.PIER_CNT x.band 0)).bump (Reg.PIER_CNT x.band 7)).startSync w { r.pier w with
      band := x.band
      channel := x.channel
      connected := true
      partner := some p
      window := x.window
      windowOpen := false } d := by
  obtain ⟨hprim, hopen, hblank, hcorr, hpow, hpull, hfresh⟩ := h
  have hst : x.state ≠ .search := fun h => by simp [Pier.midFrame, h] at hmid
  unfold State.preambleDetect
  rw [← hr]
  dsimp only
  rw [← hx, if_neg (by simp [hprim, hopen, hblank, hmid, hpull, hcorr, hpow]), if_neg (by simp [hfresh]),
    if_neg (by simp [hnew]), if_neg hst, State.bump_receptions, hv, State.bump_freeTwins, hfree, State.bump_tp,
    if_neg (by simp [hle])]
  rfl

/-- A pier that has detected a preamble (R101 to R103). -/
theorem State.startSync_pier (s : State) {p : Nat} (x : Pier) (d : Preamble) (hp : p < s.rf.piers.length) :
    ((s.startSync p x d).pier p).state = .sync ∧ ((s.startSync p x d).pier p).agc = .frozen ∧
    ((s.startSync p x d).pier p).timing = d.start ∧ ((s.startSync p x d).pier p).power = clampS d.power 12 ∧
    ((s.startSync p x d).pier p).cfo = d.cfo ∧
    ((s.startSync p x d).pier p).sfdBy = s.now + (s.tp.band x.band).sfdDeadline ∧
    ((s.startSync p x d).pier p).channel = x.channel ∧ ((s.startSync p x d).pier p).partner = x.partner := by
  unfold State.startSync
  rw [State.pier_setPier_same _ hp]
  exact ⟨rfl, rfl, rfl, rfl, rfl, rfl, rfl, rfl⟩

theorem State.startSync_pier_other (s : State) {p q : Nat} (x : Pier) (d : Preamble) (h : q ≠ p) :
    (s.startSync p x d).pier q = s.pier q := State.pier_setPier_other _ h

/-! ## The end of an attempt -/

theorem State.dropClaim_piers_frames (s : State) (c : Nat) :
    (s.dropClaim c).rf.piers = s.rf.piers ∧ (s.dropClaim c).rf.frames = s.rf.frames := by
  have hrf : (s.withdrawJob c).rf = s.rf := (State.withdrawJob_keeps (W := [.cip]) (.of rfl) (Keeps.refl s)).part .rf rfl
  rw [State.dropClaim, State.setRf_rf, hrf]
  exact ⟨rfl, rfl⟩

/-- What cutting a reception off leaves of the piers, and of the frames when it had not ended. -/
theorem State.cutReception_piers (s : State) (p : Nat) : (s.cutReception p).rf.piers = s.rf.piers := by
  unfold State.cutReception
  dsimp only
  cases (s.pier p).ackClaim with
  | none => split <;> rfl
  | some c => split <;> exact (s.dropClaim_piers_frames c).1

theorem State.cutReception_frames {s : State} {p : Nat} (h : (s.pier p).state ≠ .drain) :
    (s.cutReception p).rf.frames = s.rf.frames := by
  unfold State.cutReception
  dsimp only
  rw [if_neg h]
  cases (s.pier p).ackClaim with
  | none => rfl
  | some c => exact (s.dropClaim_piers_frames c).2

theorem State.isPrimary_congr {s t : State} (h : t.truss = s.truss) (p : Nat) : t.isPrimary p = s.isPrimary p := by
  have hrole : t.pierRole p = s.pierRole p := by
    unfold State.pierRole State.tp
    rw [h]
  rw [State.isPrimary, hrole, State.isPrimary]

theorem State.leave_pier (s : State) {p : Nat} (hp : p < s.rf.piers.length) : (s.leave p).pier p =
    if s.isPrimary p && (s.pier p).windowOpen then (s.pier p).clear.to .search else (s.pier p).clear.idle :=
  State.pier_setPier_same _ hp

/-- The pier of an attempt that has ended searches on at its open window, or idles. -/
theorem State.abandon_pier (s : State) {p : Nat} (cnt : Nat) (hp : p < s.rf.piers.length) : (s.abandon p cnt).pier p =
    if s.isPrimary p && (s.pier p).windowOpen then (s.pier p).clear.to .search else (s.pier p).clear.idle := by
  have hpiers := s.cutReception_piers p
  have hpier : (s.cutReception p).pier p = s.pier p := by rw [State.pier, hpiers, State.pier]
  have hprim : (s.cutReception p).isPrimary p = s.isPrimary p :=
    State.isPrimary_congr ((State.cutReception_keeps (W := [.cip, .rf]) (.of rfl) (Keeps.refl s)).part .truss rfl) p
  rw [State.abandon, State.leave_pier _ (by rw [State.bump_rf, hpiers]; exact hp), State.bump_isPrimary,
    State.bump_pier, hpier, hprim]

theorem State.abandon_state (s : State) {p : Nat} (cnt : Nat) (hp : p < s.rf.piers.length) :
    ((s.abandon p cnt).pier p).state = if s.isPrimary p && (s.pier p).windowOpen then .search else .idle := by
  rw [s.abandon_pier cnt hp]
  split <;> rfl

theorem State.abandon_lastCfo (s : State) {p : Nat} (cnt : Nat) (hp : p < s.rf.piers.length) :
    ((s.abandon p cnt).pier p).lastCfo = (s.pier p).lastCfo := by
  rw [s.abandon_pier cnt hp]
  split <;> rfl

theorem State.abandon_frames {s : State} {p cnt : Nat} (h : (s.pier p).state ≠ .drain) :
    (s.abandon p cnt).rf.frames = s.rf.frames := State.cutReception_frames h

/-! ## The SFD -/

theorem State.sfdFound_header {s r : State} {i : U64} {p ts : Nat} {x : Pier} (hr : r = s.airAt i) (hx : x = r.pier p)
    (hst : x.state = .sync) (hby : r.now ≤ x.sfdBy)
    (hfresh : ((r.receptions x.band x.channel (some p)).any fun q => withinSymbol ((r.tp.band x.band).symbolNs 1)
      (if q.sfd = 0 then q.timing + (r.tp.band x.band).sfdNs else q.sfd) ts) = false) :
    s.sfdFound i p ts = (r.bump (Reg.PIER_CNT x.band 1)).setPier p { x.to .header with sfd := ts } := by
  unfold State.sfdFound
  rw [← hr]
  dsimp only
  rw [← hx, if_neg (by simp [hst, hby]), if_neg (by simp [hfresh])]

theorem State.sfdTimeout_abandons {s r : State} {i : U64} {p : Nat} {x : Pier} (hr : r = s.airAt i) (hx : x = r.pier p)
    (hst : x.state = .sync) (hby : x.sfdBy ≤ r.now) : s.sfdTimeout i p = (r.abandon p 2).settleAir := by
  unfold State.sfdTimeout
  rw [← hr]
  dsimp only
  rw [← hx, if_pos (by simp [hst, hby])]

/-! ## The PHR -/

theorem State.phrReceived_switch {s r : State} {i : U64} {p : Nat} {x : Pier} {h : Phr} (hr : r = s.airAt i)
    (hx : x = r.pier p) (hst : x.state = .header) (hphy : (r.tp.band x.band).phy ≠ 3) (hms : h.ms = true) {m : BandCfg}
    (hm : m = { r.tp.band x.band with phy := h.phy, modIndex := h.modIndex, symbolRate := h.symbolRate }) :
    s.phrReceived i p h = if !h.reserved && h.switchOk (r.tp.band x.band) then
      (r.bump (Reg.PIER_CNT x.band 13)).setPier p { x.to .sync with
        ms := true
        sfd := 0
        octetNs := m.octetsNs 1
        sfdBy := r.now + 1000000 + m.octetsNs m.preambleLen + m.symbolNs 2 }
      else (r.abandon p 3).settleAir := by
  subst hm
  unfold State.phrReceived
  rw [← hr]
  dsimp only
  rw [← hx, if_neg (by simp [hst]), if_pos (by simp [hphy, hms])]

/-- A PHR that is not of a mode switch is judged by its length, and then by its reserved bits. -/
theorem State.phrReceived_length {s r : State} {i : U64} {p : Nat} {x : Pier} {h : Phr} (hr : r = s.airAt i)
    (hx : x = r.pier p) (hst : x.state = .header) (hplain : (r.tp.band x.band).phy = 3 ∨ h.ms = false) :
    s.phrReceived i p h =
      if h.len < h.fcsOctets (r.tp.band x.band) ∨ (r.tp.band x.band).maxPsdu < h.len then (r.abandon p 4).settleAir
      else if h.reserved then (r.abandon p 3).settleAir
      else (r.claimAck x (r.now + h.len * x.octetNs)).1.setPier p
        { ((r.claimAck x (r.now + h.len * x.octetNs)).1.pier p).to .payload with
          ends := some (r.now + h.len * x.octetNs)
          len := h.len
          fcs4 := h.fcsOctets (r.tp.band x.band) = 4
          whitened := h.whitened && (r.tp.band x.band).phy != 3
          ackClaim := (r.claimAck x (r.now + h.len * x.octetNs)).2 } := by
  unfold State.phrReceived
  rw [← hr]
  dsimp only
  rw [← hx, if_neg (by simp [hst]), if_neg (by rcases hplain with h | h <;> simp [h])]

/-! ## The end of a frame -/

/-- The frame's pier and the imbalance's count of frames, noted whether or not the frame is whole. -/
def State.frameNoted (s : State) (p : Nat) (x : Pier) (v : Int) : State :=
  (s.setPier p { x with lastCfo := v }).iqFrame x.band x.power

theorem State.frameNoted_rf (s : State) (p : Nat) (x : Pier) (v : Int) :
    (s.frameNoted p x v).rf = { s.rf with piers := lset s.rf.piers p { x with lastCfo := v } } := by
  unfold State.frameNoted State.iqFrame
  split <;> rfl

theorem State.frameEnd_eq {s r : State} {i : U64} {p : Nat} {x : Pier} {air : AirFrame} {octets psdu mpdu : List Byte}
    {cfo : Int} (hr : r = s.airAt i) (hx : x = r.pier p) (hst : x.state = .payload)
    (hm : mpdu = air.header ++ air.payload ++ air.mic) (hd : psdu = if x.whitened then Config.whiten octets else octets) :
    s.frameEnd i p air octets cfo =
      if psdu = mpdu ++ fcsOf x.fcs4 mpdu ∧ psdu.length = x.len then
        (((((r.frameNoted p x (clampS cfo 24)).bump (Reg.PIER_CNT x.band 5)).bump (Reg.PIER_FRAMES p)).handOver p x air mpdu
          (clampS cfo 24)).setPier p { x.to .drain with lastCfo := clampS cfo 24, ends := some r.now }).settleAir
      else ((r.frameNoted p x (clampS cfo 24)).abandon p 6).settleAir := by
  unfold State.frameEnd
  rw [← hr]
  dsimp only
  rw [← hx, if_neg (by simp [hst]), ← hm, ← hd]
  by_cases hok : psdu = mpdu ++ fcsOf x.fcs4 mpdu ∧ psdu.length = x.len
  · rw [if_pos hok, beq_iff_eq.2 hok.1, decide_eq_true hok.2]
    rfl
  · rw [if_neg hok, if_pos (by simpa only [Bool.not_eq_true', Bool.and_eq_false_iff, beq_eq_false_iff_ne,
      decide_eq_false_iff_not, ← Decidable.not_and_iff_or_not] using hok)]
    rfl

/-- The frame handed over to the MAC, and the piers as they were (R108). -/
theorem State.handOver_frames (s : State) (p : Nat) (x : Pier) (air : AirFrame) (mpdu : List Byte) (v : Int) :
    (s.handOver p x air mpdu v).rf.piers = s.rf.piers ∧
    ∃ f : RxFrame, (s.handOver p x air mpdu v).rf.frames = s.rf.frames ++ [f] ∧ f.id = s.rf.nextFrame ∧ f.band = x.band ∧
      f.channel = x.channel ∧ f.pier = p ∧ f.sfd = x.sfd ∧ f.ends = s.now ∧ f.mpdu = mpdu ∧ f.air = air ∧ f.cfo = v := by
  unfold State.handOver
  dsimp only
  split <;> exact ⟨rfl, _, rfl, rfl, rfl, rfl, rfl, rfl, rfl, rfl, rfl, rfl⟩

theorem State.frameNoted_keeps {W : List Part} {z s : State} {p : Nat} {x : Pier} {v : Int} (hw : Within [.cal, .rf] W)
    (h : Keeps W z s) : Keeps W z (s.frameNoted p x v) :=
  State.iqFrame_keeps (hw.mono rfl) (State.setPier_keeps (hw.mono rfl) h)

/-- The pier of a frame that did not pass keeps the frame's offset, and hands nothing over. -/
theorem State.frameNoted_abandon (s : State) {p : Nat} {x : Pier} (v : Int) (cnt : Nat) (hp : p < s.rf.piers.length)
    (hst : x.state ≠ .drain) :
    (((s.frameNoted p x v).abandon p cnt).pier p).lastCfo = v ∧
    (((s.frameNoted p x v).abandon p cnt).pier p).state = (if s.isPrimary p && x.windowOpen then .search else .idle) ∧
    ((s.frameNoted p x v).abandon p cnt).rf.frames = s.rf.frames := by
  have hrf := s.frameNoted_rf p x v
  have hlen : p < (s.frameNoted p x v).rf.piers.length := by simpa [hrf, lset_eq_set] using hp
  have hpier : (s.frameNoted p x v).pier p = { x with lastCfo := v } :=
    (State.pier_congr (t := s.frameNoted p x v) (s := s.setPier p { x with lastCfo := v }) hrf p).trans
      (State.pier_setPier_same _ hp)
  have hprim : (s.frameNoted p x v).isPrimary p = s.isPrimary p :=
    State.isPrimary_congr ((State.frameNoted_keeps (W := [.cal, .rf]) (.of rfl) (Keeps.refl s)).part .truss rfl) p
  refine ⟨?_, ?_, ?_⟩
  · rw [State.abandon_lastCfo _ _ hlen, hpier]
  · rw [State.abandon_state _ _ hlen, hpier, hprim]
  · rw [State.abandon_frames (by rw [hpier]; exact hst), hrf]

/-- Settles O40: the frame detected, framed and handed over. -/
theorem framesHeard : Obligations.framesHeard := by
  intro s r i p b x hr hx hb hp
  subst hb
  have hk := State.airAt_of_eq hr
  refine ⟨fun d hprim hopen hblank hcorr hpow hpull hfresh => ?_, fun ts hst hby hfresh => ?_, fun hst hby => ?_,
    fun h hst => ⟨fun hplain hlen => ?_, fun hplain hlo hhi hres => ?_, fun hphy hms hbad => ?_,
      fun m hphy hms hres hok hm => ?_, fun u cl e hres hplain hlo hhi he hcl => ?_⟩,
    fun air octets psdu mpdu cfo hst hm hd => ?_⟩
  · have hdet : r.Detects p x d := ⟨hprim, hopen, hblank, hcorr, hpow, hpull, hfresh⟩
    have honly := (State.preambleDetect_keeps (t := i) (p := p) (d := d) (W := [.regs, .rf, .time]) (.of rfl) (Keeps.refl s)).onlyIn
    refine ⟨fun hst => ?_, fun v w l hmid hnew hv hle hfree hw => ?_⟩
    · have hrun := State.preambleDetect_search hr hx hdet hst
      rw [hrun] at honly
      obtain ⟨h1, h2, h3, h4, h5, h6, -, -⟩ := State.startSync_pier (r.bump (Reg.PIER_CNT x.band 0)) x d hp
      exact ⟨_, next_of hrun, h1, h2, h3, h4, h5, h6, fun q hq => State.startSync_pier_other _ x d hq, honly⟩
    · have hrun := State.preambleDetect_twin hr hx hdet hmid hnew hv hle hfree
      rw [hrun] at honly
      obtain ⟨h1, -, -, -, -, -, h7, h8⟩ := State.startSync_pier ((r.bump (Reg.PIER_CNT x.band 0)).bump
        (Reg.PIER_CNT x.band 7)) (p := w) { r.pier w with
          band := x.band
          channel := x.channel
          connected := true
          partner := some p
          window := x.window
          windowOpen := false } d hw
      exact ⟨_, next_of hrun, h1, h7, h8, fun hne => (State.startSync_pier_other _ _ d hne.symm).trans hx.symm, honly⟩
  · refine ⟨_, next_of (State.sfdFound_header hr hx hst hby hfresh), ?_, fun q hq => State.pier_setPier_other _ hq,
      (State.setPier_keeps (.of rfl) (State.bump_keeps (.of rfl) (hk.widen (.of rfl)))).onlyIn⟩
    refine (State.pier_setPier_same (s := r.bump (Reg.PIER_CNT x.band 1)) _ hp).trans ?_
    simp [Pier.to, PierState.agc]
  · refine ⟨_, next_of (State.sfdTimeout_abandons hr hx hst hby), ?_,
      (State.abandon_keeps (.of rfl) (hk.widen (.of rfl))).onlyIn⟩
    rw [State.abandon_state _ _ hp, hx]
  · exact next_of ((State.phrReceived_length hr hx hst hplain).trans (if_pos hlen))
  · exact next_of ((State.phrReceived_length hr hx hst hplain).trans
      ((if_neg (by omega)).trans (if_pos hres)))
  · exact next_of ((State.phrReceived_switch hr hx hst hphy hms rfl).trans (if_neg (by
      rcases hbad with hbad | hbad <;> simp [hbad])))
  · refine ⟨_, next_of ((State.phrReceived_switch hr hx hst hphy hms hm).trans (if_pos (by simp [hres, hok]))), ?_,
      (State.setPier_keeps (.of rfl) (State.bump_keeps (.of rfl) (hk.widen (.of rfl)))).onlyIn⟩
    refine (State.pier_setPier_same (s := r.bump (Reg.PIER_CNT x.band 13)) _ hp).trans ?_
    simp [Pier.to, PierState.agc]
  · refine next_of (((State.phrReceived_length hr hx hst hplain).trans
      ((if_neg (by omega)).trans (if_neg (by simp [hres])))).trans ?_)
    rw [← he, hcl]
    simp [Pier.to, PierState.agc]
  · have hkn : Keeps [.cal, .cip, .regs, .rf, .time] s (r.frameNoted p x (clampS cfo 24)) :=
      State.frameNoted_keeps (.of rfl) (hk.widen (.of rfl))
    have hrun := State.frameEnd_eq (octets := octets) (cfo := cfo) hr hx hst hm hd
    by_cases hok : psdu = mpdu ++ fcsOf x.fcs4 mpdu ∧ psdu.length = x.len
    · have hrf : (((r.frameNoted p x (clampS cfo 24)).bump (Reg.PIER_CNT x.band 5)).bump (Reg.PIER_FRAMES p)).rf =
          { r.rf with piers := lset r.rf.piers p { x with lastCfo := clampS cfo 24 } } := r.frameNoted_rf p x _
      have hkz : Keeps [.cal, .regs, .rf] r
          (((r.frameNoted p x (clampS cfo 24)).bump (Reg.PIER_CNT x.band 5)).bump (Reg.PIER_FRAMES p)) :=
        State.bump_keeps (.of rfl) (State.bump_keeps (.of rfl) (State.frameNoted_keeps (.of rfl) (Keeps.refl r)))
      have hnow := State.now_of_clock (hkz.clock rfl)
      refine ⟨_, next_of (hrun.trans (if_pos hok)), ?_⟩
      rw [if_pos hok]
      generalize ((r.frameNoted p x (clampS cfo 24)).bump (Reg.PIER_CNT x.band 5)).bump (Reg.PIER_FRAMES p) = z
        at hrf hkz hnow ⊢
      obtain ⟨hpiers, f, hf, hid, hband, hch, hpf, hsfd, hends, hmp, hair, hcf⟩ :=
        z.handOver_frames p x air mpdu (clampS cfo 24)
      have hlen : p < (z.handOver p x air mpdu (clampS cfo 24)).rf.piers.length := by
        simpa [hpiers, hrf, lset_eq_set] using hp
      rw [State.pier_setPier_same _ hlen]
      exact ⟨rfl, ⟨rfl, rfl, f, hf.trans (by rw [hrf]), hid.trans (by rw [hrf]), hband, hch, hpf, hsfd,
        hends.trans hnow, hmp, hair, hcf⟩, (State.setPier_keeps (.of rfl) (State.handOver_keeps (.of rfl)
        ((hk.widen (.of rfl)).comp (hkz.widen (.of rfl))))).onlyIn⟩
    · obtain ⟨hcfo, hstate, hframes⟩ := State.frameNoted_abandon r (x := x) (clampS cfo 24) 6 hp (by simp [hst])
      refine ⟨_, next_of (hrun.trans (if_neg hok)), hcfo, ?_, (State.abandon_keeps (.of rfl) hkn).onlyIn⟩
      rw [if_neg hok]
      exact ⟨hstate, hframes⟩

end Sys2Proof.Machine
/-! The frames of the MAC as they arrive (O30): what the waits, watches and searches leave of the frames handed over, and
the filter and the stages up to the check. -/
namespace Sys2Proof.Machine

/-! ## What the settling of the air leaves alone -/

/-- The frames handed over and the piers. -/
def State.air (s : State) : List RxFrame × List Pier := (s.rf.frames, s.rf.piers)

theorem State.air_of_rf {s t : State} (h : t.rf = s.rf) : t.air = s.air := congrArg (fun r : RfSt => (r.frames, r.piers)) h

theorem Keeps.air {W : List Part} {s t : State} (h : Keeps W s t) (hW : W.contains .rf = false) : t.air = s.air :=
  State.air_of_rf (h.part .rf hW)

theorem State.foldl_air {α : Type} {f : State → α → State} (h : ∀ t a, (f t a).air = t.air) (l : List α) (s : State) :
    (l.foldl f s).air = s.air :=
  List.foldlRecOn l f (motive := fun t => t.air = s.air) rfl fun t ht a _ => (h t a).trans ht

theorem State.endClaim_air (s : State) (c : Claim) : (s.endClaim c).air = s.air := by
  obtain ⟨hp, hf⟩ := s.dropClaim_piers_frames c.id
  exact Prod.ext hf hp

theorem State.txComplete_air (s : State) (x : TxDesc) (st : Status) : (s.txComplete x st).air = s.air := by
  unfold State.txComplete
  extract_lets s1 s2 s3 q s3' s4
  have h2 : Keeps [.que, .regs] s s2 := Keeps.ite
    (State.releaseFlood_keeps (.of rfl) (State.freeOwned_keeps (.of rfl) (Keeps.refl s)))
    (State.freeOwned_keeps (.of rfl) (Keeps.refl s))
  have h4 : s4.air = s.air := (State.foldl_air State.endClaim_air _ _).trans ((rfl : s3'.air = s2.air).trans (h2.air rfl))
  cases x.ring with
  | none => exact h4
  | some k => exact h4

theorem State.waitFailed_air (s : State) (n : Nat) : (s.waitFailed n).air = s.air := by
  unfold State.waitFailed
  dsimp only
  split
  · rfl
  · split
    · exact State.txComplete_air ..
    · split
      · exact (State.txComplete_air ..).trans ((State.updCtx_keeps (W := [.ctxs, .regs]) (.of rfl)
          (State.bump_keeps (.of rfl) (State.bump_keeps (.of rfl) (Keeps.refl s)))).air rfl)
      · exact (State.untake_keeps (W := [.que, .regs]) (.of rfl) (State.bump_keeps (.of rfl) (Keeps.refl s))).air rfl

theorem State.settleWaits_air (s : State) : s.settleWaits.air = s.air :=
  State.foldl_air (f := fun (s : State) (w : AckWait) =>
    (s.setRf fun r => { r with waits := r.waits.filter fun x => x.claim != w.claim }).waitFailed w.desc)
    (fun _ w => (State.waitFailed_air _ w.desc).trans rfl) _ s

theorem State.settleWatches_air (s : State) : s.settleWatches.air = s.air := by
  refine State.foldl_air (fun t w => ?_) _ _
  have hp (z : State) : (z.parentMissed w.band).air = z.air := (State.parentMissed_keeps
    (W := [.time, .evr, .hif, .que, .regs, .outbox, .free]) (.of rfl) (Keeps.refl z)).air rfl
  have hs (z : State) : (z.standbyMissed w.band).air = z.air := (State.standbyMissed_keeps
    (W := [.evr, .hif, .que, .red, .regs, .outbox, .free]) (.of rfl) (Keeps.refl z)).air rfl
  dsimp only
  split
  · exact hp _
  · exact hs _

theorem State.settleAir_frames (s : State) : s.settleAir.rf.frames = s.rf.frames :=
  congrArg Prod.fst ((State.settleWatches_air _).trans (State.settleWaits_air s))

/-- A frame that has ended is not there once the air is settled. -/
theorem State.endFrame_gone (s : State) (id : Nat) : (s.endFrame id).settleAir.rxFrame id = none := by
  have hf : (s.endFrame id).settleAir.rf.frames = s.rf.frames.filter fun f => f.id != id :=
    (State.settleAir_frames _).trans (congrArg Prod.fst (State.settleWaits_air (s.dropFrame id)))
  rw [State.rxFrame, hf, List.find?_eq_none]
  intro f hmem
  simpa using (List.mem_filter.1 hmem).2

theorem State.failFrame_gone (s : State) (f : RxFrame) (cnt : Nat) :
    (s.failFrame f cnt).settleAir.rxFrame f.id = none := State.endFrame_gone _ _

/-! ## The stages of a frame -/

theorem State.handedOver_keeps_rf (s : State) (id : Nat) : Keeps [.rf] s (s.handedOver id) :=
  State.handedOver_keeps (.of rfl) (Keeps.refl s)

/-- The hand-over of a frame writes a pier at most. -/
theorem State.handedOver_setPier (s : State) (id : Nat) :
    s.handedOver id = s ∨ ∃ (p : Nat) (x : Pier), s.handedOver id = s.setPier p x := by
  unfold State.handedOver
  split
  · exact .inl rfl
  · dsimp only
    split
    · exact .inr ⟨_, _, rfl⟩
    · exact .inl rfl

theorem State.handedOver_inStates (s : State) (id : Nat) (l : List SysState) : (s.handedOver id).inStates l = s.inStates l := by
  obtain h | ⟨p, x, h⟩ := s.handedOver_setPier id
  · rw [h]
  · rw [h]
    rfl

theorem State.handedOver_owesAck (s : State) (id : Nat) (a : AirFrame) : (s.handedOver id).owesAck a = s.owesAck a := by
  obtain h | ⟨p, x, h⟩ := s.handedOver_setPier id
  · rw [h]
  · rw [h]
    rfl

theorem State.handedOver_addressed (s : State) (id : Nat) (a : AirFrame) : (s.handedOver id).addressed a = s.addressed a := by
  obtain h | ⟨p, x, h⟩ := s.handedOver_setPier id
  · rw [h]
  · rw [h]
    rfl

section
variable {s u : State} {id : Nat} {f g : RxFrame} {adj : Int} (hu : u = s.handedOver id) (hf : u.rxFrame id = some f)
  (hst : f.stage = .arrived) (hkn : f.known = false)
  (hty : f.air.type = .data ∨ f.air.type = .command) (hg : g = { f with owes := u.owesAck f.air })
include hu hf hst hkn hty hg

theorem State.macFrameTaken_elsewhere (hin : u.inStates [.active, .standby] = false) :
    s.macFrameTaken id adj = (u.failFrame g 4).settleAir := by
  have hb : f.air.type ≠ .beacon := by rcases hty with h | h <;> simp [h]
  unfold State.macFrameTaken State.macFrameRx
  rw [← hu, hf]
  dsimp only
  rw [if_neg (by simp [hst]), if_neg (by simp [hkn]), if_neg (by simp [hb]), if_pos (by simp [hin]), hg]

theorem State.macFrameTaken_filtered (hv : f.air.version = 2)
    (hin : u.inStates [.active, .standby] = true) (ho : u.overheardData g = none) :
    s.macFrameTaken id adj = (if !u.addressed f.air then u.failFrame g 1 else u.stage3 g).settleAir := by
  have hb : f.air.type ≠ .beacon := by rcases hty with h | h <;> simp [h]
  have ha : f.air.type ≠ .ack := by rcases hty with h | h <;> simp [h]
  unfold State.macFrameTaken State.macFrameRx
  rw [← hu, hf]
  dsimp only
  rw [if_neg (by simp [hst]), if_neg (by simp [hkn]), if_neg (by simp [hb]), if_neg (by simp [hin]),
    if_neg (by simp [ha]), if_pos ⟨.inr hv, hty⟩, ← hg, ho]

end

theorem State.stage3_unknown {u s1 : State} {g : RxFrame} (h : u.resolve g.air = (s1, .unknown)) (hl : g.air.level ≠ 0) :
    u.stage3 g = s1.failFrame g 2 := by
  unfold State.stage3
  dsimp only
  rw [h]
  exact if_neg hl

/-- A secured frame of a known node: blocked, below the least level, or taken further (R202, R203). -/
theorem State.stage3_known {u s1 : State} {g : RxFrame} {n : Nat} {c : Ctx} (h : u.resolve g.air = (s1, .known n c))
    (hl : g.air.level ≠ 0) : u.stage3 g =
      if c.blocked then s1.failFrame g 3
      else if g.air.level < s1.minSec then s1.failFrame g 5
      else if g.air.keyMode ≠ 1 ∧ (g.air.keyMode ≠ 0 ∨ !bit (s1.reg Reg.MAC_CTRL) 1) then s1.failFrame g 4
      else s1.stage4InOrder { g with node := some n, known := true } := by
  unfold State.stage3
  dsimp only
  rw [h]
  dsimp only
  rw [if_neg hl]

/-- Settles O30: the frame filtered, and its check submitted as its node's. -/
theorem framesChecked : Obligations.framesChecked := by
  intro s u id f g adj hu hf hst hkn hv hty hg
  have hg' : g = { f with owes := u.owesAck f.air } := by rw [hg, hu, State.handedOver_owesAck]
  have hgid : g.id = id := by
    have hid := State.rxFrame_id hf
    rw [hg]
    exact hid
  have hair : g.air = f.air := by rw [hg]
  have hin (l : List SysState) : u.inStates l = s.inStates l := by rw [hu, State.handedOver_inStates]
  have haddr : u.addressed f.air = s.addressed f.air := by rw [hu, State.handedOver_addressed]
  have hgone (v : State) (n : Nat) : (v.failFrame g n).settleAir.rxFrame id = none := hgid ▸ v.failFrame_gone g n
  refine ⟨fun hout => ?_, fun hact ho => ?_⟩
  · have hrun := State.macFrameTaken_elsewhere (adj := adj) hu hf hst hkn hty hg' ((hin _).trans hout)
    exact ⟨_, next_of hrun, rfl, hgone u 4⟩
  · have hrun := State.macFrameTaken_filtered (adj := adj) hu hf hst hkn hty hg' hv ((hin _).trans hact) ho
    rw [haddr] at hrun
    refine ⟨fun ha => ?_, fun ha hl => ?_⟩
    · rw [if_pos (by simp [ha])] at hrun
      exact ⟨_, next_of hrun, rfl, hgone u 1⟩
    · rw [if_neg (by simp [ha])] at hrun
      have hclock : (u.stage3 g).settleAir.clock = s.clock := by
        have h3 : Keeps [.evr, .hif, .spanc, .tbl, .que, .tol, .key, .cip, .rf, .regs, .ctxs, .outbox, .free] u (u.stage3 g) :=
          State.stage3_keeps (.of rfl) (Keeps.refl u)
        rw [State.settleAir_clock, h3.clock rfl, hu]
        exact (s.handedOver_keeps_rf id).clock rfl
      refine ⟨fun s1 hres => ?_, fun s1 n c hres => ?_⟩
      · rw [State.stage3_unknown (hair ▸ hres) (hair ▸ hl)] at hrun hclock
        exact ⟨_, next_of hrun, rfl, hgone s1 2, State.tick_of_clock hclock, State.now_of_clock hclock⟩
      · have h3 := State.stage3_known (hair ▸ hres) (hair ▸ hl)
        rw [hair] at h3
        refine ⟨_, next_of hrun, State.tick_of_clock hclock, State.now_of_clock hclock, fun hb => ?_, fun hb hlow => ?_,
          fun hb hlow hmode => ?_, hrun ▸ (State.macFrameTaken_keeps (.of rfl) (Keeps.refl s)).onlyIn⟩
        · rw [h3, if_pos hb]
          exact ⟨rfl, hgone s1 3⟩
        · rw [h3, if_neg (by simp [hb]), if_pos hlow]
          exact ⟨rfl, hgone s1 5⟩
        · rw [h3, if_neg (by simp [hb]), if_neg (by omega), if_neg (by simp [hmode]), hair]

end Sys2Proof.Machine
/-! A transmission from its tune instant to its ramp (O45): the claim that is tuned, asks for coexistence, locks, is decided
and goes on the air. -/
namespace Sys2Proof.Machine

/-! ## Claims read the radio alone -/

theorem State.claim_congr {s t : State} (h : t.rf.claims = s.rf.claims) (id : Nat) : t.claim id = s.claim id := by
  rw [State.claim, h, State.claim]

@[simp] theorem State.at__claim (s : State) (i : U64) (id : Nat) : (s.at_ i).claim id = s.claim id :=
  State.claim_congr (congrArg RfSt.claims (State.at__rf ..)) id

/-- A claim held is the one last set for its number. -/
theorem State.claim_setClaim {s : State} {c x : Claim} {id : Nat} (h : s.claim id = some x) (hid : c.id = id) :
    (s.setClaim c).claim id = some c := by
  subst hid
  have hfun : ((fun x : Claim => decide (x.id = c.id)) ∘ fun x => if x.id = c.id then c else x) =
      fun x => decide (x.id = c.id) := by
    funext x
    simp only [Function.comp_apply]
    split
    · simp_all
    · rfl
  change (s.rf.claims.map fun x => if x.id = c.id then c else x).find? (fun x => decide (x.id = c.id)) = some c
  have hs : s.rf.claims.find? (fun x => decide (x.id = c.id)) = some x := h
  rw [List.find?_map, hfun, hs]
  simp [State.claim_id h]

theorem State.claim_mem {s : State} {id : Nat} {c : Claim} (h : s.claim id = some c) : c ∈ s.rf.claims :=
  List.mem_of_find?_eq_some h

/-! ## The tune instant -/

theorem State.at__rank1Runs (s : State) (i : U64) (c : Nat) : (s.at_ i).rank1Runs c = s.rank1Runs c := by
  rw [State.rank1Runs, State.at__cal, State.rank1Runs]

/-- A chain whose entry is valid, or that has none, is used as it is. -/
theorem State.ensureEntry_of_valid {s : State} {c : Claim}
    (h : s.tp.calFull = false ∨ (s.calEntry c.chain (s.tp.calIndex c.chain c.channel)).valid = true) :
    s.ensureEntry c = s := by
  refine if_neg ?_
  rcases h with h | h <;> simp [h]

theorem State.tuneInstant_tunes {s r : State} {i : U64} {id : Nat} {c0 c : Claim} (hr : r = s.at_ i)
    (hc0 : s.claim id = some c0) (hst : c0.stage = .claimed) (hend : c0.ended = false) (hjob : s.calJob c0.chain = none)
    (hc : c = r.onChain c0 c0.chain) : s.tuneInstant i id = r.tune c := by
  have hcl : r.claim id = some c0 := by rw [hr, State.at__claim, hc0]
  have hmeet : r.meetCalJob c = (r, true) := by
    have hj : r.calJob c.chain = none := by rw [hr, State.at__calJob, hc]; exact hjob
    rw [State.meetCalJob, hj]
  unfold State.tuneInstant
  rw [← hr]
  dsimp only
  rw [hcl]
  dsimp only
  rw [if_neg (by simp [hst, hend]), ← hc, hmeet]

/-- The state in which the registers of a chain are about to show its tune: the clamp counted. -/
def State.clampNoted (s : State) (c : Claim) (pre : Int) : State :=
  if pre = s.preFor c then s else s.bump (Reg.TXC_CNT c.chain 7)

theorem State.tune_eq {s : State} {c : Claim} {pre : Int} {f : Nat}
    (hv : s.tp.calFull = false ∨ (s.calEntry c.chain (s.tp.calIndex c.chain c.channel)).valid = true)
    (hpre : pre = clampTo (s.preFor c) (s.regFld (Reg.TXC_PRECORR c.band) 19 0))
    (hf : f = (((s.tp.band c.band).centre c.channel : Int) + pre).toNat) :
    s.tune c = (((((s.clampNoted c pre).setReg (Reg.TXC_FREQ c.chain) (pw f)).setReg (Reg.TXC_PRE c.chain)
      (pw (unsigned pre 24))).setFld (Reg.TXC_STATUS c.chain) 9 0 c.channel).setSynth c.chain (synthWord f)).setClaim { c with
        stage := .tuned
        fTx := f
        lock := none
        blocked := s.calBlock c.chain
        power := s.txPower c.band (s.namedPower c) } := by
  have he : (s.clampNoted c pre).ensureEntry c = s.clampNoted c pre := by
    refine State.ensureEntry_of_valid ?_
    unfold State.clampNoted
    split
    · exact hv
    · exact hv
  unfold State.tune
  dsimp only
  rw [← hpre, ← hf]
  refine .trans ?_ (congrArg (fun z : State => ((((z.setReg (Reg.TXC_FREQ c.chain) (pw f)).setReg (Reg.TXC_PRE c.chain)
    (pw (unsigned pre 24))).setFld (Reg.TXC_STATUS c.chain) 9 0 c.channel).setSynth c.chain (synthWord f)).setClaim { c with
        stage := .tuned
        fTx := f
        lock := none
        blocked := s.calBlock c.chain
        power := s.txPower c.band (s.namedPower c) }) he)
  rfl

theorem State.clampNoted_keeps {W : List Part} {z s : State} {c : Claim} {pre : Int} (hw : Within [.regs] W)
    (h : Keeps W z s) : Keeps W z (s.clampNoted c pre) := Keeps.ite h (State.bump_keeps (hw.mono rfl) h)

/-- The registers and the synthesiser of a chain once it is tuned (R125, R126). -/
def State.showTune (s : State) (c : Claim) (pre : Int) (f : Nat) : State :=
  ((((s.clampNoted c pre).setReg (Reg.TXC_FREQ c.chain) (pw f)).setReg (Reg.TXC_PRE c.chain)
    (pw (unsigned pre 24))).setFld (Reg.TXC_STATUS c.chain) 9 0 c.channel).setSynth c.chain (synthWord f)

theorem State.showTune_reads {s : State} (htidy : s.tidy) (c : Claim) (pre : Int) (f : Nat) :
    (s.showTune c pre f).reg (Reg.TXC_FREQ c.chain) = pw f ∧
    (s.showTune c pre f).reg (Reg.TXC_PRE c.chain) = pw (unsigned pre 24) ∧
    (s.showTune c pre f).regFld (Reg.TXC_STATUS c.chain) 9 0 = c.channel % 1024 := by
  have hz : (s.clampNoted c pre).tidy := (State.clampNoted_keeps (W := [.regs]) (.of rfl) (Keeps.refl s)).tidy htidy
  have hfs : Reg.TXC_FREQ c.chain ≠ Reg.TXC_STATUS c.chain := by simp [Reg.TXC_FREQ, Reg.TXC_STATUS]
  have hps : Reg.TXC_PRE c.chain ≠ Reg.TXC_STATUS c.chain := by simp [Reg.TXC_PRE, Reg.TXC_STATUS]
  have hfp : Reg.TXC_FREQ c.chain ≠ Reg.TXC_PRE c.chain := by simp [Reg.TXC_FREQ, Reg.TXC_PRE]
  refine ⟨?_, ?_, ?_⟩
  · refine (State.setFld_reg (s := ((s.clampNoted c pre).setReg _ _).setReg _ _) hfs).trans ?_
    exact (reg_setReg_other hfp).trans (hz.reg_setReg ..)
  · refine (State.setFld_reg (s := ((s.clampNoted c pre).setReg _ _).setReg _ _) hps).trans ?_
    exact (hz.setReg _ _).reg_setReg ..
  · exact State.regFld_setFld_same ((hz.setReg _ _).setReg _ _) (by decide)

theorem State.clampNoted_rf (s : State) (c : Claim) (pre : Int) : (s.clampNoted c pre).rf = s.rf :=
  (State.clampNoted_keeps (W := [.regs]) (.of rfl) (Keeps.refl s)).part .rf rfl

theorem State.showTune_rf (s : State) (c : Claim) (pre : Int) (f : Nat) : (s.showTune c pre f).rf =
    { s.rf with synths := lset s.rf.synths c.chain { word := synthWord f } } :=
  congrArg (fun r : RfSt => { r with synths := lset r.synths c.chain { word := synthWord f } }) (s.clampNoted_rf c pre)

theorem State.showTune_claims (s : State) (c : Claim) (pre : Int) (f : Nat) : (s.showTune c pre f).rf.claims = s.rf.claims :=
  (congrArg RfSt.claims (s.showTune_rf c pre f)).trans rfl

theorem State.showTune_keeps {W : List Part} {z s : State} {c : Claim} {pre : Int} {f : Nat} (hw : Within [.regs, .rf] W)
    (h : Keeps W z s) : Keeps W z (s.showTune c pre f) :=
  State.setSynth_keeps (hw.mono rfl) (State.setFld_keeps (hw.mono rfl) (State.setReg_keeps (hw.mono rfl)
    (State.setReg_keeps (hw.mono rfl) (State.clampNoted_keeps (hw.mono rfl) h))))

/-! ## Coexistence and lock -/

theorem State.coexRequest_asks {s r : State} {i : U64} {id : Nat} {c0 c : Claim} (hr : r = s.at_ i)
    (hc0 : s.claim id = some c0) (hc : c = if c0.stage = .claimed then r.onChain c0 c0.chain else c0)
    (hend : c.ended = false) (hcoex : c.coex = true) (hreq : c.reqAt ≤ r.now) :
    s.coexRequest i id = r.setClaim { c with req := true } := by
  have hcl : r.claim id = some c0 := by rw [hr, State.at__claim, hc0]
  unfold State.coexRequest
  rw [← hr]
  dsimp only
  rw [hcl]
  dsimp only
  rw [← hc, if_neg (by simp [hend, hcoex, hreq])]

theorem State.synthLock_locks {s r : State} {i : U64} {id : Nat} {c : Claim} (hr : r = s.at_ i) (hc : s.claim id = some c)
    (hend : c.ended = false) (hst : c.stage = .tuned ∨ c.stage = .decided) (hlock : c.lock = none)
    (hrank : s.rank1Runs c.chain = false) (hblk : c.blocked = true → r.calBlock c.chain = false)
    (hv : s.tp.calFull = false ∨ (s.calEntry c.chain (s.tp.calIndex c.chain c.channel)).valid = true) :
    s.synthLock i id = r.setClaim { c with lock := some r.now } := by
  have hcl : r.claim id = some c := by rw [hr, State.at__claim, hc]
  have hrr : r.rank1Runs c.chain = false := by rw [hr, State.at__rank1Runs, hrank]
  have hgo : (c.blocked && r.calBlock c.chain) = false := by
    cases hb : c.blocked with
    | false => rfl
    | true => simpa using hblk hb
  have he : r.ensureEntry c = r := State.ensureEntry_of_valid (by rwa [hr, State.at__tp, State.at__calEntry])
  unfold State.synthLock
  rw [← hr]
  dsimp only
  rw [hcl]
  dsimp only
  rw [if_neg (by rcases hst with h | h <;> simp [hend, h, hlock, hrr, hgo]), he]

/-! ## The ramp -/

/-- The registers of a chain whose ramp has started: the slip, its maximum, and the power (R131, R137). -/
def State.showRamp (s : State) (c : Claim) (sl : Nat) : State :=
  let s1 := s.setReg (Reg.TXC_SLIP c.chain) (fld sl 0)
  let s2 := if sl = 0 then s1 else (s1.bump (Reg.TXC_CNT c.chain 1)).setReg (Reg.TXC_SLIP_MAX c.chain)
    (fld (max sl (s1.regFld (Reg.TXC_SLIP_MAX c.chain) 16 0)) 0)
  s2.setReg (Reg.TXC_LASTPWR c.chain) (fld (unsigned c.power 12) 0)

theorem State.rampUp_eq (s : State) (c : Claim) (sl : Nat) (carrier obs dev : Int) : s.rampUp c sl carrier obs dev =
    (((s.showRamp c sl).setClaim { c with
      stage := .on
      upAt := s.time.elapsed
      slipped := sl
      t0 := c.t0 + sl
      seen := some (obs, dev) }).slipWaits c.id sl).observeCarrier c carrier := rfl

theorem State.showRamp_keeps {W : List Part} {z s : State} {c : Claim} {sl : Nat} (hw : Within [.regs] W)
    (h : Keeps W z s) : Keeps W z (s.showRamp c sl) := by
  have h1 := State.setReg_keeps (addr := Reg.TXC_SLIP c.chain) (v := fld sl 0) hw h
  exact State.setReg_keeps hw (Keeps.ite h1 (State.setReg_keeps hw (State.bump_keeps (hw.mono rfl) h1)))

theorem State.showRamp_lastPwr {s : State} (htidy : s.tidy) (c : Claim) (sl : Nat) :
    (s.showRamp c sl).reg (Reg.TXC_LASTPWR c.chain) = fld (unsigned c.power 12) 0 := by
  have h1 := State.setReg_keeps (W := [.regs]) (addr := Reg.TXC_SLIP c.chain) (v := fld sl 0) (.of rfl) (Keeps.refl s)
  refine State.tidy.reg_setReg (Keeps.tidy (W := [.regs]) (s := s) ?_ htidy) _ _
  exact Keeps.ite h1 (State.setReg_keeps (.of rfl) (State.bump_keeps (.of rfl) h1))

theorem State.showRamp_slip {s : State} (htidy : s.tidy) (c : Claim) (sl : Nat) :
    (s.showRamp c sl).reg (Reg.TXC_SLIP c.chain) = fld sl 0 := by
  have hpwr : Reg.TXC_SLIP c.chain ≠ Reg.TXC_LASTPWR c.chain := by simp [Reg.TXC_SLIP, Reg.TXC_LASTPWR]
  have hmax : Reg.TXC_SLIP c.chain ≠ Reg.TXC_SLIP_MAX c.chain := by simp [Reg.TXC_SLIP, Reg.TXC_SLIP_MAX]
  have hcnt : Reg.TXC_SLIP c.chain ≠ Reg.TXC_CNT c.chain 1 := by simp only [Reg.TXC_SLIP, Reg.TXC_CNT]; omega
  refine (reg_setReg_other hpwr).trans ?_
  split
  · exact htidy.reg_setReg ..
  · exact (reg_setReg_other hmax).trans ((State.bumpBy_reg hcnt).trans (htidy.reg_setReg ..))

theorem State.observeCarrier_reg {s : State} {c : Claim} {err : Int} {a : Nat} (h : a ≠ Reg.CAL_CNT c.chain 6) :
    (s.observeCarrier c err).reg a = s.reg a := by
  have hz (z : State) (hk : Keeps [.cal] s z) : (z.bump (Reg.CAL_CNT c.chain 6)).reg a = s.reg a := by
    rw [State.bump, State.bumpBy_reg h, State.reg, show z.regs = s.regs from hk.part .regs rfl, State.reg]
  unfold State.observeCarrier
  split
  · refine hz _ (Keeps.ite (State.calRepend_keeps (.of rfl) (State.calMark_keeps (.of rfl) (Keeps.refl s)))
      (State.compactDueOn_keeps (.of rfl) (Keeps.refl s)))
  · rfl

/-- A ramp that has started (R131, R137): its claim on the air, and the slip and the power shown. -/
theorem State.rampUp_on {s : State} {c : Claim} (htidy : s.tidy) (hc : s.claim c.id = some c) (sl : Nat) (carrier obs dev : Int) :
    (s.rampUp c sl carrier obs dev).claim c.id = some { c with
      stage := .on
      upAt := s.time.elapsed
      slipped := sl
      t0 := c.t0 + sl
      seen := some (obs, dev) } ∧
    (s.rampUp c sl carrier obs dev).reg (Reg.TXC_SLIP c.chain) = fld sl 0 ∧
    (s.rampUp c sl carrier obs dev).reg (Reg.TXC_LASTPWR c.chain) = fld (unsigned c.power 12) 0 := by
  have hslip : Reg.TXC_SLIP c.chain ≠ Reg.CAL_CNT c.chain 6 := by simp only [Reg.TXC_SLIP, Reg.CAL_CNT]; omega
  have hpwr : Reg.TXC_LASTPWR c.chain ≠ Reg.CAL_CNT c.chain 6 := by simp only [Reg.TXC_LASTPWR, Reg.CAL_CNT]; omega
  have hrf : (s.showRamp c sl).rf = s.rf := (State.showRamp_keeps (W := [.regs]) (.of rfl) (Keeps.refl s)).part .rf rfl
  have hcl : (s.showRamp c sl).claim c.id = some c := (State.claim_congr (congrArg RfSt.claims hrf) _).trans hc
  rw [State.rampUp_eq]
  refine ⟨?_, (State.observeCarrier_reg hslip).trans (State.showRamp_slip htidy c sl),
    (State.observeCarrier_reg hpwr).trans (State.showRamp_lastPwr htidy c sl)⟩
  have hobs (z : State) : (z.observeCarrier c carrier).rf = z.rf :=
    (State.observeCarrier_keeps (W := [.cal, .regs]) (.of rfl) (Keeps.refl z)).part .rf rfl
  rw [State.claim_congr (congrArg RfSt.claims (hobs _))]
  exact State.claim_setClaim hcl rfl

theorem State.rampUpStart_ramps {s r : State} {i : U64} {id : Nat} {c : Claim} {carrier obs dev : Int} (hr : r = s.at_ i)
    (hc : s.claim id = some c) (hst : c.stage = .decided) (hend : c.ended = false) (hask : c.ask = none)
    (hlock : c.lock ≠ none) (hdue : c.t0 - c.ramp * 1000 ≤ r.now)
    (hlast : r.now ≤ c.t0 - c.ramp * 1000 + c.slip * 1000) :
    s.rampUpStart i id carrier obs dev = r.rampUp c (r.now - (c.t0 - c.ramp * 1000)) carrier obs dev := by
  have hcl : r.claim id = some c := by rw [hr, State.at__claim, hc]
  have hover : r.decideOverdue id = r := by simp only [State.decideOverdue, hcl, hask]
  unfold State.rampUpStart
  rw [← hr, hover]
  dsimp only
  rw [hcl]
  dsimp only
  rw [if_neg (by simp [hst, hend, hdue]), if_pos ⟨Option.isSome_iff_ne_none.2 hlock, hlast⟩]

/-! ## The decision instant -/

/-- A claim stands, and is no reception's acknowledgement: cutting receptions off leaves it. -/
def State.ClaimStands (s : State) (id : Nat) (x : Claim) : Prop :=
  s.claim id = some x ∧ ∀ q : Nat, (s.pier q).ackClaim ≠ some id

section
variable {s : State} {id : Nat} {x : Claim}

theorem State.ClaimStands.setPier (h : s.ClaimStands id x) (p : Nat) {y : Pier} (hy : y.ackClaim ≠ some id) :
    (s.setPier p y).ClaimStands id x := by
  refine ⟨h.1, fun q => ?_⟩
  by_cases hq : q = p
  · subst hq
    by_cases hlen : q < s.rf.piers.length
    · rw [State.pier_setPier_same y hlen]
      exact hy
    · have hsame : (s.setPier q y).pier q = s.pier q := by
        simp [State.pier, State.setPier, lset_eq_set, List.getD_eq_getElem?_getD, hlen]
      rw [hsame]
      exact h.2 q
  · rw [State.pier_setPier_other y hq]
    exact h.2 q

theorem State.ClaimStands.leave (h : s.ClaimStands id x) (p : Nat) : (s.leave p).ClaimStands id x := by
  refine h.setPier p ?_
  split <;> exact nofun

theorem State.ClaimStands.drained (h : s.ClaimStands id x) : s.drained.ClaimStands id x :=
  List.foldlRecOn (motive := fun t : State => t.ClaimStands id x) _ _ h fun _ ht p _ =>
    iteInduction (motive := fun t : State => t.ClaimStands id x) (fun _ => ht.leave p) fun _ => ht

theorem State.claim_dropClaim_other (s : State) {c id : Nat} (h : c ≠ id) : (s.dropClaim c).claim id = s.claim id := by
  have hrf : (s.withdrawJob c).rf = s.rf := (State.withdrawJob_keeps (W := [.cip]) (.of rfl) (Keeps.refl s)).part .rf rfl
  rw [State.dropClaim, State.claim, State.setRf_rf, hrf, List.find?_filter, State.claim]
  refine congrArg (fun p => s.rf.claims.find? p) (funext fun y => ?_)
  by_cases hy : y.id = id
  · simp [hy, h.symm]
  · simp [hy]

theorem State.ClaimStands.cutReception (h : s.ClaimStands id x) (p : Nat) : (s.cutReception p).ClaimStands id x := by
  refine ⟨?_, fun q => ?_⟩
  · have hack := h.2 p
    unfold State.cutReception
    dsimp only
    cases hc : (s.pier p).ackClaim with
    | none => exact iteInduction (motive := fun t : State => t.claim id = some x) (fun _ => h.1) fun _ => h.1
    | some c =>
      have hne : c ≠ id := fun heq => hack (by rw [hc, heq])
      have hd : (s.dropClaim c).claim id = some x := by rw [State.claim_dropClaim_other s hne, h.1]
      exact iteInduction (motive := fun t : State => t.claim id = some x) (fun _ => hd) fun _ => hd
  · rw [State.pier, State.cutReception_piers]
    exact h.2 q

theorem State.ClaimStands.blankPiers (h : s.ClaimStands id x) (b ch : Nat) : (s.blankPiers b ch).ClaimStands id x := by
  refine List.foldlRecOn (motive := fun t : State => t.ClaimStands id x) _ _ h.drained fun t ht p _ => ?_
  have hcut : ((t.cutReception p).bump (Reg.PIER_CNT b 11)).ClaimStands id x := ht.cutReception p
  exact iteInduction (motive := fun t : State => t.ClaimStands id x)
    (fun _ => iteInduction (motive := fun t : State => t.ClaimStands id x) (fun _ => hcut.setPier p nofun)
      fun _ => hcut.leave p) fun _ => ht

end

/-- One round of the decisions of a band: the claim that asks and that no other goes before. -/
def State.decideStep (s : State) (b : Nat) : State :=
  match s.rf.claims.find? fun c => c.band = b && !c.ended && c.ask.isSome && !(s.rf.claims.any fun x => x.decidesFirst c) with
  | some c => s.decideAsked c
  | none => s

theorem State.decideBand_steps (s : State) (b : Nat) :
    s.decideBand b = (List.range 4).foldl (fun s _ => s.decideStep b) s := rfl

theorem State.decideStep_idle {s : State} {b : Nat} (h : ∀ y ∈ s.rf.claims, y.ask = none ∨ y.band ≠ b) :
    s.decideStep b = s := by
  unfold State.decideStep
  rw [List.find?_eq_none.2 fun y hy => by rcases h y hy with h | h <;> simp [h]]

theorem State.decideStep_one {s : State} {b : Nat} {x : Claim} (hx : x ∈ s.rf.claims) (hband : x.band = b)
    (hend : x.ended = false) (hask : x.ask ≠ none) (hfirst : ∀ y ∈ s.rf.claims, y.decidesFirst x = false)
    (honly : ∀ y ∈ s.rf.claims, y = x ∨ y.ask = none ∨ y.band ≠ b) : s.decideStep b = s.decideAsked x := by
  have hfind : (s.rf.claims.find? fun c => c.band = b && !c.ended && c.ask.isSome &&
      !(s.rf.claims.any fun x => x.decidesFirst c)) = some x := by
    cases hf : s.rf.claims.find? fun c => c.band = b && !c.ended && c.ask.isSome &&
        !(s.rf.claims.any fun x => x.decidesFirst c) with
    | none =>
      have hno := List.find?_eq_none.1 hf x hx
      have hany : (s.rf.claims.any fun y => y.decidesFirst x) = false := by simpa using hfirst
      simp [hband, hend, Option.isSome_iff_ne_none.2 hask, hany] at hno
    | some y =>
      have hy := List.find?_some hf
      simp only [Bool.and_eq_true, decide_eq_true_eq] at hy
      rcases honly y (List.mem_of_find?_eq_some hf) with h | h | h
      · rw [h]
      · simp [h] at hy
      · exact absurd hy.1.1.1 h
  unfold State.decideStep
  rw [hfind]

/-- A band with one claim that asks decides it, and then nothing more. -/
theorem State.decideBand_one {s u : State} {b : Nat} {x : Claim} (hx : x ∈ s.rf.claims) (hband : x.band = b)
    (hend : x.ended = false) (hask : x.ask ≠ none) (hfirst : ∀ y ∈ s.rf.claims, y.decidesFirst x = false)
    (honly : ∀ y ∈ s.rf.claims, y = x ∨ y.ask = none ∨ y.band ≠ b) (hu : s.decideAsked x = u)
    (hrest : ∀ y ∈ u.rf.claims, y.ask = none ∨ y.band ≠ b) : s.decideBand b = u := by
  have hidle := State.decideStep_idle hrest
  rw [State.decideBand_steps, show List.range 4 = [0, 1, 2, 3] from rfl]
  simp only [List.foldl_cons, List.foldl_nil, State.decideStep_one hx hband hend hask hfirst honly, hu, hidle]

/-- The frame whose protected acknowledgement a claim sends, once it has passed. -/
def State.securedBy (s : State) (c : Claim) : Option RxFrame :=
  if c.isAck then (s.ackFrame c).filter fun f => f.stage = .passed || f.stage = .acking else none

theorem State.ackSecured_eq (s : State) (c : Claim) : s.ackSecured c = match s.securedBy c with
    | some f => { c with psdu := some f.ackPsdu, len := f.ackPsdu.length }
    | none => c := by
  cases hk : c.kind with
  | cell n => simp [State.ackSecured, State.securedBy, Claim.isAck, hk]
  | beacon m n => simp [State.ackSecured, State.securedBy, Claim.isAck, hk]
  | ack o =>
    cases hf : s.ackFrame c with
    | none => simp [State.ackSecured, State.securedBy, Claim.isAck, hk, hf]
    | some f =>
      by_cases hst : f.stage = .passed ∨ f.stage = .acking
      · simp [State.ackSecured, State.securedBy, Claim.isAck, hk, hf, hst, Option.filter]
      · simp [State.ackSecured, State.securedBy, Claim.isAck, hk, hf, hst, Option.filter]

/-- Securing an acknowledgement sets its PSDU and its length, whatever the claim asks. -/
theorem State.ackSecured_fields (s : State) (x : Claim) : ∃ (p : Option (List Byte)) (l : Nat),
    s.ackSecured x = { x with psdu := p, len := l } ∧ ∀ (y : Claim) (a : Option (Bool × List (Nat × Int))),
      (s.setClaim y).ackSecured { x with ask := a } = { x with ask := a, psdu := p, len := l } := by
  have hby (y : Claim) (a : Option (Bool × List (Nat × Int))) :
      (s.setClaim y).securedBy { x with ask := a } = s.securedBy x := rfl
  cases h : s.securedBy x with
  | none => exact ⟨x.psdu, x.len, by rw [State.ackSecured_eq, h], fun y a => by rw [State.ackSecured_eq, hby, h]⟩
  | some f => exact ⟨some f.ackPsdu, f.ackPsdu.length, by rw [State.ackSecured_eq, h],
      fun y a => by rw [State.ackSecured_eq, hby, h]⟩

theorem State.decide_granted {s s2 : State} {c0 c : Claim} {gnt : Bool} {energy : List (Nat × Int)} {p : Int} {e : Nat}
    (hemit : s.mayEmit = true) (hc : c = { s.ackSecured c0 with ask := none })
    (hpar : s.parCheck (s.parAsk c energy) = (s2, some (p, e))) (hgnt : c.coex = true → gnt = true) (hpsdu : c.psdu ≠ none) :
    s.decide_ c0 gnt energy = s2.setClaim { c with
      stage := .decided
      power := p
      charged := s2.airtime c
      runEnd := e
      fem := true
      blanking := true } := by
  have hact : s.sys.state = .active := by
    simp only [State.mayEmit, Bool.and_eq_true, decide_eq_true_eq] at hemit
    exact hemit.1.1
  have hgo : (c.coex && !gnt) = false := by
    cases h : c.coex with
    | false => rfl
    | true => simp [hgnt h]
  subst hc
  unfold State.decide_
  dsimp only
  rw [if_neg (by simp [hact]), if_neg (by simp [hemit]), hpar]
  dsimp only
  rw [if_neg (Bool.not_eq_true _ ▸ hgo), if_neg (by simpa using hpsdu)]

theorem State.decideAsked_first {s : State} {x : Claim} {gnt : Bool} {energy : List (Nat × Int)}
    (hask : x.ask = some (gnt, energy)) (hfirst : ∀ y ∈ s.rf.claims, y.decidesFirst x = false) :
    s.decideAsked x = s.decide_ x gnt energy := by
  have hany : (s.rf.claims.any fun y => y.decidesFirst x) = false := by simpa using hfirst
  unfold State.decideAsked
  rw [hask]
  dsimp only
  rw [if_neg (by simp [hany])]

theorem State.decisionInstant_band {s z : State} {i : U64} {id : Nat} {gnt : Bool} {energy : List (Nat × Int)} {x : Claim}
    (hx : s.claim id = some x) (hst : x.stage = .tuned) (hend : x.ended = false) (hask : x.ask = none)
    (hdue : x.decisionAt ≤ (s.at_ i).now)
    (hz : z = ((s.at_ i).setFld (Reg.TXC_COEX x.band) 30 30 (b2n gnt)).blankPiers x.band x.channel) :
    s.decisionInstant i id gnt energy = ((z.setClaim { x with ask := some (gnt, energy) }).decideBand x.band).settleAir := by
  have hcl : (s.at_ i).claim id = some x := by rw [State.at__claim, hx]
  unfold State.decisionInstant
  dsimp only
  rw [hcl]
  dsimp only
  rw [if_neg (by simp [hst, hend, hask, hdue]), ← hz]

theorem State.mayEmit_congr {s t : State} (h : t.sys = s.sys) : t.mayEmit = s.mayEmit := by
  rw [State.mayEmit, h, State.mayEmit]

/-- The claims once one was set: that one, and those of other numbers. -/
theorem State.mem_setClaim {s : State} {c y : Claim} (h : y ∈ (s.setClaim c).rf.claims) :
    y = c ∨ (y ∈ s.rf.claims ∧ y.id ≠ c.id) := by
  obtain ⟨w, hw, rfl⟩ := List.mem_map.1 h
  split
  · exact .inl rfl
  · exact .inr ⟨hw, ‹_›⟩

/-- A claim alone in asking at its band is decided: with the parapet's leave, its grant and its frame it goes ahead. -/
theorem State.decideBand_grants {z s2 : State} {x c : Claim} {gnt : Bool} {energy : List (Nat × Int)} {p : Int} {e : Nat}
    (hx : z.claim x.id = some x) (hend : x.ended = false) (hask : x.ask = none)
    (hall : ∀ y ∈ z.rf.claims, y.decidesFirst x = false ∧ (y.ask = none ∨ y.band ≠ x.band)) (hemit : z.mayEmit = true)
    (hgnt : x.coex = true → gnt = true) (hc : c = z.ackSecured x) (hpsdu : c.psdu ≠ none)
    (hpar : (z.setClaim { x with ask := some (gnt, energy) }).parCheck
      ((z.setClaim { x with ask := some (gnt, energy) }).parAsk c energy) = (s2, some (p, e))) :
    ∃ u : State, (z.setClaim { x with ask := some (gnt, energy) }).decideBand x.band = u ∧
      u.claim x.id = some { c with
        stage := .decided
        power := p
        charged := s2.airtime c
        runEnd := e
        fem := true
        blanking := true } ∧
      Keeps [.par, .regs, .rf, .tol] z u := by
  obtain ⟨q, l, hq, hsec⟩ := z.ackSecured_fields x
  have hcid : c.id = x.id := by rw [hc, hq]
  have hcask : c.ask = none := by rw [hc, hq]; exact hask
  have hcc : c = { (z.setClaim { x with ask := some (gnt, energy) }).ackSecured { x with ask := some (gnt, energy) } with
      ask := none } := by
    rw [hc, hq, hsec]
    simp only [hask]
  have hcl := State.claim_setClaim (c := { x with ask := some (gnt, energy) }) hx rfl
  have hmem {y : Claim} (hy : y ∈ (z.setClaim { x with ask := some (gnt, energy) }).rf.claims) := State.mem_setClaim hy
  have hk1 : Keeps [.par, .regs, .rf, .tol] z (z.setClaim { x with ask := some (gnt, energy) }) :=
    State.setClaim_keeps (.of rfl) (Keeps.refl z)
  generalize hs1 : z.setClaim { x with ask := some (gnt, energy) } = s1 at *
  have hfirst : ∀ y ∈ s1.rf.claims, y.decidesFirst { x with ask := some (gnt, energy) } = false := fun y hy => by
    rcases hmem hy with rfl | ⟨hy, -⟩
    · simp [Claim.decidesFirst]
    · exact (hall y hy).1
  have honly : ∀ y ∈ s1.rf.claims, y = { x with ask := some (gnt, energy) } ∨ y.ask = none ∨ y.band ≠ x.band :=
    fun y hy => (hmem hy).imp_right fun h => (hall y h.1).2
  have hk2 : Keeps [.par, .regs, .tol] s1 s2 := by
    have h := State.parCheck_keeps (a := s1.parAsk c energy) (W := [.par, .regs, .tol]) (.of rfl) (Keeps.refl s1)
    rwa [hpar] at h
  have hrf : s2.rf = s1.rf := hk2.part .rf rfl
  have hdec := State.decide_granted (c0 := { x with ask := some (gnt, energy) })
    ((State.mayEmit_congr (hk1.part .sys rfl)).trans hemit) hcc hpar (by rw [hc, hq]; exact hgnt) hpsdu
  refine ⟨_, State.decideBand_one (State.claim_mem hcl) rfl hend nofun hfirst honly
    ((State.decideAsked_first rfl hfirst).trans hdec) fun y hy => ?_, ?_, State.setClaim_keeps (.of rfl)
    (hk1.comp (hk2.widen (.of rfl)))⟩
  · rcases State.mem_setClaim hy with rfl | ⟨hy, hne⟩
    · exact .inl hcask
    · rw [hrf] at hy
      rcases hmem hy with rfl | ⟨hy, -⟩
      · exact absurd hcid.symm hne
      · exact (hall y hy).2
  · exact State.claim_setClaim ((State.claim_congr (congrArg RfSt.claims hrf) x.id).trans hcl) hcid

/-- Settles O45: a transmission tuned, asking, locked, decided and ramped up. -/
theorem transmissionsStart : Obligations.transmissionsStart := by
  refine ⟨fun s r i id c0 c pre f hr htidy hc0 hst hend hjob hc hv hpre hf => ?_,
    fun s r i id c0 c hr hc0 hc hend hcoex hreq => ?_, fun s r i id c hr hc hend hst hlock hrank hblk hv => ?_,
    fun s z s1 s2 i id gnt energy x c p e a hx hst hend hask hdue hack hz hall hemit hgnt hs1 hc hpsdu ha hpar => ?_,
    fun s r i id x c n d hr htidy hc hst hend hask hlock hn hd hdue hlast => ?_⟩
  · have hk : Keeps [.time] s r := by rw [hr]; exact State.at__keeps (.of rfl) (Keeps.refl s)
    have htp : r.tp = s.tp := by rw [hr, State.at__tp]
    have hrun := (State.tuneInstant_tunes hr hc0 hst hend hjob hc).trans (State.tune_eq
      (by rwa [htp, hr, State.at__calEntry]) (hpre.trans (by rw [hr, State.at__regFld])) (hf.trans (by rw [htp])))
    have hcl : (r.showTune c pre f).claim id = some c0 := by
      rw [State.claim_congr (State.showTune_claims ..), hr, State.at__claim, hc0]
    have hid : c.id = id := by
      have h0 := State.claim_id hc0
      rw [hc]
      exact h0
    obtain ⟨hfreq, hprec, hstat⟩ := State.showTune_reads (hk.tidy htidy) c pre f
    refine ⟨_, next_of hrun, State.claim_setClaim hcl hid, ?_, hfreq, hprec, hstat,
      (State.setClaim_keeps (.of rfl) (State.showTune_keeps (.of rfl) (hk.widen (.of rfl)))).onlyIn⟩
    refine (congrArg RfSt.synths (r.showTune_rf c pre f)).trans ?_
    rw [hr, State.at__rf]
    rfl
  · have hk : Keeps [.time] s r := by rw [hr]; exact State.at__keeps (.of rfl) (Keeps.refl s)
    have hcl : r.claim id = some c0 := by rw [hr, State.at__claim, hc0]
    have hid : c.id = id := by
      have h0 := State.claim_id hc0
      rw [hc]
      split <;> exact h0
    have hset := State.claim_setClaim (c := { c with req := true }) hcl hid
    have hmem := State.claim_mem hset
    refine ⟨_, next_of (State.coexRequest_asks hr hc0 hc hend hcoex hreq), hset, fun hact => ?_,
      (State.setClaim_keeps (.of rfl) (hk.widen (.of rfl))).onlyIn⟩
    have hact' : (r.setClaim { c with req := true }).sys.state = .active :=
      (congrArg SysSt.state (hk.part .sys rfl)).trans hact
    refine ⟨?_, fun hpri => ?_⟩
    · rw [State.coexReq, hact', Bool.and_eq_true]
      exact ⟨by decide, List.any_eq_true.2 ⟨_, hmem, by simp [hcoex]⟩⟩
    · rw [State.coexPri, hact', Bool.and_eq_true]
      exact ⟨by decide, List.any_eq_true.2 ⟨_, hmem, by simp [hcoex, hpri]⟩⟩
  · have hk : Keeps [.time] s r := by rw [hr]; exact State.at__keeps (.of rfl) (Keeps.refl s)
    have hcl : r.claim id = some c := by rw [hr, State.at__claim, hc]
    have hid := State.claim_id hc
    exact ⟨_, next_of (State.synthLock_locks hr hc hend hst hlock hrank hblk hv), State.claim_setClaim hcl hid,
      (State.setClaim_keeps (.of rfl) (hk.widen (.of rfl))).onlyIn⟩
  · have hid := State.claim_id hx
    have hstands : ((s.at_ i).setFld (Reg.TXC_COEX x.band) 30 30 (b2n gnt)).ClaimStands id x := by
      refine ⟨?_, fun q => ?_⟩
      · exact (State.at__claim ..).trans hx
      · exact fun h => hack q ((congrArg Pier.ackClaim (State.pier_congr (State.at__rf ..) q)).symm.trans h)
    have hkz : Keeps [.time, .regs, .rf, .par, .tol, .cip] s z := by
      rw [hz]
      exact State.blankPiers_keeps (.of rfl) (State.setFld_keeps (.of rfl) (State.at__keeps (.of rfl) (Keeps.refl s)))
    subst hid
    obtain ⟨u, hu, hcl, hku⟩ := State.decideBand_grants (hz ▸ (hstands.blankPiers x.band x.channel).1) hend hask hall
      ((State.mayEmit_congr (hkz.part .sys rfl)).trans hemit) hgnt hc hpsdu (by rw [← hs1]; exact ha ▸ hpar)
    refine ⟨u, next_of ((State.decisionInstant_band hx hst hend hask hdue hz).trans (congrArg State.settleAir hu)), hcl,
      (hkz.comp (hku.widen (.of rfl))).onlyIn⟩
  · have hk : Keeps [.time] s r := by rw [hr]; exact State.at__keeps (.of rfl) (Keeps.refl s)
    have hid := State.claim_id hc
    subst hid hn hd
    have hcl : r.claim c.id = some c := by rw [hr, State.at__claim, hc]
    obtain ⟨h1, h2, h3⟩ := State.rampUp_on (hk.tidy htidy) hcl (r.now - (c.t0 - c.ramp * 1000)) x.carrier x.power x.dev
    exact ⟨_, next_of (State.rampUpStart_ramps hr hc hst hend hask hlock hdue hlast), h1, h2, h3,
      (State.rampUp_keeps (.of rfl) (hk.widen (.of rfl))).onlyIn⟩

end Sys2Proof.Machine
/-! The end of a transmission (O46): the last symbol, the lines that return, the blanking, an emission cut off, and the wait
for its acknowledgement. -/
namespace Sys2Proof.Machine

/-! ## The observation receiver -/

theorem State.observeDue_of_seen_none (s : State) {c : Claim} (h : c.seen = none) : s.observeDue c = s := by
  unfold State.observeDue
  rw [h]

/-- Acting on an observation leaves a claim under each number there was one. -/
theorem State.observeDue_claim {s : State} {y c : Claim} {id : Nat} (h : s.claim id = some c) :
    ∃ x : Claim, (s.observeDue y).claim id = some x := by
  cases hs : y.seen with
  | none => exact ⟨c, by rw [State.observeDue_of_seen_none s hs, h]⟩
  | some o =>
    have hfun : ((fun x : Claim => decide (x.id = id)) ∘ fun x => if x.id = y.id then { x with seen := none } else x) =
        fun x => decide (x.id = id) := by
      funext x
      simp only [Function.comp_apply]
      split <;> rfl
    have hmap : ((s.rf.claims.map fun x => if x.id = y.id then { x with seen := none } else x).find?
        fun x => decide (x.id = id)).isSome := by
      rw [List.find?_map, hfun, show s.rf.claims.find? (fun x => decide (x.id = id)) = some c from h]
      rfl
    have hpow (z : State) : (z.observePower y o.1 o.2).rf = z.rf := (State.observePower_keeps
      (W := [.evr, .hif, .que, .cal, .regs, .outbox, .free]) (.of rfl) (Keeps.refl z)).part .rf rfl
    refine Option.isSome_iff_exists.1 ?_
    unfold State.observeDue
    rw [hs]
    exact iteInduction (motive := fun t : State => (t.claim id).isSome)
      (fun _ => by rw [State.claim_congr (congrArg RfSt.claims (hpow _))]; exact hmap) fun _ => hmap

/-! ## The last symbol -/

/-- The frame of a claim on its way out. -/
def State.frameOut (s : State) (c : Claim) : State :=
  s.emit (.rfFrame c.chain c.channel (BitVec.ofNat 64 c.t0) (c.psdu.getD []))

/-- A transmission sent whole whose ramp-down has begun (R127, R134, R176). -/
def State.rampDown (s : State) (c : Claim) (down : Nat) : State :=
  (s.emitted c.band c.upAt (s.time.elapsed + c.ramp * 1000)).setClaim { c with
    stage := .ramped
    ended := true
    sent := true
    seen := none
    charged := 0
    downAt := down }

theorem State.txEnd_sends {s r : State} {i : U64} {id : Nat} {obs dev : Int} {c y : Claim} (hr : r = s.at_ i)
    (hc : s.claim id = some c) (hst : c.stage = .on) (hend : c.ended = false)
    (hy : y = { c with seen := c.seen.map fun _ => (obs, dev) }) :
    s.txEnd i id obs dev =
      ((((r.frameOut c).observeDue y).rampDown c (r.now + c.ramp * 1000)).frameSent c).settleAir := by
  have hcl : r.claim id = some c := by rw [hr, State.at__claim, hc]
  unfold State.txEnd
  rw [← hr]
  dsimp only
  rw [hcl]
  dsimp only
  rw [if_neg (by simp [hst, hend]), ← hy]
  rfl

theorem State.emitted_cont (s : State) (b a z : Nat) :
    (s.emitted b a z).par.cont b = some (joinRun (s.par.cont b) a z) := by
  unfold State.emitted ParSt.cont
  dsimp only
  split <;> rfl

/-! ## The lines that return -/

theorem State.femReturn_returns {s r : State} {i : U64} {id : Nat} {c : Claim} (hr : r = s.at_ i)
    (hc : s.claim id = some c) (hend : c.ended = true) (hfem : c.fem = true) {v : State}
    (hv : v = (r.refundDue c).setClaim { c with fem := false, req := false, refund := 0 }) :
    s.femReturn i id = ((if c.sent then (v.bump (Reg.TXC_CNT c.chain 0)).sentNormally c else v).purgeClaims).settleAir := by
  have hcl : r.claim id = some c := by rw [hr, State.at__claim, hc]
  unfold State.femReturn
  rw [← hr]
  dsimp only
  rw [hcl]
  dsimp only
  rw [if_neg (by simp [hend, hfem]), ← hv]

theorem State.occupiedTo_congr {s t : State} (h : t.truss = s.truss) (c : Claim) : t.occupiedTo c = s.occupiedTo c := by
  rw [State.occupiedTo, State.claimAir, State.tp, h, State.occupiedTo, State.claimAir, State.tp]

theorem State.mem_purgeClaims {s : State} {y : Claim} : y ∈ s.purgeClaims.rf.claims ↔ y ∈ s.rf.claims ∧
    ¬(y.ended = true ∧ y.fem = false ∧ y.blanking = false ∧ s.occupiedTo y ≤ s.now) := by
  rw [State.purgeClaims, State.setRf_rf, List.mem_filter]
  refine and_congr_right fun _ => ?_
  rw [Bool.not_eq_true', ← Bool.not_eq_true]
  exact not_congr (by simp [and_assoc])

theorem State.blankingEnd_returns {s r : State} {i : U64} {id : Nat} {c : Claim} (hr : r = s.at_ i)
    (hc : s.claim id = some c) (hend : c.ended = true) :
    s.blankingEnd i id = (r.retire { c with blanking := false }).unblankPiers c.band := by
  have hcl : r.claim id = some c := by rw [hr, State.at__claim, hc]
  unfold State.blankingEnd
  rw [← hr]
  dsimp only
  rw [hcl]
  dsimp only
  rw [if_pos hend]

/-- A claim goes when nothing of it is left. -/
theorem State.retire_claim {s : State} {c x : Claim} (h : s.claim c.id = some x) (hend : c.ended = true)
    (hbl : c.blanking = false) :
    (s.retire c).claim c.id = if c.fem = true ∨ s.now < s.occupiedTo c then some c else none := by
  have hset := State.claim_setClaim (c := c) h rfl
  have honly {y : Claim} (hy : y ∈ (s.setClaim c).rf.claims) (hid : y.id = c.id) : y = c :=
    (State.mem_setClaim hy).resolve_right fun h => h.2 hid
  have hkept : c ∈ (s.setClaim c).purgeClaims.rf.claims ↔ c.fem = true ∨ s.now < s.occupiedTo c := by
    rw [State.mem_purgeClaims, and_iff_right (State.claim_mem hset)]
    change ¬(_ ∧ _ ∧ _ ∧ s.occupiedTo c ≤ s.now) ↔ _
    simp only [hend, hbl, true_and, not_and, Nat.not_le]
    cases c.fem <;> simp
  have hsub {y : Claim} (hy : y ∈ (s.setClaim c).purgeClaims.rf.claims) (hid : y.id = c.id) : y = c :=
    honly (State.mem_purgeClaims.1 hy).1 hid
  rw [State.retire]
  cases hf : (s.setClaim c).purgeClaims.claim c.id with
  | some y =>
    have hyc := hsub (State.claim_mem hf) (State.claim_id hf)
    rw [hyc] at hf
    rw [if_pos (hkept.1 (State.claim_mem hf)), hyc]
  | none =>
    refine (if_neg fun hleft => ?_).symm
    simpa using List.find?_eq_none.1 hf c (hkept.2 hleft)

/-! ## An emission cut off -/

/-- A claim cut off (R134, R138, R172): what it did not emit falls due for refund at the end of its ramp-down. -/
def State.cutClaim (s : State) (c : Claim) (ramp : Nat) : Claim :=
  { c with
    ended := true
    stage := .ramped
    sent := false
    downAt := s.now + ramp
    charged := 0
    refund := c.charged - (if c.stage = .on then s.time.elapsed + ramp - c.upAt else 0) }

/-- The emission noted in the checked run of its band, if there was one. -/
def State.emittedOn (s : State) (c : Claim) (ramp : Nat) : State :=
  if c.stage = .on then s.emitted c.band c.upAt (s.time.elapsed + ramp) else s

theorem State.cutOff_eq {s : State} {c : Claim} (ramp : Nat) (h : c.seen = none) : s.cutOff c ramp =
    if ramp = 0 then ((s.emittedOn c ramp).refundDue (s.cutClaim c ramp)).setClaim { s.cutClaim c ramp with refund := 0 }
    else (s.emittedOn c ramp).setClaim (s.cutClaim c ramp) := by
  unfold State.cutOff
  rw [State.observeDue_of_seen_none s h]
  by_cases hst : c.stage = .on
  · simp [State.emittedOn, State.cutClaim, hst, h]
  · simp [State.emittedOn, State.cutClaim, hst, h]

theorem State.emittedOn_keeps {W : List Part} {z s : State} {c : Claim} {ramp : Nat} (hw : Within [.par] W)
    (h : Keeps W z s) : Keeps W z (s.emittedOn c ramp) := Keeps.ite (State.emitted_keeps hw h) h

theorem State.cutOff_keeps_unseen {W : List Part} {z s : State} {c : Claim} {ramp : Nat} (hs : c.seen = none)
    (hw : Within [.par, .rf, .tol] W) (h : Keeps W z s) : Keeps W z (s.cutOff c ramp) := by
  have h1 := State.emittedOn_keeps (c := c) (ramp := ramp) (hw.mono rfl) h
  rw [State.cutOff_eq ramp hs]
  exact Keeps.ite (State.setClaim_keeps (hw.mono rfl) (State.refundDue_keeps (hw.mono rfl) h1))
    (State.setClaim_keeps (hw.mono rfl) h1)

theorem State.cutOff_claim {s : State} {c : Claim} (ramp : Nat) (hs : c.seen = none) (hc : s.claim c.id = some c) :
    (s.cutOff c ramp).claim c.id =
      some { s.cutClaim c ramp with refund := if ramp = 0 then 0 else (s.cutClaim c ramp).refund } := by
  have hrf : (s.emittedOn c ramp).rf = s.rf := (State.emittedOn_keeps (W := [.par]) (.of rfl) (Keeps.refl s)).part .rf rfl
  have hdue (d : Claim) : ((s.emittedOn c ramp).refundDue d).rf = s.rf :=
    ((State.refundDue_keeps (W := [.par, .tol]) (.of rfl) (Keeps.refl _)).part .rf rfl).trans hrf
  have hcl {t : State} (h : t.rf = s.rf) : t.claim c.id = some c := (State.claim_congr (congrArg RfSt.claims h) _).trans hc
  rw [State.cutOff_eq ramp hs]
  split
  · exact State.claim_setClaim (hcl (hdue _)) rfl
  · exact State.claim_setClaim (hcl hrf) rfl

theorem State.coexGrantWithdrawn_cuts {s r : State} {i : U64} {b : Nat} {c : Claim} (hr : r = s.at_ i)
    (hone : (s.rf.claims.filter fun c => c.coex && decide (c.band = b) && c.onAir) = [c]) :
    s.coexGrantWithdrawn i b = (((((r.setFld (Reg.TXC_COEX b) 30 30 0).cutOff c c.rampNs).bump
      (Reg.TXC_CNT c.chain 4)).attemptEnds c .late).settleAir) := by
  have hrf : (r.setFld (Reg.TXC_COEX b) 30 30 0).rf = s.rf := by rw [State.setFld_rf, hr, State.at__rf]
  unfold State.coexGrantWithdrawn
  rw [← hr]
  dsimp only
  rw [hrf, hone, List.foldl_cons, List.foldl_nil]

theorem State.parapetBackstop_cuts {s r : State} {i : U64} {id : Nat} {c : Claim} (hr : r = s.at_ i)
    (hc : s.claim id = some c) (hst : c.stage = .on) (hend : c.ended = false) (hrun : c.runEnd ≠ 0)
    (hover : c.runEnd < r.time.elapsed) :
    s.parapetBackstop i id = ((post (((r.cutOff c c.rampNs).bump (Reg.TXC_CNT c.chain 5)).bump (Reg.PAR_CNT c.band 7))
      .error 0x08 (some .parapet) 0 [pw c.chain, pw c.channel]).attemptEnds c .parapet).settleAir := by
  have hcl : r.claim id = some c := by rw [hr, State.at__claim, hc]
  unfold State.parapetBackstop
  rw [← hr]
  dsimp only
  rw [hcl]
  dsimp only
  rw [if_neg (by simp [hst, hend, hrun, hover])]

/-! ## The wait for an acknowledgement -/

/-- A closed wait alone: while something may answer it stands, and otherwise it has failed. -/
theorem State.settleWaits_one {s : State} {w : AckWait} (h : s.rf.waits = [w]) (hc : w.closed = true) :
    s.settleWaits = if s.mayAnswer w.claim then s
      else (s.setRf fun r => { r with waits := r.waits.filter fun x => x.claim != w.claim }).waitFailed w.desc := by
  unfold State.settleWaits
  rw [h]
  by_cases ha : s.mayAnswer w.claim = true
  · simp [ha]
  · simp [ha, hc]

theorem State.endClaim_waits (s : State) (c : Claim) : (s.endClaim c).rf.waits = s.rf.waits := by
  have hrf : (s.withdrawJob c.id).rf = s.rf := (State.withdrawJob_keeps (W := [.cip]) (.of rfl) (Keeps.refl s)).part .rf rfl
  rw [State.endClaim, State.dropClaim, State.setRf_rf, hrf]

theorem State.txComplete_waits (s : State) (x : TxDesc) (st : Status) :
    (s.txComplete x st).rf.waits = s.rf.waits.filter fun w => w.desc != x.num := by
  unfold State.txComplete
  extract_lets s1 s2 s3 q s3' s4
  have h2 : Keeps [.que, .regs] s s2 := Keeps.ite
    (State.releaseFlood_keeps (.of rfl) (State.freeOwned_keeps (.of rfl) (Keeps.refl s)))
    (State.freeOwned_keeps (.of rfl) (Keeps.refl s))
  have h4 : s4.rf.waits = s3'.rf.waits :=
    List.foldlRecOn (s3.rf.claims.filter fun c => c.kind = .cell x.num && c.undecided) (fun s c => State.endClaim s c)
      (motive := fun t => t.rf.waits = s3'.rf.waits) rfl fun t ht c _ => (t.endClaim_waits c).trans ht
  have h : s4.rf.waits = s.rf.waits.filter fun w => w.desc != x.num :=
    h4.trans (congrArg (fun r : RfSt => r.waits.filter fun w : AckWait => w.desc != x.num) (h2.part .rf rfl))
  cases x.ring with
  | none => exact h
  | some k => exact h

/-- A descriptor that fails an attempt opens no wait. -/
theorem State.waitFailed_waits {s : State} (n : Nat) (h : s.rf.waits = []) : (s.waitFailed n).rf.waits = [] := by
  have hdone {t : State} (ht : t.rf = s.rf) (x : TxDesc) (st : Status) : (t.txComplete x st).rf.waits = [] := by
    rw [State.txComplete_waits, ht, h, List.filter_nil]
  have hbump (a : Nat) {t : State} (ht : t.rf = s.rf) : (t.bump a).rf = s.rf := ht
  unfold State.waitFailed
  dsimp only
  split
  · exact h
  · refine iteInduction (motive := fun t : State => t.rf.waits = []) (fun _ => hdone (hbump _ rfl) _ _) fun _ =>
      iteInduction (motive := fun t : State => t.rf.waits = []) (fun _ => hdone ?_ _ _) fun _ => ?_
    · exact ((State.updCtx_keeps (W := [.ctxs]) (.of rfl) (Keeps.refl _)).part .rf rfl).trans
        (hbump _ (hbump _ rfl))
    · have hun (t : State) (y : TxDesc) : (t.untake y).rf = t.rf :=
        (State.untake_keeps (W := [.que]) (.of rfl) (Keeps.refl t)).part .rf rfl
      have hset (t : State) (y : TxDesc) : (t.setDesc y).rf.waits = t.rf.waits := rfl
      rw [hset, hun, hbump _ rfl, h]

/-- A new attempt while one is left (R220): the descriptor has counted the one that failed. -/
theorem State.waitFailed_again {s : State} {n : Nat} {x : TxDesc} (hx : s.txDesc n = some x) (ho : s.orphaned n = false)
    (htry : x.tries + 1 ≤ x.retries) :
    s.waitFailed n = ((s.bump (Reg.MAC_CNT 22)).untake { x with tries := x.tries + 1, last := some .noAck }).setDesc
      { x with tries := x.tries + 1, last := some .noAck } := by
  have ho' : (s.bump (Reg.MAC_CNT 22)).orphaned n = false := ho
  unfold State.waitFailed
  rw [hx]
  dsimp only
  rw [if_neg (by simp [ho']), if_neg (by omega)]

theorem State.untake_rf (s : State) (x : TxDesc) : (s.untake x).rf = s.rf :=
  (State.untake_keeps (W := [.que]) (.of rfl) (Keeps.refl s)).part .rf rfl

/-- The state in which a wait has closed, before it is settled. -/
def State.waitShut (s : State) (id : Nat) : State :=
  s.setRf fun r => { r with waits := r.waits.map fun w => if w.claim = id then { w with closed := true } else w }

theorem State.ackWaitClose_eq (s : State) (i : U64) (id : Nat) :
    s.ackWaitClose i id = ((s.at_ i).waitShut id).settleWaits.settleWatches.searchRefresh := rfl

theorem State.waitShut_waits {s : State} {w : AckWait} (h : s.rf.waits = [w]) :
    (s.waitShut w.claim).rf.waits = [{ w with closed := true }] := by
  simp [State.waitShut, h]

theorem State.mayAnswer_congr {s t : State} (h : t.air = s.air) (n : Nat) : t.mayAnswer n = s.mayAnswer n :=
  congrArg (fun a : List RxFrame × List Pier =>
    (a.2.any fun p => (p.state = .sync || p.state = .header || p.state = .payload) && p.waits.contains n) ||
      a.1.any fun f => f.air.type = .ack && f.waits.contains n) h

theorem State.waitShut_mayAnswer (s : State) (i : U64) (id n : Nat) :
    ((s.at_ i).waitShut id).mayAnswer n = s.mayAnswer n :=
  State.mayAnswer_congr ((rfl : _ = (s.at_ i).air).trans (State.air_of_rf (State.at__rf s i))) n

/-- The one wait that has closed, taken away. -/
def State.waitGone (s : State) (i : U64) (id : Nat) : State :=
  ((s.at_ i).waitShut id).setRf fun r => { r with waits := r.waits.filter fun x => x.claim != id }

theorem State.waitGone_waits {s : State} (i : U64) {w : AckWait} (h : s.rf.waits = [w]) :
    (s.waitGone i w.claim).rf.waits = [] := by
  have hone := State.waitShut_waits (s := s.at_ i) (w := w) (by rw [State.at__rf, h])
  rw [State.waitGone, State.setRf_rf, hone]
  simp

theorem State.waitGone_claims (s : State) (i : U64) (id : Nat) : (s.waitGone i id).rf.claims = s.rf.claims :=
  (rfl : _ = (s.at_ i).rf.claims).trans (by rw [State.at__rf])

theorem State.waitGone_txDesc (s : State) (i : U64) (id n : Nat) : (s.waitGone i id).txDesc n = s.txDesc n :=
  (rfl : _ = (s.at_ i).txDesc n).trans (State.txDesc_congr (State.at__rf s i) n)

theorem State.waitGone_keeps {W : List Part} {z s : State} {i : U64} {id : Nat} (hw : Within [.time, .rf] W)
    (h : Keeps W z s) : Keeps W z (s.waitGone i id) :=
  State.setRf_keeps (hw.mono rfl) (State.setRf_keeps (hw.mono rfl) (State.at__keeps (hw.mono rfl) h))

/-- Settles O46: a transmission that ends, returns its lines, is cut off, or waits to be acknowledged. -/
theorem transmissionsEnd : Obligations.transmissionsEnd := by
  refine ⟨fun s r i id obs dev c y hr hc hst hend hy => ?_, fun s r i id c hr hc hend => ⟨fun hfem => ?_, ?_⟩,
    fun s r i b c x n e hr htidy hc hseen hone hb hn he hx => ?_,
    fun s r i id c x n hr hc hst hend hseen hrun hover hn hx => ?_,
    fun s r i w x hr hw hx => ⟨fun ha => ?_, fun ha => ?_⟩⟩
  all_goals
    have hk : Keeps [.time] s r := by rw [hr]; exact State.at__keeps (.of rfl) (Keeps.refl s)
  · have hcl : r.claim id = some c := by rw [hr, State.at__claim, hc]
    have hid := State.claim_id hc
    have hko : Keeps [.evr, .hif, .que, .cal, .rf, .regs, .outbox, .free] (r.frameOut c) ((r.frameOut c).observeDue y) :=
      State.observeDue_keeps (.of rfl) (Keeps.refl _)
    have hclock : ((r.frameOut c).observeDue y).clock = r.clock := (hko.clock rfl).trans rfl
    have hpar : ((r.frameOut c).observeDue y).par = s.par := (hko.part .par rfl).trans (hk.part .par rfl)
    obtain ⟨x, hcx⟩ := State.observeDue_claim (s := r.frameOut c) (y := y) (c := c) (id := id) hcl
    refine ⟨r.frameOut c, ((r.frameOut c).observeDue y).rampDown c (r.now + c.ramp * 1000),
      next_of (State.txEnd_sends hr hc hst hend hy), ?_, ?_, ?_, State.claim_setClaim hcx hid, rfl, fun hseen => ?_,
      (State.setClaim_keeps (.of rfl) (State.emitted_keeps (.of rfl) (hko.widen (.of rfl)))).onlyIn⟩
    · exact congrArg (· ++ [_]) (hk.part .outbox rfl)
    · exact (State.emit_keeps (.of rfl) (hk.widen (.of rfl))).onlyIn
    · refine (State.emitted_cont ..).trans ?_
      rw [hpar, State.elapsed_of_clock hclock]
    · have hs := State.observeDue_of_seen_none (r.frameOut c) (c := y) (by rw [hy]; simp [hseen])
      change ((r.frameOut c).observeDue y).outbox = (r.frameOut c).outbox
      rw [hs]
  · have hcl : r.claim id = some c := by rw [hr, State.at__claim, hc]
    have hid := State.claim_id hc
    have hkd : Keeps [.par, .tol] r (r.refundDue c) := State.refundDue_keeps (.of rfl) (Keeps.refl r)
    have hkv : Keeps [.time, .rf, .par, .tol] s ((r.refundDue c).setClaim { c with fem := false, req := false, refund := 0 }) :=
      State.setClaim_keeps (.of rfl) (State.refundDue_keeps (.of rfl) (hk.widen (.of rfl)))
    have hkr : Keeps [.rf, .par, .tol] r ((r.refundDue c).setClaim { c with fem := false, req := false, refund := 0 }) :=
      State.setClaim_keeps (.of rfl) (State.refundDue_keeps (.of rfl) (Keeps.refl r))
    refine ⟨_, next_of (State.femReturn_returns hr hc hend hfem rfl), State.claim_setClaim
      ((State.claim_congr (congrArg RfSt.claims (hkd.part .rf rfl)) id).trans hcl) hid, fun href => ?_, fun y => ?_, hkv.onlyIn⟩
    · have hz : r.refundDue c = r := if_pos href
      rw [hz]
      exact ⟨hk.part .par rfl, hk.part .tol rfl⟩
    · rw [State.mem_purgeClaims, State.occupiedTo_congr (hkr.part .truss rfl), State.now_of_clock (hkr.clock rfl)]
  · have hcl : r.claim id = some c := by rw [hr, State.at__claim, hc]
    have hid := State.claim_id hc
    subst hid
    exact ⟨_, next_of (State.blankingEnd_returns hr hc hend),
      State.retire_claim (c := { c with blanking := false }) hcl hend rfl,
      (State.retire_keeps (.of rfl) (hk.widen (.of rfl))).onlyIn⟩
  · have hramp : c.rampNs = n := by rw [hn, Claim.rampNs]
    have hcl : (r.setFld (Reg.TXC_COEX b) 30 30 0).claim c.id = some c := by
      rw [State.claim_congr (congrArg RfSt.claims (State.setFld_rf ..)), hr, State.at__claim, hc]
    have hcut := State.cutOff_claim (s := r.setFld (Reg.TXC_COEX b) 30 30 0) c.rampNs hseen hcl
    have hku : Keeps [.par, .rf, .tol] (r.setFld (Reg.TXC_COEX b) 30 30 0)
        ((r.setFld (Reg.TXC_COEX b) 30 30 0).cutOff c c.rampNs) :=
      State.cutOff_keeps_unseen hseen (.of rfl) (Keeps.refl _)
    refine ⟨_, next_of (State.coexGrantWithdrawn_cuts hr hone), hcut.trans ?_, ?_,
      (State.cutOff_keeps_unseen hseen (.of rfl) (State.setFld_keeps (.of rfl) (hk.widen (.of rfl)))).onlyIn⟩
    · rw [hx, he, ← hramp]
      rfl
    · rw [State.reg, show State.regs _ = _ from hku.part .regs rfl, ← State.reg, State.setFld, (hk.tidy htidy).reg_setReg,
        bit_setBits_bit _ (by decide)]
      simp
  · have hid := State.claim_id hc
    have hcl : r.claim c.id = some c := by rw [hr, State.at__claim, hid, hc]
    have hramp : c.rampNs = n := by rw [hn, Claim.rampNs, if_pos hst]
    have hpost (z : State) : (post z .error 0x08 (some .parapet) 0 [pw c.chain, pw c.channel]).rf = z.rf :=
      (post_keeps (W := [.evr, .hif, .que, .regs, .outbox, .free]) (.of rfl) (Keeps.refl z)).part .rf rfl
    refine ⟨_, next_of (State.parapetBackstop_cuts hr hc hst hend hrun hover), ?_,
      (post_keeps (.of rfl) (State.bump_keeps (.of rfl) (State.bump_keeps (.of rfl)
        (State.cutOff_keeps_unseen hseen (.of rfl) (hk.widen (.of rfl)))))).onlyIn⟩
    rw [State.claim_congr (congrArg RfSt.claims (hpost _)), ← hid]
    refine (State.cutOff_claim c.rampNs hseen hcl).trans ?_
    rw [hx, hramp, State.cutClaim, if_pos hst]
  all_goals
    have hone := State.waitShut_waits (s := s.at_ i) (w := w) (by rw [State.at__rf, hw])
    have hmay := (s.waitShut_mayAnswer i w.claim w.claim).trans ha
  · have hset := (State.settleWaits_one hone rfl).trans (if_pos hmay)
    refine ⟨_, next_of (State.ackWaitClose_eq ..), ?_, ?_, ?_⟩
    all_goals rw [hset]
    · exact hone
    · exact (rfl : _ = (s.at_ i).rf.claims).trans (by rw [State.at__rf])
    · exact (State.setRf_keeps (.of rfl) (State.at__keeps (.of rfl) (Keeps.refl s))).onlyIn
  · have hset : ((s.at_ i).waitShut w.claim).settleWaits = (s.waitGone i w.claim).waitFailed w.desc :=
      (State.settleWaits_one hone rfl).trans (if_neg (Bool.eq_false_iff.1 hmay))
    have hnum := State.txDesc_num hx
    refine ⟨_, next_of (State.ackWaitClose_eq ..), ?_, fun ho htry => ?_⟩
    · rw [hset, State.waitFailed_waits _ (State.waitGone_waits i hw)]
    · have hkg : Keeps [.time, .que, .regs, .rf] s (s.waitGone i w.claim) := State.waitGone_keeps (.of rfl) (Keeps.refl s)
      have hog : (s.waitGone i w.claim).orphaned w.desc = false :=
        (congrArg (fun q : QueSt => q.orphans.any fun o => decide (o.1.desc = w.desc))
          ((State.waitGone_keeps (W := [.time, .rf]) (.of rfl) (Keeps.refl s)).part .que rfl)).trans ho
      rw [hset, State.waitFailed_again ((State.waitGone_txDesc ..).trans hx) hog htry]
      refine ⟨?_, ?_, ?_⟩
      · have hd : (((s.waitGone i w.claim).bump (Reg.MAC_CNT 22)).untake
            { x with tries := x.tries + 1, last := some .noAck }).txDesc x.num = some x := by
          rw [State.txDesc_congr (State.untake_rf ..), hnum]
          exact (State.waitGone_txDesc ..).trans hx
        rw [← hnum]
        exact State.txDesc_setDesc (x := { x with tries := x.tries + 1, last := some .noAck }) hd
      · have hset' (t : State) (y : TxDesc) : (t.setDesc y).rf.claims = t.rf.claims := rfl
        rw [hset', State.untake_rf, State.bump_rf, State.waitGone_claims]
      · exact (State.setDesc_keeps (.of rfl) (State.untake_keeps (.of rfl) (State.bump_keeps (.of rfl) hkg))).onlyIn

end Sys2Proof.Machine
/-! Cells resolve, late work items, and the schedule read (O19). -/
namespace Sys2Proof.Machine

/-! ## The schedule read -/

theorem State.schGlRead_writes {s : State} {d : Desc} (hb : d.byte 4 = 0xFF) (hst : s.inStates stSAYML = true)
    (hz : d.unlistedZero [8, 9, 12, 13, 14, 15, 16, 17, 18, 19] = true) (h8 : d.byte 8 ≤ 1)
    (hp : (s.tp.band (d.byte 8)).present = true) (hal : (d.word 3).toNat % 16 = 0)
    (hw : s.inWindow (d.word 3).toNat (d.word 4).toNat = true)
    (hl : ((s.listInForce (d.byte 8) (d.byte 9)).getD {}).bytes.length ≤ (d.word 4).toNat) :
    s.schGlRead d = (s.writeWin (d.word 3).toNat ((s.listInForce (d.byte 8) (d.byte 9)).getD {}).bytes).complete d .ok := by
  simp only [State.schGlRead, State.command_runs hb hst]
  rw [if_neg (by simp [hz, h8, hp]), if_neg (by simp [hal, hw, hl])]

/-- A read of the low half latches both halves. -/
theorem latched_reads {s : State} (h : s.tidy) {lo hi : Nat} (hne : lo ≠ hi) (v w : Word) :
    ((s.setReg lo v).setReg hi w).reg lo = v ∧ ((s.setReg lo v).setReg hi w).reg hi = w :=
  ⟨(reg_setReg_other hne).trans (h.reg_setReg ..), (h.setReg _ _).reg_setReg ..⟩

/-! ## A submission that is late -/

theorem State.jobLate_host {s : State} {i : U64} {id due : Nat} {j : CipJob} {d : Desc} (hj : s.jobOf id = some j)
    (hd : j.due = some due) (hdue : due ≤ (s.at_ i).now) (ho : j.owner = .host d) :
    s.jobLate i id = ((s.at_ i).voidJob id).endHostJob j .late [] [] ((s.at_ i).unitOf id) := by
  have hj' : (s.at_ i).jobOf id = some j := by rw [State.jobOf, State.at__cip]; exact hj
  unfold State.jobLate
  dsimp only
  rw [hj']
  dsimp only
  rw [hd]
  dsimp only
  rw [if_neg (by omega), ho]

/-- A job that ends with no output leaves the memory die. -/
theorem State.endHostJob_late_keeps {W : List Part} {z s : State} {j : CipJob} {u : Nat} (hw : Within [.hif, .regs] W)
    (h : Keeps W z s) : Keeps W z (s.endHostJob j .late [] [] u) := by
  have hwin (o : Nat) : s.writeWin o [] = s := rfl
  unfold State.endHostJob
  split
  · dsimp only
    rw [hwin, ite_self, if_neg (by simp)]
    exact State.completeSubmit_keeps (hw.mono rfl) (State.countJob_keeps (hw.mono rfl) h)
  · exact h

theorem State.endHostJob_cip (s : State) (j : CipJob) (st : Status) (out tag : List Byte) (u : Nat) :
    (s.endHostJob j st out tag u).cip = s.cip :=
  (State.endHostJob_keeps (W := [.hif, .regs, .mem]) (.of rfl) (Keeps.refl s)).part .cip rfl

/-! ## What the choice of transmissions leaves: the piers, and the count of late transmissions -/

/-- The piers, and the counter of transmissions late at their resolution (R36). -/
def State.lateView (s : State) : List Pier × Word := (s.rf.piers, s.reg (Reg.TIME_LATE 1))

theorem State.lateView_of {s t : State} (hrf : t.rf.piers = s.rf.piers) (hreg : t.reg (Reg.TIME_LATE 1) = s.reg (Reg.TIME_LATE 1)) :
    t.lateView = s.lateView := Prod.ext hrf hreg

theorem State.reg_of_regs {s t : State} (h : t.regs = s.regs) (a : Nat) : t.reg a = s.reg a := by
  rw [State.reg, h, State.reg]

theorem Keeps.lateView {W : List Part} {s t : State} (h : Keeps W s t) (hrf : W.contains .rf = false)
    (hreg : W.contains .regs = false) : t.lateView = s.lateView :=
  State.lateView_of (congrArg RfSt.piers (h.part .rf hrf)) (State.reg_of_regs (h.part .regs hreg) _)

theorem State.bumpBy_lateView {s : State} {a hi k : Nat} (h : Reg.TIME_LATE 1 ≠ a) : (s.bumpBy a hi k).lateView = s.lateView :=
  State.lateView_of (congrArg RfSt.piers (State.bumpBy_rf ..)) (State.bumpBy_reg h)

theorem State.bump_lateView {s : State} {a : Nat} (h : Reg.TIME_LATE 1 ≠ a) : (s.bump a).lateView = s.lateView :=
  State.bumpBy_lateView h

theorem State.foldl_lateView {α : Type} {f : State → α → State} (h : ∀ t a, (f t a).lateView = t.lateView) (l : List α)
    (s : State) : (l.foldl f s).lateView = s.lateView :=
  List.foldlRecOn l f (motive := fun t => t.lateView = s.lateView) rfl fun t ht a _ => (h t a).trans ht

theorem timeLate_ne_schCnt (b m : Nat) : Reg.TIME_LATE 1 ≠ Reg.SCH_CNT b m := by
  simp only [Reg.TIME_LATE, Reg.SCH_CNT]
  omega

theorem timeLate_ne_shapeCnt (b : Nat) : Reg.TIME_LATE 1 ≠ Reg.TOL_SHAPE_CNT b := by
  simp only [Reg.TIME_LATE, Reg.TOL_SHAPE_CNT]
  omega

theorem post_lateView (s : State) (v : Sev) (src : Nat) (st : Option Status) (ev : Nat) (pl : List Word) :
    (post s v src st ev pl).lateView = s.lateView :=
  State.lateView_of (congrArg RfSt.piers ((post_keeps (W := [.evr, .hif, .que, .regs, .outbox, .free]) (.of rfl)
    (Keeps.refl s)).part .rf rfl)) (post_reg (by decide))

theorem State.endClaim_lateView (s : State) (c : Claim) : (s.endClaim c).lateView = s.lateView :=
  State.lateView_of (s.dropClaim_piers_frames c.id).1 (State.reg_of_regs ((State.endClaim_keeps (W := [.cip, .rf])
    (.of rfl) (Keeps.refl s)).part .regs rfl) _)

theorem State.freeOwned_lateView (s : State) (q n : Nat) : (s.freeOwned q n).lateView = s.lateView :=
  (State.freeOwned_keeps (W := [.que]) (.of rfl) (Keeps.refl s)).lateView rfl rfl

theorem State.releaseFlood_lateView (s : State) (q n : Nat) : (s.releaseFlood q n).lateView = s.lateView := by
  have hgaps (t : State) : (t.freeGaps q).lateView = t.lateView :=
    (State.freeGaps_keeps (W := [.que]) (.of rfl) (Keeps.refl t)).lateView rfl rfl
  unfold State.releaseFlood
  exact (hgaps _).trans (State.bumpBy_lateView (s := s) (by decide))

theorem State.txComplete_lateView (s : State) (x : TxDesc) (st : Status) : (s.txComplete x st).lateView = s.lateView := by
  unfold State.txComplete
  extract_lets s1 s2 s3 q s3' s4
  have h1 : s1.lateView = s.lateView := State.freeOwned_lateView ..
  have h2 : s2.lateView = s.lateView :=
    iteInduction (motive := fun t : State => t.lateView = s.lateView) (fun _ => (State.releaseFlood_lateView ..).trans h1) fun _ => h1
  have h4 : s4.lateView = s.lateView :=
    (State.foldl_lateView State.endClaim_lateView _ _).trans ((rfl : s3'.lateView = s2.lateView).trans h2)
  cases x.ring with
  | none => exact h4
  | some k => exact h4

theorem State.lineFound_lateView (s : State) (n : Nat) : (s.lineFound n).lateView = s.lateView :=
  iteInduction (motive := fun t : State => t.lateView = s.lateView) (fun _ => rfl) fun _ => post_lateView ..

theorem State.fetchCtx_lateView (s : State) (n : Nat) : (s.fetchCtx n).1.lateView = s.lateView := by
  unfold State.fetchCtx
  split
  · rfl
  · exact (State.bump_lateView (by decide)).trans (State.lineFound_lateView ..)

theorem State.heldBack_lateView (s : State) (x : TxDesc) : (s.heldBack x).lateView = s.lateView :=
  iteInduction (motive := fun t : State => t.lateView = s.lateView) (fun _ => rfl) fun _ =>
    (State.bump_lateView (by decide)).trans rfl

theorem State.dropStrays_lateView (s : State) (q : Nat) : (s.dropStrays q).lateView = s.lateView :=
  iteInduction (motive := fun t : State => t.lateView = s.lateView) (fun _ => rfl) fun _ => rfl

theorem State.dedicatedReady_lateView (s : State) (b : Nat) (a : ActCell) (gone : List (Nat × Nat)) :
    (s.dedicatedReady b a gone).1.lateView = s.lateView := by
  have hf := s.fetchCtx_lateView a.cell.nidx
  unfold State.dedicatedReady
  dsimp only
  split
  next s1 h => rwa [h] at hf
  next s1 c h =>
    rw [h] at hf
    split
    · exact (State.bump_lateView (timeLate_ne_schCnt _ _)).trans hf
    · split
      · exact hf
      · split
        · exact hf
        · split
          · exact hf
          · exact (State.heldBack_lateView ..).trans hf

theorem State.sharedReady_lateView (s : State) (a : ActCell) (gone : List (Nat × Nat)) :
    (s.sharedReady a gone).1.lateView = s.lateView := by
  have hd := s.dropStrays_lateView a.cell.queue.toNat
  unfold State.sharedReady
  dsimp only
  split
  · rfl
  · split
    · exact hd
    next x k len h =>
      split
      · exact hd
      · have hf := (s.dropStrays a.cell.queue.toNat).fetchCtx_lateView x.peer
        split
        next s1 he =>
          rw [he] at hf
          exact (State.txComplete_lateView ..).trans (hf.trans hd)
        next s1 c he =>
          rw [he] at hf
          split
          · exact hf.trans hd
          · split
            · exact hf.trans hd
            · exact (State.heldBack_lateView ..).trans (hf.trans hd)

theorem State.cellReady_lateView (s : State) (b : Nat) (a : ActCell) (gone : List (Nat × Nat)) :
    (s.cellReady b a gone).1.lateView = s.lateView := by
  unfold State.cellReady
  split
  · exact State.dedicatedReady_lateView ..
  · exact State.sharedReady_lateView ..
  · rfl
  · rfl

theorem State.candidates_lateView (s : State) (b : Nat) (l : List ActCell) : (s.candidates b l).1.lateView = s.lateView := by
  refine List.foldlRecOn (motive := fun r : State × List (ActCell × CellSend) => r.1.lateView = s.lateView) _ _ rfl
    fun r hr a _ => ?_
  dsimp only
  split
  all_goals
    rename_i he
    exact ((congrArg State.lateView (congrArg Prod.fst he)).symm.trans (State.cellReady_lateView ..)).trans hr

/-- At most two transmissions are chosen (R32), and choosing them leaves the piers. -/
theorem State.selectTwo_spec (s : State) (b : Nat) (l : List (ActCell × CellSend)) :
    (s.selectTwo b l).1.lateView = s.lateView ∧ (s.selectTwo b l).2.1.length ≤ 2 := by
  refine List.foldlRecOn (motive := fun r : State × List (ActCell × CellSend) × Nat =>
    r.1.lateView = s.lateView ∧ r.2.1.length ≤ 2) _ _ ⟨rfl, by simp⟩ fun r hr e _ => ?_
  obtain ⟨hlate, hlen⟩ := hr
  dsimp only
  split
  · exact ⟨hlate, hlen⟩
  next hne =>
    split
    · exact ⟨(State.bump_lateView (timeLate_ne_shapeCnt _)).trans hlate, hlen⟩
    · refine ⟨hlate, ?_⟩
      rw [List.length_append, List.length_singleton]
      omega

/-- The slot noted as resolved, with the inactive cells counted. -/
def State.slotNoted (s : State) (b : Nat) : State :=
  (s.noteResolved b).bumpBy (Reg.SCH_CNT b 9) 31 (s.activeCells b).2

/-- The cells that could send, in a device that serves. -/
def State.txChoice (s : State) (b : Nat) : State × List (ActCell × CellSend) :=
  if (s.slotNoted b).serving then (s.slotNoted b).candidates b (s.activeCells b).1 else (s.slotNoted b, [])

/-- The two of them that are chosen. -/
def State.txChosen (s : State) (b : Nat) : State × List (ActCell × CellSend) × Nat :=
  (s.txChoice b).1.selectTwo b (s.txChoice b).2

theorem State.resolveTx_eq (s : State) (b : Nat) : s.resolveTx b =
    ((s.txChosen b).1.bumpBy (Reg.SCH_CNT b 3) 31 (s.txChosen b).2.2, (s.activeCells b).1, (s.txChosen b).2.1) := rfl

theorem State.resolveTx_length (s : State) (b : Nat) : (s.resolveTx b).2.2.length ≤ 2 := by
  rw [State.resolveTx_eq]
  exact (State.selectTwo_spec ..).2

theorem State.resolveTx_lateView (s : State) (b : Nat) : (s.resolveTx b).1.lateView = s.lateView := by
  have hnote : (s.slotNoted b).lateView = s.lateView := (State.bumpBy_lateView (timeLate_ne_schCnt _ _)).trans rfl
  have hchoice : (s.txChoice b).1.lateView = s.lateView := by
    unfold State.txChoice
    split
    · exact (State.candidates_lateView ..).trans hnote
    · exact hnote
  rw [State.resolveTx_eq]
  exact (State.bumpBy_lateView (timeLate_ne_schCnt _ _)).trans ((State.selectTwo_spec ..).1.trans hchoice)

/-! ## A resolution that is late -/

/-- A transmission not made, for want of a resolution in time. -/
def State.sendLate (s : State) (b : Nat) (e : ActCell × CellSend) : State :=
  (match e.2 with
    | .beacon => s.beaconEnds b
    | .frame d _ _ => s.cellEnds d .late).countLate 1

theorem State.sendLate_keeps {W : List Part} {z s : State} {b : Nat} {e : ActCell × CellSend}
    (hw : Within [.cip, .hif, .que, .regs, .rf] W) (h : Keeps W z s) : Keeps W z (s.sendLate b e) := by
  unfold State.sendLate
  refine State.countLate_keeps (hw.mono rfl) ?_
  split
  · exact State.beaconEnds_keeps (hw.mono rfl) h
  · exact State.cellEnds_keeps (hw.mono rfl) h

theorem State.cellEnds_lateView (s : State) (n : Nat) : (s.cellEnds n .late).lateView = s.lateView := by
  unfold State.cellEnds
  split
  · rfl
  · refine iteInduction (motive := fun t : State => t.lateView = s.lateView) (fun _ => State.txComplete_lateView ..) fun _ =>
      iteInduction (motive := fun t : State => t.lateView = s.lateView) (fun _ => ?_) fun _ => State.txComplete_lateView ..
    exact (rfl : _ = (s.untake _).lateView).trans ((State.untake_keeps (W := [.que]) (.of rfl) (Keeps.refl s)).lateView rfl rfl)

/-- Each transmission not made is counted late, up to the counter's end (R36). -/
theorem State.sendLate_counts {s : State} (htidy : s.tidy) (hin : s.inStates [.maintenance, .alarm] = false) (b : Nat)
    (e : ActCell × CellSend) : (s.sendLate b e).rf.piers = s.rf.piers ∧
      (s.sendLate b e).regFld (Reg.TIME_LATE 1) 15 0 = min 65535 (s.regFld (Reg.TIME_LATE 1) 15 0 + 1) := by
  have hcount (z : State) (hz : z.lateView = s.lateView) (hk : Keeps [.cip, .hif, .que, .regs, .rf] s z) :
      (z.countLate 1).rf.piers = s.rf.piers ∧
        (z.countLate 1).regFld (Reg.TIME_LATE 1) 15 0 = min 65535 (s.regFld (Reg.TIME_LATE 1) 15 0 + 1) := by
    have hzin : z.inStates [.maintenance, .alarm] = false :=
      (congrArg (fun y : SysSt => [SysState.maintenance, .alarm].contains y.state) (hk.part .sys rfl)).trans hin
    have hrun : z.countLate 1 = z.bump16 (Reg.TIME_LATE 1) := if_neg (by simp [hzin])
    have hreg : z.regFld (Reg.TIME_LATE 1) 15 0 = s.regFld (Reg.TIME_LATE 1) 15 0 := by
      rw [State.regFld, show z.reg (Reg.TIME_LATE 1) = s.reg (Reg.TIME_LATE 1) from congrArg Prod.snd hz, State.regFld]
    have hlt : z.regFld (Reg.TIME_LATE 1) 15 0 < 2 ^ 16 := Nat.mod_lt _ (by decide)
    rw [hrun]
    refine ⟨congrArg Prod.fst hz, ?_⟩
    rw [State.bump16, State.bumpBy, State.regFld_setFld_same (hk.tidy htidy) (by decide), ← hreg]
    split <;> omega
  unfold State.sendLate
  split
  · exact hcount _ (State.bump_lateView (timeLate_ne_schCnt _ _)) (State.beaconEnds_keeps (.of rfl) (Keeps.refl s))
  · exact hcount _ (State.cellEnds_lateView ..) (State.cellEnds_keeps (.of rfl) (Keeps.refl s))

theorem State.inStates_congr {s t : State} (h : t.sys = s.sys) (l : List SysState) : t.inStates l = s.inStates l := by
  rw [State.inStates, h, State.inStates]

theorem State.sendLate_fold (b : Nat) (l : List (ActCell × CellSend)) {s : State} (htidy : s.tidy)
    (hin : s.inStates [.maintenance, .alarm] = false) :
    (l.foldl (fun s e => s.sendLate b e) s).rf.piers = s.rf.piers ∧
      (l.foldl (fun s e => s.sendLate b e) s).regFld (Reg.TIME_LATE 1) 15 0 =
        min 65535 (s.regFld (Reg.TIME_LATE 1) 15 0 + l.length) := by
  induction l generalizing s with
  | nil =>
    have hlt : s.regFld (Reg.TIME_LATE 1) 15 0 < 2 ^ 16 := Nat.mod_lt _ (by decide)
    exact ⟨rfl, by simp only [List.foldl_nil, List.length_nil]; omega⟩
  | cons e l ih =>
    have hk : Keeps [.cip, .hif, .que, .regs, .rf] s (s.sendLate b e) := State.sendLate_keeps (.of rfl) (Keeps.refl s)
    obtain ⟨hp, hr⟩ := State.sendLate_counts htidy hin b e
    obtain ⟨hpl, hrl⟩ := ih (hk.tidy htidy) ((State.inStates_congr (hk.part .sys rfl) _).trans hin)
    rw [List.foldl_cons, List.length_cons]
    exact ⟨hpl.trans hp, hrl.trans (by omega)⟩

/-- A guard of g units, at its maximum when it is more (R33). -/
def State.guardWithin (s : State) (b gmax g : Nat) : State × Nat × Bool :=
  if gmax < g then (s.bump (Reg.SCH_CNT b 4), gmax, true) else (s, g, false)

theorem State.capGuard_eq (s : State) (b gmax fine : Nat) :
    s.capGuard b gmax fine = s.guardWithin b gmax (ceilDiv (fine + s.extraGuardFine) guardUnit) := rfl

theorem State.guardWithin_spec (s : State) (b gmax g : Nat) :
    (s.guardWithin b gmax g).1.lateView = s.lateView ∧ (s.guardWithin b gmax g).2.1 = min g gmax := by
  unfold State.guardWithin
  split
  next h => exact ⟨State.bump_lateView (timeLate_ne_schCnt _ _), (Nat.min_eq_right (Nat.le_of_lt h)).symm⟩
  next h => exact ⟨rfl, (Nat.min_eq_left (Nat.not_lt.1 h)).symm⟩

/-- The receive cells of a slot count nothing late, and open no window before the piers are given out. -/
theorem State.capGuard_lateView (s : State) (b gmax fine : Nat) : (s.capGuard b gmax fine).1.lateView = s.lateView := by
  rw [State.capGuard_eq]
  exact (State.guardWithin_spec ..).1

theorem State.guardOf_lateView (s : State) (b : Nat) (a : ActCell) (st : Bool) : (s.guardOf b a st).1.lateView = s.lateView := by
  have hf := s.fetchCtx_lateView a.cell.nidx
  unfold State.guardOf
  dsimp only
  split
  · exact State.capGuard_lateView ..
  · split
    · exact State.capGuard_lateView ..
    · split
      · exact State.capGuard_lateView ..
      · split
        next s1 h => rwa [h] at hf
        next s1 c h =>
          rw [h] at hf
          exact (State.capGuard_lateView ..).trans hf

theorem State.rxCells_lateView (s : State) (b : Nat) (l sent : List ActCell) : (s.rxCells b l sent).1.lateView = s.lateView :=
  List.foldlRecOn (motive := fun r : State × List RxMember => r.1.lateView = s.lateView) _ _ rfl
    fun _ hr _ _ => (State.guardOf_lateView ..).trans hr

/-- The transmissions chosen, none of them made. -/
def State.sentLate (s : State) (b : Nat) : State :=
  (s.resolveTx b).2.2.foldl (fun s e => s.sendLate b e) (s.resolveTx b).1

/-- The state of a late resolution before it is settled: nothing opens, and what was to be sent is late. -/
def State.lateResolved (s : State) (b : Nat) : State :=
  let r := (s.sentLate b).rxCells b (s.resolveTx b).2.1 ((s.resolveTx b).2.2.map Prod.fst)
  r.1.bumpBy (Reg.SCH_CNT b 1) 31 r.2.length

theorem State.lateResolved_lateView (s : State) (b : Nat) : (s.lateResolved b).lateView = (s.sentLate b).lateView :=
  (State.bumpBy_lateView (timeLate_ne_schCnt _ _)).trans (State.rxCells_lateView ..)

theorem State.workItemLate_resolution (s : State) (i : U64) (b : Nat) :
    s.workItemLate i (.resolution b) = s.resolutionLate i b := rfl

theorem State.resolutionLate_eq {s u : State} {i : U64} {b : Nat} (hu : u = s.airAt i) (hun : u.unresolved b = true)
    (hdue : u.edgeNs + 100000 ≤ u.now) : s.resolutionLate i b = (u.lateResolved b).settleAir := by
  unfold State.resolutionLate
  rw [← hu]
  dsimp only
  rw [if_neg (by simp [hun, hdue])]
  rfl

/-! ## A slot that resolves -/

/-- The parts that the choice of transmissions and the claims change, but for the slot noted as resolved. -/
def resolvedParts : List Part := [.cip, .ctxs, .evr, .free, .hif, .outbox, .que, .regs, .rf, .spanc, .tbl, .tol]

theorem State.resolveTx_keeps_noted (s : State) (b : Nat) : Keeps resolvedParts (s.noteResolved b) (s.resolveTx b).1 := by
  have hn : Keeps resolvedParts (s.noteResolved b) (s.slotNoted b) := State.bumpBy_keeps (.of rfl) (Keeps.refl _)
  have hc : Keeps resolvedParts (s.noteResolved b) (s.txChoice b).1 := by
    unfold State.txChoice
    split
    · exact State.candidates_keeps (.of rfl) hn
    · exact hn
  rw [State.resolveTx_eq]
  exact State.bumpBy_keeps (.of rfl) (State.selectTwo_keeps (.of rfl) hc)

theorem State.lateResolved_keeps_noted (s : State) (b : Nat) : Keeps resolvedParts (s.noteResolved b) (s.lateResolved b) :=
  State.bumpBy_keeps (.of rfl) (State.rxCells_keeps (.of rfl)
    (Keeps.foldl (fun _ _ h => State.sendLate_keeps (.of rfl) h) (s.resolveTx_keeps_noted b)))

/-- The claims of the transmissions chosen, in their order, and those that wait for an acknowledgement. -/
def State.claimAll (s : State) (b : Nat) : State × List Claim :=
  (s.resolveTx b).2.2.foldl (fun (acc : State × List Claim) e =>
    match acc.1.claimFor b e.1 e.2 with
    | (s', some c) => (s', acc.2 ++ [c])
    | (s', none) => (s', acc.2)) ((s.resolveTx b).1.bumpBy (Reg.SCH_CNT b 2) 31 (s.resolveTx b).2.2.length, [])

/-- The state of a resolution before the MAC's jobs and the air are settled. -/
def State.slotResolved (s : State) (b : Nat) : State :=
  (s.claimAll b).1.resolveRx b (s.resolveTx b).2.1 ((s.resolveTx b).2.2.map Prod.fst) (s.claimAll b).2
    (s.resolveTx b).2.2.length

theorem State.cellResolution_eq {s u : State} {i : U64} {b : Nat} (hu : u = s.airAt i) (hun : u.unresolved b = true)
    (hdue : u.edgeNs + 20000 ≤ u.now) : s.cellResolution i b = (u.slotResolved b).flushMac.settleAir := by
  unfold State.cellResolution
  rw [← hu]
  dsimp only
  rw [if_neg (by simp [hun, hdue])]
  rfl

theorem State.claimAll_keeps_noted (s : State) (b : Nat) : Keeps resolvedParts (s.noteResolved b) (s.claimAll b).1 := by
  refine Keeps.foldlFst (fun r e hr => ?_) (State.bumpBy_keeps (.of rfl) (s.resolveTx_keeps_noted b))
  split
  next he => exact Keeps.ofFst he (State.claimFor_keeps (.of rfl) hr)
  next he => exact Keeps.ofFst he (State.claimFor_keeps (.of rfl) hr)

/-- The receive cells and waits of a slot in their groups, those past the 64th unopened (R189). -/
def State.rxGroups (s : State) (b : Nat) (l sent : List ActCell) (waits : List Claim) : State × List RxGroup :=
  let r := s.rxCells b l sent
  let all := (r.2 ++ (waits.filter fun c => (r.1.claim c.id).isSome).map fun c => r.1.waitMember b c).foldl
    (fun m x => memberInsert x m) []
  (r.1.unopened b (all.drop 64), ((all.take 64).foldl groupAdd []).foldl (fun m g => groupInsert g m) [])

/-- The windows given to the piers of a band, and their number. -/
def State.rxOpened (s : State) (b : Nat) (l sent : List ActCell) (waits : List Claim) : State × Nat × Nat :=
  (s.rxGroups b l sent waits).1.assignPiers b (s.rxGroups b l sent waits).2

theorem State.resolveRx_eq (s : State) (b : Nat) (l sent : List ActCell) (waits : List Claim) (tx : Nat) :
    s.resolveRx b l sent waits tx = (((s.rxOpened b l sent waits).1.bumpBy (Reg.SCH_CNT b 0) 31
      (s.rxOpened b l sent waits).2.1).setReg (Reg.SCH_LAST b) (fld (s.rxOpened b l sent waits).2.1 16 |||
        fld (s.rxOpened b l sent waits).2.2 8 ||| fld tx 0)) := rfl

theorem State.rxOpened_keeps {W : List Part} {z s : State} {b : Nat} {l sent : List ActCell} {waits : List Claim}
    (hw : Within resolvedParts W) (h : Keeps W z s) : Keeps W z (s.rxOpened b l sent waits).1 :=
  State.assignPiers_keeps (hw.mono rfl) (State.unopened_keeps (hw.mono rfl) (State.rxCells_keeps (hw.mono rfl) h))

/-- SCH_LAST shows the windows opened, the piers given, and the transmissions (R199). -/
theorem State.resolveRx_last {s : State} (htidy : s.tidy) (b : Nat) (l sent : List ActCell) (waits : List Claim) (tx : Nat) :
    (s.resolveRx b l sent waits tx).reg (Reg.SCH_LAST b) = fld (s.rxOpened b l sent waits).2.1 16 |||
      fld (s.rxOpened b l sent waits).2.2 8 ||| fld tx 0 := by
  have hk : Keeps resolvedParts s (s.rxOpened b l sent waits).1 := State.rxOpened_keeps (.of rfl) (Keeps.refl s)
  rw [State.resolveRx_eq]
  exact (State.bumpBy_keeps (W := resolvedParts) (.of rfl) hk).tidy htidy |>.reg_setReg _ _

/-! ## A single receive cell -/

/-- The state from which the receive cells of a slot with nothing to send resolve: the slot noted, its counters as they
were. -/
def State.slotQuiet (s : State) (b : Nat) : State :=
  ((s.slotNoted b).bumpBy (Reg.SCH_CNT b 3) 31 0).bumpBy (Reg.SCH_CNT b 2) 31 0

theorem State.slotResolved_of_rx {s : State} {b : Nat} {a : ActCell} (ha : s.activeCells b = ([a], 0))
    (htx : a.cell.tx = false) : s.slotResolved b = (s.slotQuiet b).resolveRx b [a] [] [] 0 := by
  have hchoice : s.txChoice b = (s.slotNoted b, []) := by
    unfold State.txChoice
    rw [ha]
    split
    · simp [State.candidates, htx]
    · rfl
  have hres : s.resolveTx b = ((s.slotNoted b).bumpBy (Reg.SCH_CNT b 3) 31 0, [a], []) := by
    rw [State.resolveTx_eq, State.txChosen, hchoice, ha]
    rfl
  rw [State.slotResolved, State.claimAll, hres]
  rfl

theorem State.rxGroups_one {s : State} {b : Nat} {a : ActCell} (htx : a.cell.tx = false) (hrx : a.cell.rx = true)
    (hin : s.inStates [.active, .standby] = true) : s.rxGroups b [a] [] [] = ((s.rxMember b a false).1,
      [((s.rxMember b a false).2.rank, (s.rxMember b a false).2.channel, [(s.rxMember b a false).2])]) := by
  have hcells : s.rxCells b [a] [] = ((s.rxMember b a false).1, [(s.rxMember b a false).2]) := by
    simp [State.rxCells, htx, hrx, hin]
  rw [State.rxGroups, hcells]
  rfl

theorem State.assignPiers_one {s : State} {b p : Nat} {rest : List Nat} {g : RxGroup}
    (hp : ((s.primaries b).filter fun p => !(s.pier p).receiving) = p :: rest) (hg : g.2.2.length = 1) :
    s.assignPiers b [g] = (s.setPier p { (s.pier p).idle with window := some (groupWindow g.2.1 s.edgeNs g.2.2) }, 1, 1) := by
  unfold State.assignPiers
  rw [hp]
  simp [hg]

/-- The window of one receive cell (R189, R190). -/
theorem groupWindow_one (ch at_ : Nat) (m : RxMember) : groupWindow ch at_ [m] =
    { channel := ch, openAt := m.openAt, closeAt := m.closeAt, tmpl := m.tmpl, slotStart := at_, parent := m.parent,
      beacon := m.beacon, txCell := m.txCell, parts := [(m.wait, m.openAt, m.closeAt)] } := by
  simp [groupWindow, Window.span]

theorem State.slotQuiet_keeps (s : State) (b : Nat) : Keeps [.regs] (s.noteResolved b) (s.slotQuiet b) :=
  State.bumpBy_keeps (.of rfl) (State.bumpBy_keeps (.of rfl) (State.bumpBy_keeps (.of rfl) (Keeps.refl _)))

theorem State.slotQuiet_guard (s : State) (b hi lo : Nat) :
    (s.slotQuiet b).regFld (Reg.SCH_GUARD b) hi lo = s.regFld (Reg.SCH_GUARD b) hi lo := by
  have hne (m : Nat) : Reg.SCH_GUARD b ≠ Reg.SCH_CNT b m := by
    simp only [Reg.SCH_GUARD, Reg.SCH_CNT]
    omega
  rw [State.regFld, State.slotQuiet, State.bumpBy_reg (hne 2), State.bumpBy_reg (hne 3), State.slotNoted,
    State.bumpBy_reg (hne 9)]
  rfl

theorem State.capGuard_guard (s : State) (b gmax fine : Nat) :
    (s.capGuard b gmax fine).2.1 = min (ceilDiv (fine + s.extraGuardFine) guardUnit) gmax := by
  rw [State.capGuard_eq]
  exact (State.guardWithin_spec ..).2

theorem State.slotQuiet_guardOf (s : State) (b : Nat) (a : ActCell) (st : Bool) :
    ((s.slotQuiet b).guardOf b a st).2.1 = (s.guardOf b a st).2.1 := by
  have hcap (gmax fine : Nat) : ((s.slotQuiet b).capGuard b gmax fine).2.1 = (s.capGuard b gmax fine).2.1 := by
    rw [State.capGuard_guard, State.capGuard_guard]
    rfl
  have husable (n : Nat) : (s.slotQuiet b).lineUsable n = s.lineUsable n := rfl
  have hline (n : Nat) : (s.slotQuiet b).line n = s.line n := rfl
  have htmpl : (s.slotQuiet b).cellTemplate a = s.cellTemplate a := rfl
  have htick : (s.slotQuiet b).tick = s.tick := rfl
  have htp : (s.slotQuiet b).tp = s.tp := rfl
  unfold State.guardOf State.fetchCtx
  dsimp only
  rw [State.slotQuiet_guard, State.slotQuiet_guard, husable, hline, htmpl]
  by_cases hst : st = true
  · rw [if_pos hst, if_pos hst, hcap]
  · rw [if_neg hst, if_neg hst]
    by_cases hown : a.cell.rxGuard ≠ 0
    · rw [if_pos hown, if_pos hown, hcap]
    · rw [if_neg hown, if_neg hown]
      by_cases hkind : (a.kind != .dedicated) = true
      · rw [if_pos hkind, if_pos hkind, hcap]
      · rw [if_neg hkind, if_neg hkind]
        by_cases hu : s.lineUsable a.cell.nidx = true
        · rw [if_pos hu, if_pos hu]
          dsimp only
          rw [hcap, htick, htp]
        · rw [if_neg hu, if_neg hu]

/-- A receive cell as a member of its group, with its guard in µs. -/
def State.memberWith (s : State) (b : Nat) (a : ActCell) (st : Bool) (g : Nat) : RxMember :=
  let t := s.edgeNs + (s.cellTemplate a).txOffset * 1000
  { rank := a.rank, channel := channelAt s.tp b (s.asn b) a.cell.chOffset, openAt := t - g * 1000, closeAt := t + g * 1000,
    tmpl := s.cellTemplate a, parent := a.kind = .parentRx, beacon := st && a.kind = .beaconTx,
    txCell := st && a.kind != .beaconTx }

theorem State.rxMember_eq (s : State) (b : Nat) (a : ActCell) (st : Bool) :
    s.rxMember b a st = ((s.guardOf b a st).1, s.memberWith b a st (s.guardOf b a st).2.1) := rfl

theorem State.slotQuiet_rxMember (s : State) (b : Nat) (a : ActCell) (st : Bool) :
    ((s.slotQuiet b).rxMember b a st).2 = (s.rxMember b a st).2 := by
  rw [State.rxMember_eq, State.rxMember_eq, State.slotQuiet_guardOf]
  rfl

theorem State.edgeNs_congr {s t : State} (hc : t.clock = s.clock) (ht : t.truss = s.truss) : t.edgeNs = s.edgeNs := by
  rw [State.edgeNs, State.tick_of_clock hc, State.tickNs, State.tp, ht, State.edgeNs, State.tickNs, State.tp]

theorem State.primaries_congr {s t : State} (ht : t.truss = s.truss) (b : Nat) : t.primaries b = s.primaries b := by
  have hrole (p : Nat) : t.pierRole p = s.pierRole p := by
    unfold State.pierRole State.tp
    rw [ht]
  simp only [State.primaries, hrole]

/-- One group, and a pier that is free for it: one window opened, on one pier. -/
theorem State.resolveRx_one {z r : State} {b p : Nat} {l sent : List ActCell} {waits : List Claim} {rest : List Nat}
    {m : RxMember} (htidy : z.tidy) (hg : z.rxGroups b l sent waits = (r, [(m.rank, m.channel, [m])]))
    (hlen : p < r.rf.piers.length) (hp : ((r.primaries b).filter fun p => !(r.pier p).receiving) = p :: rest) :
    (z.resolveRx b l sent waits 0).reg (Reg.SCH_LAST b) = fld 1 16 ||| fld 1 8 ∧
      (z.resolveRx b l sent waits 0).pier p =
        { (r.pier p).idle with window := some (groupWindow m.channel r.edgeNs [m]) } := by
  have hopened : z.rxOpened b l sent waits =
      (r.setPier p { (r.pier p).idle with window := some (groupWindow m.channel r.edgeNs [m]) }, 1, 1) := by
    rw [State.rxOpened, hg]
    exact State.assignPiers_one hp rfl
  refine ⟨?_, ?_⟩
  · rw [State.resolveRx_last htidy, hopened]
    exact BitVec.or_zero
  · rw [State.resolveRx_eq, hopened]
    exact State.pier_setPier_same (s := r) _ hlen

/-- A single receive cell has its window given to the first pier that is free. -/
theorem State.slotResolved_one {s : State} {b p : Nat} {a : ActCell} {rest : List Nat} {m : RxMember} (htidy : s.tidy)
    (ha : s.activeCells b = ([a], 0)) (htx : a.cell.tx = false) (hrx : a.cell.rx = true)
    (hin : s.inStates [.active, .standby] = true) (hlen : p < s.rf.piers.length)
    (hp : ((s.primaries b).filter fun p => !(s.pier p).receiving) = p :: rest) (hm : m = (s.rxMember b a false).2) :
    (s.slotResolved b).reg (Reg.SCH_LAST b) = fld 1 16 ||| fld 1 8 ∧
      (s.slotResolved b).pier p = { (s.pier p).idle with window := some (groupWindow m.channel s.edgeNs [m]) } := by
  have hkn : Keeps [.sch, .rf] s (s.noteResolved b) := State.noteResolved_keeps (.of rfl) (Keeps.refl s)
  have hkq : Keeps [.sch, .rf, .regs] s (s.slotQuiet b) := (hkn.widen (.of rfl)).comp ((s.slotQuiet_keeps b).widen (.of rfl))
  have hkr : Keeps [.evr, .hif, .que, .regs, .ctxs, .outbox, .free] (s.slotQuiet b) ((s.slotQuiet b).rxMember b a false).1 :=
    State.rxMember_keeps (.of rfl) (Keeps.refl _)
  have hgroups := State.rxGroups_one (s := s.slotQuiet b) (b := b) htx hrx
    ((State.inStates_congr (hkq.part .sys rfl) _).trans hin)
  have hquiet : (s.slotQuiet b).rf = (s.noteResolved b).rf := (s.slotQuiet_keeps b).part .rf rfl
  rw [State.slotQuiet_rxMember, ← hm] at hgroups
  rw [State.slotResolved_of_rx ha htx]
  generalize ((s.slotQuiet b).rxMember b a false).1 = r at hkr hgroups
  have hpiers : r.rf.piers = s.rf.piers := by
    rw [show r.rf = (s.slotQuiet b).rf from hkr.part .rf rfl, hquiet]
    rfl
  have hpier (q : Nat) : r.pier q = s.pier q := by rw [State.pier, hpiers, State.pier]
  have htruss : r.truss = s.truss := (hkr.part .truss rfl).trans (hkq.part .truss rfl)
  have hedge : r.edgeNs = s.edgeNs := State.edgeNs_congr ((hkr.clock rfl).trans (hkq.clock rfl)) htruss
  have h := State.resolveRx_one (p := p) (rest := rest) (hkq.tidy htidy) hgroups (hpiers ▸ hlen)
    (by simpa only [State.primaries_congr htruss, hpier] using hp)
  rwa [hpier, hedge] at h

/-! ## The slot noted as resolved -/

theorem State.drained_keeps_rf (s : State) : Keeps [.rf] s s.drained := State.drained_keeps (.of rfl) (Keeps.refl s)

theorem State.airAt_tick (s : State) (i : U64) : (s.airAt i).tick = s.tick :=
  (State.tick_of_clock ((s.at_ i).drained_keeps_rf.clock rfl)).trans (State.at__tick ..)

/-- The slot of a band is resolved once: what follows its note leaves it, and the clock. -/
theorem State.done_of_noted {u v t : State} {b : Nat} (hv : Keeps resolvedParts (u.noteResolved b) v) (hs : t.sch = v.sch) :
    (if b = 0 then t.sch.doneA else t.sch.doneB) = some u.tick := by
  rw [hs, show v.sch = (u.noteResolved b).sch from hv.part .sch rfl]
  unfold State.noteResolved
  dsimp only [State.setRf_sch]
  split <;> rfl

theorem State.clock_of_noted {u v : State} {b : Nat} (hv : Keeps resolvedParts (u.noteResolved b) v) : v.clock = u.clock :=
  (hv.clock rfl).trans ((State.noteResolved_keeps (W := [.sch, .rf]) (.of rfl) (Keeps.refl u)).clock rfl)

theorem State.settleAir_sch (s : State) : s.settleAir.sch = s.sch :=
  (State.settleAir_keeps (W := [.time, .evr, .hif, .que, .cip, .rf, .red, .regs, .ctxs, .outbox, .free]) (.of rfl)
    (Keeps.refl s)).part .sch rfl

theorem State.flushMac_keeps_part (s : State) : Keeps [.evr, .hif, .spanc, .tbl, .que, .tol, .key, .cip, .rf, .regs, .ctxs,
    .outbox, .free] s s.flushMac := State.flushMac_keeps (.of rfl) (Keeps.refl s)

theorem State.slotResolved_keeps_noted (s : State) (b : Nat) :
    Keeps resolvedParts (s.noteResolved b) (s.slotResolved b) := by
  rw [State.slotResolved, State.resolveRx_eq]
  exact State.setReg_keeps (.of rfl) (State.bumpBy_keeps (.of rfl) (State.rxOpened_keeps (.of rfl) (s.claimAll_keeps_noted b)))

/-- What a late resolution counts, and the piers it leaves (R36). -/
theorem State.lateResolved_spec {u : State} (htidy : u.tidy) (hin : u.inStates [.maintenance, .alarm] = false) (b : Nat) :
    (u.lateResolved b).rf.piers = u.rf.piers ∧ (u.lateResolved b).regFld (Reg.TIME_LATE 1) 15 0 =
      min 65535 (u.regFld (Reg.TIME_LATE 1) 15 0 + (u.resolveTx b).2.2.length) := by
  have hkn : Keeps [.sch, .rf] u (u.noteResolved b) := State.noteResolved_keeps (.of rfl) (Keeps.refl u)
  have hkt : Keeps (.sch :: resolvedParts) u (u.resolveTx b).1 :=
    (hkn.widen (.of rfl)).comp ((u.resolveTx_keeps_noted b).widen (.of rfl))
  have hview := u.resolveTx_lateView b
  obtain ⟨hp, hr⟩ := State.sendLate_fold b (u.resolveTx b).2.2 (hkt.tidy htidy)
    ((State.inStates_congr (hkt.part .sys rfl) _).trans hin)
  have hlast := u.lateResolved_lateView b
  have hbase : (u.resolveTx b).1.reg (Reg.TIME_LATE 1) = u.reg (Reg.TIME_LATE 1) := congrArg Prod.snd hview
  refine ⟨(congrArg Prod.fst hlast).trans (hp.trans (congrArg Prod.fst hview)), ?_⟩
  rw [State.regFld, show (u.lateResolved b).reg (Reg.TIME_LATE 1) = (u.sentLate b).reg (Reg.TIME_LATE 1) from
    congrArg Prod.snd hlast]
  refine hr.trans ?_
  rw [State.regFld, hbase, ← State.regFld]

/-- Settles O19: the cells that resolve in time and late, the submission that is late, and the schedule read. -/
theorem cellsResolveAndRead : Obligations.cellsResolveAndRead := by
  refine ⟨⟨fun s u i b htidy hu hun hdue => ?_, fun s u i b p a rest m htidy hu hun hdue ha htx hrx hin hlen hp hm => ?_,
    fun s u i b htidy hu hun hdue hin => ?_, fun s i id due j d hj hd hdue ho => ?_⟩,
    fun s d hb hst hz h8 hp hal hw hl => ?_, fun s b htidy => ?_, fun s g htidy hg => ?_⟩
  · have hku := State.airAt_of_eq hu
    have hkv := u.slotResolved_keeps_noted b
    have hfl := (u.slotResolved b).flushMac_keeps_part
    have hclock : (u.slotResolved b).flushMac.settleAir.clock = u.clock :=
      (State.settleAir_clock _).trans ((hfl.clock rfl).trans (State.clock_of_noted hkv))
    have htick : u.tick = s.tick := by rw [hu, State.airAt_tick]
    have hkc : Keeps (.time :: .sch :: resolvedParts) s (u.claimAll b).1 :=
      (hku.widen (.of rfl)).comp ((State.noteResolved_keeps (.of rfl) (Keeps.refl u)).comp
        ((u.claimAll_keeps_noted b).widen (.of rfl)))
    have honly := (State.cellResolution_keeps (t := i) (b := b) (W := [.time, .cip, .ctxs, .evr, .free, .hif, .key, .outbox,
      .que, .red, .regs, .rf, .sch, .spanc, .tbl, .tol]) (.of rfl) (Keeps.refl s)).onlyIn
    rw [State.cellResolution_eq hu hun hdue] at honly
    exact ⟨_, u.slotResolved b, next_of (State.cellResolution_eq hu hun hdue), rfl,
      htick ▸ State.done_of_noted hkv ((State.settleAir_sch _).trans (hfl.part .sch rfl)), u.resolveTx_length b,
      ⟨_, _, State.resolveRx_last (hkc.tidy htidy) ..⟩, (State.tick_of_clock hclock).trans htick,
      State.now_of_clock hclock, honly⟩
  · have hku := State.airAt_of_eq hu
    obtain ⟨hreg, hpier⟩ := State.slotResolved_one (hku.tidy htidy) ha htx hrx hin hlen hp hm
    refine ⟨_, u.slotResolved b, next_of (State.cellResolution_eq hu hun hdue), rfl, hreg, ?_⟩
    rw [hpier, groupWindow_one]
    refine ⟨_, rfl, rfl, ?_, rfl, rfl, ?_, rfl⟩
    · rw [hm]
      rfl
    · rw [hm]
      rfl
  · have hku := State.airAt_of_eq hu
    have hkv := u.lateResolved_keeps_noted b
    have htick : u.tick = s.tick := by rw [hu, State.airAt_tick]
    have hclock : (u.lateResolved b).settleAir.clock = u.clock := (State.settleAir_clock _).trans (State.clock_of_noted hkv)
    obtain ⟨hpiers, hlate⟩ := State.lateResolved_spec (hku.tidy htidy) hin b
    have honly := (State.workItemLate_keeps (t := i) (x := .resolution b) (W := [.time, .cip, .ctxs, .evr, .free, .hif, .key,
      .mem, .outbox, .que, .red, .regs, .rf, .sch, .spanc, .tbl, .tol]) (.of rfl) (Keeps.refl s)).onlyIn
    have hrun : s.workItemLate i (.resolution b) = (u.lateResolved b).settleAir :=
      (State.workItemLate_resolution ..).trans (State.resolutionLate_eq hu hun hdue)
    rw [hrun] at honly
    refine ⟨_, u.lateResolved b, next_of hrun, rfl, htick ▸ State.done_of_noted hkv (State.settleAir_sch _), hpiers,
      hlate.trans ?_, (State.tick_of_clock hclock).trans htick, honly⟩
    rw [State.regFld, State.reg_of_regs (hku.part .regs rfl), ← State.regFld]
  · have hrun : s.workItemLate i (.job id) = _ := State.jobLate_host hj hd hdue ho
    refine ⟨_, next_of hrun, fun k hk => ?_, ?_, (State.endHostJob_late_keeps (.of rfl)
      (State.voidJob_keeps (.of rfl) (State.at__keeps (.of rfl) (Keeps.refl s)))).onlyIn⟩
    · rw [State.endHostJob_cip] at hk
      simpa using (List.mem_filter.1 hk).2
    · obtain ⟨c, hc, htag, hstat⟩ := State.endHostJob_adds (s := (s.at_ i).voidJob id) ho .late [] [] ((s.at_ i).unitOf id)
      exact ⟨c, hc.trans (congrArg (fun h : HifSt => h.held ++ [c]) (State.at__hif s i)), htag, hstat⟩
  · refine ⟨_, next_of (State.schGlRead_writes hb hst hz h8 hp hal hw hl), ?_, ?_,
      (State.complete_keeps (.of rfl) (State.writeWin_keeps (.of rfl) (Keeps.refl s))).onlyIn⟩
    · exact (State.complete_keeps (W := [.hif]) (.of rfl) (Keeps.refl _)).part .mem rfl
    · rw [State.complete_held, State.writeWin, State.writeMem_hif]
  · obtain ⟨hlo, hhi⟩ := latched_reads htidy (lo := Reg.SCH_ASN_LO b) (hi := Reg.SCH_ASN_HI b)
      (by simp [Reg.SCH_ASN_LO, Reg.SCH_ASN_HI]) (pw (s.asn b)) (pw (s.asn b / 2 ^ 32))
    exact ⟨_, rfl, hlo, hhi, (State.schAsnRead_keeps (.of rfl) (Keeps.refl s)).onlyIn⟩
  · have hrun : s.schSfStartRead =
        (s.setReg Reg.SCH_SF_START_LO (pw g.start)).setReg Reg.SCH_SF_START_HI (pw (g.start / 2 ^ 32)) := by
      rw [State.schSfStartRead, hg]
    obtain ⟨hlo, hhi⟩ := latched_reads htidy (lo := Reg.SCH_SF_START_LO) (hi := Reg.SCH_SF_START_HI) (by decide)
      (pw g.start) (pw (g.start / 2 ^ 32))
    exact ⟨_, next_of hrun, hlo, hhi, (State.setReg_keeps (.of rfl) (State.setReg_keeps (.of rfl) (Keeps.refl s))).onlyIn⟩

end Sys2Proof.Machine
